-- ==== Sys2Proof/Word.lean ====
section
/-! DEFINITION. Words of the engine: a byte, a 32-bit register word, a 64-bit word, and a run of bytes. -/

namespace Sys2Proof

/-- One byte of memory, of a descriptor, of a packet. -/
abbrev Byte := BitVec 8

/-- One register of the control window (R14). -/
abbrev Word := BitVec 32

/-- A 64-bit quantity: an address, the timebase, a seed. -/
abbrev DWord := BitVec 64

/-- Bytes at rising addresses, the first at the lowest. -/
abbrev Bytes := List Byte

end Sys2Proof
end

