-- ==== Sys2Proof/Syntax.lean ====
section
/-! DEFINITION. The commands the engine takes: one constructor of Instr for each row of the opcode
table, and the operands they carry. A row that is a register write carries the whole word written;
a row that is an arriving packet carries the packet; a row that is a descriptor's opcode carries the
descriptor less its opcode byte, which the row itself names. -/

namespace Sys2Proof

/-- Where the engine took a descriptor from (R233): a ring, or a slot of the pre-posted store. -/
inductive Source where
  | ring (r : BitVec 12)
  | slot (p : BitVec 17)
  deriving DecidableEq, Repr

/-- A descriptor (R229): the fields of the common header but OPCODE, and operand bytes 0x20-0x3F. -/
structure Desc where
  src        : Source
  prio       : BitVec 4
  fencePrev  : Bool
  irq        : Bool
  errOnly    : Bool
  group      : BitVec 12
  channel    : BitVec 16
  cq         : BitVec 12
  seq        : Word
  trigThresh : Word
  trigCtr    : BitVec 16
  doneCtr    : BitVec 16
  trigEn     : Bool
  doneEn     : Bool
  doneAny    : Bool
  tag        : BitVec 16
  ppSlot     : BitVec 17
  ops        : Bytes
  deriving DecidableEq, Repr

/-- A packet (R254): the header's common fields, bytes 0x10-0x1F as four words (their use depends on
the opcode group, R255), the header's reserved bits from the lowest up (R9: ignored, but authenticated, R270), the
payload and the GCM tag (empty when CIPHER is 0). -/
structure Packet where
  version : BitVec 4
  kp      : Bool
  vl      : BitVec 3
  opcode  : Byte
  dst     : BitVec 20
  src     : BitVec 20
  stream  : Bool
  conn    : BitVec 15
  psn     : BitVec 24
  first   : Bool
  last    : Bool
  ce      : Bool
  poison  : Bool
  ctrEn   : Bool
  g0      : Word
  g1      : Word
  g2      : Word
  g3      : Word
  rsv     : BitVec 14
  payload : Bytes
  tag     : Bytes
  deriving DecidableEq, Repr

/-- One RS(544,514) codeword as the port decoded it (R398): the corrected symbols on each lane, or
more errors than the code corrects. -/
structure Codeword where
  corrected     : List (BitVec 3 × Nat)
  uncorrectable : Bool
  deriving DecidableEq, Repr

/-- A frame as it comes from a link (R282, R283): its link words in order (SOF, packet words, EOF, 16
bytes each), whether it was cut off before its EOF, and the codewords that carried it. -/
structure RxFrame where
  words : List Bytes
  cut   : Bool
  fec   : List Codeword
  deriving DecidableEq, Repr

/-- The fields of a CAP word (R282). -/
structure CapWord where
  lvlMin : BitVec 4
  lvlMax : BitVec 4
  rates  : Byte
  split  : Bool
  hold   : Bool
  ready  : Bool
  good   : Byte
  deriving DecidableEq, Repr

/-- The payload of a HEARTBEAT (R332). -/
structure Heartbeat where
  node        : BitVec 20
  kstn        : BitVec 2
  incarnation : BitVec 16
  hbSeq       : Word
  deriving DecidableEq, Repr

/-- The payload of a DISCOVER packet (R313). -/
structure DiscoverMsg where
  answer      : Bool
  lvlMax      : BitVec 4
  lvlMin      : BitVec 4
  node        : BitVec 20
  incarnation : BitVec 16
  domain      : Word
  reproId     : DWord
  deriving DecidableEq, Repr

/-- What the start-up SRAM self-test found (R358): the array of R27's table that stops the start, if
one failed, and the islands of R345 whose own arrays failed. -/
structure SelfTestReport where
  failedArray   : Option (BitVec 8)
  failedIslands : List (BitVec 7)
  deriving DecidableEq, Repr

/-- What a self-test's hardware found when it ended (R401, R402, R404). -/
structure TestResult where
  pass    : Bool
  array   : BitVec 4
  vector  : BitVec 4
  granule : BitVec 28
  crc     : Word
  deriving DecidableEq, Repr

/-- A read of the window: the word's address, and which of its bytes are asked for (R369). -/
structure ReadAccess where
  addr  : BitVec 24
  bytes : BitVec 4
  deriving DecidableEq, Repr

/-- The commands: one constructor for each row of spec/opcode_table.json, in its order. -/
inductive Instr where
  /-- NOP (R232). Command that completes with OK at dispatch, used to turn one counter's threshold into a raise of another or to place a record. -/
  | nop (d : Desc)
  /-- COMPRESS (R108). Command that selects, quantises and packs span blocks for a stream and writes the new residuals. -/
  | compress (d : Desc)
  /-- STATS (R106). Command that reads gradient and residual once and writes the local amax, VALID, ABS_SUM, histogram records and stat-slot counts. -/
  | stats (d : Desc)
  /-- SELECT (R86). Command that selects the k largest-magnitude entries of a tensor and writes an index-ordered list with its summary. -/
  | select (d : Desc)
  /-- MERGE (R92). Command that merges up to 64 index-sorted lists into one, combining shared indices. -/
  | merge (d : Desc)
  /-- EXPAND (R159). Command that decodes a span into a plain tensor, writing poisoned zeros over rejected blocks. -/
  | expand (d : Desc)
  /-- ACT_SAVE (R163). Command that packs a tensor as dense blocks in span or operand-port form. -/
  | actSave (d : Desc)
  /-- ACT_LOAD (R159). Command that returns saved stored-mode activations bit for bit from a span. -/
  | actLoad (d : Desc)
  /-- WRITE (R263). Command that sends local data to a remote region and completes when the last byte reaches the port. -/
  | write (d : Desc)
  /-- READ (R263). Command that reads a remote region into local memory and completes when every response is placed. -/
  | read (d : Desc)
  /-- SEND (R263). Command that sends a message to be matched by a RELAY, or as CTRL to the peer's shared receive queue. -/
  | send (d : Desc)
  /-- ACCUM (R177). Command for dense, sign, vote or stored spans, acting in the send role or, by its ROLE bit, opening a receive instance. -/
  | accum (d : Desc)
  /-- ACCUM_SPARSE (R177). Command for sparse spans, acting in the send role or, by its ROLE bit, opening a receive instance. -/
  | accumSparse (d : Desc)
  /-- INSTANCE_OPEN (R172). A waiting receive instance opens when LAST_SEQ of its channel reaches SEQ − 1, checks its context, forms S_ref and takes held contributions. -/
  | instanceOpen (group : BitVec 12) (channel : BitVec 16) (seq : Word)
  /-- FLUSH (R264). Command that sends a FLUSH_REQ and completes when earlier writes are visible at the far end. -/
  | flush (d : Desc)
  /-- ATOMIC_MAX (R207). Command that sets each target cell to the max of the cell and its operand, locally or at a remote region. -/
  | atomicMax (d : Desc)
  /-- RESCALE (R210). Command (FUNC 0) that rescales int32 values to a new integer or float format. -/
  | rescale (d : Desc)
  /-- DOT (R212). Command (FUNC 1 of RESCALE) that writes the dot product, sums and sums of squares of two tensors. -/
  | dot (d : Desc)
  /-- UPDATE (R221). Command that applies one optimiser step to a parameter tensor, in a single pass or in the first or second of two. -/
  | update (d : Desc)
  /-- RESIDUAL_RETURN (R190). Command that returns retained or held-back blocks to the stream's residual, or discards them. -/
  | residualReturn (d : Desc)
  /-- SNAPSHOT (R320). Command that begins, continues or commits a snapshot into the slots of named Caisson entries. -/
  | snapshot (d : Desc)
  /-- RESTORE (R328). Command that reads a Caisson, restores segments, seed and counters, fetches the log and writes a report. -/
  | restore (d : Desc)
  /-- LOG_APPEND (R323). Command that appends one span to the redo log of each named Caisson entry and flushes it. -/
  | logAppend (d : Desc)
  /-- SNAPSHOT_EXPORT (R330). Command that copies a committed snapshot into a Caisson reached over another connection. -/
  | snapshotExport (d : Desc)
  /-- BARRIER (R307). Command that takes part in the tree barrier of a group and completes at the release time. -/
  | barrier (d : Desc)
  /-- TABLE_INSTALL (R149). Command that loads, sets, unsets or retires an exponent table slot, sending TABLE_ACK for epoch actions. -/
  | tableInstall (d : Desc)
  /-- FENCE (R235). Command that completes once the earlier or outstanding descriptors of its scope have completed. -/
  | fence (d : Desc)
  /-- COUNTER_ADD (R240). Command that adds to or sets a local trigger counter, or adds to a remote one. -/
  | counterAdd (d : Desc)
  /-- RELAY (R195). Command that places a matching SEND message locally and optionally forwards it cut-through. -/
  | relay (d : Desc)
  /-- DESCRIPTOR_READ (R230). The engine reads a descriptor from a ring, checks its header and either stores it pre-posted or queues it for dispatch. -/
  | descriptorRead (ring : BitVec 12)
  /-- QMGR_RING_DB (R227). Doorbell write that accepts a new producer index for a ring. -/
  | qmgrRingDb (v : Word)
  /-- QMGR_CQ_DB (R242). Write that reports a new consumer index for a completion queue, freeing credits. -/
  | qmgrCqDb (v : Word)
  /-- QMGR_SPAN_SHARE (R247). Write that repartitions the span buffers when its conditions hold, and otherwise records BOUNDS. -/
  | qmgrSpanShare (v : Word)
  /-- QMGR_PP_CANCEL (R239). Write that withdraws a waiting pre-posted descriptor and reports removed, empty or already enabled. -/
  | qmgrPpCancel (v : Word)
  /-- RETAINED_ROOM (R29). A send held for room in the retained share proceeds once an owner receipt has freed space. -/
  | retainedRoom
  /-- STAGING_ROOM (R267). New packets held for room in the outbound staging share are sent once acknowledgements free space. -/
  | stagingRoom (conn : BitVec 15)
  /-- WRITE_PACKET (R259). An arriving WRITE packet is checked, placed by offset and may complete its message. -/
  | writePacket (p : Packet)
  /-- READ_REQ (R259). An arriving read request is checked and answered with READ_RESP packets. -/
  | readReq (p : Packet)
  /-- READ_RESP (R263). An arriving read response is placed and may complete its READ. -/
  | readResp (p : Packet)
  /-- SEND_PACKET (R195). An arriving SEND packet is placed through its matching RELAY, or is held until a RELAY matches it. -/
  | sendPacket (p : Packet)
  /-- CONTRIB (R181). An arriving contribution is placed in the inbound share, checked and summed when whole, or held or discarded. -/
  | contrib (p : Packet)
  /-- ATOMIC_MAX_REQ (R207). An arriving remote max request is checked, applied to its cells and answered with RESP. -/
  | atomicMaxReq (p : Packet)
  /-- COUNTER_ADD_REQ (R240). An arriving remote counter add is checked against the counter window, applied and answered. -/
  | counterAddReq (p : Packet)
  /-- FLUSH_REQ (R264). An arriving flush request is answered with RESP once all earlier writes of the stream are visible. -/
  | flushReq (p : Packet)
  /-- CTRL (R275). An arriving control message is written into the next slot of the connection's shared receive queue. -/
  | ctrl (p : Packet)
  /-- RESP (R260). An arriving answer ends a waiting operation or records a refusal for the next FLUSH. -/
  | resp (p : Packet)
  /-- ACK (R267). An arriving cumulative acknowledgement frees kept packets and may cut the Toll rate on ECE. -/
  | ack (p : Packet)
  /-- NAK (R267). An arriving negative acknowledgement triggers a go-back-N resend, or an RNR wait. -/
  | nak (p : Packet)
  /-- HELLO (R251). An arriving handshake agrees the level and brings the connection UP, or ends it with FORMAT_VERSION. -/
  | hello (p : Packet)
  /-- RECEIPT (R188). Notice at a sender that frees the retained blocks for that owner. -/
  | receipt (p : Packet)
  /-- LATE (R188). Notice at a sender that applies its late policy to every retained block for that owner. -/
  | late (p : Packet)
  /-- REJECT_SPAN (R188). Notice at a sender that applies its policy to every retained block of a rejected contribution. -/
  | rejectSpan (p : Packet)
  /-- REJECT_BLOCK (R188). Notice at a sender that applies its policy to the one block named. -/
  | rejectBlock (p : Packet)
  /-- SKIP (R185). Notice at an owner that a rank contributes nothing to the instance. -/
  | skip (p : Packet)
  /-- TABLE_ACK (R151). Notice counted by firmware at the table root, which sends TABLE_EPOCH or records a mismatch once every member has acknowledged. -/
  | tableAck (p : Packet)
  /-- TABLE_EPOCH (R152). Notice that copies PEND into DEF and advances the group's table epoch, or is ignored as a mismatch. -/
  | tableEpoch (p : Packet)
  /-- RETX_TIMER (R267). Retransmit timer expiry that resends from the oldest unacknowledged packet, or ends the connection after seven retries. -/
  | retxTimer (conn : BitVec 15) (control : Bool)
  /-- REORDER_TIMER (R267). Gap timer expiry that sends a NAK for the first missing ESN. -/
  | reorderTimer (conn : BitVec 15) (control : Bool)
  /-- ACK_DELAY (R267). Expiry of the longest acknowledgement delay, which sends an ACK. -/
  | ackDelay (conn : BitVec 15) (control : Bool)
  /-- RNR_TIMER (R267). End of the wait after an RNR NAK, which resends without counting a retry. -/
  | rnrTimer (conn : BitVec 15) (control : Bool)
  /-- HELLO_PERIOD (R251). Retransmit-timer period at which a connection in HELLO sends HELLO again. -/
  | helloPeriod (conn : BitVec 15)
  /-- TOLL_PERIOD (R269). End of a Toll increase period, which raises unmarked connections' rates and clears MARKED. -/
  | tollPeriod
  /-- REKEY_DUE (R273). PHASE_CNT reaches 2^30, setting REKEY_DUE, or 2^31, stopping new sends until a key switch. -/
  | rekeyDue (conn : BitVec 15)
  /-- CONN_ENABLE (R251). Window write of ENABLE = 1 to a connection context, refused on its checks or moving it to HELLO. -/
  | connEnable (conn : BitVec 15) (v : Word)
  /-- CONN_DISABLE (R252). Window write that clears ENABLE, discarding the stream state, ending descriptors and erasing keys. -/
  | connDisable (conn : BitVec 15) (v : Word)
  /-- REGION_REGISTER (R257). Window write of word 0 that commits a staged memory region entry when its conditions hold. -/
  | regionRegister (region : BitVec 16) (v : Word)
  /-- RMA_REVOKE (R258). Write that starts revoking a VALID region at its revoke point, or sets NOMATCH. -/
  | rmaRevoke (v : Word)
  /-- REVOKE_DONE (R258). INFLIGHT of a revoking region reaches zero and the region becomes REVOKED. -/
  | revokeDone (region : BitVec 16)
  /-- RMA_SRQ_DB (R274). Write that posts new slots to a shared receive queue. -/
  | rmaSrqDb (v : Word)
  /-- SEC_KEY_COMMIT (R278). Write of COMMIT that stores the staged key in the selected slot and zeroes the staging words. -/
  | secKeyCommit (v : Word)
  /-- SEC_KEY_ERASE (R278). Write of ERASE that zeroes the selected key slot and marks it absent. -/
  | secKeyErase (v : Word)
  /-- TX_SWITCH (R273). Write that makes the selected connection send under the new key phase from its next packet. -/
  | txSwitch (v : Word)
  /-- FRAME_RECEIVE (R295). A frame received on a link is checked and then delivered locally or forwarded cut-through with new SOF and LCRC. -/
  | frameReceive (h : BitVec 6) (frame : RxFrame)
  /-- PAUSE (R285). A received PAUSE word sets which virtual lanes the transmitter holds from the next frame boundary. -/
  | pause (h : BitVec 6) (xoff : Byte)
  /-- PAUSE_REFRESH (R285). Each microsecond the receiver sends its PAUSE state again. -/
  | pauseRefresh (h : BitVec 6)
  /-- LANE_ID (R289). A received LANE_ID word sets polarity inversion and lane reversal during bring-up. -/
  | laneId (h : BitVec 6) (lane : BitVec 3) (id : Byte) (inverted : Bool)
  /-- CAP (R290). A received CAP word agrees level, rate, split and width, and carries HOLD and READY. -/
  | cap (h : BitVec 6) (w : CapWord)
  /-- IDENT (R291). A received IDENT word is recorded and checked against the cabling map, holding the link on mismatch. -/
  | ident (h : BitVec 6) (port : BitVec 5) (half : Bool) (node : BitVec 20)
  /-- TSYNC_REQ (R304). A received timebase request that the parent answers with TSYNC_T2 and TSYNC_T3. -/
  | tsyncReq (h : BitVec 6) (seq : BitVec 16) (t1 t2 t3 : DWord)
  /-- TSYNC_T2 (R304). A received parent timestamp t2 with the parent's LOCKED state. -/
  | tsyncT2 (h : BitVec 6) (locked : Bool) (seq : BitVec 16) (t2 : DWord)
  /-- TSYNC_T3 (R305). A received timestamp t3 that completes an exchange, so the child computes offset and delay and steps or slews. -/
  | tsyncT3 (h : BitVec 6) (seq : BitVec 16) (t3 t4 : DWord)
  /-- TIME_INTERVAL_EXPIRY (R304). Exchange period at which a child with a parent sends TSYNC_REQ. -/
  | timeIntervalExpiry (t1 : DWord)
  /-- HOLDOVER (R305). Holdover period ends without an exchange, entering holdover or, on the next period, losing lock. -/
  | holdover
  /-- TIME_CTRL_SET (R305). Write that loads the root's timebase from TIME_SET and makes it LOCKED. -/
  | timeCtrlSet (v : Word)
  /-- LINK_SIGNAL_LOSS (R287). Loss of signal or FEC alignment takes the link out of UP and back to DETECT. -/
  | linkSignalLoss (h : BitVec 6)
  /-- TRAIN_TIMEOUT (R287). Bring-up finds no agreement within 20 ms and returns the link to DETECT. -/
  | trainTimeout (h : BitVec 6)
  /-- DETECT_RETRY (R287). 10 ms after a training failure, the link enters DETECT again. -/
  | detectRetry (h : BitVec 6) (openLanes shortLanes : Byte)
  /-- LINK_UP (R287). Equalisation training at the agreed rate completes and the link becomes UP, starting discovery. -/
  | linkUp (h : BitVec 6) (failedLanes : Byte)
  /-- LANE_DEGRADED (R292). At the end of a degrade window, a lane over its corrected-symbol limit is marked and the link retrains without it. -/
  | laneDegraded (port : BitVec 5) (lane : BitVec 3)
  /-- PORT_RETRAIN (R288). Write of RETRAIN0 or RETRAIN1 that sends a half-port to DETECT and clears its lane marks. -/
  | portRetrain (port : BitVec 5) (v : Word)
  /-- PORT_EXP_WRITE (R291). Write of the expected identity, which releases a HELD link when it passes against PORT_SEEN. -/
  | portExpWrite (port : BitVec 5) (half : Bool) (v : Word)
  /-- DECK_CTRL_EN (R298). Write that enables Deck routing, refused with BOUNDS for an invalid dimension-order configuration. -/
  | deckCtrlEn (v : Word)
  /-- ROUTE_ENTRY_WRITE (R380). Window write of a routing entry's high word that commits the entry for frames arriving afterwards. -/
  | routeEntryWrite (dst : BitVec 16) (v : Word)
  /-- HEARTBEAT (R333). A received heartbeat moves the matching watch entry between WAIT, ALIVE and GRACE. -/
  | heartbeat (src : BitVec 20) (hb : Heartbeat)
  /-- HEARTBEAT_PERIOD (R332). Heartbeat period at which the engine sends HEARTBEAT to every watched node. -/
  | heartbeatPeriod
  /-- HEARTBEAT_MISS (R333). A period passes without a heartbeat, raising MISSED and making the entry LOST after MISS periods. -/
  | heartbeatMiss (entry : BitVec 6)
  /-- GRACE_EXPIRY (R333). The Keystone grace period elapses for an entry in GRACE, which becomes LOST. -/
  | graceExpiry (entry : BitVec 6)
  /-- SNAP_WATCH_WRITE (R333). Write of a watch entry; setting VALID enters WAIT. -/
  | snapWatchWrite (entry : BitVec 6) (v : Word)
  /-- DECLARE_NODE_LOST (R334). Firmware declares a node lost, ending its connections, barriers and instances, marking Caisson entries LOST and sending a LOST notice. -/
  | declareNodeLost (node : BitVec 20)
  /-- FIRMWARE (R334). A received FIRMWARE MGMT packet; a LOST notice makes the chip declare the node lost, or fence itself when it is named. -/
  | firmware (src : BitVec 20) (lost : Option (BitVec 20))
  /-- DISCOVER (R313). A received DISCOVER request is answered; an answer to an arming partner checks fault domains and continues arming. -/
  | discover (src : BitVec 20) (m : DiscoverMsg)
  /-- DISCOVER_REPEAT (R314). Every 100 ms while checking, firmware repeats the DISCOVER request to the partner. -/
  | discoverRepeat (entry : Bool)
  /-- CAISSON_ARM (R314). Write of ARM = 1 that puts a Caisson entry into CHECKING. -/
  | caissonArm (entry : Bool) (v : Word)
  /-- CAISSON_DISARM (R314). Write of ARM = 0 that returns the entry to OFF and ends its open snapshot and outstanding descriptors. -/
  | caissonDisarm (entry : Bool) (v : Word)
  /-- BAR_ARRIVE (R307). A received arrival from a child is recorded, or answered again with BAR_RELEASE after release. -/
  | barArrive (src : BitVec 20) (group : BitVec 12) (channel : BitVec 16) (rank : BitVec 16) (seq : Word)
  /-- BAR_RELEASE (R307). A received release from the parent fixes the release time and is forwarded to the children. -/
  | barRelease (src : BitVec 20) (group : BitVec 12) (channel : BitVec 16) (seq : Word) (t : DWord)
  /-- RELEASE_TIME_REACHED (R308). The timebase reaches a barrier's release time and the BARRIER completes. -/
  | releaseTimeReached (group : BitVec 12) (channel : BitVec 16) (seq : Word)
  /-- BAR_RESEND (R307). Resend period at which a waiting rank sends BAR_ARRIVE to its parent again. -/
  | barResend (group : BitVec 12) (channel : BitVec 16) (seq : Word)
  /-- BAR_KEEP_EXPIRY (R307). A barrier record is freed once TIME_BAR_KEEP has passed since release. -/
  | barKeepExpiry (group : BitVec 12) (channel : BitVec 16) (seq : Word)
  /-- DEADLINE (R185). The timebase reaches an instance's DEADLINE and the instance closes, cutting off late contributions. -/
  | deadline (group : BitVec 12) (channel : BitVec 16) (seq : Word)
  /-- SLOT_FREED (R144). The reference count of a RETIRING table slot reaches zero and the slot becomes FREE. -/
  | slotFreed (slot : BitVec 4)
  /-- KEYSTONE_ANNOUNCE (R377). Firmware announces itself, raising INCARNATION and releasing held dispatch and deferred firmware duties. -/
  | keystoneAnnounce
  /-- PING (R378). Mailbox command that echoes ARG0. -/
  | ping (v : Word)
  /-- VERSION (R378). Mailbox command that returns FW_VERSION, SVNs and INCARNATION. -/
  | version (v : Word)
  /-- DECLARE_LOST (R378). Mailbox command by which firmware declares a node lost. -/
  | declareLost (v : Word)
  /-- ROUTE_CLEAR (R378). Mailbox command by which firmware clears the routing entries it wrote for a node. -/
  | routeClear (v : Word)
  /-- TIME_REPARENT (R378). Mailbox command by which firmware names a new timebase parent and restarts the exchange. -/
  | timeReparent (v : Word)
  /-- RNG_CTRL_COMMIT (R61). Write that makes the staged Trestle seed active. -/
  | rngCtrlCommit (v : Word)
  /-- RNG_TEST (R63). Write to RNG_TEST_INDEX_HI that evaluates the Trestle once with the active seed into RNG_TEST_OUT. -/
  | rngTest (v : Word)
  /-- STAT_SEL (R117). Write that copies a stat slot's 260 counters into the read buffer. -/
  | statSel (v : Word)
  /-- STAT_CLEAR_SLOT (R117). Write that clears one stat slot and its SAT bit. -/
  | statClearSlot (v : Word)
  /-- STAT_CLEAR_ALL (R117). Write with ALL set that clears every stat slot. -/
  | statClearAll (v : Word)
  /-- PIER_SEL_CLEAR (R94). Write that clears a Pier's selection counters. -/
  | pierSelClear (pier : BitVec 5) (v : Word)
  /-- PIER_CMP_CLEAR (R120). Write that clears a Pier's compression counters. -/
  | pierCmpClear (pier : BitVec 5) (v : Word)
  /-- PIER_TBL_CLEAR (R167). Write that clears a Pier's coding and decoding counters. -/
  | pierTblClear (pier : BitVec 5) (v : Word)
  /-- TBL_LOG_CLEAR (R166). Write that empties the table event log and clears TBL_LOG_CNT. -/
  | tblLogClear (v : Word)
  /-- QMGR_CLEAR (R246). Write that clears the queue manager counters. -/
  | qmgrClear (v : Word)
  /-- ABUT_CB_FLUSH (R202). Write that writes back every dirty coalescing-buffer line of an Abutment. -/
  | abutCbFlush (abut : BitVec 3) (v : Word)
  /-- ABUT_CLEAR (R225). Write that clears an Abutment's counters. -/
  | abutClear (abut : BitVec 3) (v : Word)
  /-- RMA_CLEAR (R276). Write that clears the transport counters. -/
  | rmaClear (v : Word)
  /-- RMA_LOG_CLEAR (R276). Write that empties the transport log and clears RMA_LOG_CNT. -/
  | rmaLogClear (v : Word)
  /-- PORT_CLEAR (R309). Write that clears a port's link counters. -/
  | portClear (port : BitVec 5) (v : Word)
  /-- PORT_TCLEAR (R399). Write that clears a port's PRBS and FEC statistics. -/
  | portTclear (port : BitVec 5) (v : Word)
  /-- DECK_CLEAR (R310). Write that clears the Deck counters. -/
  | deckClear (v : Word)
  /-- TIME_CLEAR (R311). Write that clears the timebase and barrier counters. -/
  | timeClear (v : Word)
  /-- SNAP_CLEAR (R341). Write that clears the snapshot counters. -/
  | snapClear (v : Word)
  /-- PWR_CLEAR (R365). Write that clears the power counters of every island. -/
  | pwrClear (v : Word)
  /-- PWR_LOG_CLEAR (R365). Write that empties the power log and clears PWR_LOG_CNT. -/
  | pwrLogClear (v : Word)
  /-- TEST_CLEAR (R404). Write that clears the test counters. -/
  | testClear (v : Word)
  /-- TRIP_CLEAR (R354). Write that ends a trip once every sensor has cooled, followed by an engine warm reset. -/
  | tripClear (v : Word)
  /-- WARM_RESET (R362). Write that causes an engine warm reset. -/
  | warmReset (v : Word)
  /-- KSTN_RESET (R362). Write that causes a Keystone-only reset. -/
  | kstnReset (v : Word)
  /-- PWR_ISL_OPP (R351). Write that requests an operating point for the selected island, starting a DVFS transition. -/
  | pwrIslOpp (v : Word)
  /-- DVFS_DONE (R352). An island's DVFS transition completes and any pending request takes effect. -/
  | dvfsDone (island : BitVec 7)
  /-- BOOT_LOAD (R360). Write that sets the image load pointer to 0 and the state to WAIT_IMAGE. -/
  | bootLoad (v : Word)
  /-- BOOT_LOAD_DATA (R360). Write that stores one image word at the load pointer and advances it. -/
  | bootLoadData (v : Word)
  /-- BOOT_GO (R361). Write that starts VERIFY of the loaded image and, on success, starts firmware at ENTRY. -/
  | bootGo (v : Word)
  /-- BOOT_SELFTEST_DONE (R358). The start-up SRAM self-test ends, stopping the start or taking failed islands out of service. -/
  | bootSelftestDone (r : SelfTestReport)
  /-- ISLAND_START (R356). Firmware starts the Pier, port and Abutment islands, which receive table copies. -/
  | islandStart
  /-- SRAM_SELF_TEST (R401). START of KIND 0: a March C− test over the target island's arrays. -/
  | sramSelfTest (v : Word)
  /-- KNOWN_ANSWER_TEST (R402). START of KIND 1: the Pier runs the ROM vectors and compares block CRCs. -/
  | knownAnswerTest (v : Word)
  /-- TEST_ABORT (R403). Write that ends the running test at the next array or vector boundary. -/
  | testAbort (v : Word)
  /-- TEST_DONE (R404). A self-test ends and its result is recorded. -/
  | testDone (r : TestResult)
  /-- LANE_TEST_CONFIG (R394). Write of a lane's pattern, generator, checker or loopback fields, applied only while its link is DISABLED or FAILED. -/
  | laneTestConfig (port : BitVec 5) (lane : BitVec 3) (v : Word)
  /-- INJECT (R395). Write that inverts one bit of a lane's pattern generator output. -/
  | inject (port : BitVec 5) (lane : BitVec 3) (v : Word)
  /-- PRBS_LOCK (R395). After 128 consecutive matching bits the checker locks and starts counting. -/
  | prbsLock (port : BitVec 5) (lane : BitVec 3)
  /-- PRBS_UNLOCK (R395). After 32 mismatches in 1,024 bits the checker unlocks and reseeds. -/
  | prbsUnlock (port : BitVec 5) (lane : BitVec 3) (bits errs : DWord)
  /-- EYE_START (R397). Write that starts one eye scan on the lane. -/
  | eyeStart (port : BitVec 5) (lane : BitVec 3) (v : Word)
  /-- EYE_DONE (R397). An eye scan completes and writes the eye height and width. -/
  | eyeDone (port : BitVec 5) (lane : BitVec 3) (height width : BitVec 16)
  /-- BYPASS (R392). Boundary-scan instruction with no effect on the engine's cells. -/
  | bypass
  /-- SAMPLE_PRELOAD (R392). Boundary-scan instruction that captures the pins while the links keep running. -/
  | samplePreload (pins : List Bool)
  /-- EXTEST (R393). Boundary-scan instruction whose cells drive and capture DC levels and take every link out of UP. -/
  | extest (drive pins : List Bool)
  /-- EXTEST_PULSE (R393). Boundary-scan instruction whose cells drive pulses that the test receivers capture. -/
  | extestPulse (drive pins : List Bool)
  /-- EXTEST_TRAIN (R393). Boundary-scan instruction whose cells drive pulse trains that the test receivers capture. -/
  | extestTrain (drive pins : List Bool)
  /-- LOCK (R373). Write to a page's LOCK register that locks it with a key, unlocks it, or counts a wrong key. -/
  | lock (page : BitVec 12) (v : Word)
  /-- SOFT_RESET (R362). Write of CTRL.SOFT_RESET that causes the reset R362 gives for the page's island. -/
  | softReset (page : BitVec 12) (v : Word)
  /-- ENABLE (R372). Write of a page's CTRL.ENABLE, which stops or resumes its block and starts or stops a port's training. -/
  | enable (page : BitVec 12) (v : Word)
  /-- HOLD (R372). Write of a page's CTRL.HOLD, which holds or releases a Pier, an Abutment or dispatch. -/
  | hold (page : BitVec 12) (v : Word)
  /-- IRQ_STAT_CLEAR (R374). W1C write of a page's IRQ_STAT, which sends a new interrupt message if the interrupt stays asserted. -/
  | irqStatClear (page : BitVec 12) (v : Word)
  /-- IRQ_EN_WRITE (R374). Write of a page's IRQ_EN that may raise or re-send its interrupt. -/
  | irqEnWrite (page : BitVec 12) (v : Word)
  /-- IRQ_SET (R370). Write that sets IRQ_STAT bits for test. -/
  | irqSet (page : BitVec 12) (v : Word)
  /-- TOP_VEC_MASK (R374). Write that masks vectors, or unmasks a pending vector and sends its one message. -/
  | topVecMask (hi : Bool) (v : Word)
  /-- ERR_FIRST_CLEAR (R370). W1C write that clears ERR_FIRST and ERR_FIRST_INFO. -/
  | errFirstClear (page : BitVec 12) (v : Word)
  /-- ERR_CNT_CLEAR (R370). Write of 0 that clears a page's corrected or uncorrected error counter. -/
  | errCntClear (page : BitVec 12) (uncorrected : Bool) (v : Word)
  /-- LO_READ (R15, R369). Read of a _LO register that latches the _HI half for the next read, with the bytes of the word
  that it asks for. -/
  | loRead (r : ReadAccess)
  /-- ACCESS_REFUSED (R369). A narrow write, or a write to a reserved page, is ignored and recorded in TOP_ACCESS_ERR. -/
  | accessRefused (addr : BitVec 24)
  /-- RING_ENABLE (R227). Window write that sets a ring's ENABLE, clearing STOPPED, or is refused for an invalid span-buffer BASE. -/
  | ringEnable (ring : BitVec 12) (v : Word)
  /-- RING_DISABLE (R227). Window write that clears a ring's ENABLE so that it reads no more descriptors. -/
  | ringDisable (ring : BitVec 12) (v : Word)
  /-- CQ_ENABLE (R241). Window write that enables a completion queue and zeroes PI, CI, RESV and SINCE_IRQ. -/
  | cqEnable (cq : BitVec 12) (v : Word)
  /-- COUNTER_VALUE_WRITE (R237). Window write of a trigger counter's VALUE, which may enable pre-posted descriptors. -/
  | counterValueWrite (ctr : BitVec 16) (v : Word)
  /-- POISONED_WINDOW_READ (R381). A window read of a poisoned granule returns the data with poison and counts it as uncorrectable. -/
  | poisonedWindowRead (r : ReadAccess)
  /-- WINDOW_WRITE (R380). Write to any other context-table word, applied one word at a time under its chapter's rules. -/
  | windowWrite (addr : BitVec 24) (v : Word)
  /-- REGISTER_WRITE (R16). Write to a register that has no row of its own, applied under its access type and the page lock. -/
  | registerWrite (addr : BitVec 24) (v : Word)
  /-- COLD_RESET (R343). Power-on, the host reset input or a top-island reset level resets every island and starts from stage 1. -/
  | coldReset
  /-- SUPPLY_LOSS (R343). Removal of VDDH or VDDA loses every island's state. -/
  | supplyLoss (vdda : Bool)
  /-- VDIP (R347). An island supply falls to its warning level and the island clock is stretched. -/
  | vdip (island : BitVec 7) (vddh : Bool) (mv : BitVec 16)
  /-- VDIP_RECOVER (R347). The supply recovers and the island clock returns to its setpoint, logging the dip. -/
  | vdipRecover (island : BitVec 7) (vddh : Bool) (mv : BitVec 16)
  /-- VRESET (R348). An island supply falls to its reset level and the island is reset, with escalation by island kind. -/
  | vreset (island : BitVec 7) (vddh : Bool) (mv : BitVec 16)
  /-- ISLAND_RESET_RELEASE (R348). An island leaves reset after its supply has stood recovered for 100 µs. -/
  | islandResetRelease (island : BitVec 7)
  /-- VDDA_DIP (R349). A VDDA group falls to its warning level and the dip is counted and logged. -/
  | vddaDip (g : BitVec 3) (mv : BitVec 16)
  /-- VDDA_RESET (R349). A VDDA group falls to its reset level and its ports' links leave UP. -/
  | vddaReset (g : BitVec 3) (mv : BitVec 16)
  /-- VDDA_RECOVER (R349). A VDDA group recovers and the training of its ports begins again. -/
  | vddaRecover (g : BitVec 3)
  /-- SHORT (R350). A regulator holds its current limit for 10 µs and its island is switched off and taken out of service. -/
  | short (island : BitVec 7)
  /-- THROTTLE (R353). A sensor reaches THROTTLE and the islands it covers are capped at point 2. -/
  | throttle (sensor : BitVec 4) (temp : BitVec 16)
  /-- THROTTLE_LIFT (R353). Every sensor covering an island reads THROTTLE_CLR or less and the island returns to its requested point. -/
  | throttleLift (sensor : BitVec 4) (temp : BitVec 16)
  /-- TRIP (R354). A sensor reaches TRIP and every island but the top is held in reset, with every lane silenced. -/
  | trip (sensor : BitVec 4) (temp : BitVec 16)
  /-- REFCLK (R355). Loss of the 100 MHz island reference clock holds every island but the top in reset. -/
  | refclk
  /-- REFCLK_RETURN (R355). The island reference clock returns and an engine warm reset follows. -/
  | refclkReturn
  /-- PORT_REFCLK_LOSS (R355). Loss of a 156.25 MHz port reference clock takes the links of its four ports out of UP. -/
  | portRefclkLoss (g : BitVec 3)
  /-- PORT_REFCLK_RETURN (R355). The port reference clock returns and its links retrain. -/
  | portRefclkReturn (g : BitVec 3)
  /-- WDOG (R363). The Keystone watchdog reaches zero with EN set and causes a Keystone-only reset. -/
  | wdog
  /-- WDOG_RESTART (R363). Firmware restarts the watchdog count from PWR_WDOG.MS. -/
  | wdogRestart
  /-- SUPPLIES_QUALIFIED (R343). Both supplies have stood above their warning levels for 1 ms with both reference clocks present, and the engine leaves cold reset and starts the top regulator. -/
  | suppliesQualified
  /-- DIE_TO_DIE_FABRIC_UP (R356). The host's compute dies and die-to-die fabric come up, and the Abutment islands, which waited for them, start. -/
  | dieToDieFabricUp
  /-- LANE_SHORT (R393). A transmitter current monitor finds a lane driver shorted, current-limits it and marks the lane in PORT_LANE_FAULT. -/
  | laneShort (port : BitVec 5) (lane : BitVec 3)
  deriving DecidableEq, Repr

end Sys2Proof
end

