-- ==== Sys2Proof/Config.lean ====
section
/-! DEFINITION. What the manual leaves open: free values, each a constant with no body, so that nothing can
be proved of it. -/

namespace Sys2Proof

/-- The k-th free value the machine draws: contents that a rule calls undefined (R90, R163, R203, R403). -/
opaque Config.freeByte : Nat → Byte

/-- The choice of a Pier for a chunk (R73: whichever active Pier is free), at the k-th draw. -/
opaque Config.pickPier : Nat → Nat

/-- How the host interleaves 64-byte granules over the eight memory stacks (R200). -/
opaque Config.stackOf : Nat → Fin 8

/-- The number of an array or joint in the numbering of the page that counts its errors, which R370 puts into WHERE of
ERR_FIRST_INFO and no rule states. -/
opaque Config.whereOf : Nat → BitVec 4

/-- Whether bits of a stored word flip at the k-th draw (R30-R33), and if so in which array, at which granule, and
which of the word's 144 bits. -/
opaque Config.upset : Nat → Option (Nat × Nat × Nat)

end Sys2Proof
end

