-- ==== Sys2Proof/Machine/Bytes.lean ====
section
/-! DEFINITION. Bytes and bit fields: least significant byte first (R11), bit ranges [hi:lo], the
saturating counters that the register pages use, and the fields of a context entry. -/

namespace Sys2Proof.Machine

/-- Bits [hi:lo] of a number. -/
def bits (n hi lo : Nat) : Nat := (n >>> lo) % 2 ^ (hi + 1 - lo)

/-- Bit k of a number. -/
def bit (n k : Nat) : Bool := n.testBit k

/-- A number with bits [hi:lo] replaced by v. -/
def setBits (n hi lo v : Nat) : Nat :=
  (n >>> (hi + 1)) <<< (hi + 1) + (v % 2 ^ (hi + 1 - lo)) <<< lo + n % 2 ^ lo

/-- 1 for true, 0 for false. -/
def b2n (b : Bool) : Nat := if b then 1 else 0

/-- The number that bytes spell, least significant byte first (R11). -/
def leNat : Bytes → Nat
  | [] => 0
  | b :: bs => b.toNat + 256 * leNat bs

/-- The k low bytes of a number, least significant byte first (R11). -/
def toLE : Nat → Nat → Bytes
  | 0, _ => []
  | k + 1, n => BitVec.ofNat 8 n :: toLE k (n / 256)

/-- The number that bytes spell, most significant byte first. -/
def beNat (bs : Bytes) : Nat := bs.foldl (fun a b => a * 256 + b.toNat) 0

/-- The k low bytes of a number, most significant byte first. -/
def toBE (k n : Nat) : Bytes := (toLE k n).reverse

/-- k zero bytes. -/
def zeros (k : Nat) : Bytes := List.replicate k 0

/-- Bytes [off, off + len) of a run, zero beyond its end. -/
def sub (bs : Bytes) (off len : Nat) : Bytes :=
  let t := (bs.drop off).take len
  t ++ zeros (len - t.length)

/-- The little-endian number at bytes [off, off + len) of a run. -/
def leAt (bs : Bytes) (off len : Nat) : Nat := leNat (sub bs off len)

/-- A run with bytes [off, off + v.length) replaced (the run grows with zeros to reach). -/
def put (bs : Bytes) (off : Nat) (v : Bytes) : Bytes :=
  sub bs 0 off ++ v ++ bs.drop (off + v.length)

/-- A run padded with zeros to a multiple of k bytes. -/
def padTo (k : Nat) (bs : Bytes) : Bytes :=
  if k = 0 then bs else bs ++ zeros ((k - bs.length % k) % k)

/-- The first n pieces of k bytes of a run. -/
def splitEvery : Nat → Nat → Bytes → List Bytes
  | 0, _, _ => []
  | n + 1, k, bs => bs.take k :: splitEvery n k (bs.drop k)

/-- A run cut into pieces of k bytes, the last one shorter when k does not divide its length. -/
def chunksOf (k : Nat) (bs : Bytes) : List Bytes :=
  if k = 0 then [] else splitEvery ((bs.length + k - 1) / k) k bs

/-- Count of one bits. -/
def popCount (n width : Nat) : Nat := ((List.range width).filter fun k => n.testBit k).length

/-- The indices below width whose bit is set, in rising order. -/
def setIdx (n width : Nat) : List Nat := (List.range width).filter fun k => n.testBit k

/-- The number whose set bits are the members of a list. -/
def maskOf (l : List Nat) : Nat := l.foldl (fun a k => a ||| (1 <<< k)) 0

/-- Round up to a multiple of k. -/
def alignUp (n k : Nat) : Nat := (n + k - 1) / k * k

/-- Ceiling of a quotient. -/
def ceilDiv (n k : Nat) : Nat := (n + k - 1) / k

/-- A bit field of an entry: the bytes that hold it and its bit range within them. -/
structure Fld where
  off : Nat
  len : Nat
  hi  : Nat
  lo  : Nat
  deriving DecidableEq, Repr

/-- A field's value in the bytes of an entry. -/
def Fld.get (f : Fld) (entry : Bytes) : Nat := bits (leAt entry f.off f.len) f.hi f.lo

/-- An entry with a field replaced. -/
def Fld.put (f : Fld) (entry : Bytes) (v : Nat) : Bytes :=
  Machine.put entry f.off (toLE f.len (setBits (leAt entry f.off f.len) f.hi f.lo v))

/-- An element of a list, or a given value past its end. -/
def nth {α : Type} (l : List α) (i : Nat) (d : α) : α := (l[i]?).getD d

/-- A list with element i passed through f. -/
def modNth {α : Type} : List α → Nat → (α → α) → List α
  | [], _, _ => []
  | a :: t, 0, f => f a :: t
  | a :: t, i + 1, f => a :: modNth t i f

end Sys2Proof.Machine
end

