-- ==== Sys2Proof/Machine/Crc.lean ====
section
/-! DEFINITION. CRC-32C (R68) and the SEC-DED code of the 144-bit protected word (R30, R69, R70). -/

namespace Sys2Proof.Machine

/-- One bit step of CRC-32C: the polynomial 0x1EDC_6F41 reflected. -/
def crcBit (c : Nat) : Nat := if c.testBit 0 then (c >>> 1) ^^^ 0x82F63B78 else c >>> 1

/-- One byte of CRC-32C, its bits least significant first. -/
def crcByte (c : Nat) (b : Byte) : Nat :=
  let x := c ^^^ b.toNat
  crcBit (crcBit (crcBit (crcBit (crcBit (crcBit (crcBit (crcBit x)))))))

/-- CRC-32C over a run of bytes (R68). -/
def crc32c (bs : Bytes) : Nat := (bs.foldl crcByte 0xFFFFFFFF) ^^^ 0xFFFFFFFF

/-- The column of each data bit (R69): the ascending 8-bit values with at least three bits set. -/
def eccColumns : List Nat := ((List.range 256).filter fun v => 3 ≤ popCount v 8).take 128

/-- The eight check bits of 128 data bits (R69). -/
def eccCheck (data : Nat) : Nat :=
  (eccColumns.zipIdx).foldl (fun a p => if data.testBit p.2 then a ^^^ p.1 else a) 0

/-- Parity of the low bits of a number. -/
def parity (n width : Nat) : Nat := popCount n width % 2

/-- The protected word (R30) of 128 good data bits: POISON 0, the check bits and the overall parity. -/
def eccWord (data : Nat) : Nat :=
  let c := eccCheck data
  let p := (parity data 128 + parity c 8) % 2
  data + c <<< 128 + p <<< 136

/-- The protected word of a poisoned 128 bits (R34): POISON set and check bits [129:128] inverted. -/
def eccPoisonWord (data : Nat) : Nat := (eccWord data ^^^ (3 <<< 128)) ^^^ (1 <<< 137)

/-- What a check of a protected word finds (R70), with the data that is passed on. -/
inductive EccResult where
  | good (data : Nat)
  | corrected (data : Nat)
  | uncorrectable (data : Nat)
  deriving DecidableEq, Repr

/-- The check of R70. A word whose POISON bit is set is uncorrectable (R34). -/
def eccRead (word : Nat) : EccResult :=
  let data := bits word 127 0
  let stored := bits word 135 128
  let syn := eccCheck data ^^^ stored
  let p := parity word 137
  if word.testBit 137 then .uncorrectable data
  else if syn = 0 then (if p = 0 then .good data else .corrected data)
  else if p = 0 then .uncorrectable data
  else if popCount syn 8 = 1 then .corrected data
  else match eccColumns.idxOf? syn with
    | some i => .corrected (data ^^^ (1 <<< i))
    | none => .uncorrectable data

end Sys2Proof.Machine
end

