-- ==== Sys2Proof/Machine/Fields.lean ====
section
/-! DEFINITION. The fields of the context entries of the table windows (R28, R379), one name for each field
that a chapter's layout gives, and the address at which entry n of each table is kept. -/

namespace Sys2Proof.Machine

/-- Stream context n (R95, R379). -/
def strmBase (n : Nat) : Nat := 0x500000 + 256 * n

/-- Memory region context n (R256, R379). -/
def regionBase (n : Nat) : Nat := 0x900000 + 64 * n

/-- Trigger counter n (R236, R379). -/
def ctrBase (n : Nat) : Nat := 0xD00000 + 16 * n

/-- Exchange group context n (R168, R379). -/
def grpBase (n : Nat) : Nat := 0xE00000 + 256 * n

/-- Completion-queue context n (R241, R379). -/
def cqBase (n : Nat) : Nat := 0xF00000 + 64 * n

/-- Shared receive queue context n (R274, R379). -/
def srqBase (n : Nat) : Nat := 0xF40000 + 64 * n

/-- Ring context n (R226, R379). -/
def ringBase (n : Nat) : Nat := 0xF50000 + 16 * n

/-- Routing entry of destination n (R301, R379). -/
def routeBase (n : Nat) : Nat := 0xF60000 + 8 * n

/-- Connection context n (R249): both banks of the connection window, kept above the window itself. -/
def connBase (n : Nat) : Nat := 0x1000000 + 256 * n

end Sys2Proof.Machine

/-! Fields of a stream context (R95). -/

namespace Sys2Proof.Machine.Strm

/-- MODE. -/
def mode : Fld := ⟨0x0, 4, 26, 24⟩

/-- STREAM_ID. -/
def streamId : Fld := ⟨0x0, 4, 22, 0⟩

/-- G_FMT. -/
def gFmt : Fld := ⟨0x4, 1, 7, 4⟩

/-- CODE_FMT. -/
def codeFmt : Fld := ⟨0x4, 1, 3, 0⟩

/-- RES_FMT. -/
def resFmt : Fld := ⟨0x5, 1, 3, 0⟩

/-- EXACT. -/
def exact : Fld := ⟨0x6, 1, 6, 6⟩

/-- NAN_EXCLUDE. -/
def nanExclude : Fld := ⟨0x6, 1, 5, 5⟩

/-- RES_ROUND. -/
def resRound : Fld := ⟨0x6, 1, 4, 4⟩

/-- FP32_IN. -/
def fp32In : Fld := ⟨0x6, 1, 3, 3⟩

/-- SR_BITS. -/
def srBits : Fld := ⟨0x6, 1, 2, 1⟩

/-- ROUND_MODE. -/
def roundMode : Fld := ⟨0x6, 1, 0, 0⟩

/-- G_INT32. -/
def gInt32 : Fld := ⟨0x7, 1, 2, 2⟩

/-- SCALE_SRC. -/
def scaleSrc : Fld := ⟨0x7, 1, 1, 0⟩

/-- STAT_EN. -/
def statEn : Fld := ⟨0x8, 1, 7, 7⟩

/-- STAT_SLOT. -/
def statSlot : Fld := ⟨0x8, 1, 5, 0⟩

/-- OUT_AUTO. -/
def outAuto : Fld := ⟨0x9, 1, 7, 7⟩

/-- OUT_N. -/
def outN : Fld := ⟨0x9, 1, 6, 0⟩

/-- OUT_RATIO. -/
def outRatio : Fld := ⟨0xA, 1, 3, 0⟩

/-- GROUP. -/
def group : Fld := ⟨0xC, 4, 11, 0⟩

/-- LENGTH. -/
def length : Fld := ⟨0x10, 5, 39, 0⟩

/-- ROW_LEN. -/
def rowLen : Fld := ⟨0x18, 4, 24, 0⟩

/-- CHUNK_KI. -/
def chunkKi : Fld := ⟨0x1C, 2, 14, 0⟩

/-- K. -/
def k : Fld := ⟨0x20, 4, 31, 0⟩

/-- G_ADDR. -/
def gAddr : Fld := ⟨0x28, 8, 63, 0⟩

/-- RES_ADDR. -/
def resAddr : Fld := ⟨0x30, 8, 63, 0⟩

/-- HIST_BASE. -/
def histBase : Fld := ⟨0x38, 8, 63, 0⟩

/-- LAMAX_ADDR. -/
def lamaxAddr : Fld := ⟨0x40, 8, 63, 0⟩

/-- AMAX_ADDR. -/
def amaxAddr : Fld := ⟨0x48, 8, 63, 0⟩

/-- OUT_LIST_ADDR. -/
def outListAddr : Fld := ⟨0x50, 8, 63, 0⟩

/-- OUT_DATA_ADDR. -/
def outDataAddr : Fld := ⟨0x58, 8, 63, 0⟩

/-- SCALE. -/
def scale : Fld := ⟨0x60, 4, 31, 0⟩

/-- IN_SCALE. -/
def inScale : Fld := ⟨0x64, 4, 31, 0⟩

/-- LOCAL_AMAX. -/
def localAmax : Fld := ⟨0x80, 4, 31, 0⟩

/-- AGREED_AMAX. -/
def agreedAmax : Fld := ⟨0x84, 4, 31, 0⟩

/-- STATS_STEP. -/
def statsStep : Fld := ⟨0x88, 4, 31, 0⟩

/-- COMPRESS_STEP. -/
def compressStep : Fld := ⟨0x8C, 4, 31, 0⟩

/-- VALID. -/
def valid : Fld := ⟨0x90, 5, 39, 0⟩

/-- NF. -/
def nf : Fld := ⟨0x95, 1, 7, 7⟩

/-- OUT_COUNT. -/
def outCount : Fld := ⟨0x95, 1, 6, 0⟩

/-- MAG. -/
def mag : Fld := ⟨0x96, 1, 7, 0⟩

/-- STATS_STATUS. -/
def statsStatus : Fld := ⟨0x97, 1, 7, 0⟩

/-- FIRST_NF. -/
def firstNf : Fld := ⟨0x98, 5, 39, 0⟩

/-- COMPRESS_STATUS. -/
def compressStatus : Fld := ⟨0x9D, 1, 7, 0⟩

/-- The pair ABS_SUM: hi, then lo. -/
def absSum : Fld := ⟨0xA0, 8, 63, 0⟩

/-- Pair j of SEL_SUM, SEL_SQ, OUT_SUM, OUT_SQ. -/
def pair (j : Nat) : Fld := ⟨0xA8 + 8 * j, 8, 63, 0⟩

/-- Counter j of the thirteen of R114. -/
def counter (j : Nat) : Fld := ⟨0xC8 + 4 * j, 4, 31, 0⟩

end Sys2Proof.Machine.Strm

/-! Fields of an exchange group context (R146, R168). -/

namespace Sys2Proof.Machine.Grp

/-- TABLE_EPOCH. -/
def tableEpoch : Fld := ⟨0xC0, 2, 15, 0⟩

/-- PEND_EPOCH. -/
def pendEpoch : Fld := ⟨0xC2, 2, 15, 0⟩

/-- TBL_ROOT. -/
def tblRoot : Fld := ⟨0xD4, 3, 23, 0⟩

/-- ACKS. -/
def acks : Fld := ⟨0xD8, 2, 15, 0⟩

/-- EPOCH_TRIG. -/
def epochTrig : Fld := ⟨0xDC, 4, 31, 0⟩

/-- N_MEMBERS. -/
def nMembers : Fld := ⟨0x0, 4, 16, 0⟩

/-- MY_RANK. -/
def myRank : Fld := ⟨0x4, 4, 15, 0⟩

/-- MEMBER_ADDR. -/
def memberAddr : Fld := ⟨0x8, 8, 63, 0⟩

/-- PARENT_EN. -/
def parentEn : Fld := ⟨0x10, 2, 15, 15⟩

/-- PARENT. -/
def parent : Fld := ⟨0x10, 2, 11, 0⟩

/-- NONDET_CNT. -/
def nondetCnt : Fld := ⟨0xE0, 4, 31, 0⟩

/-- CUT_CNT. -/
def cutCnt : Fld := ⟨0xE4, 4, 31, 0⟩

/-- LATE_CNT. -/
def lateCnt : Fld := ⟨0xE8, 4, 31, 0⟩

/-- REJ_CNT. -/
def rejCnt : Fld := ⟨0xEC, 4, 31, 0⟩

/-- SAT_CNT. -/
def satCnt : Fld := ⟨0xF0, 4, 31, 0⟩

/-- DROP_CNT. -/
def dropCnt : Fld := ⟨0xF4, 4, 31, 0⟩

/-- FULL_CNT. -/
def fullCnt : Fld := ⟨0xF8, 4, 31, 0⟩

/-- LAST_SEQ of channel c. -/
def lastSeq (c : Nat) : Fld := ⟨0x40 + 4 * c, 4, 31, 0⟩

/-- DEF of a format code 4 to 8. -/
def defFmt (code : Nat) : Fld := ⟨0xC0 + code, 1, 7, 0⟩

/-- PEND of a format code 4 to 8. -/
def pendFmt (code : Nat) : Fld := ⟨0xC8 + code, 1, 7, 0⟩

end Sys2Proof.Machine.Grp

/-! Fields of a ring context (R226). -/

namespace Sys2Proof.Machine.Ring

/-- BASE. -/
def base : Fld := ⟨0x0, 8, 63, 0⟩

/-- ENABLE. -/
def enable : Fld := ⟨0x8, 1, 7, 7⟩

/-- STOPPED. -/
def stopped : Fld := ⟨0x8, 1, 6, 6⟩

/-- LOG2_SIZE. -/
def log2Size : Fld := ⟨0x8, 1, 4, 0⟩

/-- ERR_CQ. -/
def errCq : Fld := ⟨0x9, 2, 11, 0⟩

/-- CI. -/
def ci : Fld := ⟨0xB, 5, 39, 20⟩

/-- PI. -/
def pi : Fld := ⟨0xB, 5, 19, 0⟩

end Sys2Proof.Machine.Ring

/-! Fields of a trigger counter (R236). -/

namespace Sys2Proof.Machine.Ctr

/-- VALUE. -/
def value : Fld := ⟨0x0, 4, 31, 0⟩

/-- WAITERS. -/
def waiters : Fld := ⟨0x4, 4, 16, 0⟩

/-- RAISES. -/
def raises : Fld := ⟨0x8, 4, 31, 0⟩

end Sys2Proof.Machine.Ctr

/-! Fields of a completion-queue context (R241). -/

namespace Sys2Proof.Machine.Cq

/-- BASE. -/
def base : Fld := ⟨0x0, 8, 63, 0⟩

/-- ENABLE. -/
def enable : Fld := ⟨0x8, 1, 7, 7⟩

/-- LOG2_SIZE. -/
def log2Size : Fld := ⟨0x8, 1, 4, 0⟩

/-- IRQ_MODE. -/
def irqMode : Fld := ⟨0x9, 1, 7, 6⟩

/-- VEC. -/
def vec : Fld := ⟨0x9, 1, 5, 0⟩

/-- COALESCE. -/
def coalesce : Fld := ⟨0xA, 2, 15, 0⟩

/-- PI. -/
def pi : Fld := ⟨0xC, 4, 19, 0⟩

/-- CI. -/
def ci : Fld := ⟨0x10, 4, 19, 0⟩

/-- RESV. -/
def resv : Fld := ⟨0x14, 4, 19, 0⟩

/-- RECORDS. -/
def records : Fld := ⟨0x18, 4, 31, 0⟩

/-- SINCE_IRQ. -/
def sinceIrq : Fld := ⟨0x1C, 4, 31, 0⟩

end Sys2Proof.Machine.Cq

/-! Fields of a connection context (R249). -/

namespace Sys2Proof.Machine.Conn

/-- ENABLE. -/
def enable : Fld := ⟨0x0, 1, 7, 7⟩

/-- CIPHER. -/
def cipher : Fld := ⟨0x0, 1, 6, 6⟩

/-- LVL_MAX. -/
def lvlMax : Fld := ⟨0x1, 1, 7, 4⟩

/-- LVL_MIN. -/
def lvlMin : Fld := ⟨0x1, 1, 3, 0⟩

/-- REMOTE_NODE. -/
def remoteNode : Fld := ⟨0x2, 3, 19, 0⟩

/-- REMOTE_CONN. -/
def remoteConn : Fld := ⟨0x6, 2, 14, 0⟩

/-- SRQ. -/
def srq : Fld := ⟨0x8, 2, 9, 0⟩

/-- EVENT_CQ. -/
def eventCq : Fld := ⟨0xA, 2, 11, 0⟩

/-- CTR_BASE. -/
def ctrBase : Fld := ⟨0xC, 2, 15, 0⟩

/-- CTR_COUNT. -/
def ctrCount : Fld := ⟨0xE, 2, 15, 0⟩

/-- SCOPE. -/
def scope : Fld := ⟨0x10, 2, 15, 0⟩

/-- STATE. -/
def state : Fld := ⟨0x20, 1, 7, 6⟩

/-- LEVEL. -/
def level : Fld := ⟨0x20, 1, 3, 0⟩

/-- END_STATUS. -/
def endStatus : Fld := ⟨0x21, 1, 7, 0⟩

/-- LAST_CUT_WIN. -/
def lastCutWin : Fld := ⟨0x22, 2, 15, 0⟩

/-- RATE. -/
def rate : Fld := ⟨0x24, 2, 15, 0⟩

/-- RNR_D. -/
def rnrD : Fld := ⟨0x26, 1, 7, 7⟩

/-- RNR_C. -/
def rnrC : Fld := ⟨0x26, 1, 6, 6⟩

/-- TX_PHASE. -/
def txPhase : Fld := ⟨0x26, 1, 5, 5⟩

/-- REKEY_DUE. -/
def rekeyDue : Fld := ⟨0x26, 1, 4, 4⟩

/-- MARKED. -/
def marked : Fld := ⟨0x26, 1, 3, 3⟩

/-- RETRY_C. -/
def retryC : Fld := ⟨0x27, 1, 6, 4⟩

/-- RETRY_D. -/
def retryD : Fld := ⟨0x27, 1, 2, 0⟩

/-- TX_NXT_D. -/
def txNxtD : Fld := ⟨0x28, 6, 47, 0⟩

/-- TX_UNA_D. -/
def txUnaD : Fld := ⟨0x2E, 6, 47, 0⟩

/-- TX_NXT_C. -/
def txNxtC : Fld := ⟨0x34, 6, 47, 0⟩

/-- TX_UNA_C. -/
def txUnaC : Fld := ⟨0x3A, 6, 47, 0⟩

/-- RX_EXP_D. -/
def rxExpD : Fld := ⟨0x40, 6, 47, 0⟩

/-- RX_EXP_C. -/
def rxExpC : Fld := ⟨0x46, 6, 47, 0⟩

/-- RX_MAP_C. -/
def rxMapC : Fld := ⟨0x4C, 4, 31, 0⟩

/-- RX_MAP_D. -/
def rxMapD : Fld := ⟨0x50, 32, 255, 0⟩

/-- ACK_TX_SEQ. -/
def ackTxSeq : Fld := ⟨0x70, 6, 47, 0⟩

/-- ACK_RX_SEQ. -/
def ackRxSeq : Fld := ⟨0x76, 6, 47, 0⟩

/-- PHASE_CNT. -/
def phaseCnt : Fld := ⟨0x7C, 4, 31, 0⟩

end Sys2Proof.Machine.Conn

/-! Fields of a memory region context (R256). -/

namespace Sys2Proof.Machine.Region

/-- STATE. -/
def state : Fld := ⟨0x0, 1, 7, 6⟩

/-- ATOMIC. -/
def atomic : Fld := ⟨0x0, 1, 5, 5⟩

/-- READ. -/
def read : Fld := ⟨0x0, 1, 4, 4⟩

/-- WRITE. -/
def write : Fld := ⟨0x0, 1, 3, 3⟩

/-- TAG. -/
def tag : Fld := ⟨0x2, 2, 15, 0⟩

/-- SCOPE. -/
def scope : Fld := ⟨0x4, 2, 15, 0⟩

/-- BASE. -/
def base : Fld := ⟨0x8, 8, 63, 0⟩

/-- LENGTH. -/
def length : Fld := ⟨0x10, 5, 39, 0⟩

/-- INFLIGHT. -/
def inflight : Fld := ⟨0x18, 4, 31, 0⟩

/-- VIOL_CNT. -/
def violCnt : Fld := ⟨0x1C, 4, 31, 0⟩

end Sys2Proof.Machine.Region

/-! Fields of a shared receive queue context (R274). -/

namespace Sys2Proof.Machine.Srq

/-- ENABLE. -/
def enable : Fld := ⟨0x0, 1, 7, 7⟩

/-- OWNER. -/
def owner : Fld := ⟨0x0, 1, 6, 6⟩

/-- LOG2_SLOTS. -/
def log2Slots : Fld := ⟨0x0, 1, 4, 0⟩

/-- LOG2_SLOT. -/
def log2Slot : Fld := ⟨0x1, 1, 3, 0⟩

/-- CQ. -/
def cq : Fld := ⟨0x2, 2, 11, 0⟩

/-- BASE. -/
def base : Fld := ⟨0x8, 8, 63, 0⟩

/-- PI. -/
def pi : Fld := ⟨0x10, 4, 19, 0⟩

/-- CI. -/
def ci : Fld := ⟨0x14, 4, 19, 0⟩

/-- EMPTY_CNT. -/
def emptyCnt : Fld := ⟨0x18, 4, 31, 0⟩

end Sys2Proof.Machine.Srq

/-! Fields of a routing entry (R301). -/

namespace Sys2Proof.Machine.Route

/-- VALID. -/
def valid : Fld := ⟨0x0, 8, 63, 63⟩

/-- LANE. -/
def lane : Fld := ⟨0x0, 8, 49, 48⟩

/-- PORTS. -/
def ports : Fld := ⟨0x0, 8, 47, 0⟩

end Sys2Proof.Machine.Route
end

