-- ==== Sys2Proof/Machine/Float.lean ====
section
/-! DEFINITION. Value formats and arithmetic (R37-R57): every finite value is an exact m x 2^e, every
operation is formed exactly and narrowed once. A flush (R45) is reported beside the value so that the
operation's chapter can count it. -/

namespace Sys2Proof.Machine

/-- The value formats of R37; `rsv` stands for the reserved codes 0xB-0xF. -/
inductive VFmt where
  | none | int8 | int4 | sign1 | e4m3 | e5m2 | bf16 | fp16 | fp32 | e8m10 | u8zp | rsv
  deriving DecidableEq, Repr

/-- The format of a 4-bit code (R37). -/
def VFmt.ofCode (c : Nat) : VFmt :=
  match c with
  | 0 => .none | 1 => .int8 | 2 => .int4 | 3 => .sign1 | 4 => .e4m3 | 5 => .e5m2 | 6 => .bf16
  | 7 => .fp16 | 8 => .fp32 | 9 => .e8m10 | 10 => .u8zp | _ => .rsv

/-- The 4-bit code of a format (R37). -/
def VFmt.code : VFmt → Nat
  | .none => 0 | .int8 => 1 | .int4 => 2 | .sign1 => 3 | .e4m3 => 4 | .e5m2 => 5 | .bf16 => 6
  | .fp16 => 7 | .fp32 => 8 | .e8m10 => 9 | .u8zp => 10 | .rsv => 11

/-- Width in bits of one element. -/
def VFmt.width : VFmt → Nat
  | .none => 0 | .int8 => 8 | .int4 => 4 | .sign1 => 1 | .e4m3 => 8 | .e5m2 => 8 | .bf16 => 16
  | .fp16 => 16 | .fp32 => 32 | .e8m10 => 32 | .u8zp => 8 | .rsv => 0

/-- Width of the mantissa field (R39, R40). -/
def VFmt.man : VFmt → Nat
  | .e4m3 => 3 | .e5m2 => 2 | .bf16 => 7 | .fp16 => 10 | .fp32 => 23 | .e8m10 => 10 | _ => 0

/-- Width of the exponent field (R39). -/
def VFmt.expW : VFmt → Nat
  | .e4m3 => 4 | .e5m2 => 5 | .bf16 => 8 | .fp16 => 5 | .fp32 => 8 | .e8m10 => 8 | _ => 0

/-- Exponent bias (R39). -/
def VFmt.bias : VFmt → Nat
  | .e4m3 => 7 | .e5m2 => 15 | .bf16 => 127 | .fp16 => 15 | .fp32 => 127 | .e8m10 => 127 | _ => 0

/-- A float format of R39. -/
def VFmt.isFloat : VFmt → Bool
  | .e4m3 => true | .e5m2 => true | .bf16 => true | .fp16 => true | .fp32 => true | .e8m10 => true
  | _ => false

/-- Subnormals are kept (R44) and not flushed (R45). -/
def VFmt.subn : VFmt → Bool
  | .e4m3 => true | .e5m2 => true | .fp16 => true | _ => false

/-- Exponent of the smallest normal value. -/
def VFmt.emin (f : VFmt) : Int := 1 - (f.bias : Int)

/-- A value: NaN, an infinity, or a finite (-1)^neg x m x 2^e (a zero keeps its sign). -/
inductive FV where
  | nan
  | inf (neg : Bool)
  | fin (neg : Bool) (m : Nat) (e : Int)
  deriving DecidableEq, Repr

/-- +0. -/
def FV.zero : FV := .fin false 0 0

/-- 1.0. -/
def FV.one : FV := .fin false 1 0

/-- Neither NaN nor an infinity. -/
def FV.isFin : FV → Bool
  | .fin _ _ _ => true
  | _ => false

/-- A zero of either sign. -/
def FV.isZero : FV → Bool
  | .fin _ m _ => m == 0
  | _ => false

/-- The sign bit (false for NaN). -/
def FV.isNeg : FV → Bool
  | .nan => false
  | .inf n => n
  | .fin n _ _ => n

/-- The value with its sign inverted. -/
def FV.neg : FV → FV
  | .nan => .nan
  | .inf n => .inf (!n)
  | .fin n m e => .fin (!n) m e

/-- The magnitude. -/
def FV.abs : FV → FV
  | .nan => .nan
  | .inf _ => .inf false
  | .fin _ m e => .fin false m e

/-- An integer as a value. -/
def FV.ofInt (i : Int) : FV := .fin (decide (i < 0)) i.natAbs 0

/-- The value of an encoding as it stands, before any flush. -/
def decodeRaw (f : VFmt) (w : Nat) : FV :=
  let m := f.man
  let x := f.expW
  let w := if f = .e8m10 then w >>> 13 else w
  let frac := w % 2 ^ m
  let ex := (w >>> m) % 2 ^ x
  let s := w.testBit (m + x)
  if ex = 2 ^ x - 1 ∧ f ≠ .e4m3 then (if frac = 0 then .inf s else .nan)
  else if f = .e4m3 ∧ ex = 15 ∧ frac = 7 then .nan
  else if ex = 0 then .fin s frac (f.emin - m)
  else .fin s (2 ^ m + frac) ((ex : Int) - f.bias - m)

/-- The value an operation reads from an encoding, and whether it was flushed (R44, R45). -/
def decodeF (f : VFmt) (w : Nat) : FV × Bool :=
  match decodeRaw f w with
  | .fin s m e =>
    if m ≠ 0 ∧ f.subn = false ∧ (w >>> (if f = .e8m10 then 23 else f.man)) % 2 ^ f.expW = 0
    then (.fin s 0 0, true) else (.fin s m e, false)
  | v => (v, false)

/-- The canonical NaN of a format (R46). -/
def nanBits : VFmt → Nat
  | .bf16 => 0x7FC0 | .fp16 => 0x7E00 | .e4m3 => 0x7F | .e5m2 => 0x7E | _ => 0x7FC00000

/-- The encoding of a value that the format holds exactly (no rounding happens here). -/
def encodeF (f : VFmt) (v : FV) : Nat :=
  let sh := if f = .e8m10 then 13 else 0
  let top := f.man + f.expW
  match v with
  | .nan => nanBits f
  | .inf s => if f = .e4m3 then 0x7F else ((b2n s) <<< top + (2 ^ f.expW - 1) <<< f.man) <<< sh
  | .fin s m e =>
    if m = 0 then (b2n s) <<< top <<< sh
    else
      let l := Nat.log2 m
      let ex : Int := l + e
      if ex < f.emin then
        let d := e - (f.emin - f.man)
        let frac := if 0 ≤ d then m <<< d.toNat else m >>> (-d).toNat
        ((b2n s) <<< top + frac) <<< sh
      else
        let frac := if l ≤ f.man then m <<< (f.man - l) else m >>> (l - f.man)
        ((b2n s) <<< top + ((ex + f.bias).toNat) <<< f.man + (frac - 2 ^ f.man)) <<< sh

/-- m x 2^e with its magnitude shifted right by k, rounded to nearest with ties to even. -/
def shiftRne (m k : Nat) : Nat :=
  if k = 0 then m
  else
    let q := m >>> k
    let r := m % 2 ^ k
    let h := 2 ^ (k - 1)
    if r > h ∨ (r = h ∧ q % 2 = 1) then q + 1 else q

/-- Largest finite magnitude of a float format, as m and e. -/
def largestF (f : VFmt) : Nat × Int :=
  if f = .e4m3 then (14, 5)
  else (2 ^ (f.man + 1) - 1, (2 ^ f.expW - 2 : Nat) - (f.bias : Int) - f.man)

/-- a x 2^ea is greater than b x 2^eb. -/
def dyGt (a : Nat) (ea : Int) (b : Nat) (eb : Int) : Bool :=
  if eb ≤ ea then decide (a <<< (ea - eb).toNat > b) else decide (a > b <<< (eb - ea).toNat)

/-- The exact finite value rounded to nearest even with the precision of a flushing format (FP32, BF16,
E8M10), its exponent unbounded below, then flushed below 2^-126 and sent to infinity above the largest
finite value (R45, R49). The Bool says that a nonzero value was flushed. -/
def roundTo (f : VFmt) (s : Bool) (m : Nat) (e : Int) : FV × Bool :=
  if m = 0 then (.fin s 0 0, false)
  else
    let l := Nat.log2 m
    let k := l - f.man
    let q := shiftRne m k
    let e' := e + k
    if (Nat.log2 q : Int) + e' < -126 then (.fin s 0 0, true)
    else
      let (lm, le) := largestF f
      if dyGt q e' lm le then (.inf s, false) else (.fin s q e', false)

/-- A finite or other value rounded to FP32 (R49). -/
def rnd32 : FV → FV × Bool
  | .fin s m e => roundTo .fp32 s m e
  | v => (v, false)

/-- The exact sum of two values, before rounding; a zero sum is +0 unless both are negative (R49). -/
def addExact : FV → FV → FV
  | .nan, _ => .nan
  | _, .nan => .nan
  | .inf a, .inf b => if a = b then .inf a else .nan
  | .inf a, _ => .inf a
  | _, .inf b => .inf b
  | .fin sa ma ea, .fin sb mb eb =>
    let e := min ea eb
    let a : Int := (ma <<< (ea - e).toNat : Nat)
    let b : Int := (mb <<< (eb - e).toNat : Nat)
    let t := (if sa then -a else a) + (if sb then -b else b)
    if t = 0 then .fin (sa && sb) 0 0 else .fin (decide (t < 0)) t.natAbs e

/-- The exact product of two values. -/
def mulExact : FV → FV → FV
  | .nan, _ => .nan
  | _, .nan => .nan
  | .inf a, .inf b => .inf (a != b)
  | .inf a, .fin s m _ => if m = 0 then .nan else .inf (a != s)
  | .fin s m _, .inf b => if m = 0 then .nan else .inf (s != b)
  | .fin sa ma ea, .fin sb mb eb => .fin (sa != sb) (ma * mb) (ea + eb)

/-- FP32 addition (R49), with whether the result was flushed. -/
def addF (a b : FV) : FV × Bool := rnd32 (addExact a b)

/-- FP32 subtraction (R49). -/
def subF (a b : FV) : FV × Bool := addF a b.neg

/-- The multiplier's product of two E8M10 operands, delivered in FP32 (R50). -/
def mulF (a b : FV) : FV × Bool := rnd32 (mulExact a b)

/-- An FP32 value rounded to E8M10 at a multiplier's input (R50): mode 0 nearest even, mode 1 toward zero. A NaN stays a
NaN in mode 1 too, also one whose payload lies in bits [12:0] alone, which the clearing of those bits would turn into an
infinity (DESIGN CHOICE, log entry 113). -/
def toE8M10 (mode : Nat) : FV → FV
  | .fin s m e =>
    if m = 0 then .fin s 0 0
    else if mode = 0 then (roundTo .e8m10 s m e).1
    else
      let k := Nat.log2 m - 10
      .fin s (m >>> k) (e + k)
  | v => v

/-- The least E8M10 value not less than a nonnegative finite value (R52); the flag says that the value
lies above the largest finite E8M10. -/
def roundUpE8M10 (m : Nat) (e : Int) : FV :=
  if m = 0 then .zero
  else
    let k := Nat.log2 m - 10
    let q := if m % 2 ^ k = 0 then m >>> k else (m >>> k) + 1
    let e' := e + k
    if (Nat.log2 q : Int) + e' < -126 then .fin false 1 (-126)
    else if dyGt q e' 2047 117 then .inf false else .fin false q e'

/-- A compensated pair (R53). -/
structure Pair where
  hi : FV
  lo : FV
  deriving DecidableEq, Repr

/-- A pair starts as (+0, +0). -/
def Pair.zero : Pair := ⟨.zero, .zero⟩

/-- FP32 operations whose flushes are not counted. -/
def add1 (a b : FV) : FV := (addF a b).1

/-- The exact error of an FP32 sum (R53). -/
def twoSum (a b : FV) : FV × FV :=
  let s := add1 a b
  let bb := add1 s a.neg
  let t := add1 (add1 a (add1 s bb.neg).neg) (add1 b bb.neg)
  (s, t)

/-- One FP32 value added into a pair (R53). -/
def Pair.add (p : Pair) (x : FV) : Pair :=
  let (s, t) := twoSum p.hi x
  let (h, l) := twoSum s (add1 p.lo t)
  if h.isFin then ⟨h, l⟩ else ⟨h, .zero⟩

/-- One pair added into another (R53). -/
def Pair.merge (a b : Pair) : Pair := (a.add b.hi).add b.lo

/-- a < b for values that are not NaN; +0 counts as greater than -0 (R47). -/
def FV.lt : FV → FV → Bool
  | .nan, _ => false
  | _, .nan => false
  | .inf a, .inf b => a && !b
  | .inf a, _ => a
  | _, .inf b => !b
  | .fin sa ma ea, .fin sb mb eb =>
    if ma = 0 ∧ mb = 0 then sa && !sb
    else if ma = 0 then (if sb then false else true)
    else if mb = 0 then sa
    else match sa, sb with
      | true, false => true
      | false, true => false
      | false, false => dyGt mb eb ma ea
      | true, true => dyGt ma ea mb eb

/-- Max with NaN propagated (R47). -/
def FV.max (a b : FV) : FV :=
  if a = .nan ∨ b = .nan then .nan else if a.lt b then b else a

/-- floor(log2 (n / d)) of a positive rational. -/
def floorLog2 (n d : Nat) : Int :=
  let k : Int := (Nat.log2 n : Int) - Nat.log2 d
  if 0 ≤ k then (if d <<< k.toNat ≤ n then k else k - 1)
  else (if d ≤ n <<< (-k).toNat then k else k - 1)

/-- What quantisation gives: a code's bits, and the counts of R55. -/
structure Quant where
  code     : Nat
  overflow : Bool
  vanished : Bool
  deriving DecidableEq, Repr

/-- q of R55: the multiple count of x = n / d in units of 2^ue, stochastic (r bits, rand) or nearest even. -/
def roundUnits (n d : Nat) (ue : Int) (det : Bool) (r rand : Nat) : Nat :=
  if det then
    let num := if ue < 0 then n <<< (-ue).toNat else n
    let den := if ue < 0 then d else d <<< ue.toNat
    let q := num / den
    let rem := num % den
    if 2 * rem > den ∨ (2 * rem = den ∧ q % 2 = 1) then q + 1 else q
  else
    let k : Int := (r : Int) - ue
    let y := if 0 ≤ k then (n <<< k.toNat) / d else n / (d <<< (-k).toNat)
    (y + rand) >>> r

/-- The two's complement of a signed code in a given width. -/
def signedCode (w : Nat) (neg : Bool) (q : Nat) : Nat := if neg ∧ q ≠ 0 then 2 ^ w - q else q

/-- Quantisation of a finite v by a nonzero finite scale (R55, R56); for UINT8_ZP z is the zero point. -/
def quantise (vs : Bool) (vm : Nat) (ve : Int) (sm : Nat) (se : Int) (f : VFmt) (det : Bool)
    (r rand z : Nat) : Quant :=
  let d := ve - se
  let n := if 0 ≤ d then vm <<< d.toNat else vm
  let dn := if 0 ≤ d then sm else sm <<< (-d).toNat
  match f with
  | .int8 | .int4 =>
    let w := f.width
    let big := 2 ^ (w - 1) - 1
    let q0 := roundUnits n dn 0 det r rand
    let ovf := decide (n > big * dn)
    let q := if ovf then big else q0
    ⟨signedCode w vs q, ovf, q = 0 && vm ≠ 0⟩
  | .u8zp =>
    -- signed x: floor of the signed quotient under stochastic rounding
    let q : Int :=
      if det then
        let a := roundUnits n dn 0 true r rand
        if vs then -(a : Int) else a
      else
        let num : Int := (n <<< r : Nat)
        let y : Int := (if vs then -num else num) / (dn : Int)
        (y + rand) / (2 ^ r : Nat)
    let t := q + z
    let ovf := decide (t < 0 ∨ t > 255)
    let c : Int := if t < 0 then 0 else if t > 255 then 255 else t
    ⟨c.toNat, ovf, decide (q = 0) && vm ≠ 0⟩
  | .sign1 => ⟨b2n (vs && vm ≠ 0), false, false⟩
  | _ =>
    if vm = 0 then ⟨encodeF f (.fin vs 0 0), false, false⟩
    else
      let e0 := floorLog2 n dn
      let e := if f.subn then max e0 f.emin else e0
      let ue := e - f.man
      let q0 := roundUnits n dn ue det r rand
      let (lm, le) := largestF f
      let ovf := if 0 ≤ le then decide (n > (lm <<< le.toNat) * dn)
                 else decide (n <<< (-le).toNat > lm * dn)
      let (q, qe) := if ovf then (lm, le) else (q0, ue)
      let q := if f.subn = false ∧ q ≠ 0 ∧ (Nat.log2 q : Int) + qe < -126 then 0 else q
      ⟨encodeF f (.fin vs q qe), ovf, q = 0⟩

/-- The code of a non-finite value, and whether the format has no encoding for it (R46, R48). -/
def nonFiniteCode (f : VFmt) (v : FV) (z : Nat) : Nat × Bool :=
  match f with
  | .int8 | .int4 => (0, true)
  | .u8zp => (z, true)
  | .sign1 => (b2n v.isNeg, true)
  | .e4m3 => (0x7F, match v with | .nan => false | _ => true)
  | _ => (encodeF f v, false)

/-- The signed value of an integer code (R41). -/
def codeInt (f : VFmt) (c z : Nat) : Int :=
  match f with
  | .int8 => if c ≥ 128 then (c : Int) - 256 else c
  | .int4 => if c ≥ 8 then (c : Int) - 16 else c
  | .u8zp => (c : Int) - z
  | .sign1 => if c = 0 then 1 else -1
  | _ => c

/-- The reserved encoding of INT8 or INT4 (R42). -/
def codeReserved (f : VFmt) (c : Nat) : Bool :=
  match f with
  | .int8 => c == 0x80
  | .int4 => c == 8
  | _ => false

/-- The value of a code before its scale, and whether reading it flushed (R45). -/
def codeValue (f : VFmt) (c z : Nat) : FV × Bool :=
  if f.isFloat then decodeF f c else (FV.ofInt (codeInt f c z), false)

/-- Dequantisation (R51): code x S through the multiplier, or the exact product rounded once for FP32
codes. The first Bool is a flush of the input, the second a flush of the product. -/
def dequant (f : VFmt) (c z : Nat) (s : FV) : FV × Bool × Bool :=
  let (v, fi) := codeValue f c z
  let (p, fo) := mulF v s
  (p, fi, fo)

/-- The element of a tensor of a format, at element index i of bytes that start at its element 0 (R43). -/
def elemAt (f : VFmt) (bs : Bytes) (i : Nat) : Nat :=
  match f with
  | .int4 => bits (leAt bs (i / 2) 1) (4 * (i % 2) + 3) (4 * (i % 2))
  | .sign1 => bits (leAt bs (i / 8) 1) (i % 8) (i % 8)
  | _ => leAt bs (i * (f.width / 8)) (f.width / 8)

/-- Codes packed from the least significant end (R43), padded with zero bits to a whole byte. -/
def packCodes (w : Nat) (cs : List Nat) : Bytes :=
  let n := cs.foldr (fun c a => c + a <<< w) 0
  toLE (ceilDiv (w * cs.length) 8) n

/-- The n codes of a packed run (R43). -/
def unpackCodes (w n : Nat) (bs : Bytes) : List Nat :=
  let v := leNat bs
  (List.range n).map fun i => (v >>> (w * i)) % 2 ^ w

/-- The scale (n, k) of an E8M10 container (R65): S = n x 2^k, n 11 bits; none for a zero scale. -/
def scaleNK (w : Nat) : Option (Nat × Int) :=
  let ex := bits w 30 23
  if ex = 0 then none else some (1024 + bits w 22 13, (ex : Int) - 137)

/-- The multiplier and shift of an integer rescale (R65). -/
structure Rescale where
  m : Nat
  s : Int
  deriving DecidableEq, Repr

/-- M and s from S_in and S_out (R65). -/
def rescaleOf (sin sout : Nat) : Rescale :=
  match scaleNK sin, scaleNK sout with
  | some (ni, ki), some (no, ko) =>
    let p : Nat := if no ≤ ni then 30 else 31
    let m := (ni * 2 ^ p + no / 2) / no
    let s : Int := p - (ki - ko)
    if s > 62 then
      let k := (s - 62).toNat
      ⟨(m + 2 ^ (k - 1)) >>> k, 62⟩
    else ⟨m, s⟩
  | _, _ => ⟨0, 0⟩

/-- The rescaled magnitude of |acc| (R64, R65), none when every nonzero input saturates (s < 0). -/
def rescaleMag (r : Rescale) (mag : Nat) : Option Nat :=
  if mag = 0 then some 0
  else if r.s < 0 then none
  else if r.s = 0 then some (mag * r.m)
  else some ((mag * r.m + 2 ^ (r.s.toNat - 1)) >>> r.s.toNat)

end Sys2Proof.Machine
end

