-- ==== Sys2Proof/Machine/RegTable.lean ====
section
/-! DEFINITION. The register pages: each register's window address (R14, R367), access masks (R16) and
reset value, from the register tables of the chapters. A register whose reset the tables do not state as a
number (fused, measured or computed) has 0 here; what is computed is computed where it is read. -/

namespace Sys2Proof.Machine

/-- The window address of a page and an offset (R14). -/
def regAddr (page off : Nat) : Nat := page * 4096 + off

/-- The kinds of register page (R367). -/
inductive PageKind where
  | top | kstn | pwr | time | rng | tbl | snap | qmgr | stat | pier (n : Nat) | port (n : Nat) | deck
  | abut (n : Nat) | rma | sec | test | reserved | window
  deriving DecidableEq, Repr

/-- The kind of a page (R367). -/
def pageKind (page : Nat) : PageKind :=
  if 0x100 ≤ page then (if page < 0xFE0 then .window else .reserved)
  else if 0x10 ≤ page ∧ page ≤ 0x2F then .pier (page - 0x10)
  else if 0x40 ≤ page ∧ page ≤ 0x57 then .port (page - 0x40)
  else if 0x68 ≤ page ∧ page ≤ 0x6F then .abut (page - 0x68)
  else match page with
    | 0 => .top | 1 => .kstn | 2 => .pwr | 3 => .time | 4 => .rng | 5 => .tbl | 6 => .snap | 7 => .qmgr
    | 8 => .stat | 0x60 => .deck | 0x70 => .rma | 0x78 => .sec | 0x7C => .test | _ => .reserved

/-- A register row: its first offset, how many words it has and how far apart, the bits of each access
type (R16), and its reset value. Bits in no mask are RO or RSV. -/
structure RegRow where
  off    : Nat
  count  : Nat
  stride : Nat
  rw     : Nat
  rwl    : Nat
  w1c    : Nat
  wo     : Nat
  reset  : Nat
  deriving DecidableEq, Repr

/-- The rows of page AK_TOP (R375). -/
def topRows : List RegRow :=
  [⟨0x40, 1, 4, 0, 0, 0, 0, 0⟩, ⟨0x44, 1, 4, 0, 0, 0, 0, 0⟩, ⟨0x48, 1, 4, 0, 0, 0, 0, 0⟩,
   ⟨0x4C, 1, 4, 0, 0, 0, 0, 0⟩, ⟨0x50, 1, 4, 0, 0, 0, 0, 0⟩, ⟨0x54, 1, 4, 0x1, 0, 0, 0, 0⟩,
   ⟨0x58, 1, 4, 0, 0, 0, 0, 0⟩, ⟨0x5C, 1, 4, 0, 0, 0x80000000, 0, 0⟩,
   ⟨0x60, 1, 4, 0xFFFFFFFF, 0, 0, 0, 0⟩, ⟨0x70, 4, 4, 0, 0, 0, 0, 0⟩,
   ⟨0x80, 1, 4, 0xFFFFFFFF, 0, 0, 0, 0⟩, ⟨0x84, 1, 4, 0xFFFFFFFF, 0, 0, 0, 0⟩,
   ⟨0x88, 1, 4, 0, 0, 0, 0, 0⟩, ⟨0x8C, 1, 4, 0, 0, 0, 0, 0⟩, ⟨0x100, 32, 4, 0xBFBFBFBF, 0, 0, 0, 0⟩]

/-- The rows of page AK_KSTN (R376). -/
def kstnRows : List RegRow :=
  [⟨0x40, 1, 4, 0, 0, 0, 0, 0x80000000⟩, ⟨0x44, 1, 4, 0, 0, 0, 0xFF0000FF, 0⟩,
   ⟨0x48, 6, 4, 0xFFFFFFFF, 0, 0, 0, 0⟩, ⟨0x60, 1, 4, 0, 0, 0x40000000, 0, 0⟩,
   ⟨0x64, 6, 4, 0, 0, 0, 0, 0⟩, ⟨0x7C, 1, 4, 0, 0, 0, 0, 0⟩]

/-- The rows of page AK_PWR (R365). -/
def pwrRows : List RegRow :=
  [⟨0x40, 1, 4, 0, 0, 0, 0, 0⟩, ⟨0x44, 1, 4, 0, 0, 0, 0x7, 0⟩, ⟨0x48, 1, 4, 0, 0, 0, 0, 0⟩,
   ⟨0x4C, 1, 4, 0, 0, 0, 0, 0⟩, ⟨0x50, 1, 4, 0, 0, 0, 0, 0⟩, ⟨0x54, 1, 4, 0x7F, 0, 0, 0, 0⟩,
   ⟨0x58, 1, 4, 0, 0, 0, 0, 0⟩, ⟨0x5C, 1, 4, 0x3, 0, 0, 0, 0⟩, ⟨0x60, 1, 4, 0, 0, 0, 0, 0⟩,
   ⟨0x64, 1, 4, 0, 0, 0, 0, 0⟩, ⟨0x68, 1, 4, 0, 0, 0, 0, 0⟩, ⟨0x6C, 1, 4, 0, 0, 0, 0, 0⟩,
   ⟨0x70, 1, 4, 0, 0, 0, 0, 0⟩, ⟨0x74, 1, 4, 0, 0, 0, 0, 0⟩, ⟨0x78, 1, 4, 0, 0, 0, 0, 0⟩,
   ⟨0x7C, 1, 4, 0xF, 0, 0, 0, 0⟩, ⟨0x80, 1, 4, 0, 0, 0, 0, 0⟩,
   ⟨0x84, 1, 4, 0, 0xFFFFFFFF, 0, 0, 0x7D736964⟩, ⟨0x88, 1, 4, 0, 0x8000FFFF, 0, 0, 0x80000064⟩,
   ⟨0x8C, 1, 4, 0, 0, 0, 0, 0⟩, ⟨0x90, 1, 4, 0, 0, 0, 0, 0⟩, ⟨0x94, 1, 4, 0, 0, 0, 0, 0⟩,
   ⟨0x98, 1, 4, 0, 0, 0, 0x3, 0⟩, ⟨0x100, 1, 4, 0, 0, 0, 0, 0⟩, ⟨0x104, 1, 4, 0, 0, 0, 0x3, 0⟩,
   ⟨0x108, 1, 4, 0, 0, 0, 0xFFFFFFFF, 0⟩, ⟨0x10C, 1, 4, 0, 0, 0, 0, 0⟩, ⟨0x110, 1, 4, 0, 0, 0, 0, 0⟩,
   ⟨0x114, 1, 4, 0, 0, 0, 0, 0⟩, ⟨0x118, 1, 4, 0, 0, 0, 0, 0⟩, ⟨0x200, 64, 4, 0, 0, 0, 0, 0⟩]

/-- The rows of page AK_TIME (R311). -/
def timeRows : List RegRow :=
  [⟨0x40, 1, 4, 0, 0, 0, 0, 0⟩, ⟨0x44, 1, 4, 0, 0, 0, 0, 0⟩, ⟨0x48, 1, 4, 0, 0x3, 0, 0x4, 0⟩,
   ⟨0x4C, 1, 4, 0, 0xFFFFFFFF, 0, 0, 0⟩, ⟨0x50, 1, 4, 0, 0xFFFFFFFF, 0, 0, 0⟩,
   ⟨0x54, 1, 4, 0, 0x8000003F, 0, 0, 0⟩, ⟨0x58, 1, 4, 0, 0xFFFF, 0, 0, 0xA⟩,
   ⟨0x5C, 1, 4, 0, 0xFFFF, 0, 0, 0x7D0⟩, ⟨0x60, 1, 4, 0, 0xFFFF, 0, 0, 0x64⟩,
   ⟨0x64, 1, 4, 0, 0xFFFF, 0, 0, 0x64⟩, ⟨0x68, 1, 4, 0, 0, 0, 0, 0⟩, ⟨0x6C, 1, 4, 0, 0, 0, 0, 0⟩,
   ⟨0x70, 1, 4, 0, 0, 0, 0, 0⟩, ⟨0x74, 1, 4, 0, 0, 0, 0, 0⟩, ⟨0x78, 1, 4, 0, 0, 0, 0, 0⟩,
   ⟨0x7C, 1, 4, 0, 0, 0, 0, 0⟩, ⟨0x80, 1, 4, 0, 0, 0, 0, 0⟩, ⟨0x84, 1, 4, 0, 0xFFFF, 0, 0, 0x5⟩,
   ⟨0x88, 1, 4, 0, 0xFFFF, 0, 0, 0x3E8⟩, ⟨0x8C, 1, 4, 0, 0, 0, 0, 0⟩, ⟨0x90, 1, 4, 0, 0, 0, 0x1, 0⟩]

/-- The rows of page AK_RNG (R63). -/
def rngRows : List RegRow :=
  [⟨0x40, 1, 4, 0, 0xFFFFFFFF, 0, 0, 0⟩, ⟨0x44, 1, 4, 0, 0xFFFFFFFF, 0, 0, 0⟩,
   ⟨0x48, 1, 4, 0, 0, 0, 0x1, 0⟩, ⟨0x4C, 1, 4, 0, 0, 0, 0, 0⟩, ⟨0x50, 1, 4, 0, 0, 0, 0, 0⟩,
   ⟨0x54, 1, 4, 0, 0, 0, 0, 0⟩, ⟨0x58, 1, 4, 0xFFFFFFFF, 0, 0, 0, 0⟩,
   ⟨0x5C, 1, 4, 0xFFFFFF, 0, 0, 0, 0⟩, ⟨0x60, 1, 4, 0xFFFFFFFF, 0, 0, 0, 0⟩,
   ⟨0x64, 1, 4, 0xFF, 0, 0, 0, 0⟩, ⟨0x68, 1, 4, 0, 0, 0, 0, 0⟩, ⟨0x80, 8, 4, 0xFFFFFFFF, 0, 0, 0, 0⟩]

/-- The rows of page AK_TBL (R166). -/
def tblRows : List RegRow :=
  [⟨0x40, 1, 4, 0, 0, 0, 0x1, 0⟩, ⟨0x44, 1, 4, 0, 0, 0, 0, 0xFFFF⟩, ⟨0x48, 1, 4, 0, 0, 0, 0, 0⟩,
   ⟨0x4C, 1, 4, 0, 0, 0, 0, 0⟩, ⟨0x50, 1, 4, 0, 0, 0x80000000, 0, 0⟩, ⟨0x54, 1, 4, 0, 0, 0, 0, 0⟩,
   ⟨0x80, 16, 4, 0, 0, 0, 0, 0⟩, ⟨0xC0, 16, 4, 0, 0, 0, 0, 0⟩, ⟨0x100, 16, 4, 0, 0, 0, 0, 0⟩,
   ⟨0x140, 16, 4, 0, 0, 0, 0, 0⟩, ⟨0x200, 128, 4, 0, 0, 0, 0, 0⟩]

/-- The rows of page AK_SNAP (R341). -/
def snapRows : List RegRow :=
  [⟨0x40, 1, 4, 0, 0xFFFFFFFF, 0, 0, 0⟩, ⟨0x44, 2, 0x30, 0, 0xC00FFFFF, 0, 0, 0⟩,
   ⟨0x48, 2, 0x30, 0, 0x7FFF, 0, 0, 0⟩, ⟨0x4C, 2, 0x30, 0, 0xFFFFFFFF, 0, 0, 0⟩,
   ⟨0x50, 2, 0x30, 0, 0xFFFFF000, 0, 0, 0⟩, ⟨0x54, 2, 0x30, 0, 0xFFFF, 0, 0, 0⟩,
   ⟨0x58, 2, 0x30, 0, 0xFFFFFFFF, 0, 0, 0⟩, ⟨0x5C, 2, 0x30, 0, 0, 0, 0, 0⟩,
   ⟨0x60, 2, 0x30, 0, 0, 0, 0, 0⟩, ⟨0x64, 2, 0x30, 0, 0, 0, 0, 0⟩, ⟨0x68, 2, 0x30, 0, 0, 0, 0, 0⟩,
   ⟨0x6C, 2, 0x30, 0, 0, 0, 0, 0⟩, ⟨0x70, 2, 0x30, 0, 0, 0, 0, 0⟩,
   ⟨0xA4, 1, 4, 0, 0xF0FFFF, 0, 0, 0x3003E8⟩, ⟨0xA8, 1, 4, 0, 0xFFFF, 0, 0, 0x1F4⟩,
   ⟨0xAC, 1, 4, 0, 0, 0, 0, 0x20000⟩, ⟨0xB0, 1, 4, 0, 0, 0x80000000, 0, 0⟩,
   ⟨0xB4, 1, 4, 0, 0, 0, 0, 0⟩, ⟨0xB8, 1, 4, 0, 0, 0, 0, 0⟩, ⟨0xBC, 1, 4, 0, 0, 0, 0, 0⟩,
   ⟨0xC0, 1, 4, 0, 0, 0, 0, 0⟩, ⟨0xC4, 1, 4, 0, 0, 0, 0, 0⟩, ⟨0xC8, 1, 4, 0, 0, 0, 0x1, 0⟩,
   ⟨0x100, 64, 4, 0x800FFFFF, 0, 0, 0, 0⟩]

/-- The rows of page AK_QMGR (R246). -/
def qmgrRows : List RegRow :=
  [⟨0x40, 1, 4, 0, 0, 0, 0xFFFFFFFF, 0⟩, ⟨0x44, 1, 4, 0, 0, 0, 0xFFFFFFFF, 0⟩,
   ⟨0x48, 1, 4, 0, 0xFFFFFFFF, 0, 0, 0x10182018⟩, ⟨0x4C, 1, 4, 0, 0, 0, 0, 0⟩,
   ⟨0x50, 1, 4, 0, 0, 0, 0, 0⟩, ⟨0x54, 1, 4, 0, 0, 0, 0, 0⟩, ⟨0x58, 1, 4, 0, 0, 0, 0, 0x40⟩,
   ⟨0x5C, 1, 4, 0, 0, 0, 0x1FFFF, 0⟩, ⟨0x60, 1, 4, 0, 0, 0, 0, 0⟩, ⟨0x64, 1, 4, 0, 0, 0, 0, 0⟩,
   ⟨0x68, 1, 4, 0, 0, 0, 0, 0⟩, ⟨0x6C, 1, 4, 0, 0, 0, 0, 0⟩, ⟨0x70, 1, 4, 0, 0, 0, 0, 0⟩,
   ⟨0x74, 1, 4, 0, 0, 0, 0, 0⟩, ⟨0x78, 1, 4, 0, 0, 0, 0, 0⟩, ⟨0x7C, 1, 4, 0, 0, 0, 0, 0⟩,
   ⟨0x80, 1, 4, 0, 0, 0, 0, 0⟩, ⟨0x84, 1, 4, 0, 0, 0, 0x1, 0⟩, ⟨0x88, 1, 4, 0, 0, 0x80000000, 0, 0⟩,
   ⟨0x8C, 1, 4, 0, 0, 0, 0, 0⟩, ⟨0x90, 1, 4, 0, 0, 0, 0, 0⟩]

/-- The rows of page AK_STAT (R117). -/
def statRows : List RegRow :=
  [⟨0x40, 1, 4, 0x3F, 0, 0, 0, 0⟩, ⟨0x44, 1, 4, 0, 0, 0, 0x8000003F, 0⟩, ⟨0x48, 1, 4, 0, 0, 0, 0, 0⟩,
   ⟨0x4C, 1, 4, 0, 0, 0, 0, 0⟩, ⟨0x400, 260, 4, 0, 0, 0, 0, 0⟩]

/-- The rows of page AK_PIER (R94, R120, R167). -/
def pierRows : List RegRow :=
  [⟨0x40, 1, 4, 0, 0, 0, 0, 0⟩, ⟨0x44, 1, 4, 0, 0, 0, 0, 0⟩, ⟨0x48, 1, 4, 0, 0, 0, 0, 0⟩,
   ⟨0x4C, 1, 4, 0, 0, 0, 0, 0⟩, ⟨0x50, 1, 4, 0, 0, 0, 0, 0⟩, ⟨0x54, 1, 4, 0, 0, 0, 0, 0⟩,
   ⟨0x58, 1, 4, 0, 0, 0, 0, 0⟩, ⟨0x5C, 1, 4, 0, 0, 0, 0, 0⟩, ⟨0x60, 1, 4, 0, 0, 0, 0, 0⟩,
   ⟨0x64, 1, 4, 0, 0, 0, 0, 0⟩, ⟨0x68, 1, 4, 0, 0, 0, 0, 0⟩, ⟨0x6C, 1, 4, 0, 0, 0, 0, 0⟩,
   ⟨0x70, 1, 4, 0, 0, 0, 0x1, 0⟩, ⟨0x80, 1, 4, 0, 0, 0, 0, 0⟩, ⟨0x84, 1, 4, 0, 0, 0, 0, 0⟩,
   ⟨0x88, 1, 4, 0, 0, 0, 0, 0⟩, ⟨0x8C, 1, 4, 0, 0, 0, 0, 0⟩, ⟨0x90, 1, 4, 0, 0, 0, 0, 0⟩,
   ⟨0x94, 1, 4, 0, 0, 0, 0, 0⟩, ⟨0x98, 1, 4, 0, 0, 0, 0x1, 0⟩, ⟨0x9C, 1, 4, 0, 0, 0, 0, 0⟩,
   ⟨0xC0, 1, 4, 0, 0, 0, 0, 0⟩, ⟨0xC4, 1, 4, 0, 0, 0, 0, 0⟩, ⟨0xC8, 1, 4, 0, 0, 0, 0, 0⟩,
   ⟨0xCC, 1, 4, 0, 0, 0, 0, 0⟩, ⟨0xD0, 1, 4, 0, 0, 0, 0, 0⟩, ⟨0xD4, 1, 4, 0, 0, 0, 0, 0⟩,
   ⟨0xD8, 1, 4, 0, 0, 0, 0, 0⟩, ⟨0xDC, 1, 4, 0, 0, 0, 0, 0⟩, ⟨0xE0, 1, 4, 0, 0, 0, 0, 0⟩,
   ⟨0xE4, 1, 4, 0, 0, 0, 0, 0⟩, ⟨0xE8, 1, 4, 0, 0, 0, 0, 0⟩, ⟨0xEC, 1, 4, 0, 0, 0, 0x1, 0⟩]

/-- The rows of page AK_PORT (R309, R399). -/
def portRows : List RegRow :=
  [⟨0x40, 1, 4, 0, 0xFF000301, 0, 0, 0xFF000000⟩, ⟨0x44, 1, 4, 0, 0, 0, 0x3, 0⟩,
   ⟨0x48, 2, 4, 0, 0, 0, 0, 0⟩, ⟨0x50, 1, 4, 0, 0, 0, 0, 0⟩,
   ⟨0x54, 2, 4, 0, 0xC3FFFFFF, 0, 0, 0x40000000⟩, ⟨0x5C, 2, 4, 0, 0, 0, 0, 0⟩,
   ⟨0x64, 1, 4, 0, 0xFFFFFFFF, 0, 0, 0x80003E8⟩, ⟨0x68, 1, 4, 0, 0xFFFFFF00, 0, 0, 0x381A0D00⟩,
   ⟨0x6C, 1, 4, 0, 0xFFFFFF00, 0, 0, 0x381A0D00⟩, ⟨0x70, 1, 4, 0, 0xFFFFFF00, 0, 0, 0x22040200⟩,
   ⟨0x74, 1, 4, 0, 0xFFFFFF00, 0, 0, 0x22040200⟩, ⟨0x78, 1, 4, 0, 0xFFFFFF00, 0, 0, 0x22040200⟩,
   ⟨0x7C, 1, 4, 0, 0xFFFFFF00, 0, 0, 0x22040200⟩, ⟨0x80, 1, 4, 0, 0xFFFFFF00, 0, 0, 0x8000000⟩,
   ⟨0x84, 1, 4, 0, 0xFFFFFF00, 0, 0, 0x0⟩, ⟨0x88, 1, 4, 0, 0, 0, 0, 0⟩,
   ⟨0x8C, 1, 4, 0, 0, 0, 0, 0⟩, ⟨0x90, 1, 4, 0, 0, 0, 0, 0⟩, ⟨0x94, 1, 4, 0, 0, 0, 0, 0⟩,
   ⟨0x98, 1, 4, 0, 0, 0, 0, 0⟩, ⟨0x9C, 1, 4, 0, 0, 0, 0, 0⟩, ⟨0xA0, 1, 4, 0, 0, 0, 0, 0⟩,
   ⟨0xA4, 1, 4, 0, 0, 0, 0, 0⟩, ⟨0xA8, 1, 4, 0, 0, 0, 0, 0⟩, ⟨0xAC, 1, 4, 0, 0, 0, 0, 0⟩,
   ⟨0xB0, 1, 4, 0, 0, 0, 0, 0⟩, ⟨0xB4, 1, 4, 0, 0, 0, 0, 0⟩, ⟨0xB8, 1, 4, 0, 0, 0, 0x1, 0⟩,
   ⟨0x400, 8, 0x40, 0x3F, 0, 0, 0xC0, 0⟩, ⟨0x404, 8, 0x40, 0, 0, 0x20000000, 0, 0⟩,
   ⟨0x408, 8, 0x40, 0, 0, 0, 0, 0⟩, ⟨0x40C, 8, 0x40, 0, 0, 0, 0, 0⟩, ⟨0x410, 8, 0x40, 0, 0, 0, 0, 0⟩,
   ⟨0x414, 8, 0x40, 0, 0, 0, 0, 0⟩, ⟨0x418, 8, 0x40, 0, 0, 0, 0, 0⟩, ⟨0x41C, 8, 0x40, 0, 0, 0, 0, 0⟩,
   ⟨0x420, 8, 0x40, 0, 0, 0, 0, 0⟩, ⟨0x600, 1, 4, 0, 0, 0, 0, 0⟩, ⟨0x604, 1, 4, 0, 0, 0, 0, 0⟩,
   ⟨0x608, 1, 4, 0, 0, 0, 0, 0⟩, ⟨0x60C, 1, 4, 0, 0, 0, 0, 0⟩, ⟨0x610, 15, 4, 0, 0, 0, 0, 0⟩,
   ⟨0x64C, 1, 4, 0, 0, 0, 0x1, 0⟩]

/-- The rows of page AK_DECK (R310). -/
def deckRows : List RegRow :=
  [⟨0x40, 1, 4, 0, 0xFFFF, 0, 0, 0⟩, ⟨0x44, 1, 4, 0, 0xFB, 0, 0, 0x8⟩,
   ⟨0x48, 1, 4, 0, 0xFFFF, 0, 0, 0x10⟩, ⟨0x4C, 1, 4, 0, 0xFFFFFFFF, 0, 0, 0x1010404⟩,
   ⟨0x50, 1, 4, 0, 0xFF, 0, 0, 0x40⟩, ⟨0x60, 6, 4, 0, 0x1FFFF, 0, 0, 0⟩,
   ⟨0x80, 6, 0x10, 0, 0xFFFFFFFF, 0, 0, 0⟩, ⟨0x84, 6, 0x10, 0, 0xFFFF, 0, 0, 0⟩,
   ⟨0x88, 6, 0x10, 0, 0xFFFFFFFF, 0, 0, 0⟩, ⟨0x8C, 6, 0x10, 0, 0xFFFF, 0, 0, 0⟩,
   ⟨0xE0, 1, 4, 0, 0, 0, 0, 0⟩, ⟨0xE4, 1, 4, 0, 0, 0, 0, 0⟩, ⟨0xE8, 1, 4, 0, 0, 0, 0, 0⟩,
   ⟨0xEC, 1, 4, 0, 0, 0, 0, 0⟩, ⟨0xF0, 1, 4, 0, 0, 0, 0, 0⟩, ⟨0xF4, 1, 4, 0, 0, 0, 0, 0⟩,
   ⟨0xF8, 1, 4, 0, 0x2, 0, 0x1, 0⟩, ⟨0xFC, 1, 4, 0, 0, 0, 0, 0⟩]

/-- The rows of page AK_ABUT (R225). -/
def abutRows : List RegRow :=
  [⟨0x40, 1, 4, 0, 0, 0, 0, 0⟩, ⟨0x44, 1, 4, 0, 0, 0, 0x3, 0⟩, ⟨0x48, 1, 4, 0, 0, 0, 0, 0⟩,
   ⟨0x4C, 1, 4, 0, 0, 0, 0, 0⟩, ⟨0x50, 1, 4, 0, 0, 0, 0, 0⟩, ⟨0x54, 1, 4, 0, 0, 0, 0, 0⟩,
   ⟨0x58, 1, 4, 0, 0, 0, 0, 0⟩, ⟨0x5C, 1, 4, 0, 0, 0, 0, 0⟩, ⟨0x60, 1, 4, 0, 0, 0, 0, 0⟩,
   ⟨0x64, 1, 4, 0, 0, 0, 0, 0⟩, ⟨0x68, 1, 4, 0, 0, 0, 0, 0⟩, ⟨0x6C, 1, 4, 0, 0, 0, 0, 0⟩,
   ⟨0x70, 1, 4, 0, 0, 0, 0, 0⟩, ⟨0x74, 1, 4, 0, 0, 0, 0, 0⟩, ⟨0x78, 1, 4, 0, 0, 0, 0, 0⟩,
   ⟨0x7C, 1, 4, 0, 0, 0, 0, 0⟩, ⟨0x80, 1, 4, 0, 0, 0, 0, 0⟩, ⟨0x84, 1, 4, 0, 0, 0, 0, 0⟩,
   ⟨0x88, 1, 4, 0, 0, 0, 0, 0⟩, ⟨0x8C, 1, 4, 0, 0, 0, 0, 0⟩, ⟨0x90, 1, 4, 0, 0, 0, 0, 0⟩]

/-- The rows of page AK_RMA (R276). -/
def rmaRows : List RegRow :=
  [⟨0x40, 1, 4, 0, 0xFFFF, 0, 0, 0xC8⟩, ⟨0x44, 1, 4, 0, 0xFFFF, 0, 0, 0x50⟩,
   ⟨0x48, 1, 4, 0, 0xFFFF, 0, 0, 0x14⟩, ⟨0x4C, 1, 4, 0, 0xFFFF, 0, 0, 0x1F4⟩,
   ⟨0x50, 1, 4, 0, 0xFFFF, 0, 0, 0x3E80⟩, ⟨0x54, 1, 4, 0, 0xFFFF, 0, 0, 0xA⟩,
   ⟨0x58, 1, 4, 0, 0xFFFFFFFF, 0, 0, 0x320064⟩, ⟨0x5C, 1, 4, 0, 0xFFFF, 0, 0, 0x3E80⟩,
   ⟨0x60, 1, 4, 0, 0, 0, 0xFFFFFFFF, 0⟩, ⟨0x64, 1, 4, 0, 0, 0x60000000, 0, 0⟩,
   ⟨0x68, 1, 4, 0, 0, 0, 0xFFCFFFFF, 0⟩, ⟨0x6C, 1, 4, 0, 0, 0x80000000, 0, 0⟩,
   ⟨0x70, 1, 4, 0, 0, 0, 0, 0⟩, ⟨0x74, 1, 4, 0, 0, 0, 0, 0⟩, ⟨0x78, 1, 4, 0, 0, 0, 0, 0⟩,
   ⟨0x7C, 1, 4, 0, 0, 0, 0, 0⟩, ⟨0x80, 1, 4, 0, 0, 0, 0, 0⟩, ⟨0x84, 1, 4, 0, 0, 0, 0, 0⟩,
   ⟨0x88, 1, 4, 0, 0, 0, 0, 0⟩, ⟨0x8C, 1, 4, 0, 0, 0, 0, 0⟩, ⟨0x90, 1, 4, 0, 0, 0, 0, 0⟩,
   ⟨0x94, 1, 4, 0, 0, 0, 0, 0⟩, ⟨0x98, 1, 4, 0, 0, 0, 0, 0⟩, ⟨0x9C, 1, 4, 0, 0, 0, 0, 0⟩,
   ⟨0xA0, 1, 4, 0, 0, 0, 0, 0⟩, ⟨0xA4, 1, 4, 0, 0, 0, 0x3, 0⟩, ⟨0xA8, 1, 4, 0, 0, 0, 0, 0⟩,
   ⟨0xAC, 1, 4, 0, 0, 0, 0, 0⟩, ⟨0x200, 128, 4, 0, 0, 0, 0, 0⟩]

/-- The rows of page AK_SEC (R278). -/
def secRows : List RegRow :=
  [⟨0x40, 1, 4, 0, 0x37FFF, 0, 0, 0⟩, ⟨0x44, 8, 4, 0, 0, 0, 0xFFFFFFFF, 0⟩,
   ⟨0x64, 1, 4, 0, 0, 0, 0x7, 0⟩, ⟨0x68, 1, 4, 0, 0, 0, 0, 0⟩, ⟨0x6C, 1, 4, 0, 0, 0, 0, 0⟩,
   ⟨0x70, 1, 4, 0, 0, 0, 0, 0⟩, ⟨0x74, 1, 4, 0, 0, 0, 0, 0⟩]

/-- The rows of page AK_TEST (R404). -/
def testRows : List RegRow :=
  [⟨0x40, 1, 4, 0, 0xF0, 0, 0x3, 0⟩, ⟨0x44, 1, 4, 0, 0x7F, 0, 0, 0⟩,
   ⟨0x48, 1, 4, 0, 0, 0x40000000, 0, 0⟩, ⟨0x4C, 1, 4, 0, 0, 0, 0, 0⟩, ⟨0x50, 1, 4, 0, 0, 0, 0, 0⟩,
   ⟨0x54, 1, 4, 0, 0, 0, 0, 0⟩, ⟨0x58, 1, 4, 0, 0, 0, 0, 0⟩, ⟨0x5C, 1, 4, 0, 0, 0, 0, 0⟩,
   ⟨0x60, 1, 4, 0, 0, 0, 0x1, 0⟩]

/-- The rows of the common header (R370). -/
def headerRows : List RegRow :=
  [⟨0x0, 1, 4, 0, 0, 0, 0, 0x201⟩, ⟨0x4, 1, 4, 0, 0, 0, 0, 0⟩, ⟨0x8, 1, 4, 0, 0, 0, 0, 0⟩,
   ⟨0xC, 1, 4, 0, 0x5, 0, 0x2, 0x1⟩, ⟨0x10, 1, 4, 0, 0, 0, 0, 0⟩,
   ⟨0x14, 1, 4, 0, 0, 0xFFFFFFFF, 0, 0⟩, ⟨0x18, 1, 4, 0xFFFFFFFF, 0, 0, 0, 0⟩,
   ⟨0x1C, 1, 4, 0, 0, 0, 0xFFFFFFFF, 0⟩, ⟨0x20, 1, 4, 0, 0, 0x80000000, 0, 0⟩,
   ⟨0x24, 1, 4, 0, 0, 0, 0, 0⟩, ⟨0x28, 1, 4, 0xFFFFFFFF, 0, 0, 0, 0⟩,
   ⟨0x2C, 1, 4, 0xFFFFFFFF, 0, 0, 0, 0⟩, ⟨0x30, 1, 4, 0x1, 0, 0, 0xFFFFFFFE, 0⟩]

/-- The rows of a page of its own, without the header. -/
def pageRows : PageKind → List RegRow
  | .top => topRows | .kstn => kstnRows | .pwr => pwrRows | .time => timeRows | .rng => rngRows
  | .tbl => tblRows | .snap => snapRows | .qmgr => qmgrRows | .stat => statRows | .pier _ => pierRows
  | .port _ => portRows | .deck => deckRows | .abut _ => abutRows | .rma => rmaRows | .sec => secRows
  | .test => testRows | .reserved => [] | .window => []

/-- A row covers an offset. -/
def RegRow.covers (r : RegRow) (off : Nat) : Bool :=
  decide (r.off ≤ off ∧ (off - r.off) % r.stride = 0 ∧ (off - r.off) / r.stride < r.count)

/-- The row of a window address, if a register stands there. -/
def regRow (addr : Nat) : Option RegRow :=
  let page := addr / 4096
  let off := addr % 4096
  match pageKind page with
  | .reserved => none
  | .window => none
  | k => if off < 0x40 then headerRows.find? (·.covers off) else (pageRows k).find? (·.covers off)

/-- A port page's ENABLE resets to 0 (R370), every other row to its table's value. -/
def regReset (addr : Nat) : Nat :=
  match pageKind (addr / 4096) with
  | .port _ => if addr % 4096 = 0x0C then 0 else ((regRow addr).map RegRow.reset).getD 0
  | _ => ((regRow addr).map RegRow.reset).getD 0

end Sys2Proof.Machine

namespace Sys2Proof.Machine.R

/-- RNG_SEED_LO (R63). -/
def rngSeedLo : Nat := regAddr 0x4 0x40
/-- RNG_SEED_HI (R63). -/
def rngSeedHi : Nat := regAddr 0x4 0x44
/-- RNG_CTRL (R63). -/
def rngCtrl : Nat := regAddr 0x4 0x48
/-- RNG_STAT (R63). -/
def rngStat : Nat := regAddr 0x4 0x4C
/-- RNG_ACTIVE_LO (R63). -/
def rngActiveLo : Nat := regAddr 0x4 0x50
/-- RNG_ACTIVE_HI (R63). -/
def rngActiveHi : Nat := regAddr 0x4 0x54
/-- RNG_TEST_STEP (R63). -/
def rngTestStep : Nat := regAddr 0x4 0x58
/-- RNG_TEST_STREAM (R63). -/
def rngTestStream : Nat := regAddr 0x4 0x5C
/-- RNG_TEST_INDEX_LO (R63). -/
def rngTestIndexLo : Nat := regAddr 0x4 0x60
/-- RNG_TEST_INDEX_HI (R63). -/
def rngTestIndexHi : Nat := regAddr 0x4 0x64
/-- RNG_TEST_OUT (R63). -/
def rngTestOut : Nat := regAddr 0x4 0x68
/-- HOST_CTR0–7 (R63). -/
def hostCtr (i : Nat) : Nat := regAddr 0x4 (0x80 + 4 * i)
/-- PIER_SEL_CHUNKS_LO (R94). -/
def pierSelChunksLo (pier : Nat) : Nat := regAddr (0x10 + pier) 0x40
/-- PIER_SEL_CHUNKS_HI (R94). -/
def pierSelChunksHi (pier : Nat) : Nat := regAddr (0x10 + pier) 0x44
/-- PIER_SEL_READS_LO (R94). -/
def pierSelReadsLo (pier : Nat) : Nat := regAddr (0x10 + pier) 0x48
/-- PIER_SEL_READS_HI (R94). -/
def pierSelReadsHi (pier : Nat) : Nat := regAddr (0x10 + pier) 0x4C
/-- PIER_SEL_REFINE (R94). -/
def pierSelRefine (pier : Nat) : Nat := regAddr (0x10 + pier) 0x50
/-- PIER_SEL_MULTI (R94). -/
def pierSelMulti (pier : Nat) : Nat := regAddr (0x10 + pier) 0x54
/-- PIER_SEL_PARTIAL (R94). -/
def pierSelPartial (pier : Nat) : Nat := regAddr (0x10 + pier) 0x58
/-- PIER_SEL_TIES (R94). -/
def pierSelTies (pier : Nat) : Nat := regAddr (0x10 + pier) 0x5C
/-- PIER_SEL_RECORD (R94). -/
def pierSelRecord (pier : Nat) : Nat := regAddr (0x10 + pier) 0x60
/-- PIER_SEL_CUR (R94). -/
def pierSelCur (pier : Nat) : Nat := regAddr (0x10 + pier) 0x64
/-- PIER_SEL_CUR_STREAM (R94). -/
def pierSelCurStream (pier : Nat) : Nat := regAddr (0x10 + pier) 0x68
/-- PIER_SEL_CUR_CHUNK (R94). -/
def pierSelCurChunk (pier : Nat) : Nat := regAddr (0x10 + pier) 0x6C
/-- PIER_SEL_CTRL (R94). -/
def pierSelCtrl (pier : Nat) : Nat := regAddr (0x10 + pier) 0x70
/-- STAT_SEL (R117). -/
def statSel : Nat := regAddr 0x8 0x40
/-- STAT_CLEAR (R117). -/
def statClear : Nat := regAddr 0x8 0x44
/-- STAT_SAT_LO (R117). -/
def statSatLo : Nat := regAddr 0x8 0x48
/-- STAT_SAT_HI (R117). -/
def statSatHi : Nat := regAddr 0x8 0x4C
/-- STAT_BIN0–259 (R117). -/
def statBin (i : Nat) : Nat := regAddr 0x8 (0x400 + 4 * i)
/-- PIER_CMP_ELEMS_LO (R120). -/
def pierCmpElemsLo (pier : Nat) : Nat := regAddr (0x10 + pier) 0x80
/-- PIER_CMP_ELEMS_HI (R120). -/
def pierCmpElemsHi (pier : Nat) : Nat := regAddr (0x10 + pier) 0x84
/-- PIER_CMP_CHUNKS (R120). -/
def pierCmpChunks (pier : Nat) : Nat := regAddr (0x10 + pier) 0x88
/-- PIER_CMP_NF (R120). -/
def pierCmpNf (pier : Nat) : Nat := regAddr (0x10 + pier) 0x8C
/-- PIER_CMP_HELD (R120). -/
def pierCmpHeld (pier : Nat) : Nat := regAddr (0x10 + pier) 0x90
/-- PIER_CMP_BLOCKS (R120). -/
def pierCmpBlocks (pier : Nat) : Nat := regAddr (0x10 + pier) 0x94
/-- PIER_CMP_CTRL (R120). -/
def pierCmpCtrl (pier : Nat) : Nat := regAddr (0x10 + pier) 0x98
/-- PIER_FLUSH (R120). -/
def pierFlush (pier : Nat) : Nat := regAddr (0x10 + pier) 0x9C
/-- TBL_CTRL (R166). -/
def tblCtrl : Nat := regAddr 0x5 0x40
/-- TBL_FREE (R166). -/
def tblFree : Nat := regAddr 0x5 0x44
/-- TBL_LOG_CNT (R166). -/
def tblLogCnt : Nat := regAddr 0x5 0x48
/-- TBL_LOG_HEAD (R166). -/
def tblLogHead : Nat := regAddr 0x5 0x4C
/-- TBL_ACK_ERR (R166). -/
def tblAckErr : Nat := regAddr 0x5 0x50
/-- TBL_ACK_ERR_NODE (R166). -/
def tblAckErrNode : Nat := regAddr 0x5 0x54
/-- TBL_SLOT0–15_STAT (R166). -/
def tblSlotStat (i : Nat) : Nat := regAddr 0x5 (0x80 + 4 * i)
/-- TBL_SLOT0–15_REF (R166). -/
def tblSlotRef (i : Nat) : Nat := regAddr 0x5 (0xC0 + 4 * i)
/-- TBL_SLOT0–15_ID (R166). -/
def tblSlotId (i : Nat) : Nat := regAddr 0x5 (0x100 + 4 * i)
/-- TBL_SLOT0–15_CRC (R166). -/
def tblSlotCrc (i : Nat) : Nat := regAddr 0x5 (0x140 + 4 * i)
/-- TBL_LOG0–15 (R166). -/
def tblLog (i : Nat) : Nat := regAddr 0x5 (0x200 + 0x20 * i)
/-- PIER_COD_RAW (R167). -/
def pierCodRaw (pier : Nat) : Nat := regAddr (0x10 + pier) 0xC0
/-- PIER_COD_CODED (R167). -/
def pierCodCoded (pier : Nat) : Nat := regAddr (0x10 + pier) 0xC4
/-- PIER_COD_STORED (R167). -/
def pierCodStored (pier : Nat) : Nat := regAddr (0x10 + pier) 0xC8
/-- PIER_COD_ZERO (R167). -/
def pierCodZero (pier : Nat) : Nat := regAddr (0x10 + pier) 0xCC
/-- PIER_COD_ESC (R167). -/
def pierCodEsc (pier : Nat) : Nat := regAddr (0x10 + pier) 0xD0
/-- PIER_DEC_BLOCKS (R167). -/
def pierDecBlocks (pier : Nat) : Nat := regAddr (0x10 + pier) 0xD4
/-- PIER_DEC_REJECT (R167). -/
def pierDecReject (pier : Nat) : Nat := regAddr (0x10 + pier) 0xD8
/-- PIER_DEC_OVERRUN (R167). -/
def pierDecOverrun (pier : Nat) : Nat := regAddr (0x10 + pier) 0xDC
/-- PIER_DEC_UNDERRUN (R167). -/
def pierDecUnderrun (pier : Nat) : Nat := regAddr (0x10 + pier) 0xE0
/-- PIER_DEC_STALE (R167). -/
def pierDecStale (pier : Nat) : Nat := regAddr (0x10 + pier) 0xE4
/-- PIER_EXP_SAT (R167). -/
def pierExpSat (pier : Nat) : Nat := regAddr (0x10 + pier) 0xE8
/-- PIER_TBL_CTRL (R167). -/
def pierTblCtrl (pier : Nat) : Nat := regAddr (0x10 + pier) 0xEC
/-- ABUT_STACK (R225). -/
def abutStack (abut : Nat) : Nat := regAddr (0x68 + abut) 0x40
/-- ABUT_CTRL (R225). -/
def abutCtrl (abut : Nat) : Nat := regAddr (0x68 + abut) 0x44
/-- ABUT_CB_VALID (R225). -/
def abutCbValid (abut : Nat) : Nat := regAddr (0x68 + abut) 0x48
/-- ABUT_CB_DIRTY (R225). -/
def abutCbDirty (abut : Nat) : Nat := regAddr (0x68 + abut) 0x4C
/-- ABUT_CB_LOOKUP_LO (R225). -/
def abutCbLookupLo (abut : Nat) : Nat := regAddr (0x68 + abut) 0x50
/-- ABUT_CB_LOOKUP_HI (R225). -/
def abutCbLookupHi (abut : Nat) : Nat := regAddr (0x68 + abut) 0x54
/-- ABUT_CB_MISS_LO (R225). -/
def abutCbMissLo (abut : Nat) : Nat := regAddr (0x68 + abut) 0x58
/-- ABUT_CB_MISS_HI (R225). -/
def abutCbMissHi (abut : Nat) : Nat := regAddr (0x68 + abut) 0x5C
/-- ABUT_CB_WB_LO (R225). -/
def abutCbWbLo (abut : Nat) : Nat := regAddr (0x68 + abut) 0x60
/-- ABUT_CB_WB_HI (R225). -/
def abutCbWbHi (abut : Nat) : Nat := regAddr (0x68 + abut) 0x64
/-- ABUT_ACC_OPS_LO (R225). -/
def abutAccOpsLo (abut : Nat) : Nat := regAddr (0x68 + abut) 0x68
/-- ABUT_ACC_OPS_HI (R225). -/
def abutAccOpsHi (abut : Nat) : Nat := regAddr (0x68 + abut) 0x6C
/-- ABUT_ACC_SAT (R225). -/
def abutAccSat (abut : Nat) : Nat := regAddr (0x68 + abut) 0x70
/-- ABUT_MAX_OPS (R225). -/
def abutMaxOps (abut : Nat) : Nat := regAddr (0x68 + abut) 0x74
/-- ABUT_RESCALE_SAT (R225). -/
def abutRescaleSat (abut : Nat) : Nat := regAddr (0x68 + abut) 0x78
/-- ABUT_UPD_ELEMS_LO (R225). -/
def abutUpdElemsLo (abut : Nat) : Nat := regAddr (0x68 + abut) 0x7C
/-- ABUT_UPD_ELEMS_HI (R225). -/
def abutUpdElemsHi (abut : Nat) : Nat := regAddr (0x68 + abut) 0x80
/-- ABUT_UPD_NF (R225). -/
def abutUpdNf (abut : Nat) : Nat := regAddr (0x68 + abut) 0x84
/-- ABUT_POISON_OUT (R225). -/
def abutPoisonOut (abut : Nat) : Nat := regAddr (0x68 + abut) 0x88
/-- ABUT_CUR (R225). -/
def abutCur (abut : Nat) : Nat := regAddr (0x68 + abut) 0x8C
/-- ABUT_FLUSH (R225). -/
def abutFlush (abut : Nat) : Nat := regAddr (0x68 + abut) 0x90
/-- QMGR_RING_DB (R246). -/
def qmgrRingDb : Nat := regAddr 0x7 0x40
/-- QMGR_CQ_DB (R246). -/
def qmgrCqDb : Nat := regAddr 0x7 0x44
/-- QMGR_SPAN_SHARE (R246). -/
def qmgrSpanShare : Nat := regAddr 0x7 0x48
/-- QMGR_USE_OUT (R246). -/
def qmgrUseOut : Nat := regAddr 0x7 0x4C
/-- QMGR_USE_IN (R246). -/
def qmgrUseIn : Nat := regAddr 0x7 0x50
/-- QMGR_USE_RETAIN (R246). -/
def qmgrUseRetain : Nat := regAddr 0x7 0x54
/-- QMGR_USE_CAND (R246). -/
def qmgrUseCand : Nat := regAddr 0x7 0x58
/-- QMGR_PP_CANCEL (R246). -/
def qmgrPpCancel : Nat := regAddr 0x7 0x5C
/-- QMGR_PP_CANCEL_RES (R246). -/
def qmgrPpCancelRes : Nat := regAddr 0x7 0x60
/-- QMGR_PP_USED (R246). -/
def qmgrPpUsed : Nat := regAddr 0x7 0x64
/-- QMGR_OUTSTANDING (R246). -/
def qmgrOutstanding : Nat := regAddr 0x7 0x68
/-- QMGR_DISPATCH_LO (R246). -/
def qmgrDispatchLo : Nat := regAddr 0x7 0x6C
/-- QMGR_DISPATCH_HI (R246). -/
def qmgrDispatchHi : Nat := regAddr 0x7 0x70
/-- QMGR_PP_FULL_CNT (R246). -/
def qmgrPpFullCnt : Nat := regAddr 0x7 0x74
/-- QMGR_CQ_WAIT_CNT (R246). -/
def qmgrCqWaitCnt : Nat := regAddr 0x7 0x78
/-- QMGR_RETAIN_WAIT_CNT (R246). -/
def qmgrRetainWaitCnt : Nat := regAddr 0x7 0x7C
/-- QMGR_CQ_DROP_CNT (R246). -/
def qmgrCqDropCnt : Nat := regAddr 0x7 0x80
/-- QMGR_CTRL (R246). -/
def qmgrCtrl : Nat := regAddr 0x7 0x84
/-- QMGR_RING_ERR (R246). -/
def qmgrRingErr : Nat := regAddr 0x7 0x88
/-- QMGR_RING_ERR_INFO (R246). -/
def qmgrRingErrInfo : Nat := regAddr 0x7 0x8C
/-- QMGR_ORPHAN_CNT (R246). -/
def qmgrOrphanCnt : Nat := regAddr 0x7 0x90
/-- RMA_RETX_TIMER (R276). -/
def rmaRetxTimer : Nat := regAddr 0x70 0x40
/-- RMA_REORDER_TIMER (R276). -/
def rmaReorderTimer : Nat := regAddr 0x70 0x44
/-- RMA_ACK_DELAY (R276). -/
def rmaAckDelay : Nat := regAddr 0x70 0x48
/-- RMA_RNR_TIMER (R276). -/
def rmaRnrTimer : Nat := regAddr 0x70 0x4C
/-- RMA_TOLL_INIT (R276). -/
def rmaTollInit : Nat := regAddr 0x70 0x50
/-- RMA_TOLL_MIN (R276). -/
def rmaTollMin : Nat := regAddr 0x70 0x54
/-- RMA_TOLL_STEP (R276). -/
def rmaTollStep : Nat := regAddr 0x70 0x58
/-- RMA_TOLL_MAX (R276). -/
def rmaTollMax : Nat := regAddr 0x70 0x5C
/-- RMA_REVOKE (R276). -/
def rmaRevoke : Nat := regAddr 0x70 0x60
/-- RMA_REVOKE_STAT (R276). -/
def rmaRevokeStat : Nat := regAddr 0x70 0x64
/-- RMA_SRQ_DB (R276). -/
def rmaSrqDb : Nat := regAddr 0x70 0x68
/-- RMA_CONN_ERR (R276). -/
def rmaConnErr : Nat := regAddr 0x70 0x6C
/-- RMA_PKT_TX_LO (R276). -/
def rmaPktTxLo : Nat := regAddr 0x70 0x70
/-- RMA_PKT_TX_HI (R276). -/
def rmaPktTxHi : Nat := regAddr 0x70 0x74
/-- RMA_PKT_RX_LO (R276). -/
def rmaPktRxLo : Nat := regAddr 0x70 0x78
/-- RMA_PKT_RX_HI (R276). -/
def rmaPktRxHi : Nat := regAddr 0x70 0x7C
/-- RMA_RESENT (R276). -/
def rmaResent : Nat := regAddr 0x70 0x80
/-- RMA_NAK_TX (R276). -/
def rmaNakTx : Nat := regAddr 0x70 0x84
/-- RMA_RNR_TX (R276). -/
def rmaRnrTx : Nat := regAddr 0x70 0x88
/-- RMA_DUP (R276). -/
def rmaDup : Nat := regAddr 0x70 0x8C
/-- RMA_OUT_WIN (R276). -/
def rmaOutWin : Nat := regAddr 0x70 0x90
/-- RMA_BAD_HDR (R276). -/
def rmaBadHdr : Nat := regAddr 0x70 0x94
/-- RMA_VIOL (R276). -/
def rmaViol : Nat := regAddr 0x70 0x98
/-- RMA_CE_RX (R276). -/
def rmaCeRx : Nat := regAddr 0x70 0x9C
/-- RMA_CUTS (R276). -/
def rmaCuts : Nat := regAddr 0x70 0xA0
/-- RMA_CTRL (R276). -/
def rmaCtrl : Nat := regAddr 0x70 0xA4
/-- RMA_LOG_CNT (R276). -/
def rmaLogCnt : Nat := regAddr 0x70 0xA8
/-- RMA_LOG_HEAD (R276). -/
def rmaLogHead : Nat := regAddr 0x70 0xAC
/-- RMA_LOG0–15 (R276). -/
def rmaLog (i : Nat) : Nat := regAddr 0x70 (0x200 + 0x20 * i)
/-- SEC_KEY_SEL (R278). -/
def secKeySel : Nat := regAddr 0x78 0x40
/-- SEC_KEY0–7 (R278). -/
def secKey (i : Nat) : Nat := regAddr 0x78 (0x44 + 4 * i)
/-- SEC_KEY_CTRL (R278). -/
def secKeyCtrl : Nat := regAddr 0x78 0x64
/-- SEC_KEY_STAT (R278). -/
def secKeyStat : Nat := regAddr 0x78 0x68
/-- SEC_PHASE_CNT (R278). -/
def secPhaseCnt : Nat := regAddr 0x78 0x6C
/-- SEC_AUTH_FAIL_CNT (R278). -/
def secAuthFailCnt : Nat := regAddr 0x78 0x70
/-- SEC_REKEY_DUE_CNT (R278). -/
def secRekeyDueCnt : Nat := regAddr 0x78 0x74
/-- PORT_CFG (R309). -/
def portCfg (port : Nat) : Nat := regAddr (0x40 + port) 0x40
/-- PORT_CMD (R309). -/
def portCmd (port : Nat) : Nat := regAddr (0x40 + port) 0x44
/-- PORT_STAT0, 1 (R309). -/
def portStat (port i : Nat) : Nat := regAddr (0x40 + port) (0x48 + 4 * i)
/-- PORT_LANE_FAULT (R309). -/
def portLaneFault (port : Nat) : Nat := regAddr (0x40 + port) 0x50
/-- PORT_EXP0, 1 (R309). -/
def portExp (port i : Nat) : Nat := regAddr (0x40 + port) (0x54 + 4 * i)
/-- PORT_SEEN0, 1 (R309). -/
def portSeen (port i : Nat) : Nat := regAddr (0x40 + port) (0x5C + 4 * i)
/-- PORT_DEGRADE (R309). -/
def portDegrade (port : Nat) : Nat := regAddr (0x40 + port) 0x64
/-- PORT_VL0–7 (R309). -/
def portVl (port i : Nat) : Nat := regAddr (0x40 + port) (0x68 + 4 * i)
/-- PORT_FRAMES_TX_LO (R309). -/
def portFramesTxLo (port : Nat) : Nat := regAddr (0x40 + port) 0x88
/-- PORT_FRAMES_TX_HI (R309). -/
def portFramesTxHi (port : Nat) : Nat := regAddr (0x40 + port) 0x8C
/-- PORT_FRAMES_RX_LO (R309). -/
def portFramesRxLo (port : Nat) : Nat := regAddr (0x40 + port) 0x90
/-- PORT_FRAMES_RX_HI (R309). -/
def portFramesRxHi (port : Nat) : Nat := regAddr (0x40 + port) 0x94
/-- PORT_LCRC_ERR (R309). -/
def portLcrcErr (port : Nat) : Nat := regAddr (0x40 + port) 0x98
/-- PORT_WORD_ERR (R309). -/
def portWordErr (port : Nat) : Nat := regAddr (0x40 + port) 0x9C
/-- PORT_STOMP_RX (R309). -/
def portStompRx (port : Nat) : Nat := regAddr (0x40 + port) 0xA0
/-- PORT_OVF (R309). -/
def portOvf (port : Nat) : Nat := regAddr (0x40 + port) 0xA4
/-- PORT_DROP (R309). -/
def portDrop (port : Nat) : Nat := regAddr (0x40 + port) 0xA8
/-- PORT_XOFF_TX (R309). -/
def portXoffTx (port : Nat) : Nat := regAddr (0x40 + port) 0xAC
/-- PORT_RETRAINS (R309). -/
def portRetrains (port : Nat) : Nat := regAddr (0x40 + port) 0xB0
/-- PORT_FEC_UNCORR (R309). -/
def portFecUncorr (port : Nat) : Nat := regAddr (0x40 + port) 0xB4
/-- PORT_CLR (R309). -/
def portClr (port : Nat) : Nat := regAddr (0x40 + port) 0xB8
/-- DECK_NODE (R310). -/
def deckNode : Nat := regAddr 0x60 0x40
/-- DECK_MODE (R310). -/
def deckMode : Nat := regAddr 0x60 0x44
/-- DECK_CE_THRESH (R310). -/
def deckCeThresh : Nat := regAddr 0x60 0x48
/-- DECK_ARB (R310). -/
def deckArb : Nat := regAddr 0x60 0x4C
/-- DECK_HOP_LIMIT (R310). -/
def deckHopLimit : Nat := regAddr 0x60 0x50
/-- DECK_RING0–5 (R310). -/
def deckRing (i : Nat) : Nat := regAddr 0x60 (0x60 + 4 * i)
/-- DECK_DIMd_PLUS_LO (R310). -/
def deckDimPlusLo (i : Nat) : Nat := regAddr 0x60 (0x80 + 0x10 * i)
/-- DECK_DIMd_PLUS_HI (R310). -/
def deckDimPlusHi (i : Nat) : Nat := regAddr 0x60 (0x84 + 0x10 * i)
/-- DECK_DIMd_MINUS_LO (R310). -/
def deckDimMinusLo (i : Nat) : Nat := regAddr 0x60 (0x88 + 0x10 * i)
/-- DECK_DIMd_MINUS_HI (R310). -/
def deckDimMinusHi (i : Nat) : Nat := regAddr 0x60 (0x8C + 0x10 * i)
/-- DECK_FWD_LO (R310). -/
def deckFwdLo : Nat := regAddr 0x60 0xE0
/-- DECK_FWD_HI (R310). -/
def deckFwdHi : Nat := regAddr 0x60 0xE4
/-- DECK_CE_MARKED (R310). -/
def deckCeMarked : Nat := regAddr 0x60 0xE8
/-- DECK_NOROUTE (R310). -/
def deckNoroute : Nat := regAddr 0x60 0xEC
/-- DECK_HOPLIMIT (R310). -/
def deckHoplimit : Nat := regAddr 0x60 0xF0
/-- DECK_DOWN_DROP (R310). -/
def deckDownDrop : Nat := regAddr 0x60 0xF4
/-- DECK_CTRL (R310). -/
def deckCtrl : Nat := regAddr 0x60 0xF8
/-- DECK_NOROUTE_LAST (R310). -/
def deckNorouteLast : Nat := regAddr 0x60 0xFC
/-- TIME_NOW_LO (R311). -/
def timeNowLo : Nat := regAddr 0x3 0x40
/-- TIME_NOW_HI (R311). -/
def timeNowHi : Nat := regAddr 0x3 0x44
/-- TIME_CTRL (R311). -/
def timeCtrl : Nat := regAddr 0x3 0x48
/-- TIME_SET_LO (R311). -/
def timeSetLo : Nat := regAddr 0x3 0x4C
/-- TIME_SET_HI (R311). -/
def timeSetHi : Nat := regAddr 0x3 0x50
/-- TIME_PARENT (R311). -/
def timeParent : Nat := regAddr 0x3 0x54
/-- TIME_INTERVAL (R311). -/
def timeInterval : Nat := regAddr 0x3 0x58
/-- TIME_LOCK_PS (R311). -/
def timeLockPs : Nat := regAddr 0x3 0x5C
/-- TIME_SLEW (R311). -/
def timeSlew : Nat := regAddr 0x3 0x60
/-- TIME_HOLDOVER (R311). -/
def timeHoldover : Nat := regAddr 0x3 0x64
/-- TIME_STAT (R311). -/
def timeStat : Nat := regAddr 0x3 0x68
/-- TIME_OFFSET (R311). -/
def timeOffset : Nat := regAddr 0x3 0x6C
/-- TIME_DELAY (R311). -/
def timeDelay : Nat := regAddr 0x3 0x70
/-- TIME_SYNC_CNT (R311). -/
def timeSyncCnt : Nat := regAddr 0x3 0x74
/-- TIME_UNLOCK_CNT (R311). -/
def timeUnlockCnt : Nat := regAddr 0x3 0x78
/-- TIME_BAR_LATE (R311). -/
def timeBarLate : Nat := regAddr 0x3 0x7C
/-- TIME_BAR_DROP (R311). -/
def timeBarDrop : Nat := regAddr 0x3 0x80
/-- TIME_BAR_RESEND (R311). -/
def timeBarResend : Nat := regAddr 0x3 0x84
/-- TIME_BAR_KEEP (R311). -/
def timeBarKeep : Nat := regAddr 0x3 0x88
/-- TIME_BAR_USED (R311). -/
def timeBarUsed : Nat := regAddr 0x3 0x8C
/-- TIME_CLR (R311). -/
def timeClr : Nat := regAddr 0x3 0x90
/-- SNAP_DOMAIN (R341). -/
def snapDomain : Nat := regAddr 0x6 0x40
/-- SNAP_Cn_NODE (R341). -/
def snapCNode (i : Nat) : Nat := regAddr 0x6 (0x44 + 0x30 * i)
/-- SNAP_Cn_CONN (R341). -/
def snapCConn (i : Nat) : Nat := regAddr 0x6 (0x48 + 0x30 * i)
/-- SNAP_Cn_KEY (R341). -/
def snapCKey (i : Nat) : Nat := regAddr 0x6 (0x4C + 0x30 * i)
/-- SNAP_Cn_ADDR_LO (R341). -/
def snapCAddrLo (i : Nat) : Nat := regAddr 0x6 (0x50 + 0x30 * i)
/-- SNAP_Cn_ADDR_HI (R341). -/
def snapCAddrHi (i : Nat) : Nat := regAddr 0x6 (0x54 + 0x30 * i)
/-- SNAP_Cn_SIZE (R341). -/
def snapCSize (i : Nat) : Nat := regAddr 0x6 (0x58 + 0x30 * i)
/-- SNAP_Cn_STAT (R341). -/
def snapCStat (i : Nat) : Nat := regAddr 0x6 (0x5C + 0x30 * i)
/-- SNAP_Cn_PEER_DOMAIN (R341). -/
def snapCPeerDomain (i : Nat) : Nat := regAddr 0x6 (0x60 + 0x30 * i)
/-- SNAP_Cn_SEQ (R341). -/
def snapCSeq (i : Nat) : Nat := regAddr 0x6 (0x64 + 0x30 * i)
/-- SNAP_Cn_STEP (R341). -/
def snapCStep (i : Nat) : Nat := regAddr 0x6 (0x68 + 0x30 * i)
/-- SNAP_Cn_LOG_NEXT (R341). -/
def snapCLogNext (i : Nat) : Nat := regAddr 0x6 (0x6C + 0x30 * i)
/-- SNAP_Cn_LOG_FREE (R341). -/
def snapCLogFree (i : Nat) : Nat := regAddr 0x6 (0x70 + 0x30 * i)
/-- SNAP_HB_CFG (R341). -/
def snapHbCfg : Nat := regAddr 0x6 0xA4
/-- SNAP_KGRACE (R341). -/
def snapKgrace : Nat := regAddr 0x6 0xA8
/-- SNAP_SELF (R341). -/
def snapSelf : Nat := regAddr 0x6 0xAC
/-- SNAP_LOST_LAST (R341). -/
def snapLostLast : Nat := regAddr 0x6 0xB0
/-- SNAP_LOST_CNT (R341). -/
def snapLostCnt : Nat := regAddr 0x6 0xB4
/-- SNAP_OVERRIDE_CNT (R341). -/
def snapOverrideCnt : Nat := regAddr 0x6 0xB8
/-- SNAP_FORCED_CNT (R341). -/
def snapForcedCnt : Nat := regAddr 0x6 0xBC
/-- SNAP_LOG_FULL_CNT (R341). -/
def snapLogFullCnt : Nat := regAddr 0x6 0xC0
/-- SNAP_COMMITS (R341). -/
def snapCommits : Nat := regAddr 0x6 0xC4
/-- SNAP_CTRL (R341). -/
def snapCtrl : Nat := regAddr 0x6 0xC8
/-- SNAP_WATCH0–63 (R341). -/
def snapWatch (i : Nat) : Nat := regAddr 0x6 (0x100 + 4 * i)
/-- PWR_STAT (R365). -/
def pwrStat : Nat := regAddr 0x2 0x40
/-- PWR_CTRL (R365). -/
def pwrCtrl : Nat := regAddr 0x2 0x44
/-- PWR_OOS_LO (R365). -/
def pwrOosLo : Nat := regAddr 0x2 0x48
/-- PWR_OOS_MID (R365). -/
def pwrOosMid : Nat := regAddr 0x2 0x4C
/-- PWR_OOS_HI (R365). -/
def pwrOosHi : Nat := regAddr 0x2 0x50
/-- PWR_ISL_SEL (R365). -/
def pwrIslSel : Nat := regAddr 0x2 0x54
/-- PWR_ISL_STAT (R365). -/
def pwrIslStat : Nat := regAddr 0x2 0x58
/-- PWR_ISL_OPP (R365). -/
def pwrIslOpp : Nat := regAddr 0x2 0x5C
/-- PWR_ISL_FREQ (R365). -/
def pwrIslFreq : Nat := regAddr 0x2 0x60
/-- PWR_ISL_VDIP_CNT (R365). -/
def pwrIslVdipCnt : Nat := regAddr 0x2 0x64
/-- PWR_ISL_VRST_CNT (R365). -/
def pwrIslVrstCnt : Nat := regAddr 0x2 0x68
/-- PWR_VDIP_CNT (R365). -/
def pwrVdipCnt : Nat := regAddr 0x2 0x6C
/-- PWR_VRST_CNT (R365). -/
def pwrVrstCnt : Nat := regAddr 0x2 0x70
/-- PWR_VDDA_DIP_CNT (R365). -/
def pwrVddaDipCnt : Nat := regAddr 0x2 0x74
/-- PWR_THROTTLE_CNT (R365). -/
def pwrThrottleCnt : Nat := regAddr 0x2 0x78
/-- PWR_THERM_SEL (R365). -/
def pwrThermSel : Nat := regAddr 0x2 0x7C
/-- PWR_THERM (R365). -/
def pwrTherm : Nat := regAddr 0x2 0x80
/-- PWR_THERM_LIMITS (R365). -/
def pwrThermLimits : Nat := regAddr 0x2 0x84
/-- PWR_WDOG (R365). -/
def pwrWdog : Nat := regAddr 0x2 0x88
/-- PWR_WDOG_CNT (R365). -/
def pwrWdogCnt : Nat := regAddr 0x2 0x8C
/-- PWR_LOG_CNT (R365). -/
def pwrLogCnt : Nat := regAddr 0x2 0x90
/-- PWR_LOG_HEAD (R365). -/
def pwrLogHead : Nat := regAddr 0x2 0x94
/-- PWR_CLR (R365). -/
def pwrClr : Nat := regAddr 0x2 0x98
/-- BOOT_STAT (R365). -/
def bootStat : Nat := regAddr 0x2 0x100
/-- BOOT_CTRL (R365). -/
def bootCtrl : Nat := regAddr 0x2 0x104
/-- BOOT_LOAD_DATA (R365). -/
def bootLoadData : Nat := regAddr 0x2 0x108
/-- BOOT_LOAD_PTR (R365). -/
def bootLoadPtr : Nat := regAddr 0x2 0x10C
/-- BOOT_FW_VERSION (R365). -/
def bootFwVersion : Nat := regAddr 0x2 0x110
/-- BOOT_SVN (R365). -/
def bootSvn : Nat := regAddr 0x2 0x114
/-- BOOT_TIME (R365). -/
def bootTime : Nat := regAddr 0x2 0x118
/-- PWR_LOG0–15 (R365). -/
def pwrLog (i : Nat) : Nat := regAddr 0x2 (0x200 + 0x10 * i)
/-- ID (R370). -/
def hdrId (page : Nat) : Nat := regAddr page 0x0
/-- CAP (R370). -/
def hdrCap (page : Nat) : Nat := regAddr page 0x4
/-- CAP_EXT (R370). -/
def hdrCapExt (page : Nat) : Nat := regAddr page 0x8
/-- CTRL (R370). -/
def hdrCtrl (page : Nat) : Nat := regAddr page 0xC
/-- STAT (R370). -/
def hdrStat (page : Nat) : Nat := regAddr page 0x10
/-- IRQ_STAT (R370). -/
def hdrIrqStat (page : Nat) : Nat := regAddr page 0x14
/-- IRQ_EN (R370). -/
def hdrIrqEn (page : Nat) : Nat := regAddr page 0x18
/-- IRQ_SET (R370). -/
def hdrIrqSet (page : Nat) : Nat := regAddr page 0x1C
/-- ERR_FIRST (R370). -/
def hdrErrFirst (page : Nat) : Nat := regAddr page 0x20
/-- ERR_FIRST_INFO (R370). -/
def hdrErrFirstInfo (page : Nat) : Nat := regAddr page 0x24
/-- ERR_CNT_CE (R370). -/
def hdrErrCntCe (page : Nat) : Nat := regAddr page 0x28
/-- ERR_CNT_UE (R370). -/
def hdrErrCntUe (page : Nat) : Nat := regAddr page 0x2C
/-- LOCK (R370). -/
def hdrLock (page : Nat) : Nat := regAddr page 0x30
/-- TOP_REPRO_ID_LO (R375). -/
def topReproIdLo : Nat := regAddr 0x0 0x40
/-- TOP_REPRO_ID_HI (R375). -/
def topReproIdHi : Nat := regAddr 0x0 0x44
/-- TOP_PART (R375). -/
def topPart : Nat := regAddr 0x0 0x48
/-- TOP_PIER_FUSED (R375). -/
def topPierFused : Nat := regAddr 0x0 0x4C
/-- TOP_PIER_DISABLED (R375). -/
def topPierDisabled : Nat := regAddr 0x0 0x50
/-- TOP_WIN_BANK (R375). -/
def topWinBank : Nat := regAddr 0x0 0x54
/-- TOP_LOCK_FAIL_CNT (R375). -/
def topLockFailCnt : Nat := regAddr 0x0 0x58
/-- TOP_ACCESS_ERR (R375). -/
def topAccessErr : Nat := regAddr 0x0 0x5C
/-- TOP_SCRATCH (R375). -/
def topScratch : Nat := regAddr 0x0 0x60
/-- TOP_IRQ_SUM0–3 (R375). -/
def topIrqSum (i : Nat) : Nat := regAddr 0x0 (0x70 + 4 * i)
/-- TOP_VEC_MASK_LO (R375). -/
def topVecMaskLo : Nat := regAddr 0x0 0x80
/-- TOP_VEC_MASK_HI (R375). -/
def topVecMaskHi : Nat := regAddr 0x0 0x84
/-- TOP_VEC_PEND_LO (R375). -/
def topVecPendLo : Nat := regAddr 0x0 0x88
/-- TOP_VEC_PEND_HI (R375). -/
def topVecPendHi : Nat := regAddr 0x0 0x8C
/-- TOP_IRQ_VEC0–31 (R375). -/
def topIrqVec (i : Nat) : Nat := regAddr 0x0 (0x100 + 4 * i)
/-- KSTN_STATE (R376). -/
def kstnState : Nat := regAddr 0x1 0x40
/-- KSTN_MB_CMD (R376). -/
def kstnMbCmd : Nat := regAddr 0x1 0x44
/-- KSTN_MB_ARG0–5 (R376). -/
def kstnMbArg (i : Nat) : Nat := regAddr 0x1 (0x48 + 4 * i)
/-- KSTN_MB_STAT (R376). -/
def kstnMbStat : Nat := regAddr 0x1 0x60
/-- KSTN_MB_DATA0–5 (R376). -/
def kstnMbData (i : Nat) : Nat := regAddr 0x1 (0x64 + 4 * i)
/-- KSTN_MB_REFUSED (R376). -/
def kstnMbRefused : Nat := regAddr 0x1 0x7C
/-- PORT_LANEl_CTRL (R399). -/
def portLaneCtrl (port i : Nat) : Nat := regAddr (0x40 + port) (0x400 + 0x40 * i)
/-- PORT_LANEl_STAT (R399). -/
def portLaneStat (port i : Nat) : Nat := regAddr (0x40 + port) (0x404 + 0x40 * i)
/-- PORT_LANEl_PRBS_ERR_LO (R399). -/
def portLanePrbsErrLo (port i : Nat) : Nat := regAddr (0x40 + port) (0x408 + 0x40 * i)
/-- PORT_LANEl_PRBS_ERR_HI (R399). -/
def portLanePrbsErrHi (port i : Nat) : Nat := regAddr (0x40 + port) (0x40C + 0x40 * i)
/-- PORT_LANEl_PRBS_BITS_LO (R399). -/
def portLanePrbsBitsLo (port i : Nat) : Nat := regAddr (0x40 + port) (0x410 + 0x40 * i)
/-- PORT_LANEl_PRBS_BITS_HI (R399). -/
def portLanePrbsBitsHi (port i : Nat) : Nat := regAddr (0x40 + port) (0x414 + 0x40 * i)
/-- PORT_LANEl_FEC_SYM_LO (R399). -/
def portLaneFecSymLo (port i : Nat) : Nat := regAddr (0x40 + port) (0x418 + 0x40 * i)
/-- PORT_LANEl_FEC_SYM_HI (R399). -/
def portLaneFecSymHi (port i : Nat) : Nat := regAddr (0x40 + port) (0x41C + 0x40 * i)
/-- PORT_LANEl_EYE (R399). -/
def portLaneEye (port i : Nat) : Nat := regAddr (0x40 + port) (0x420 + 0x40 * i)
/-- PORT_FEC_CW_LO (R399). -/
def portFecCwLo (port : Nat) : Nat := regAddr (0x40 + port) 0x600
/-- PORT_FEC_CW_HI (R399). -/
def portFecCwHi (port : Nat) : Nat := regAddr (0x40 + port) 0x604
/-- PORT_FEC_CORR_LO (R399). -/
def portFecCorrLo (port : Nat) : Nat := regAddr (0x40 + port) 0x608
/-- PORT_FEC_CORR_HI (R399). -/
def portFecCorrHi (port : Nat) : Nat := regAddr (0x40 + port) 0x60C
/-- PORT_FEC_HIST1–15 (R399). -/
def portFecHist (port i : Nat) : Nat := regAddr (0x40 + port) (0x610 + 4 * i)
/-- PORT_TCLR (R399). -/
def portTclr (port : Nat) : Nat := regAddr (0x40 + port) 0x64C
/-- TEST_CTRL (R404). -/
def testCtrl : Nat := regAddr 0x7C 0x40
/-- TEST_TARGET (R404). -/
def testTarget : Nat := regAddr 0x7C 0x44
/-- TEST_STAT (R404). -/
def testStat : Nat := regAddr 0x7C 0x48
/-- TEST_FAIL_ADDR (R404). -/
def testFailAddr : Nat := regAddr 0x7C 0x4C
/-- TEST_FAIL_CRC (R404). -/
def testFailCrc : Nat := regAddr 0x7C 0x50
/-- TEST_RUNS (R404). -/
def testRuns : Nat := regAddr 0x7C 0x54
/-- TEST_FAILS (R404). -/
def testFails : Nat := regAddr 0x7C 0x58
/-- TEST_REFUSED (R404). -/
def testRefused : Nat := regAddr 0x7C 0x5C
/-- TEST_CLR (R404). -/
def testClr : Nat := regAddr 0x7C 0x60

end Sys2Proof.Machine.R
end

