-- ==== Sys2Proof/Machine/State.lean ====
section
/-! DEFINITION. The machine as plain data: everything the manual gives the engine, the host memory it
reaches, and the queue of commands that wait. -/

namespace Sys2Proof.Machine

/-- Bytes of an address space: strictly rising addresses, no entry equal to 0, which is what an unlisted
byte reads as (DESIGN CHOICE, log entry 9). -/
abbrev Memory := List Host.Cell

/-- Why a step stops with a fault. -/
inductive Fault where
  /-- Raised by nothing in this model: every command of the table has an effect. Safe. -/
  | none
  deriving DecidableEq, Repr

/-- Why a step is refused. -/
inductive Refusal where
  /-- Raised by a dispatch arm whose command has no meaning yet. Safe: the machine stops. -/
  | notModelled (mnemonic : String)
  deriving DecidableEq, Repr

/-- What carries protected words: the arrays of R27, the Expansion joints by the islands at their two sides (R18), and
the crossing of each Abutment (R24). -/
inductive Sram where
  | keystone | span | context | pier (n : Nat) | coalesce (n : Nat) | deck | port (n : Nat)
  | joint (src dst : Nat) | crossing (n : Nat)
  deriving DecidableEq, Repr

/-- A stored protected word (R30) some of whose 144 bits have flipped since it was written. -/
structure Upset where
  array   : Sram
  granule : Nat
  flips   : Nat
  deriving DecidableEq, Repr

/-- What the last control read returned: the data and the poison indication (R381). -/
structure ReadOut where
  data   : Word
  poison : Bool
  deriving DecidableEq, Repr

/-- A part of a span: its stream header, the block at a base index, or its outlier list. -/
inductive SpanPart where
  | header | block (base : Nat) | outliers
  deriving DecidableEq, Repr

/-- A span in the span buffers (R121, R29): the stream context and owner rank it was packed for, its
instance, the MAG of its COMPRESS (R190), when COMPRESS wrote its stream header (R174), its parts, and the 16-byte words of its parts that went bad (R33). -/
structure Span where
  ctx     : Nat
  group   : Nat
  rank    : Nat
  channel : Nat
  seq     : Nat
  step    : Nat
  mag     : Nat
  born    : Nat
  hdr     : Bytes
  blocks  : List Bytes
  outl    : Bytes
  bad     : List (SpanPart × Nat)
  deriving DecidableEq, Repr

/-- What the last COMPRESS of a stream left for a send role (R177): its spans, or that it ended before
packing any. -/
structure Pack where
  ctx     : Nat
  step    : Nat
  channel : Nat
  seq     : Nat
  taken   : Bool
  skip    : Bool
  spans   : List Span
  deriving DecidableEq, Repr

/-- The blocks of a chunk held back in the retained share (R112), the channel of its COMPRESS, the rank that owns each
block (R190), and the base indices of those with a word that went bad (R33). -/
structure Held where
  ctx     : Nat
  channel : Nat
  step    : Nat
  chunk   : Nat
  mag     : Nat
  mode    : Nat
  scale   : Nat
  blocks  : List Bytes
  ranks   : List Nat
  bad     : List Nat
  deriving DecidableEq, Repr

/-- A contribution, or a SKIP, that has reached this chip and waits for its instance (R174, R175): the
connection it came on (none: this chip's own), its bytes, the 16-byte words of it that are poisoned, the
timebase when it was wholly placed, and the table slots its coded blocks refer to (R143). -/
structure Inbound where
  conn    : Option Nat
  skip    : Bool
  node    : Nat
  group   : Nat
  channel : Nat
  seq     : Nat
  data    : Bytes
  poison  : List Nat
  placed  : Nat
  refs    : List Nat
  deriving DecidableEq, Repr

/-- A SEND message that has wholly arrived on a connection and matches no RELAY yet (R195, R175), with its
packets in sequence order. -/
structure HeldMsg where
  conn    : Nat
  channel : Nat
  seq     : Nat
  pkts    : List Packet
  deriving DecidableEq, Repr

/-- How a rank answered an instance (R185). -/
inductive Answer where
  | summed | skipped | rejected
  deriving DecidableEq, Repr

/-- An open reduction instance (R172-R187): what its open fixed, the ranks that have answered, contributions
admitted that wait for lower ranks under ACC_KIND 2 (R184), and what its completion will report. -/
structure Inst where
  mode       : Nat
  fmt        : Nat
  length     : Nat
  chunkKi    : Nat
  outCount   : Nat
  outList    : List Nat
  sRef       : Nat
  accKind    : Nat
  accAddr    : Nat
  lo         : Nat
  hi         : Nat
  deadline   : Nat
  step       : Nat
  ownerValid : Bool
  ownerCtx   : Nat
  answers    : List (Nat × Answer)
  pend       : List (Nat × Inbound)
  poisoned   : Bool
  firstRej   : Option Nat
  firstNf    : Option Nat
  deriving DecidableEq, Repr

/-- A send role's state for one owner (R177, R189). -/
structure Owner where
  rank   : Nat
  sent   : Bool
  held   : Bool
  answer : Option Nat
  deriving DecidableEq, Repr

/-- A send-role descriptor that waits for its owners (R177, R188, R189); `poisoned` says that a span it sent carried
poisoned data (R266). -/
structure SendRole where
  ctx      : Nat
  group    : Nat
  channel  : Nat
  seq      : Nat
  lateDrop : Bool
  owners   : List Owner
  firstRej : Option Nat
  late     : Bool
  lost     : Bool
  poisoned : Bool
  deriving DecidableEq, Repr

/-- How far a RELAY has come (R195): a packet of its message has been placed; one carried POISON; the local
message is complete; what its forwarding failed with. -/
structure Relaying where
  begun  : Bool
  poison : Bool
  done   : Bool
  deriving DecidableEq, Repr

/-- What an outstanding descriptor waits for. -/
inductive Phase where
  /-- its stream (R96), a released Pier or Abutment (R372), or its channel's sequence (R172) -/
  | start
  /-- a receive role checked under orders 1 and 2 of R180 that waits for its sequence, with its reference context as read
  at dispatch (R96) -/
  | seq (ref : Bytes)
  /-- an UPDATE whose record was read at dispatch and that waits for its Abutments (R216) -/
  | update (record : Bytes)
  /-- a receive role whose instance is open -/
  | inst (i : Inst)
  /-- a send role -/
  | send (r : SendRole)
  /-- FENCE: the descriptors it waits for (R235) -/
  | fence (ids : List Nat)
  /-- WRITE or SEND whose message has not all been handed over, or READ, FLUSH, remote ATOMIC_MAX or remote
  COUNTER_ADD waiting for its answer (R263, R264, R208, R240) -/
  | remote
  /-- RELAY (R195) -/
  | relay (r : Relaying)
  /-- BARRIER (R307) -/
  | barrier
  /-- SNAPSHOT, LOG_APPEND, RESTORE or SNAPSHOT_EXPORT at work on a Caisson (R320) -/
  | job
  /-- a send role whose SKIP notices have not all been handed over (R189), and the status it ends with -/
  | skipping (status : Nat)
  deriving DecidableEq, Repr

/-- An outstanding descriptor (R229, R233): the ring it was read from and its place in the order of reads,
its opcode and header, the seed read at dispatch (R60), the coding slot read at dispatch and whether that slot
could not be referred to (R143, R153), whether it holds a credit of its CQ (R242), and what it waits for. -/
structure Live where
  id     : Nat
  ring   : Nat
  order  : Nat
  op     : Nat
  desc   : Desc
  seed   : DWord
  coded  : Option Nat
  stale  : Bool
  credit : Bool
  phase  : Phase
  deriving DecidableEq, Repr

/-- A descriptor read and not yet dispatched (R233); `cut` says that its CQ was disabled since it was read
(R242), `counted` that its wait for a credit has been counted. -/
structure Waiting where
  ring    : Nat
  order   : Nat
  op      : Nat
  desc    : Desc
  counted : Bool
  cut     : Bool
  deriving DecidableEq, Repr

/-- A slot of the pre-posted store (R238, R239). -/
structure Slot where
  slot    : Nat
  ring    : Nat
  order   : Nat
  op      : Nat
  desc    : Desc
  enabled : Bool
  cut     : Bool
  deriving DecidableEq, Repr

/-- The state of a table slot (R142). -/
inductive TblState where
  | free | loaded | retiring
  deriving DecidableEq, Repr

/-- A table slot (R142), and whether a word of its master went bad (R155); its reference count is computed from what
names it (R143). -/
structure TblSlot where
  state    : TblState
  gen      : Nat
  id       : Nat
  alphabet : Nat
  crc      : Nat
  lens     : List Nat
  file     : Bytes
  bad      : Bool
  deriving DecidableEq, Repr

/-- An acknowledgement tallied at TBL_ROOT (R151). -/
structure TblAck where
  group : Nat
  epoch : Nat
  node  : Nat
  fmt   : Nat
  coded : Bool
  slot  : Nat
  gen   : Nat
  crc   : Nat
  deriving DecidableEq, Repr

/-- A stat slot that is not all zero (R115): its 260 counters. -/
structure StatSlot where
  slot : Nat
  bins : List Nat
  deriving DecidableEq, Repr

/-- The queue island (R17); `cand` is the candidate share, where a ring may lie (R29, R226), `candBad` its 16-byte
words that went bad (R33), `headWaits` the rings whose refused head has been counted as waiting for a credit (R242),
and `lastChans` the channel last dispatched at each of the 16 priorities (R197). -/
structure QState where
  waiting  : List Waiting
  live     : List Live
  nextId   : Nat
  nextRead : Nat
  selfLost : Bool
  store    : List Slot
  packs    : List Pack
  retained : List Span
  held     : List Held
  inbound  : List Inbound
  msgs     : List HeldMsg
  stats    : List StatSlot
  statBuf  : List Nat
  tables   : List TblSlot
  acks     : List TblAck
  cand     : Memory
  candBad  : List Nat
  headWaits : List Nat
  lastChans : List Nat
  deriving DecidableEq, Repr

/-! ### The transport -/

/-- A sequenced packet sent and kept, as it was sent and encrypted, until acknowledged (R267). -/
structure Kept where
  conn    : Nat
  control : Bool
  esn     : Nat
  pkt     : Packet
  deriving DecidableEq, Repr

/-- A packet received, in plain, whose message has not completed (R265): whether its payload has reached its
place, and whether it was refused at orders 6 to 8 of R259. -/
structure Arrived where
  conn    : Nat
  control : Bool
  esn     : Nat
  pkt     : Packet
  placed  : Bool
  refused : Bool
  deriving DecidableEq, Repr

/-- A piece of a message being forwarded: its offset, bytes, and whether it carries poison (R195). -/
structure Piece where
  off    : Nat
  bytes  : Bytes
  poison : Bool
  deriving DecidableEq, Repr

/-- Where the bytes of a message to send come from: host memory, read as its packets are made; bytes held by
the engine with their poisoned 16-byte words; or pieces that a RELAY forwards. -/
inductive Load where
  | host (addr : Nat)
  | data (bytes : Bytes) (poison : List Nat)
  | pieces (l : List Piece)
  deriving DecidableEq, Repr

/-- A message not all of which has been sent (R255, R263): the descriptor it belongs to, its connection and
stream, its opcode and the header fields of its group, and how much has gone. -/
structure OutMsg where
  live    : Option Nat
  conn    : Nat
  control : Bool
  op      : Nat
  vl      : Nat
  prio    : Nat
  key     : Nat
  addr    : Nat
  channel : Nat
  seq     : Nat
  reqPsn  : Nat
  counter : Nat
  add     : Nat
  remCtr  : Nat
  ctrEn   : Bool
  len     : Nat
  load    : Load
  sent    : Nat
  begun   : Bool
  poison  : Bool
  deriving DecidableEq, Repr

/-- A request whose answer is awaited (R263, R264, R208, R240): who asked, its ESN, its packet opcode, the
bytes placed so far, whether any came poisoned, where a READ's bytes go (none: into `buf`), and the first
refusal recorded for it. -/
structure Await where
  live   : Option Nat
  job    : Option Nat
  conn   : Nat
  esn    : Nat
  op     : Nat
  len    : Nat
  got    : Nat
  poison : Bool
  dest   : Option Nat
  buf    : Bytes
  deriving DecidableEq, Repr

/-- What a connection's engine keeps beside the context (R264, R267, R269, R271, R273): packets counted
toward the next unit of PHASE_CNT; the peer has shown it is UP; for each stream the ESNs passed and a CE seen
since the last acknowledgement, the gap timer, and where an RNR wait resumes; refusals as responder and as
requester, by ESN, for the next FLUSH. -/
structure ConnX where
  conn    : Nat
  pkts    : Nat
  seen    : Bool
  advD    : Nat
  advC    : Nat
  ceD     : Bool
  ceC     : Bool
  gapD    : Bool
  gapC    : Bool
  rnrD    : Nat
  rnrC    : Nat
  rxFails : List (Nat × Nat)
  txFails : List (Nat × Nat)
  deriving DecidableEq, Repr

/-- A key slot that is present (R249, R278). -/
structure KeySlot where
  conn  : Nat
  rx    : Bool
  phase : Bool
  key   : Bytes
  deriving DecidableEq, Repr

/-- A remote ATOMIC_MAX that waits for its Abutments (R207, R372): the connection, the PSN it answers, the
packets it came in, the cells, and the operands with their poison. -/
structure MaxWait where
  conn : Nat
  psn  : Nat
  pkts : List Packet
  dst  : Nat
  ops  : List (Nat × Bool)
  deriving DecidableEq, Repr

/-- A FLUSH_REQ whose answer waits for remote ATOMIC_MAXes before it on its connection (R264): the PSN it answers, the
status it will carry, and the PSNs it waits for. -/
structure FlushWait where
  conn   : Nat
  psn    : Nat
  status : Nat
  maxes  : List Nat
  deriving DecidableEq, Repr

/-- The transport island (R17). `lastChannels` holds the channel last served at each priority (R197), the engine's own
messages last. `dropped` names SEND messages whose rest is consumed and not placed;
`regionStage` is the staging copy of R380 with its tag; `revokes` the revocations that wait (R258). -/
structure Xport where
  kept        : List Kept
  rx          : List Arrived
  out         : List OutMsg
  awaits      : List Await
  conns       : List ConnX
  keys        : List KeySlot
  dropped     : List (Nat × Nat × Nat)
  regionStage : Option (Nat × List (Nat × Word))
  routeStage  : Option (Nat × Word)
  revokes     : List (Nat × Nat)
  maxes       : List MaxWait
  flushes     : List FlushWait
  lastChannels : List Nat
  deriving DecidableEq, Repr

/-! ### The Deck and the ports -/

/-- A frame in a queue of the Deck (R295, R297), or in a receive buffer waiting for room there: the half-port,
its virtual lane, HOPS, STOMP, and its packet. -/
structure Frame where
  h     : Nat
  vl    : Nat
  hops  : Nat
  stomp : Bool
  pkt   : Packet
  deriving DecidableEq, Repr

/-- Words that this chip put on a link, as one frame or alone (R282). -/
structure LinkOut where
  h     : Nat
  words : List Bytes
  deriving DecidableEq, Repr

/-- A link's own state beside its registers (R285, R287-R291): the lanes that the neighbour paused and the
PAUSE state sent, whether it has once been UP, the LANE_IDs, the CAP and an IDENT received in this training, that
its equalisation training has ended, the round-robin credits of VL 0, 1, 4 and 5, and frames in its receive
buffer. -/
structure HalfPort where
  paused  : Nat
  xoff    : Nat
  wasUp   : Bool
  laneIds : List (Nat × Nat × Bool)
  cap     : Option CapWord
  ident   : Bool
  trained : Bool
  credits : List Nat
  buffer  : List Frame
  deriving DecidableEq, Repr

/-- A frame that stands in an Expansion joint (R18): what goes with it, its bytes, and the protected words that carry
them, first word first. -/
structure InJoint where
  h     : Nat
  vl    : Nat
  hops  : Nat
  stomp : Bool
  len   : Nat
  words : List Nat
  deriving DecidableEq, Repr

/-- The FIFO of an Expansion joint from one island to another (R18), oldest first. -/
structure Joint where
  src  : Nat
  dst  : Nat
  fifo : List InJoint
  deriving DecidableEq, Repr

/-- The Deck: its queues, oldest first, the 48 half-ports, what the links have carried out, and the lanes with an
eye scan under way (port, lane; R397). -/
structure Deck where
  out     : List Frame
  ports   : List HalfPort
  linkOut : List LinkOut
  eyes    : List (Nat × Nat)
  deriving DecidableEq, Repr

/-! ### The timebase and barriers -/

/-- An exchange with the parent under way (R304): times in units of 2^-16 ns. -/
structure Exchange where
  seq    : Nat
  t1     : Nat
  t2     : Option Nat
  locked : Bool
  deriving DecidableEq, Repr

/-- A barrier record (R307). -/
structure Bar where
  group   : Nat
  channel : Nat
  seq     : Nat
  live    : Option Nat
  fanout  : Nat
  delay   : Nat
  arrived : List Nat
  sent    : Bool
  release : Option Nat
  deriving DecidableEq, Repr

/-- The timebase (R304, R305) in units of 2^-16 ns, the correction still to be slewed, the next SEQ, the run of exchanges
within the lock threshold, the part of a unit of slew that a nanosecond left over, in millionths, and the nanoseconds
since power-on, which no correction moves (R361 BOOT_TIME). -/
structure Clock where
  tb       : Nat
  slew     : Int
  seq      : Nat
  exchange : Option Exchange
  run      : Nat
  locked   : Bool
  bars     : List Bar
  part     : Nat
  up       : Nat
  deriving DecidableEq, Repr

/-! ### Snapshots -/

/-- A valid commit record (R317). -/
structure Commit where
  seq      : Nat
  step     : Nat
  logStart : Nat
  recCrc   : Nat
  logOff   : Nat
  owner    : Nat
  deriving DecidableEq, Repr

/-- A segment in a snapshot's directory (R318). -/
structure DirEntry where
  id  : Nat
  off : Nat
  len : Nat
  crc : Nat
  deriving DecidableEq, Repr

/-- A log entry that the engine knows of (R324). -/
structure LogEntry where
  entry : Nat
  step  : Nat
  off   : Nat
  size  : Nat
  deriving DecidableEq, Repr

/-- What the engine holds of a Caisson entry beside its registers (R314-R325): the commits of slots A and B,
the open snapshot's slot, step, offset and directory, and the log's entries, next number and tail. -/
structure Caisson where
  commits : List (Option Commit)
  openAt  : Option Nat
  step    : Nat
  off     : Nat
  dir     : List DirEntry
  entries : List LogEntry
  next    : Nat
  tail    : Nat
  deriving DecidableEq, Repr

/-- What work on a Caisson waits for: the answer to the read or FLUSH it names. Arming reads the header and the
commits, writes a fresh header, or reads the log; SNAPSHOT waits for an export, empties its slot's commit, copies
a part, writes the record, writes the commit; LOG_APPEND flushes its entry; RESTORE and SNAPSHOT_EXPORT read the
header, the snapshot record, the directory and each segment in turn, and go on as R328 and R330 say. -/
inductive Stage where
  | armHead | armFresh | armLog (second : Bool)
  | snapWait | snapBegin | snapCopy | snapRecord | snapCommit
  | logFlush
  | resHead | resRecord | resDir | resSeg | resLog (second : Bool) | resSpan | resAgain
  | expHead | expRecord | expDir | expSeg | expFlush | expCommit
  deriving DecidableEq, Repr

/-- Work on a Caisson over a connection: its number, the descriptor (none: arming), the entry, the connection and
the stage reached; and what it has gathered: the records read or the source words of a SNAPSHOT's part, the piece being
read, the slot or segment or log position it stands at, its counts, and the differences that order 6 of R328 found. -/
structure Job where
  id     : Nat
  live   : Option Nat
  entry  : Nat
  conn   : Nat
  stage  : Stage
  data   : Bytes
  buf    : Bytes
  slot   : Nat
  pos    : Nat
  count  : Nat
  num    : Nat
  last   : Nat
  diffs  : Nat
  status : List Nat
  deriving DecidableEq, Repr

/-- Snapshots, heartbeats and recovery: the two Caisson entries, the jobs, HB_SEQ, and the routing entries
that firmware wrote for a lost node (R337). -/
structure Snap where
  caissons : List Caisson
  jobs     : List Job
  nextJob  : Nat
  hbSeq    : Nat
  detours  : List (Nat × Nat)
  deriving DecidableEq, Repr

/-! ### Power, firmware and test -/

/-- A line of a coalescing buffer (R201, R202): the granule, its data, whether it is poisoned and dirty, and
the outstanding operations that used it. -/
structure CbLine where
  granule : Nat
  data    : Bytes
  poison  : Bool
  dirty   : Bool
  users   : List Nat
  deriving DecidableEq, Repr

/-- An island (R345-R352): powered and out of reset, out of service, its supply at the reset level and not yet
recovered for 100 us, its point, the point asked for, the point a transition under way leads to, its dip
counters, the supply dips under way (VDDH, least mV, onset), the times of its last reset-level dips, and the falls to
the reset level under way (VDDH, least mV, onset). -/
structure Island where
  ready  : Bool
  oos    : Bool
  low    : Bool
  point  : Nat
  asked  : Nat
  ramp   : Option Nat
  vdips  : Nat
  vrsts  : Nat
  dips   : List (Bool × Nat × Nat)
  resets : List Nat
  falls  : List (Bool × Nat × Nat)
  deriving DecidableEq, Repr

/-- A thermal sensor (R353): its reading in 1/16 degree C, and the hottest and the onset of its throttling. -/
structure Sensor where
  valid   : Bool
  temp    : BitVec 16
  hot     : Bool
  hottest : BitVec 16
  onset   : Nat
  deriving DecidableEq, Repr

/-- The power controller and Falsework (R342-R366): the islands, the fused-off Piers and the fused digest of
PUBKEY, the sensors, the VDDA groups below their warning and reset levels with the least mV and onset, the onset
of a loss of the island clock, the groups of ports whose clock is lost, the trip (onset, sensor, greatest
temperature), whether firmware has started the islands of stage 5, whether the die-to-die fabric is up, the
firmware image and whether it has been verified, the times of GO and of the watchdog's last restart, and a short
in the top island. -/
structure Pwr where
  islands   : List Island
  fusedOff  : BitVec 32
  digest    : Bytes
  sensors   : List Sensor
  vddaWarn  : List (Nat × Nat × Nat)
  vddaReset : List (Nat × Nat × Nat)
  clockLost : Option Nat
  portClock : List Nat
  tripAt    : Option (Nat × Nat × BitVec 16)
  started   : Bool
  dieFabric : Bool
  image     : Memory
  verified  : Bool
  goAt      : Nat
  wdogAt    : Nat
  dead      : Bool
  deriving DecidableEq, Repr

/-- The Keystone (R377, R378): a mailbox command outstanding, one left BUSY by a reset, and the duties of
firmware that wait for its announcement (R26, R294, R334). -/
structure Kstn where
  command   : Option Word
  cutOff    : Option Word
  duties    : List Instr
  deriving DecidableEq, Repr

/-- The instructions of the boundary-scan cells (R392). -/
inductive ScanMode where
  | bypass | sample | extest | pulse | train
  deriving DecidableEq, Repr

/-- The boundary-scan cells (R392): the instruction in force, what the transmit cells drive and what the receive cells
captured. Each of the 192 lanes has one pair of two legs in either direction: 384 cells. -/
structure Scan where
  mode    : ScanMode
  drive   : List Bool
  capture : List Bool
  deriving DecidableEq, Repr

/-- A self-test under way (R400): its kind, its island, and an ABORT that waits for a boundary. -/
structure Testing where
  kind   : Nat
  island : Nat
  abort  : Bool
  deriving DecidableEq, Repr

/-- The machine. -/
structure State where
  /-- commands that wait, first in first out -/
  pending   : List Instr
  /-- register words that differ from their reset values, by window address, rising -/
  regs      : List (Nat × Word)
  /-- _HI words latched by a read of their _LO (R15) -/
  latch     : List (Nat × Word)
  /-- locked pages and their keys (R373) -/
  locks     : List (Nat × BitVec 31)
  /-- context SRAM, ring contexts and the routing table, by window address (R28, R379) -/
  ctx       : Memory
  /-- poisoned 16-byte granules of the context tables (R381) -/
  ctxPoison : List Nat
  /-- granules of stream contexts whose results the engine wrote as poisoned (R35, R106) -/
  resPoison : List Nat
  /-- poisoned granules whose words are being rewritten in ascending order, each with its next word (R381) -/
  clearRun  : List (Nat × Nat)
  /-- stored words with flipped bits (R30-R34) -/
  upsets    : List Upset
  /-- host memory (R21) -/
  mem       : Memory
  /-- poisoned 64-byte granules of host memory (R36) -/
  memPoison : List Nat
  /-- coalescing-buffer lines of the eight Abutments, most recently used first (R201) -/
  cb        : List CbLine
  /-- the granules that each outstanding operation has touched in an Abutment (R203), by its number -/
  touched   : List (Nat × Nat)
  /-- the decoder copies of the table slots that the 32 Piers hold (R142) -/
  piers     : List (List TblSlot)
  /-- the Expansion joints in which frames stand (R18) -/
  joints    : List Joint
  /-- interrupt messages sent, oldest first (R374, R245) -/
  irqOut    : List (BitVec 6)
  /-- what the last control read returned -/
  lastRead  : ReadOut
  q         : QState
  x         : Xport
  deck      : Deck
  clock     : Clock
  snap      : Snap
  pwr       : Pwr
  kstn      : Kstn
  scan      : Scan
  test      : Option Testing
  /-- the model's own: how many free values have been drawn -/
  free      : Nat
  deriving DecidableEq, Repr

/-! ### The machine right after a cold reset (R343, R356, R362) -/

/-- A link that has never trained. -/
def HalfPort.reset : HalfPort := ⟨0, 0, false, [], none, false, false, [0, 0, 0, 0], []⟩

/-- An island at point 0, in reset or not. -/
def Island.reset (ready : Bool) : Island := ⟨ready, false, false, 0, 0, none, 0, 0, [], [], []⟩

/-- A Caisson entry that is OFF. -/
def Caisson.reset : Caisson := ⟨[none, none], none, 0, 0, [], [], 0, 0⟩

/-- The queue island, with 16 FREE table slots (R144) and stat slots of zeros (R115). -/
def QState.reset : QState :=
  { waiting := [], live := [], nextId := 0, nextRead := 0, selfLost := false, store := [], packs := [], retained := []
    held := [], inbound := [], msgs := [], stats := [], statBuf := List.replicate 260 0
    tables := List.replicate 16 ⟨.free, 0, 0, 0, 0, [], [], false⟩, acks := [], cand := [], candBad := []
    headWaits := [], lastChans := List.replicate 16 0 }

/-- The transport, with no key present (R278). -/
def Xport.reset : Xport := ⟨[], [], [], [], [], [], [], none, none, [], [], [], List.replicate 17 0⟩

/-- The Deck, with every link DISABLED and nothing queued. -/
def Deck.reset : Deck := ⟨[], List.replicate 48 HalfPort.reset, [], []⟩

/-- The timebase at 0, not locked, and no barrier record. -/
def Clock.reset : Clock := ⟨0, 0, 0, none, 0, false, [], 0, 0⟩

/-- Snapshots: both entries OFF. -/
def Snap.reset : Snap := ⟨[Caisson.reset, Caisson.reset], [], 0, 0, []⟩

/-- The power controller in stage 1 of start-up: the top island alone answers (R356, R369). No Pier is fused off
and the fused digest is zeros (DESIGN CHOICE, log entry 3: the part's fuses). -/
def Pwr.reset : Pwr :=
  { islands := Island.reset true :: List.replicate 68 (Island.reset false), fusedOff := 0
    digest := List.replicate 48 0, sensors := List.replicate 16 ⟨false, 0, false, 0, 0⟩, vddaWarn := []
    vddaReset := [], clockLost := none, portClock := [], tripAt := none, started := false, dieFabric := false
    image := [], verified := false, goAt := 0, wdogAt := 0, dead := false }

/-- The machine right after power-on: every register at its reset value, every context zero, nothing queued. -/
def State.reset : State :=
  { pending := [], regs := [], latch := [], locks := [], ctx := [], ctxPoison := [], resPoison := [], clearRun := []
    upsets := [], mem := [], memPoison := [], cb := [], touched := []
    piers := List.replicate 32 [], joints := [], irqOut := [], lastRead := ⟨0, false⟩, q := QState.reset
    x := Xport.reset, deck := Deck.reset, clock := Clock.reset, snap := Snap.reset, pwr := Pwr.reset
    kstn := ⟨none, none, []⟩, scan := ⟨.bypass, List.replicate 384 false, List.replicate 384 false⟩, test := none, free := 0 }

end Sys2Proof.Machine
end

