-- ==== Sys2Proof/Machine/Ops.lean ====
section
/-! DEFINITION. The named operations over memory, registers, context entries, interrupts and error
records, which every command is written with. -/

namespace Sys2Proof.Machine

/-- The timebase in whole nanoseconds (R304). -/
def State.now (s : State) : Nat := s.clock.tb / 65536 % 2 ^ 64

/-! ### Byte memory -/

/-- One byte of a memory; an unlisted byte reads 0. -/
def Memory.read : Memory → Nat → Byte
  | [], _ => 0
  | (k, b) :: m, a => if k = a then b else Memory.read m a

/-- The entries at or above an address. -/
def Memory.from : Memory → Nat → Memory
  | [], _ => []
  | (k, b) :: m, a => if k < a then Memory.from m a else (k, b) :: m

/-- n bytes read by one walk of a memory whose entries start at or above a. -/
def Memory.walk : Nat → Memory → Nat → Bytes
  | 0, _, _ => []
  | n + 1, [], a => 0 :: Memory.walk n [] (a + 1)
  | n + 1, (k, b) :: m, a =>
    if k = a then b :: Memory.walk n m (a + 1) else 0 :: Memory.walk n ((k, b) :: m) (a + 1)

/-- Bytes [a, a + n). -/
def Memory.readN (m : Memory) (a n : Nat) : Bytes := Memory.walk n (m.from a) a

/-- The entries below an address. -/
def Memory.below : Memory → Nat → Memory
  | [], _ => []
  | (k, b) :: m, a => if k < a then (k, b) :: Memory.below m a else []

/-- A byte in front of a memory that starts above it; a zero is not listed. -/
def Memory.cell (a : Nat) (b : Byte) (m : Memory) : Memory := if b = 0 then m else (a, b) :: m

/-- Bytes laid from a over a memory whose entries start at or above a. -/
def Memory.lay : Memory → Nat → Bytes → Memory
  | m, _, [] => m
  | [], a, b :: bs => Memory.cell a b (Memory.lay [] (a + 1) bs)
  | (k, x) :: m, a, b :: bs =>
    Memory.cell a b (if k = a then Memory.lay m (a + 1) bs else Memory.lay ((k, x) :: m) (a + 1) bs)

/-- Bytes written at rising addresses from a, the canonical form kept. -/
def Memory.writeN (m : Memory) (a : Nat) (bs : Bytes) : Memory := m.below a ++ Memory.lay (m.from a) a bs

/-- One byte written. -/
def Memory.write (m : Memory) (a : Nat) (b : Byte) : Memory := m.writeN a [b]

/-- The canonical form: strictly rising addresses from lo on, no entry equal to 0. -/
def Memory.wfFrom : Nat → Memory → Bool
  | _, [] => true
  | lo, (k, b) :: m => decide (lo ≤ k) && decide (b ≠ 0) && Memory.wfFrom (k + 1) m

/-- The canonical form of a memory. -/
def Memory.wf (m : Memory) : Bool := Memory.wfFrom 0 m

/-! ### Sorted lists of numbers -/

/-- A number put into a rising list, once. -/
def insertN : Nat → List Nat → List Nat
  | x, [] => [x]
  | x, y :: t => if x < y then x :: y :: t else if x = y then y :: t else y :: insertN x t

/-- The numbers a, a+1, ..., a+n-1 put into a rising list. -/
def insertRange (a n : Nat) (l : List Nat) : List Nat :=
  (List.range n).foldl (fun l i => insertN (a + i) l) l

/-- The units of k bytes that bytes [a, a + n) touch: the first, and how many. -/
def unitsOf (k a n : Nat) : Nat × Nat := if n = 0 then (a / k, 0) else (a / k, (a + n - 1) / k + 1 - a / k)

/-- A listed unit lies among those bytes [a, a + n) touch. -/
def touches (k a n : Nat) (l : List Nat) : Bool :=
  l.any fun g => decide (n ≠ 0 ∧ a < (g + 1) * k ∧ g * k < a + n)

/-! ### Registers -/

/-- A register word as stored: listed, or its reset value. -/
def State.reg (s : State) (a : Nat) : Nat :=
  match s.regs.find? fun p => p.1 == a with
  | some p => p.2.toNat
  | none => regReset a

/-- A word put into a list of words before the first that stands higher. -/
def insertWord (a : Nat) (v : Word) : List (Nat × Word) → List (Nat × Word)
  | [] => [(a, v)]
  | (k, w) :: t => if a < k then (a, v) :: (k, w) :: t else (k, w) :: insertWord a v t

/-- A word put into a rising list of words, dropped when it equals what an unlisted address holds. -/
def putWord (dflt : Nat → Nat) (l : List (Nat × Word)) (a : Nat) (v : Word) : List (Nat × Word) :=
  let rest := l.filter fun (p : Nat × Word) => p.1 != a
  if v.toNat = dflt a then rest else insertWord a v rest

/-- A register word stored as given. -/
def State.setReg (s : State) (a v : Nat) : State :=
  { s with regs := putWord regReset s.regs a (BitVec.ofNat 32 v) }

/-- Bits [hi:lo] of a register. -/
def State.regBits (s : State) (a hi lo : Nat) : Nat := bits (s.reg a) hi lo

/-- A bit of a register. -/
def State.regBit (s : State) (a k : Nat) : Bool := (s.reg a).testBit k

/-- A register with bits [hi:lo] replaced. -/
def State.setRegBits (s : State) (a hi lo v : Nat) : State := s.setReg a (setBits (s.reg a) hi lo v)

/-- A saturating 32-bit counter raised by n. -/
def State.bump (s : State) (a : Nat) (n : Nat := 1) : State :=
  if n = 0 then s else s.setReg a (min (s.reg a + n) 0xFFFFFFFF)

/-- A 64-bit counter held as a _LO, _HI pair (R15) raised by n. -/
def State.bump64 (s : State) (lo : Nat) (n : Nat := 1) : State :=
  if n = 0 then s else
    let t := s.reg lo + s.reg (lo + 4) * 2 ^ 32 + n
    (s.setReg lo (t % 2 ^ 32)).setReg (lo + 4) (t / 2 ^ 32 % 2 ^ 32)

/-- A 64-bit counter that saturates (R399), held as a _LO, _HI pair, raised by n. -/
def State.bumpSat64 (s : State) (lo : Nat) (n : Nat := 1) : State :=
  if n = 0 then s else
    let t := min (s.reg lo + s.reg (lo + 4) * 2 ^ 32 + n) (2 ^ 64 - 1)
    (s.setReg lo (t % 2 ^ 32)).setReg (lo + 4) (t / 2 ^ 32)

/-- Registers at offsets [first, last] of a page, stepping by words, set to 0. -/
def State.zeroRegs (s : State) (page first last : Nat) : State :=
  (List.range ((last - first) / 4 + 1)).foldl (fun s i => s.setReg (regAddr page (first + 4 * i)) 0) s

/-- This chip's node (R310 DECK_NODE). -/
def State.node (s : State) : Nat := s.regBits R.deckNode 15 0

/-! ### Interrupts (R374, R245) and error records (R370) -/

/-- The vector is masked (R374). -/
def State.vecMasked (s : State) (v : Nat) : Bool :=
  if v < 32 then s.regBit R.topVecMaskLo v else s.regBit R.topVecMaskHi (v - 32)

/-- One interrupt message on a vector, or its pending mark while the vector is masked (R374). -/
def State.sendVec (s : State) (v : Nat) : State :=
  let v := v % 64
  if s.vecMasked v then
    let a := if v < 32 then R.topVecPendLo else R.topVecPendHi
    s.setReg a (s.reg a ||| 1 <<< (v % 32))
  else { s with irqOut := s.irqOut ++ [BitVec.ofNat 6 v] }

/-- A page's interrupt is asserted (R374). -/
def State.pageIrq (s : State) (page : Nat) : Bool :=
  decide (s.reg (R.hdrIrqStat page) &&& s.reg (R.hdrIrqEn page) ≠ 0)

/-- The routing byte of a page (R374). -/
def State.routeByte (s : State) (page : Nat) : Nat :=
  (s.reg (R.topIrqVec (page / 4)) >>> (8 * (page % 4))) % 256

/-- The message of a page's interrupt, when its routing byte enables it (R374). -/
def State.pageMsg (s : State) (page : Nat) : State :=
  let r := s.routeByte page
  if r.testBit 7 then s.sendVec (r % 64) else s

/-- IRQ_STAT bits of a page set; a rise of the page's interrupt sends its message (R374). -/
def State.raiseIrq (s : State) (page mask : Nat) : State :=
  let was := s.pageIrq page
  let s := s.setReg (R.hdrIrqStat page) (s.reg (R.hdrIrqStat page) ||| mask)
  if !was && s.pageIrq page then s.pageMsg page else s

/-- The first error of a page recorded, unless one is held (R370). -/
def State.errFirst (s : State) (page status : Nat) (info : Nat := 0) : State :=
  if s.regBit (R.hdrErrFirst page) 31 then s
  else (s.setReg (R.hdrErrFirst page) (2 ^ 31 + status)).setReg (R.hdrErrFirstInfo page) info

/-- Words written into a 16-entry log page (R166, R277): the entry at HEAD, then HEAD and the count. -/
def State.putLog16 (s : State) (cnt head first : Nat) (words : List Nat) : State :=
  let h := s.reg head % 16
  let s := words.zipIdx.foldl (fun s p => s.setReg (first + 4 * words.length * h + 4 * p.2) p.1) s
  (s.setReg head ((h + 1) % 16)).bump cnt

/-! ### Free values -/

/-- n bytes that a rule calls undefined, and the counter after them. -/
def State.freeBytes (s : State) (n : Nat) : Bytes × State :=
  ((List.range n).map fun i => Config.freeByte (s.free + i), { s with free := s.free + n })

/-! ### Host memory (R21, R36) -/

/-- Bytes of host memory. -/
def State.rd (s : State) (a n : Nat) : Bytes := s.mem.readN a n

/-- A little-endian number of host memory. -/
def State.rdN (s : State) (a n : Nat) : Nat := leNat (s.rd a n)

/-- Some granule that bytes [a, a + n) touch is poisoned (R36). -/
def State.poisoned (s : State) (a n : Nat) : Bool := touches 64 a n s.memPoison

/-- Good bytes written; the poison of a granule goes when the write covers it whole. -/
def State.wr (s : State) (a : Nat) (bs : Bytes) : State :=
  { s with
    mem := s.mem.writeN a bs
    memPoison := s.memPoison.filter fun g => !(decide (a ≤ g * 64 ∧ (g + 1) * 64 ≤ a + bs.length)) }

/-- The granules that bytes [a, a + n) touch marked poisoned (R36). -/
def State.markPoison (s : State) (a n : Nat) : State :=
  let u := unitsOf 64 a n
  { s with memPoison := insertRange u.1 u.2 s.memPoison }

/-- Bytes written as poisoned words (R36). -/
def State.wrPoison (s : State) (a : Nat) (bs : Bytes) : State := (s.wr a bs).markPoison a bs.length

/-- Bytes written, poisoned or not. -/
def State.wrP (s : State) (poison : Bool) (a : Nat) (bs : Bytes) : State :=
  if poison then s.wrPoison a bs else s.wr a bs

/-! ### The context tables (R28, R379) -/

/-- Bytes of the context tables. -/
def State.ctxRd (s : State) (a n : Nat) : Bytes := s.ctx.readN a n

/-- Bytes of the context tables written. -/
def State.ctxWr (s : State) (a : Nat) (bs : Bytes) : State := { s with ctx := s.ctx.writeN a bs }

/-- A field of the entry at a base address. -/
def State.fld (s : State) (base : Nat) (f : Fld) : Nat :=
  bits (leNat (s.ctxRd (base + f.off) f.len)) f.hi f.lo

/-- A one-bit field as a Bool. -/
def State.flag (s : State) (base : Nat) (f : Fld) : Bool := s.fld base f != 0

/-- A field of the entry at a base address replaced. -/
def State.setFld (s : State) (base : Nat) (f : Fld) (v : Nat) : State :=
  s.ctxWr (base + f.off) (toLE f.len (setBits (leNat (s.ctxRd (base + f.off) f.len)) f.hi f.lo v))

/-- A saturating 32-bit counter of a context entry raised by n. -/
def State.bumpFld (s : State) (base : Nat) (f : Fld) (n : Nat := 1) : State :=
  if n = 0 then s else s.setFld base f (min (s.fld base f + n) 0xFFFFFFFF)

/-- The disabled-unit map (R3, R375): Piers fused off or out of service. -/
def State.pierDisabled (s : State) : Nat :=
  maskOf ((List.range 32).filter fun n =>
    s.pwr.fusedOff.getLsbD n || ((s.pwr.islands[5 + n]?).map (·.oos)).getD false)

/-- Bits [15:0] of the CRC-32C of four bytes (R384). -/
def hash16 (n : Nat) : Nat := crc32c (toLE 4 n) % 65536

/-- The numeric definition record (R385). -/
def numericRecord : Bytes := [0x41, 0x4B, 0x4E, 0x4D, 2, 1, 1, 0]

/-- REPRO_ID (R384). -/
def State.reproId (s : State) : Nat :=
  s.regBits R.topPart 31 24 * 2 ^ 56 + 2 * 2 ^ 52 + hash16 (s.reg R.bootFwVersion) * 2 ^ 36 +
  hash16 s.pierDisabled * 2 ^ 20 + crc32c numericRecord % 65536 * 16

/-- The page of an island's errors (R17). -/
def islandPage (i : Nat) : Nat :=
  if i = 1 then 1 else if i = 2 then 7 else if i = 3 then 0x60 else if i = 4 then 0x70
  else if i < 37 then 0x10 + (i - 5) else if i < 61 then 0x40 + (i - 37) else 0x68 + (i - 61)

/-- The page that counts the errors of an array (R27) or of a crossing (R225). No rule says which island's page owns an
Expansion joint: here the one at its output, where it is checked (DESIGN CHOICE, log entry 102). -/
def Sram.page : Sram → Nat
  | .keystone => 1 | .span => 7 | .context => 0x70 | .pier n => 0x10 + n | .coalesce n => 0x68 + n
  | .deck => 0x60 | .port n => 0x40 + n | .joint _ d => islandPage d | .crossing n => 0x68 + n

/-- The arrays, joints and crossings, numbered. -/
def Sram.number : Sram → Nat
  | .keystone => 0 | .span => 1 | .context => 2 | .pier n => 3 + n % 32 | .coalesce n => 35 + n % 8
  | .deck => 43 | .port n => 44 + n % 24 | .crossing n => 68 + n % 8 | .joint a b => 76 + a % 69 * 69 + b % 69

/-- An uncorrectable word reported (R33, R370): WHERE of ERR_FIRST_INFO names the array or joint in the page's own
numbering, which no rule gives: a free value (DESIGN CHOICE, log entry 104). -/
def State.countUe (s : State) (m : Sram) (granule : Nat) : State :=
  (s.bump (R.hdrErrCntUe m.page)).errFirst m.page 0x51
    ((Config.whereOf m.number).toNat * 2 ^ 28 + granule % 2 ^ 28)

/-- The bits of a word that have flipped since it was written (R30): every flip recorded for it. -/
def State.flipsOf (s : State) (m : Sram) (granule : Nat) : Nat :=
  s.upsets.foldl (fun a u => if u.array = m ∧ u.granule = granule then a ^^^ u.flips else a) 0

/-- The word written anew: nothing of it is flipped. -/
def State.freshWord (s : State) (m : Sram) (granule : Nat) : State :=
  { s with upsets := s.upsets.filter fun u => !(decide (u.array = m ∧ u.granule = granule)) }

/-- The check of a word of 128 data bits that may have flipped (R31-R33, R70): the data passed on, whether it is known
to be bad, and the counts. -/
def State.checkWord (s : State) (m : Sram) (granule data : Nat) : (Nat × Bool) × State :=
  let t := s.freshWord m granule
  match eccRead (eccWord data ^^^ s.flipsOf m granule) with
  | .good d => ((d, false), t)
  | .corrected d => ((d, false), t.bump (R.hdrErrCntCe m.page))
  | .uncorrectable d => ((d, true), t.countUe m granule)

/-- A flip of a word is recorded. -/
def State.hasFlip (s : State) (m : Sram) (granule : Nat) : Bool :=
  s.upsets.any fun u => decide (u.array = m ∧ u.granule = granule)

/-- The array that holds a granule of the table windows: the span buffers hold the ring contexts (R28, R246), and the
context SRAM every other table. -/
def windowArray (granule : Nat) : Sram := if 0xF5000 ≤ granule ∧ granule < 0xF6000 then .span else .context

/-- The check of the word at a granule of the context tables (R31-R34): whether it may be used, and the
state after the counts, the correction and the write back. -/
def State.ctxCheck (s : State) (granule : Nat) : Bool × State :=
  let m := windowArray granule
  if s.ctxPoison.contains granule then (false, s.countUe m granule)
  else if !s.hasFlip m granule then (true, s)
  else
    let (r, s) := s.checkWord m granule (leNat (s.ctxRd (granule * 16) 16))
    let s := s.ctxWr (granule * 16) (toLE 16 r.1)
    (!r.2, if r.2 then { s with ctxPoison := insertN granule s.ctxPoison } else s)

/-- The check of every granule of an entry that an operation reads (R31, R244: UNCORRECTABLE). -/
def State.ctxUse (s : State) (a n : Nat) : Bool × State :=
  let u := unitsOf 16 a n
  (List.range u.2).foldl (fun r i =>
    let (ok, t) := r.2.ctxCheck (u.1 + i)
    (r.1 && ok, t)) (true, s)

/-! ### Islands (R344, R345) -/

/-- An island is powered, out of reset and in service. -/
def State.islandReady (s : State) (n : Nat) : Bool :=
  match s.pwr.islands[n]? with
  | some i => i.ready && !i.oos
  | none => false

/-- The island that holds a page (R17, R345). -/
def pageIsland (page : Nat) : Option Nat :=
  match pageKind page with
  | .top => some 0 | .pwr => some 0 | .time => some 0 | .test => some 0 | .kstn => some 1
  | .qmgr => some 2 | .stat => some 2 | .tbl => some 2 | .rng => some 2 | .snap => some 2
  | .deck => some 3 | .rma => some 4 | .sec => some 4 | .pier n => some (5 + n)
  | .port n => some (37 + n) | .abut n => some (61 + n) | .reserved => none | .window => some 4

/-- A self-test runs on an island, which takes no work meanwhile (R400). -/
def State.underTest (s : State) (island : Nat) : Bool :=
  match s.test with
  | some t => t.island == island
  | none => false

/-- A Pier that may take work: active (R3), its island ready, not disabled, held or under test (R372, R400). -/
def State.pierFree (s : State) (n : Nat) : Bool :=
  !s.underTest (5 + n) && !s.pwr.fusedOff.getLsbD n && s.islandReady (5 + n) &&
  s.regBit (R.hdrCtrl (0x10 + n)) 0 && !s.regBit (R.hdrCtrl (0x10 + n)) 2

/-- The Piers that may take work, in order. -/
def State.freePiers (s : State) : List Nat := (List.range 32).filter s.pierFree

/-- The Pier that takes the next chunk or block: a free choice among those that may (R73). -/
def State.takePier (s : State) : Nat × State :=
  let l := s.freePiers
  (nth l (Config.pickPier s.free % max l.length 1) 0, { s with free := s.free + 1 })

/-- The Abutment beside the stack that holds a byte's granule (R200). -/
def abutOf (a : Nat) : Nat := (Config.stackOf (a / 64)).val

end Sys2Proof.Machine
end

