-- ==== Sys2Proof/Machine/Complete.lean ====
section
/-! DEFINITION. Trigger counters (R236-R238), completion queues and records (R241-R245), and the completion
of a descriptor. -/

namespace Sys2Proof.Machine

/-- A pre-posted descriptor with a threshold is enabled at a counter value (R238). -/
def passed (value thresh : Nat) : Bool := decide ((value + 2 ^ 32 - thresh % 2 ^ 32) % 2 ^ 32 < 2 ^ 31)

/-- A slot put among slots that stand in ascending order (R238). -/
def insertSlot (x : Slot) : List Slot → List Slot
  | [] => [x]
  | y :: t => if x.slot < y.slot then x :: y :: t else y :: insertSlot x t

/-- The waiting pre-posted descriptors of a counter tested after an event on it (R238): those that it enables follow
those enabled before, in ascending order of their slots. -/
def State.testSlots (s : State) (c : Nat) : State :=
  let v := s.fld (ctrBase c) Ctr.value
  let hit (x : Slot) : Bool :=
    !x.enabled && decide (x.desc.trigCtr.toNat = c) && passed v x.desc.trigThresh.toNat
  let hits := s.q.store.filter hit
  let n := hits.length
  let s := if n = 0 then s else
    s.setFld (ctrBase c) Ctr.waiters (s.fld (ctrBase c) Ctr.waiters - n)
  let on := (hits.map fun (x : Slot) => { x with enabled := true }).foldr insertSlot []
  let keep := s.q.store.filter fun (x : Slot) => !hit x
  { s with q := { s.q with store := keep ++ on } }

/-- An event on a trigger counter (R237): the new VALUE, RAISES, and the tests it causes. -/
def State.ctrEvent (s : State) (c value : Nat) : State :=
  let b := ctrBase (c % 65536)
  let s := s.setFld b Ctr.value (value % 2 ^ 32)
  let s := s.setFld b Ctr.raises ((s.fld b Ctr.raises + 1) % 2 ^ 32)
  s.testSlots (c % 65536)

/-- An event of the engine's own on a trigger counter, its new VALUE computed from the old: the entry is checked as it is
read, and one that is uncorrectable is not used, so the event has no effect on it (R31, R244). -/
def State.ctrTry (s : State) (c : Nat) (f : Nat → Nat) : Bool × State :=
  let b := ctrBase (c % 65536)
  let (ok, s) := s.ctxUse b 16
  (ok, if ok then s.ctrEvent c (f (s.fld b Ctr.value)) else s)

/-- A trigger counter raised by n (R237). -/
def State.ctrAdd (s : State) (c n : Nat) : State := (s.ctrTry c (· + n)).2

/-- What a completed operation reports (R243): the index of the first non-finite value, when one was met. -/
structure Result where
  status : Nat
  count  : Nat
  passes : Nat
  nf     : Option Nat
  deriving DecidableEq, Repr

/-- A result with no count. -/
def Result.of (status : Nat) : Result := ⟨status, 0, 0, none⟩

/-- The completion queue is enabled (R241). -/
def State.cqOn (s : State) (cq : Nat) : Bool := s.flag (cqBase cq) Cq.enable

/-- The completion queue has a free credit (R242). -/
def State.cqFree (s : State) (cq : Nat) : Bool :=
  let b := cqBase cq
  decide ((s.fld b Cq.pi + 2 ^ 20 - s.fld b Cq.ci) % 2 ^ 20 + s.fld b Cq.resv < 2 ^ s.fld b Cq.log2Size)

/-- A record discarded (R242). -/
def State.dropRecord (s : State) : State := (s.bump R.qmgrCqDropCnt).raiseIrq 7 4

/-- The 16 bytes of a record (R243). -/
def recordBytes (r : Result) (op tag : Nat) (phase prepost : Bool) : Bytes :=
  let sat := decide (r.count ≥ 2 ^ 40)
  let nf := r.nf.isSome
  toLE 1 r.status ++ toLE 1 op ++ toLE 1 (min r.passes 255) ++
  toLE 1 (b2n phase <<< 7 + b2n nf <<< 6 + b2n prepost <<< 5 + b2n sat <<< 4) ++
  toLE 2 tag ++ toLE 5 (if sat then 2 ^ 40 - 1 else r.count) ++ toLE 5 (r.nf.getD 0)

/-- A record written to an enabled queue, with its interrupt (R243, R245). -/
def State.writeRecord (s : State) (cq : Nat) (r : Result) (op tag : Nat) (prepost irq : Bool) : State :=
  let b := cqBase cq
  let n := s.fld b Cq.pi
  let size := 2 ^ s.fld b Cq.log2Size
  let s := s.wr (s.fld b Cq.base + 16 * (n % size))
    (recordBytes r op tag (decide (n / size % 2 = 0)) prepost)
  let s := s.setFld b Cq.pi ((n + 1) % 2 ^ 20)
  let s := s.bumpFld b Cq.records
  let urgent := irq || decide (0x10 ≤ r.status)
  match s.fld b Cq.irqMode with
  | 1 =>
    let k := min (s.fld b Cq.sinceIrq + 1) 0xFFFFFFFF
    if urgent || decide (max (s.fld b Cq.coalesce) 1 ≤ k) then
      (s.setFld b Cq.sinceIrq 0).sendVec (s.fld b Cq.vec)
    else s.setFld b Cq.sinceIrq k
  | 2 => if urgent then s.sendVec (s.fld b Cq.vec) else s
  | _ => s

/-- The four words of a line of the coalescing buffer read: poisoned ones read as uncorrectable and are counted (R33,
R34). -/
def State.cbRead (s : State) (l : CbLine) : State :=
  if l.poison then
    (List.range 4).foldl (fun (s : State) i => s.countUe (.coalesce (abutOf (l.granule * 64))) (l.granule * 4 + i)) s
  else s

/-- A dirty line of the coalescing buffer written back to memory (R202). -/
def State.cbWriteBack (s : State) (l : CbLine) : State :=
  if l.dirty then
    ((s.cbRead l).wrP l.poison (l.granule * 64) l.data).bump64 (R.abutCbWbLo (abutOf (l.granule * 64)))
  else s

/-- The lines an operation used released at its completion: those no other outstanding operation uses are
written back and invalidated (R202). -/
def State.cbRelease (s : State) (id : Nat) : State :=
  let upd := s.cb.map fun l => { l with users := l.users.filter (· != id) }
  let gone := (s.cb.zip upd).filter fun p => p.1.users.contains id && p.2.users.isEmpty
  let keep := (s.cb.zip upd).filter fun p => !(p.1.users.contains id && p.2.users.isEmpty)
  gone.foldl (fun s p => s.cbWriteBack p.1) { s with cb := keep.map (·.2) }

/-- The descriptor came from the pre-posted store (R243). -/
def isPrepost (d : Desc) : Bool :=
  match d.src with
  | .ring _ => false
  | .slot _ => true

/-- A descriptor completes: its lines are written back, its record is written or suppressed, its credit
returned, and its DONE_CTR raised (R22, R202, R237, R242). -/
def State.completeOne (s : State) (l : Live) (r : Result) : State :=
  let s := s.cbRelease l.id
  let s := { s with touched := s.touched.filter fun p => p.1 != l.id
                    q := { s.q with live := s.q.live.filter (·.id != l.id) } }
  let cq := l.desc.cq.toNat
  let b := cqBase cq
  let s := if l.credit then s.setFld b Cq.resv (s.fld b Cq.resv - 1) else s
  let s :=
    if l.desc.errOnly && decide (r.status < 0x10) then s
    else if l.credit then s.writeRecord cq r l.op l.desc.tag.toNat (isPrepost l.desc) l.desc.irq
    else s.dropRecord
  if l.desc.doneEn && (l.desc.doneAny || decide (r.status < 0x10)) then s.ctrAdd l.desc.doneCtr.toNat 1
  else s

/-- The first fence whose awaited descriptors have all completed (R235). -/
def State.doneFence (s : State) : Option Live :=
  s.q.live.find? fun l => match l.phase with
    | .fence ids => ids.all fun i => !(s.q.live.any (·.id == i))
    | _ => false

/-- Fences completed while any can be (R235); n bounds how many. -/
def State.settle : Nat → State → State
  | 0, s => s
  | n + 1, s =>
    match s.doneFence with
    | some l => State.settle n (s.completeOne l (.of 0))
    | none => s

/-- A descriptor completes, and then every fence that waited for it alone. -/
def State.finish (s : State) (l : Live) (r : Result) : State :=
  let s := s.completeOne l r
  s.settle s.q.live.length

/-- A descriptor ends with a status and no count. -/
def State.endWith (s : State) (l : Live) (status : Nat) : State := s.finish l (.of status)

/-- An outstanding descriptor's phase replaced. -/
def State.setPhase (s : State) (id : Nat) (p : Phase) : State :=
  { s with q := { s.q with live := s.q.live.map fun l => if l.id = id then { l with phase := p } else l } }

end Sys2Proof.Machine
end

