-- ==== Sys2Proof/Machine/Queue.lean ====
section
/-! DEFINITION. Rings, the pre-posted store and dispatch (R226-R235, R238, R239), and the commands of this
chapter: NOP, FENCE, DESCRIPTOR_READ and the window writes of rings, queues and counters. -/

namespace Sys2Proof.Machine

/-- The little-endian number at bytes [off, off + len) of a descriptor's operand area, off counted from the
start of the descriptor (0x20 on). -/
def opd (d : Desc) (off len : Nat) : Nat := leAt d.ops (off - 0x20) len

/-- Bits [hi:lo] of an operand field. -/
def opBits (d : Desc) (off len hi lo : Nat) : Nat := bits (opd d off len) hi lo

/-- One bit of an operand byte. -/
def opBit (d : Desc) (off k : Nat) : Bool := (opd d off 1).testBit k

/-- The descriptor spelled by 64 bytes (R229): its opcode and the rest. -/
def descOf (src : Source) (bs : Bytes) : Nat × Desc :=
  let n (off len : Nat) := leAt bs off len
  (n 0 1,
   { src := src
     prio := BitVec.ofNat 4 (bits (n 1 1) 7 4)
     fencePrev := bit (n 1 1) 3
     irq := bit (n 1 1) 2
     errOnly := bit (n 1 1) 1
     group := BitVec.ofNat 12 (n 2 2)
     channel := BitVec.ofNat 16 (n 4 2)
     cq := BitVec.ofNat 12 (n 6 2)
     seq := BitVec.ofNat 32 (n 8 4)
     trigThresh := BitVec.ofNat 32 (n 0xC 4)
     trigCtr := BitVec.ofNat 16 (n 0x10 2)
     doneCtr := BitVec.ofNat 16 (n 0x12 2)
     trigEn := bit (n 0x14 1) 7
     doneEn := bit (n 0x14 1) 6
     doneAny := bit (n 0x14 1) 5
     tag := BitVec.ofNat 16 (n 0x16 2)
     ppSlot := BitVec.ofNat 17 (n 0x18 4)
     ops := sub bs 0x20 32 })

/-- The opcodes of R231. -/
def opcodes : List Nat :=
  [0, 1, 2, 3, 4, 5, 6, 7, 0x10, 0x11, 0x12, 0x13, 0x14, 0x15, 0x16, 0x20, 0x21, 0x22,
   0x30, 0x31, 0x32, 0x33, 0x40, 0x41, 0x42, 0x43, 0x44]

/-- The active seed (R60). -/
def State.seed (s : State) : DWord := BitVec.ofNat 64 (s.reg R.rngActiveLo + s.reg R.rngActiveHi * 2 ^ 32)

/-- Dispatch is stopped (R233). -/
def State.stopped (s : State) : Bool :=
  s.regBit (R.hdrCtrl 7) 2 || !s.regBit (R.hdrCtrl 7) 0 || !s.regBit R.kstnState 29 || s.q.selfLost

/-- The ring a descriptor names as its own. -/
def srcRing (d : Desc) : Nat :=
  match d.src with
  | .ring r => r.toNat
  | .slot _ => 0

/-- An earlier descriptor of the same ring is outstanding (R233). -/
def State.earlierLive (s : State) (ring order : Nat) : Bool :=
  s.q.live.any fun l => decide (l.ring = ring ∧ l.order < order)

/-- Something of R233 other than a credit holds a descriptor: dispatch stopped, the store of outstanding
descriptors full, and for a ring head a descriptor before it, FENCE_PREV or a FENCE not completed. -/
def State.heldHead (s : State) (w : Waiting) : Bool :=
  s.stopped || decide (16384 ≤ s.q.live.length) ||
  (!isPrepost w.desc &&
    (s.q.waiting.any (fun x => decide (x.ring = w.ring ∧ x.order < w.order) && !isPrepost x.desc) ||
     (w.desc.fencePrev && s.earlierLive w.ring w.order) ||
     s.q.live.any fun l => decide (l.ring = w.ring ∧ l.order < w.order ∧ l.op = 0x42)))

/-- The descriptor's queue would have it wait for a credit (R242). -/
def State.noCredit (s : State) (w : Waiting) : Bool :=
  !w.cut && s.cqOn w.desc.cq.toNat && !s.cqFree w.desc.cq.toNat

/-- The coding setting DEF of a stream's group for its CODE_FMT (R153), read at dispatch of a COMPRESS: the
slot when coding is in force. -/
def State.defSlot (s : State) (ctx : Nat) : Option Nat :=
  let b := strmBase ctx
  let fmt := s.fld b Strm.codeFmt
  if 4 ≤ fmt ∧ fmt ≤ 8 then
    let v := s.fld (grpBase (s.fld b Strm.group)) (Grp.defFmt fmt)
    if v.testBit 7 then some (v % 16) else none
  else none

/-- The slot a command codes with, read at its dispatch (R143, R153). -/
def State.codingSlot (s : State) (op : Nat) (d : Desc) : Option Nat :=
  if op = 1 then s.defSlot (opBits d 0x20 2 13 0)
  else if op = 6 ∧ opBit d 0x35 2 then some (opBits d 0x38 1 7 4)
  else none

/-- A table slot. -/
def State.tbl (s : State) (n : Nat) : TblSlot := nth s.q.tables n ⟨.free, 0, 0, 0, 0, [], [], false⟩

/-- The outstanding descriptor a waiting one becomes at its dispatch (R233): seed, coding slot and credit. -/
def State.toLive (s : State) (w : Waiting) : Live :=
  let slot := s.codingSlot w.op w.desc
  { id := s.q.nextId, ring := w.ring, order := w.order, op := w.op, desc := w.desc, seed := s.seed
    coded := slot
    stale := match slot with
      | some n => decide ((s.tbl n).state ≠ .loaded)
      | none => false
    credit := !w.cut && s.cqOn w.desc.cq.toNat
    phase := .start }

/-- The waiting descriptor dispatched: out of the heads and the store, counted, outstanding, with its credit
taken (R233, R238, R242). -/
def State.dispatch (s : State) (w : Waiting) : Live × State :=
  let l := s.toLive w
  let b := cqBase w.desc.cq.toNat
  let s := { s with q := { s.q with
    waiting := s.q.waiting.filter fun x => x.order != w.order
    store := s.q.store.filter fun x => x.order != w.order
    live := s.q.live ++ [l]
    nextId := s.q.nextId + 1
    lastChans := modNth s.q.lastChans w.desc.prio.toNat fun _ => w.desc.channel.toNat } }
  let s := if l.credit then s.setFld b Cq.resv (s.fld b Cq.resv + 1) else s
  (l, s.bump64 R.qmgrDispatchLo)

/-- A descriptor taken among the heads, unless it stands there already: with its order of reading. -/
def State.enter (s : State) (op : Nat) (d : Desc) : Waiting × State :=
  match s.q.waiting.find? fun w => decide (w.op = op ∧ w.desc = d) with
  | some w => (w, s)
  | none =>
    match s.q.store.find? fun x => decide (x.op = op ∧ x.desc = d) with
    | some x => (⟨x.ring, x.order, op, d, false, x.cut⟩, s)
    | none =>
      let w : Waiting := ⟨srcRing d, s.q.nextRead, op, d, false, false⟩
      (w, { s with q := { s.q with waiting := s.q.waiting ++ [w], nextRead := s.q.nextRead + 1 } })

/-- A descriptor stored and not enabled waits for its counter (R238). -/
def State.notEnabled (s : State) (op : Nat) (d : Desc) : Bool :=
  s.q.store.any fun x => decide (x.op = op ∧ x.desc = d) && !x.enabled

/-- A head's wait for a credit counted once (R242, R246). -/
def State.countWait (s : State) (w : Waiting) : State :=
  if w.counted || isPrepost w.desc then s
  else
    let s := s.bump R.qmgrCqWaitCnt
    { s with q := { s.q with waiting := s.q.waiting.map fun x =>
        if x.order = w.order then { x with counted := true } else x } }

/-- The descriptors that may be dispatched now: ring heads and enabled pre-posted descriptors (R233, R242). -/
def State.readyHeads (s : State) : List Waiting :=
  let stored := (s.q.store.filter (·.enabled)).map fun x => (⟨x.ring, x.order, x.op, x.desc, false, x.cut⟩ : Waiting)
  (s.q.waiting ++ stored).filter fun w => !s.heldHead w && !s.noCredit w

/-- A descriptor's turn (R197): the highest priority first and, within a priority, channels in turn after the one served
last there; least first. -/
def State.turn (s : State) (d : Desc) : Nat :=
  (16 - d.prio.toNat) * 65536 + (d.channel.toNat + 65535 - nth s.q.lastChans d.prio.toNat 0 % 65536) % 65536

/-- The one dispatched next (R197, R234). -/
def State.nextHead (s : State) : Option Waiting :=
  s.readyHeads.foldl (fun (best : Option Waiting) w => match best with
    | none => some w
    | some b => if s.turn w.desc < s.turn b.desc then some w else some b) none

/-- Another descriptor that may be dispatched now has its turn first (R197, R234). -/
def State.outranked (s : State) (w : Waiting) : Bool := s.readyHeads.any fun x => decide (s.turn x.desc < s.turn w.desc)

/-- A descriptor's command: it is dispatched when nothing holds it (R233) and it has its turn (R234), and then runs;
otherwise it waits. One that is outstanding and has not started goes on by the engine's own work, in its turn. -/
def runDesc (op : Nat) (start : Live → State → State) (d : Desc) (s : State) : State :=
  if s.q.live.any fun l => decide (l.op = op ∧ l.desc = d ∧ l.phase = .start) then s
  else if s.notEnabled op d then s
  else
    let (w, s) := s.enter op d
    if s.heldHead w then s
    else if s.noCredit w then s.countWait w
    else if s.outranked w then s
    else
      let (l, s) := s.dispatch w
      start l s

/-! ### NOP and FENCE -/

/-- NOP (R232): complete at dispatch. -/
def startNop (l : Live) (s : State) : State := s.endWith l 0

/-- The descriptors a FENCE waits for (R235). -/
def fenceIds (scope : Nat) (l : Live) (s : State) : List Nat :=
  let earlier := s.q.live.filter fun x =>
    decide (x.id ≠ l.id) && (decide (scope = 1) || decide (x.ring = l.ring ∧ x.order < l.order))
  earlier.map (·.id)

/-- FENCE (R235). -/
def startFence (l : Live) (s : State) : State :=
  let scope := opBits l.desc 0x20 1 1 0
  if 2 ≤ scope then s.endWith l 0x70
  else
    let ids := fenceIds scope l s
    if ids = [] then s.endWith l 0 else s.setPhase l.id (.fence ids)

/-! ### Reading a descriptor -/

/-- The address of descriptor n of a ring (R227). -/
def State.ringSlot (s : State) (r n : Nat) : Nat :=
  let b := ringBase r
  s.fld b Ring.base + 64 * (n % 2 ^ s.fld b Ring.log2Size)

/-- A record formed without a descriptor dispatched, to a queue that may lack a credit (R228, R230). -/
def State.headRecord (s : State) (cq : Nat) (r : Result) (op tag : Nat) (irq : Bool) : State :=
  if s.cqOn cq && s.cqFree cq then s.writeRecord cq r op tag false irq else s.dropRecord

/-- A ring stopped (R228) by a descriptor that cannot be used, POISONED, or by its own context, UNCORRECTABLE (R244). -/
def State.stopRing (s : State) (r slot status : Nat) : State :=
  let b := ringBase r
  let s := s.headRecord (s.fld b Ring.errCq) (.of status) 0 0 false
  let s := s.setFld b Ring.stopped 1
  let s := if s.regBit R.qmgrRingErr 31 then s
    else (s.setReg R.qmgrRingErr (2 ^ 31 + r)).setReg R.qmgrRingErrInfo (status * 2 ^ 24 + slot)
  s.raiseIrq 7 1

/-- The header's checks in order (R230): the status of the first that fails. Order 5 is left to the caller,
which sends the record to ERR_CQ. -/
def State.headerCheck (s : State) (op : Nat) (d : Desc) : Option Nat :=
  if !(opcodes.contains op) then some 0x70
  else if 31 < d.channel.toNat then some 0x23
  else if d.trigEn && d.fencePrev then some 0x23
  else if d.trigEn && (decide (81919 < d.ppSlot.toNat) || s.q.store.any (·.slot == d.ppSlot.toNat)) then
    some 0x23
  else if !s.cqOn d.cq.toNat then some 0x23
  else none

/-- The refusal at order 4 for an occupied slot, or for a full store (R239). -/
def State.ppFull (s : State) (op : Nat) (d : Desc) : Bool :=
  opcodes.contains op && decide (d.channel.toNat ≤ 31) && d.trigEn && !d.fencePrev &&
  (s.q.store.any (·.slot == d.ppSlot.toNat) || decide (81920 ≤ s.q.store.length))

/-- A descriptor whose header failed (R230): its record goes to its CQ, or to the ring's ERR_CQ. -/
def State.refuseHead (s : State) (r op : Nat) (d : Desc) (status : Nat) : State :=
  let cq := d.cq.toNat
  if s.cqOn cq then s.headRecord cq (.of status) op d.tag.toNat d.irq
  else s.headRecord (s.fld (ringBase r) Ring.errCq) (.of status) op d.tag.toNat d.irq

/-- A descriptor stored in its pre-posted slot, tested as it is stored (R233, R238). -/
def State.storePrepost (s : State) (r op : Nat) (d : Desc) : State :=
  let d := { d with src := .slot d.ppSlot }
  let c := d.trigCtr.toNat
  let on := passed (s.fld (ctrBase c) Ctr.value) d.trigThresh.toNat
  let s := if on then s else s.setFld (ctrBase c) Ctr.waiters (s.fld (ctrBase c) Ctr.waiters + 1)
  { s with q := { s.q with
    store := s.q.store ++ [⟨d.ppSlot.toNat, r, s.q.nextRead, op, d, on, false⟩]
    nextRead := s.q.nextRead + 1 } }

/-- The ring has a descriptor to read, and nothing read from it waits (R227, R233). -/
def State.ringReady (s : State) (r : Nat) : Bool :=
  let b := ringBase r
  s.flag b Ring.enable && !s.flag b Ring.stopped && decide (s.fld b Ring.ci ≠ s.fld b Ring.pi) &&
  !s.stopped && !(s.q.waiting.any fun w => decide (w.ring = r) && !isPrepost w.desc) &&
  !(s.q.live.any fun l => decide (l.ring = r ∧ l.op = 0x42))

/-- The header failed for want of a credit of the queue its record goes to: the head waits (R242). -/
def State.refusalWaits (s : State) (r : Nat) (d : Desc) : Bool :=
  let cq := d.cq.toNat
  if s.cqOn cq then !s.cqFree cq
  else s.cqOn (s.fld (ringBase r) Ring.errCq) && !s.cqFree (s.fld (ringBase r) Ring.errCq)

/-- The wait of a head whose header failed counted once (R242). -/
def State.countHead (s : State) (r : Nat) : State :=
  if s.q.headWaits.contains r then s
  else { s.bump R.qmgrCqWaitCnt with q := { s.q with headWaits := s.q.headWaits ++ [r] } }

/-- The bytes of the descriptor at a ring's CI, and whether they can be used (R228). -/
def State.ringBytes (s : State) (r : Nat) : Bytes × Bool :=
  let b := ringBase r
  let a := s.ringSlot r (s.fld b Ring.ci)
  if (s.fld b Ring.base).testBit 63 then (s.q.cand.readN (a % 2 ^ 27) 64, !touches 16 (a % 2 ^ 27) 64 s.q.candBad)
  else (s.rd a 64, !s.poisoned a 64)

/-- DESCRIPTOR_READ (R227, R228, R230, R233). -/
def readDescriptor (ring : BitVec 12) (s : State) : State :=
  let r := ring.toNat
  let b := ringBase r
  if !s.ringReady r then s
  else
    let (usable, s) := s.ctxUse b 16
    let ci := s.fld b Ring.ci
    let slot := ci % 2 ^ s.fld b Ring.log2Size
    let (bs, good) := s.ringBytes r
    if !usable then s.stopRing r slot 0x51
    else if !good then s.stopRing r slot 0x50
    else
      let (op, d) := descOf (.ring ring) bs
      let next := fun (s : State) => s.setFld b Ring.ci ((ci + 1) % 2 ^ 20)
      match s.headerCheck op d with
      | some status =>
        if s.refusalWaits r d then s.countHead r
        else
          let s := { s with q := { s.q with headWaits := s.q.headWaits.filter (· != r) } }
          let s := if s.ppFull op d then (s.bump R.qmgrPpFullCnt).raiseIrq 7 2 else s
          next (s.refuseHead r op d status)
      | none =>
        if d.trigEn then next (s.storePrepost r op d)
        else
          let w : Waiting := ⟨r, s.q.nextRead, op, d, false, false⟩
          next { s with q := { s.q with waiting := s.q.waiting ++ [w], nextRead := s.q.nextRead + 1 } }

/-! ### Register and window writes of the queue manager -/

/-- QMGR_RING_DB (R227). -/
def ringDoorbell (v : Word) (s : State) : State :=
  let r := bits v.toNat 31 20
  let pi := bits v.toNat 19 0
  let b := ringBase r
  let room := (pi + 2 ^ 20 - s.fld b Ring.ci) % 2 ^ 20
  if s.flag b Ring.enable && !s.flag b Ring.stopped && decide (room ≤ 2 ^ s.fld b Ring.log2Size) then
    s.setFld b Ring.pi pi
  else s.errFirst 7 0x23

/-- QMGR_CQ_DB (R242). -/
def cqDoorbell (v : Word) (s : State) : State :=
  s.setFld (cqBase (bits v.toNat 31 20)) Cq.ci (bits v.toNat 19 0)

/-- Some ring is enabled (R247). -/
def State.anyRing (s : State) : Bool := (List.range 4096).any fun r => s.flag (ringBase r) Ring.enable

/-- QMGR_PP_CANCEL (R239). -/
def ppCancel (v : Word) (s : State) : State :=
  let p := bits v.toNat 16 0
  match s.q.store.find? fun x => x.slot == p with
  | none => s.setReg R.qmgrPpCancelRes (2 ^ 31 + 1)
  | some x =>
    if x.enabled then s.setReg R.qmgrPpCancelRes (2 ^ 31 + 2)
    else
      let b := ctrBase x.desc.trigCtr.toNat
      let s := s.setFld b Ctr.waiters (s.fld b Ctr.waiters - 1)
      let s := { s with q := { s.q with store := s.q.store.filter fun y => y.slot != p } }
      s.setReg R.qmgrPpCancelRes (2 ^ 31)

/-- QMGR_CTRL.CLEAR (R246). -/
def qmgrClearCounters (v : Word) (s : State) : State :=
  if v.getLsbD 0 then (s.zeroRegs 7 0x6C 0x80).setReg R.qmgrOrphanCnt 0 else s

/-- The first word of a ring's control bytes written (R226, R227): ENABLE and its effect on STOPPED, LOG2_SIZE,
ERR_CQ, and the low byte of the index field, which software writes only while ENABLE is 0. The word lies at
byte 0x08 of the context. -/
def ringControl (r : Nat) (v : Word) (s : State) : State :=
  let b := ringBase r
  let was := s.flag b Ring.enable
  let n := v.toNat
  let on := n.testBit 7
  let bad := (s.fld b Ring.base).testBit 63 &&
    decide (bits (s.fld b Ring.base) 26 0 ≥ s.regBits R.qmgrSpanShare 31 24 * 2 ^ 20)
  let en := if !was && on && bad then false else on
  let s' := s.setFld b Ring.log2Size (bits n 4 0)
  let s' := s'.setFld b Ring.errCq (bits n 19 8)
  let s' := s'.setFld b Ring.enable (b2n en)
  let s' := if !was && en then s'.setFld b Ring.stopped 0 else s'
  if was then s' else s'.ctxWr (b + 0xB) [BitVec.ofNat 8 (n / 2 ^ 24)]

/-- The descriptors that name a completion queue when its ENABLE is cleared (R242): outstanding ones lose
their credit, waiting and stored ones will run without one. -/
def State.cutQueue (s : State) (cq : Nat) : State :=
  { s with q := { s.q with
    live := s.q.live.map fun l => if l.desc.cq.toNat = cq then { l with credit := false } else l
    waiting := s.q.waiting.map fun w => if w.desc.cq.toNat = cq then { w with cut := true } else w
    store := s.q.store.map fun x => if x.desc.cq.toNat = cq then { x with cut := true } else x } }

/-- The word at byte 0x08 of a completion-queue context written (R241): a rise of ENABLE zeroes PI, CI, RESV
and SINCE_IRQ; a fall cuts the descriptors that name the queue (R242). -/
def cqControl (cq : Nat) (v : Word) (s : State) : State :=
  let b := cqBase cq
  let was := s.flag b Cq.enable
  let on := v.getLsbD 7
  let s := s.ctxWr (b + 8) (toLE 4 (v.toNat &&& 0xFFFFFF9F))
  if !was && on then
    (((s.setFld b Cq.pi 0).setFld b Cq.ci 0).setFld b Cq.resv 0).setFld b Cq.sinceIrq 0
  else if was && !on then s.cutQueue cq
  else s

end Sys2Proof.Machine
end

