-- ==== Sys2Proof/Machine/Table.lean ====
section
/-! DEFINITION. Exponent tables: the table file (R139-R141), the slots and their reference counts
(R142-R145), and the event log (R156, R166). -/

namespace Sys2Proof.Machine

/-- The code lengths of a table file (R139): 258 of 4 bits. -/
def tableLens (file : Bytes) : List Nat :=
  (List.range 258).map fun i => bits (leAt file (0x10 + i / 2) 1) (4 * (i % 2) + 3) (4 * (i % 2))

/-- The Kraft sum of code lengths in units of 2^-15. -/
def kraft (lens : List Nat) : Nat := (lens.map fun l => if l = 0 then 0 else 2 ^ (15 - l)).sum

/-- The alphabet size of a float format (R131); 0 for other formats. -/
def alphabetOf : VFmt → Nat
  | .e4m3 => 18 | .e5m2 => 34 | .fp16 => 34 | .bf16 => 258 | .fp32 => 258 | _ => 0

/-- The file is well formed (R140). -/
def fileWf (file : Bytes) : Bool :=
  let al := leAt file 6 2
  let lens := tableLens file
  decide (leAt file 0 4 = 0x54584B41 ∧ leAt file 4 1 = 1) && [18, 34, 258].contains al &&
  (lens.drop al).all (· == 0) && lens.any (· != 0) && decide (kraft lens ≤ 2 ^ 15)

/-- The file's FILE_CRC is right (R139). -/
def fileCrcOk (file : Bytes) : Bool := leAt file 0x9C 4 == crc32c (sub file 0 0x9C)

/-- Codes of one length given to the symbols of that length in ascending order (R141). -/
def codesOfLen (len : Nat) : List (Nat × Nat) → Nat → List (Nat × Nat × Nat) × Nat
  | [], code => ([], code)
  | (sym, l) :: t, code =>
    if l = len then
      let (r, c) := codesOfLen len t (code + 1)
      ((sym, len, code) :: r, c)
    else codesOfLen len t code

/-- The canonical prefix code (R141): symbol, length and code, lengths 1 to 15 in turn. -/
def codeTable (lens : List Nat) : List (Nat × Nat × Nat) :=
  let syms := lens.zipIdx.map fun p => (p.2, p.1)
  ((List.range 15).foldl (fun (acc : List (Nat × Nat × Nat) × Nat) i =>
    let (r, c) := codesOfLen (i + 1) syms acc.2
    (acc.1 ++ r, c * 2)) ([], 0)).1

/-- The slot a coded block names in its header (R127). -/
def blockSlot (blk : Bytes) : Option Nat :=
  if bits (leAt blk 1 1) 1 0 = 1 then some (bits (leAt blk 3 1) 7 4) else none

/-- The reference count of a slot (R143): commands that code with it, coded blocks outbound, retained or held
back, and inbound coded blocks that referred to it when placed. -/
def State.slotRefs (s : State) (n : Nat) : Nat :=
  let own (bs : List Bytes) := (bs.filter fun b => blockSlot b == some n).length
  let ofSpans (l : List Span) := (l.map fun x => own x.blocks).sum
  (s.q.live.filter fun l => l.coded == some n && !l.stale).length +
  (s.q.packs.map fun p => ofSpans p.spans).sum + ofSpans s.q.retained +
  (s.q.held.map fun h => own h.blocks).sum +
  (s.q.inbound.map fun i => (i.refs.filter (· == n)).length).sum +
  (s.q.live.map fun l => match l.phase with
    | .inst i => (i.pend.map fun p => (p.2.refs.filter (· == n)).length).sum
    | _ => 0).sum

/-- A table slot replaced. -/
def State.setTbl (s : State) (n : Nat) (t : TblSlot) : State :=
  { s with q := { s.q with tables := modNth s.q.tables n fun _ => t } }

/-- A slot's table given to the decoder copy of every active Pier (R149): a Pier that is not ready receives it when it
leaves reset (R142). -/
def State.loadCopies (s : State) (n : Nat) : State :=
  { s with piers := s.piers.zipIdx.map fun p =>
      if s.pwr.fusedOff.getLsbD p.2 || !s.islandReady (5 + p.2) then p.1
      else
        let l := if p.1.isEmpty then s.q.tables else p.1
        modNth l n fun _ => s.tbl n }

/-- A Pier that leaves reset receives copies of every held table (R142). -/
def State.givePier (s : State) (p : Nat) : State := { s with piers := modNth s.piers p fun _ => s.q.tables }

/-- The tables as the decoders of a Pier read them (R142, R155): its own copy of each, or the master in place of a copy
that it does not hold or a word of which is poisoned. -/
def State.pierTables (s : State) (p : Nat) : List TblSlot :=
  s.q.tables.zipIdx.map fun m =>
    match (nth s.piers p [])[m.2]? with
    | some c => if c.bad || c.gen != m.1.gen || c.crc != m.1.crc || c.lens.isEmpty then m.1
                else { m.1 with lens := c.lens, bad := false }
    | none => m.1

/-- A Pier has decoded a block coded with a slot: a copy with a poisoned word is counted and read again from the master
(R33, R155). -/
def State.reload (s : State) (p n : Nat) : State :=
  match (nth s.piers p [])[n]? with
  | some c =>
    if !c.bad then s
    else
      let s := s.countUe (.pier p) (10 * n)
      if (s.tbl n).bad then s.countUe .context (0x180000 + 10 * n)
      else { s with piers := modNth s.piers p fun l => modNth l n fun _ => s.tbl n }
  | none => s

/-- SLOT_FREED (R144): a RETIRING slot whose reference count is zero becomes FREE and keeps its generation. -/
def freeSlot (slot : BitVec 4) (s : State) : State :=
  let n := slot.toNat
  let t := s.tbl n
  if t.state = .retiring ∧ s.slotRefs n = 0 then
    (s.setTbl n ⟨.free, t.gen, 0, 0, 0, [], [], false⟩).raiseIrq 5 8
  else s

/-- What a log entry of AK_TBL holds (R166). -/
structure TblLog where
  status  : Nat
  node    : Nat
  op      : Nat
  addr    : Nat
  base    : Nat
  step    : Nat
  group   : Nat
  channel : Nat
  deriving DecidableEq, Repr

/-- A rejection logged on AK_TBL (R156, R166). -/
def State.tblLog (s : State) (e : TblLog) : State :=
  (s.putLog16 R.tblLogCnt R.tblLogHead (R.tblLog 0)
    [e.status * 2 ^ 24 + e.node % 2 ^ 20, e.op, e.addr % 2 ^ 32, e.addr / 2 ^ 32 % 2 ^ 32,
     e.base % 2 ^ 32, e.base / 2 ^ 32 % 256, e.step, (e.group % 4096) * 2 ^ 16 + e.channel % 2 ^ 16]).raiseIrq 5 1

/-- TBL_CTRL.LOG_CLEAR (R166): the log emptied and its count cleared. -/
def clearTblLog (v : Word) (s : State) : State :=
  if v.getLsbD 0 then ((s.zeroRegs 5 0x200 0x3FC).setReg R.tblLogCnt 0).setReg R.tblLogHead 0 else s

end Sys2Proof.Machine
end

