-- ==== Sys2Proof/Machine/Span.lean ====
section
/-! DEFINITION. The span format (R121-R137): stream and block headers, packing and reading of blocks. -/

namespace Sys2Proof.Machine

/-- A stream header (R124). -/
structure SpanHdr where
  version    : Nat
  kind       : Nat
  mode       : Nat
  fmt        : Nat
  owner      : Bool
  nf         : Bool
  partly     : Bool
  stoch      : Bool
  scale      : Nat
  length     : Nat
  mag        : Nat
  chunkKi    : Nat
  k          : Nat
  blockCount : Nat
  group      : Nat
  channel    : Nat
  step       : Nat
  seq        : Nat
  node       : Nat
  outCount   : Nat
  slot       : Nat
  coded      : Bool
  gen        : Nat
  rowLen     : Nat
  outOff     : Nat
  bytes      : Nat
  deriving DecidableEq, Repr

/-- The stream header spelled by 64 bytes (R124); its CRC is checked apart. -/
def parseSpanHdr (b : Bytes) : SpanHdr :=
  let n (off len : Nat) := leAt b off len
  { version := bits (n 0 1) 7 4, kind := bits (n 0 1) 3 0, mode := bits (n 1 1) 2 0
    fmt := bits (n 2 1) 3 0, owner := bit (n 3 1) 3, nf := bit (n 3 1) 2, partly := bit (n 3 1) 1
    stoch := bit (n 3 1) 0, scale := n 4 4, length := n 8 5, mag := bits (n 0xD 1) 6 0
    chunkKi := bits (n 0xE 2) 14 0, k := n 0x10 4, blockCount := n 0x14 4
    group := bits (n 0x18 2) 11 0, channel := n 0x1A 2, step := n 0x1C 4, seq := n 0x20 4
    node := bits (n 0x24 3) 19 0, outCount := bits (n 0x27 1) 6 0, slot := bits (n 0x28 1) 7 4
    coded := bit (n 0x28 1) 3, gen := n 0x29 1, rowLen := bits (n 0x2C 4) 24 0, outOff := n 0x30 4
    bytes := n 0x38 4 }

/-- A stream header's 64 bytes with HDR_CRC (R124). -/
def SpanHdr.toBytes (h : SpanHdr) : Bytes :=
  let b := toLE 1 (h.version * 16 + h.kind) ++ toLE 1 h.mode ++ toLE 1 h.fmt ++
    toLE 1 (b2n h.owner * 8 + b2n h.nf * 4 + b2n h.partly * 2 + b2n h.stoch) ++ toLE 4 h.scale ++
    toLE 5 h.length ++ toLE 1 h.mag ++ toLE 2 h.chunkKi ++ toLE 4 h.k ++ toLE 4 h.blockCount ++
    toLE 2 h.group ++ toLE 2 h.channel ++ toLE 4 h.step ++ toLE 4 h.seq ++
    toLE 3 (h.node % 65536) ++ toLE 1 h.outCount ++ toLE 1 (h.slot * 16 + b2n h.coded * 8) ++
    toLE 1 h.gen ++ zeros 2 ++ toLE 4 h.rowLen ++ toLE 4 h.outOff ++ zeros 4 ++ toLE 4 h.bytes
  b ++ toLE 4 (crc32c b)

/-- A block header (R127). -/
structure BlkHdr where
  version : Nat
  kind    : Nat
  last    : Bool
  sparse  : Bool
  btype   : Nat
  fmt     : Nat
  slot    : Nat
  gen     : Nat
  w       : Nat
  count   : Nat
  base    : Nat
  expSize : Nat
  coded   : Nat
  subLen  : List Nat
  rawLen  : Nat
  deriving DecidableEq, Repr

/-- The block header spelled by 64 bytes (R127). -/
def parseBlkHdr (b : Bytes) : BlkHdr :=
  let n (off len : Nat) := leAt b off len
  { version := bits (n 0 1) 7 4, kind := bits (n 0 1) 3 0, last := bit (n 1 1) 3, sparse := bit (n 1 1) 2
    btype := bits (n 1 1) 1 0, fmt := bits (n 2 1) 3 0, slot := bits (n 3 1) 7 4, gen := n 4 1
    w := bits (n 5 1) 4 0, count := bits (n 6 2) 12 0, base := n 8 5, expSize := n 0x10 4
    coded := n 0x14 4, subLen := (List.range 16).map fun j => n (0x18 + 2 * j) 2, rawLen := n 0x38 4 }

/-- The 60 bytes of a block header before BLK_CRC. -/
def BlkHdr.front (h : BlkHdr) : Bytes :=
  toLE 1 (h.version * 16 + h.kind) ++ toLE 1 (b2n h.last * 8 + b2n h.sparse * 4 + h.btype) ++ toLE 1 h.fmt ++
  toLE 1 (h.slot * 16) ++ toLE 1 h.gen ++ toLE 1 h.w ++ toLE 2 h.count ++ toLE 5 h.base ++ zeros 3 ++
  toLE 4 h.expSize ++ toLE 4 h.coded ++ (h.subLen.map (toLE 2)).flatten ++ toLE 4 h.rawLen

/-- A whole block: header, BLK_CRC, payload (R127). -/
def BlkHdr.seal (h : BlkHdr) (payload : Bytes) : Bytes :=
  h.front ++ toLE 4 (crc32c (h.front ++ payload)) ++ payload

/-- Items (value, width) laid least significant bit first, as one number and its width (R130). -/
def bitStream (items : List (Nat × Nat)) : Nat × Nat :=
  items.foldl (fun a i => (a.1 + (i.1 % 2 ^ i.2) <<< a.2, a.2 + i.2)) (0, 0)

/-- A bit stream as whole bytes (R130). -/
def bitField (items : List (Nat × Nat)) : Bytes :=
  let r := bitStream items
  toLE (ceilDiv r.2 8) r.1

/-- The low k bits of a number in reverse: a prefix code goes most significant bit first (R130). -/
def revBits (k n : Nat) : Nat := (List.range k).foldl (fun a i => a * 2 + b2n (n.testBit i)) 0

/-- The fewest bits that hold a number. -/
def bitLen (n : Nat) : Nat := if n = 0 then 0 else Nat.log2 n + 1

/-- The gaps between successive indices (R131). -/
def gapsOf : List Nat → List Nat
  | a :: b :: t => (b - a - 1) :: gapsOf (b :: t)
  | _ => []

/-- The symbol and raw item (value, width) of a value (R132, R134); the Bool says ESCAPE was used. -/
def symbolOf (f : VFmt) (lens : List Nat) (v : Nat) : Nat × Option (Nat × Nat) × Bool :=
  let e := f.expW
  let m := f.man
  let has (x : Nat) := nth lens x 0 != 0
  let sym := (v >>> m) % 2 ^ e
  let item := some ((v >>> (e + m)) <<< m + v % 2 ^ m, m + 1)
  if v = 0 then
    if has (2 ^ e) then (2 ^ e, none, false)
    else if has 0 then (0, item, false) else (2 ^ e + 1, some (v, f.width), true)
  else if has sym then (sym, item, false) else (2 ^ e + 1, some (v, f.width), true)

/-- What the packer knows of a slot it codes with: its number, generation and code lengths. -/
structure Coding where
  slot : Nat
  gen  : Nat
  lens : List Nat
  deriving DecidableEq, Repr

/-- How a packed block was typed, for the counters of R167. -/
structure PackedBlock where
  bytes : Bytes
  btype : Nat
  esc   : Nat
  deriving DecidableEq, Repr

/-- The coded payload of a float block (R133): sub-stream bytes, raw field and ESCAPEs used; none when a
symbol that is needed has no code. -/
def codedParts (f : VFmt) (c : Coding) (vals : List Nat) : Option (List Bytes × Bytes × Nat) :=
  let table := codeTable c.lens
  let syms := vals.map (symbolOf f c.lens)
  if syms.all fun x => nth c.lens x.1 0 != 0 then
    let code (x : Nat) : Nat × Nat :=
      match table.find? fun t => t.1 == x with
      | some (_, l, cd) => (revBits l cd, l)
      | none => (0, 0)
    let codes := syms.map fun x => code x.1
    let subs := (List.range 16).map fun j =>
      bitField ((codes.zipIdx.filter fun p => p.2 % 16 == j).map (·.1))
    some (subs, bitField (syms.filterMap fun x => x.2.1), (syms.filter fun x => x.2.2).length)
  else none

/-- A block packed (R122, R128-R135): its entries, the coding in force, and the base of an empty block. -/
def packBlock (f : VFmt) (sparse last : Bool) (base : Nat) (entries : List (Nat × Nat))
    (coding : Option Coding) : PackedBlock :=
  let n := entries.length
  let vals := entries.map (·.2)
  let exp := ceilDiv (n * f.width) 8
  let base := match entries with
    | e :: _ => e.1
    | [] => base
  let h0 : BlkHdr :=
    { version := 2, kind := 2, last := last, sparse := sparse, btype := 3, fmt := f.code, slot := 0, gen := 0
      w := 0, count := n, base := base, expSize := exp, coded := 0, subLen := List.replicate 16 0, rawLen := 0 }
  if n = 0 ∨ (!sparse && vals.all (· == 0)) then ⟨h0.seal [], 3, 0⟩
  else
    let gaps := if sparse then gapsOf (entries.map (·.1)) else []
    let w := bitLen (gaps.foldl max 0)
    let idx := bitField (gaps.map fun g => (g, w))
    let plain (bt : Nat) : PackedBlock :=
      let p := padTo 16 (idx ++ packCodes f.width vals)
      ⟨({ h0 with btype := bt, w := w, coded := p.length, rawLen := exp }).seal p, bt, 0⟩
    match f.isFloat, coding with
    | true, some c =>
      match codedParts f c vals with
      | none => plain 2
      | some (subs, raw, esc) =>
        let body := idx ++ subs.flatten ++ raw
        if body.length < idx.length + exp then
          let p := padTo 16 body
          ⟨({ h0 with btype := 1, slot := c.slot, gen := c.gen, w := w, coded := p.length
                      subLen := subs.map List.length, rawLen := raw.length }).seal p, 1, esc⟩
        else plain 2
    | _, _ => plain 0

/-- Entries cut into runs of 4,096 (R122). -/
def runs4096 : Nat → List (Nat × Nat) → List (List (Nat × Nat))
  | 0, _ => []
  | n + 1, l => if l.isEmpty then [] else l.take 4096 :: runs4096 n (l.drop 4096)

/-- The blocks of one segment (R122): sparse segments with no entry give one empty block. -/
def packSegment (f : VFmt) (sparse : Bool) (start : Nat) (entries : List (Nat × Nat))
    (coding : Option Coding) : List PackedBlock :=
  let rs := runs4096 (entries.length / 4096 + 1) entries
  if rs.isEmpty then [packBlock f sparse true start [] coding]
  else rs.zipIdx.map fun p => packBlock f sparse (p.2 + 1 == rs.length) start p.1 coding

/-! ### Reading -/

/-- A bit reader (R136): the field as a number, its bits read, its length in bits. -/
structure Reader where
  val : Nat
  pos : Nat
  len : Nat
  deriving DecidableEq, Repr

/-- A reader over bytes. -/
def Reader.over (b : Bytes) : Reader := ⟨leNat b, 0, 8 * b.length⟩

/-- k bits, or short. -/
def Reader.take (r : Reader) (k : Nat) : Option (Nat × Reader) :=
  if r.pos + k ≤ r.len then some ((r.val >>> r.pos) % 2 ^ k, { r with pos := r.pos + k }) else none

/-- The symbol whose code the next bits complete (R136): at most `fuel` more bits. -/
def Reader.code (table : List (Nat × Nat × Nat)) : Nat → Nat → Nat → Reader → Option (Nat × Reader)
  | 0, _, _, _ => none
  | n + 1, len, acc, r =>
    match r.take 1 with
    | none => none
    | some (b, r) =>
      let acc := acc * 2 + b
      match table.find? fun t => t.2.1 == len + 1 && t.2.2 == acc with
      | some t => some (t.1, r)
      | none => Reader.code table n (len + 1) acc r

/-- Nothing but fewer than 8 zero bits is left (R136). -/
def Reader.done (r : Reader) : Bool := decide (r.len < r.pos + 8) && r.val >>> r.pos == 0

/-- n values of k bits, or short. -/
def Reader.values (k : Nat) : Nat → Reader → Option (List Nat × Reader)
  | 0, r => some ([], r)
  | n + 1, r =>
    match r.take k with
    | none => none
    | some (v, r) =>
      match Reader.values k n r with
      | none => none
      | some (vs, r) => some (v :: vs, r)

/-- The coded values of a block from position j on (R136). -/
def decodeCoded (f : VFmt) (table : List (Nat × Nat × Nat)) (streams : Nat) :
    Nat → Nat → List Reader → Reader → Option (List Nat × List Reader × Reader)
  | 0, _, srs, rr => some ([], srs, rr)
  | n + 1, j, srs, rr =>
    match nth (srs.map some) (j % streams) none with
    | none => none
    | some sr =>
      match sr.code table 15 0 0 with
      | none => none
      | some (sym, sr) =>
        let srs := modNth srs (j % streams) fun _ => sr
        let e := f.expW
        let m := f.man
        let item : Option (Nat × Reader) :=
          if sym = 2 ^ e then some (0, rr)
          else if sym = 2 ^ e + 1 then rr.take f.width
          else match rr.take (m + 1) with
            | none => none
            | some (t, r) => some ((t >>> m) <<< (e + m) ||| sym <<< m ||| t % 2 ^ m, r)
        match item with
        | none => none
        | some (v, rr) =>
          match decodeCoded f table streams n (j + 1) srs rr with
          | none => none
          | some (vs, srs, rr) => some (v :: vs, srs, rr)

/-- The indices of a sparse block (R136). -/
def sumGaps (base : Nat) : List Nat → List Nat
  | [] => []
  | g :: t => (base + g + 1) :: sumGaps (base + g + 1) t

/-- Bytes of the index field (R129). -/
def BlkHdr.ilen (h : BlkHdr) : Nat := if h.sparse && h.count != 0 then ceilDiv ((h.count - 1) * h.w) 8 else 0

/-- A checked block decoded (R136): its entries in order, or the status of the failure. -/
def decodeBlock (h : BlkHdr) (payload : Bytes) (lens : List Nat) (streams : Nat) :
    Except Nat (List (Nat × Nat)) :=
  let f := VFmt.ofCode h.fmt
  let n := h.count
  let idx : Option (List Nat) :=
    if h.sparse then
      if n = 0 then some []
      else match (Reader.over (sub payload 0 h.ilen)).values h.w (n - 1) with
        | none => none
        | some (g, _) => some (h.base :: sumGaps h.base g)
    else some ((List.range n).map (h.base + ·))
  match idx with
  | none => .error 0x31
  | some idx =>
    if h.btype = 3 then .ok (idx.map fun i => (i, 0))
    else if h.btype = 1 then
      let offs := (List.range streams).map fun j => h.ilen + (h.subLen.take j).sum
      let srs := (offs.zip h.subLen).map fun p => Reader.over (sub payload p.1 p.2)
      let rr := Reader.over (sub payload (h.ilen + h.subLen.sum) h.rawLen)
      match decodeCoded f (codeTable lens) streams n 0 srs rr with
      | none => .error 0x31
      | some (vs, srs, rr) => if srs.all Reader.done && rr.done then .ok (idx.zip vs) else .error 0x30
    else
      match (Reader.over (sub payload h.ilen h.rawLen)).values f.width n with
      | none => .error 0x31
      | some (vs, r) => if r.done then .ok (idx.zip vs) else .error 0x30

/-- BTYPE, SPARSE, VAL_FMT and COUNT are permitted together (R128, R164). -/
def blockShape (h : BlkHdr) : Bool :=
  let float := decide (4 ≤ h.fmt ∧ h.fmt ≤ 8)
  let some1 := decide (1 ≤ h.count ∧ h.count ≤ 4096)
  if h.version = 1 ∧ (h.btype = 2 ∨ h.fmt ≠ 6) then false
  else match h.btype with
    | 0 => some1 && (float || decide (h.fmt = 1 ∨ h.fmt = 2) || (decide (h.fmt = 3) && !h.sparse))
    | 1 => some1 && float
    | 2 => some1 && float
    | _ => decide (1 ≤ h.fmt ∧ h.fmt ≤ 8) && (if h.sparse then decide (h.count = 0) else some1)

/-- The sizes of a block header agree (order 6 of R137). -/
def blockSizes (h : BlkHdr) : Bool :=
  let streams := if h.version = 1 then 8 else 16
  let b := (VFmt.ofCode h.fmt).width
  let exp := ceilDiv (h.count * b) 8
  let total := alignUp (h.ilen + h.subLen.sum + h.rawLen) 16
  decide (h.w ≤ 24) && (h.sparse || decide (h.w = 0)) && decide (h.expSize = exp) &&
  (if h.btype = 1 then
    decide (h.coded = total) &&
    h.subLen.zipIdx.all fun p => (p.1 != 0) == decide (p.2 < h.count ∧ p.2 < streams)
  else if h.btype = 3 then decide (h.rawLen = 0 ∧ h.coded = 0) && h.subLen.all (· == 0)
  else decide (h.rawLen = exp ∧ h.coded = total) && h.subLen.all (· == 0))

/-- A span as read: its bytes, the 16-byte words of it that are poisoned, and where it lies. -/
structure SpanData where
  raw    : Bytes
  poison : List Nat
  addr   : Nat
  deriving DecidableEq, Repr

/-- A word of bytes [off, off + len) of a span is poisoned. -/
def SpanData.bad (d : SpanData) (off len : Nat) : Bool := touches 16 off len d.poison

/-- What a reading operation accepts (R126, R137, R164): the version, and for each block in turn the table slots of the
Pier that decodes it (R155). -/
structure Accept where
  version : Nat
  picks   : List (List TblSlot)
  deriving DecidableEq, Repr

/-- The check of a stream header (R126): the status of the first failure; last, a CHANNEL above 31 (R172; DEDUCED, log
entry 106: R126 gives that check no place among the others). -/
def checkSpanHdr (a : Accept) (d : SpanData) : Option Nat :=
  let h := parseSpanHdr d.raw
  if d.bad 0 64 then some 0x50
  else if crc32c (sub d.raw 0 60) != leAt d.raw 60 4 then some 0x33
  else if h.kind ≠ 1 ∨ h.version ≠ a.version then some 0x70
  else if !([1, 2, 3, 4, 5, 6, 7, 8].contains h.fmt) then some 0x70
  else if 5 ≤ h.mode then some 0x70
  else if a.version = 1 ∧ (h.mode ≠ 1 ∨ h.fmt ≠ 6) then some 0x70
  else if a.version = 2 ∧ 31 < h.channel then some 0x23
  else none

/-- One block of a span as read (R137): where it starts, its header, and its entries or the status of the
first check it fails. -/
structure ReadBlock where
  off  : Nat
  hdr  : BlkHdr
  res  : Except Nat (List (Nat × Nat))

/-- The block lies within its span and its size is sound (order 1 of R137). -/
def blockFits (h : SpanHdr) (b : BlkHdr) (off : Nat) : Bool :=
  decide (b.coded ≤ 0x7000 ∧ b.coded % 16 = 0 ∧ off + 64 + b.coded ≤ h.bytes)

/-- The checks of block k in order (R137); a coded block is rejected when the copy of its Pier and the master went bad
(R155). -/
def checkBlock (a : Accept) (h : SpanHdr) (d : SpanData) (k off : Nat) : ReadBlock :=
  let hb := sub d.raw off 64
  let b := parseBlkHdr hb
  let pay := sub d.raw (off + 64) b.coded
  let t := nth (nth a.picks k []) b.slot ⟨.free, 0, 0, 0, 0, [], [], false⟩
  let res : Except Nat (List (Nat × Nat)) :=
    if !blockFits h b off then .error 0x33
    else if d.bad off (64 + b.coded) then .error 0x50
    else if crc32c (sub hb 0 60 ++ pay) != leAt hb 60 4 then .error 0x33
    else if b.kind ≠ 2 ∨ b.version ≠ a.version then .error 0x70
    else if b.fmt ≠ h.fmt ∨ !blockShape b then .error 0x70
    else if !blockSizes b then .error 0x70
    else if b.btype = 1 ∧ (t.state = .free ∨ t.gen ≠ b.gen) then .error 0x32
    else if b.btype = 1 ∧ t.alphabet ≠ alphabetOf (VFmt.ofCode b.fmt) then .error 0x70
    else if b.btype = 1 ∧ t.bad = true then .error 0x50
    else match decodeBlock b pay t.lens (if a.version = 1 then 8 else 16) with
      | .error e => .error e
      | .ok es =>
        if es.any fun e => codeReserved (VFmt.ofCode b.fmt) e.2 then .error 0x70
        else if h.length ≤ b.base ∨ (es.any fun e => decide (h.length ≤ e.1)) ∨
            (1 ≤ b.count ∧ h.length ≤ b.base + b.count - 1) then .error 0x23
        else .ok es
  ⟨off, b, res⟩

/-- The blocks of a span in order; a block that does not fit ends the walk (its successor cannot be found,
log entry 19). -/
def walkBlocks (a : Accept) (h : SpanHdr) (d : SpanData) : Nat → Nat → Nat → List ReadBlock
  | 0, _, _ => []
  | n + 1, k, off =>
    let r := checkBlock a h d k off
    if blockFits h r.hdr off then r :: walkBlocks a h d n (k + 1) (off + 64 + r.hdr.coded) else [r]

/-- The blocks of a span whose header has passed. -/
def readBlocks (a : Accept) (d : SpanData) : List ReadBlock :=
  let h := parseSpanHdr d.raw
  walkBlocks a h d h.blockCount 0 64

/-- A span in host memory: its header's SPAN_BYTES bytes from an address. -/
def State.hostSpan (s : State) (addr : Nat) : SpanData :=
  let n := max 64 (leNat (s.rd (addr + 0x38) 4))
  let gs := s.memPoison.filter fun g => decide (addr < (g + 1) * 64 ∧ g * 64 < addr + n)
  { raw := s.rd addr n, addr := addr
    poison := (gs.map fun g => (List.range 4).filterMap fun i =>
      if addr ≤ g * 64 + 16 * i then some ((g * 64 + 16 * i - addr) / 16) else none).flatten }

/-- A rejected span header or block logged (R156). -/
def State.logReject (s : State) (op status : Nat) (d : SpanData) (off base : Nat) : State :=
  let h := parseSpanHdr d.raw
  s.tblLog ⟨status, h.node, op, d.addr + off, base, h.step, h.group, h.channel⟩

/-- Piers picked for n blocks in turn (R73, R155). -/
def State.takePiers : Nat → State → List Nat × State
  | 0, s => ([], s)
  | n + 1, s =>
    let (p, s) := s.takePier
    let (l, s) := State.takePiers n s
    (p :: l, s)

/-- The most blocks of a span that the bytes it says it has can hold: each takes 64 bytes or more. -/
def SpanData.blocks (d : SpanData) : Nat :=
  let h := parseSpanHdr d.raw
  min h.blockCount ((h.bytes + 63) / 64)

/-- The Piers that decode the blocks of a span in turn, each a free choice (R73, R155), and what the operation accepts. -/
def State.pickPiers (s : State) (version : Nat) (d : SpanData) : Accept × List Nat × State :=
  let (ps, s) := State.takePiers d.blocks s
  (⟨version, ps.map s.pierTables⟩, ps, s)

/-- The bytes of a span in the span buffers, its headers and outlier list included. -/
def Span.bytes (x : Span) : Bytes := x.hdr ++ x.blocks.flatten ++ x.outl

/-- Where a part of a span starts in its bytes. -/
def Span.partAt (x : Span) : SpanPart → Nat
  | .header => 0
  | .block base => x.hdr.length + ((x.blocks.takeWhile fun b => (parseBlkHdr b).base != base).map List.length).sum
  | .outliers => x.hdr.length + (x.blocks.map List.length).sum

/-- The 16-byte words of a span's bytes that went bad (R33). -/
def Span.poison (x : Span) : List Nat := x.bad.map fun p => x.partAt p.1 / 16 + p.2

end Sys2Proof.Machine
end

