-- ==== Sys2Proof/Machine/Select.lean ====
section
/-! DEFINITION. Selecting the largest entries (R71-R93): chunks and the share of k, keys and rank order, the
reads a selection costs, and the commands SELECT and MERGE. -/

namespace Sys2Proof.Machine

/-- The larger of two optional first indices is dropped: the least index of those present (R13). -/
def minOpt : Option Nat → Option Nat → Option Nat
  | none, b => b
  | a, none => a
  | some a, some b => some (min a b)

/-- The first number of a list, when it has one, by least value. -/
def leastOf (l : List Nat) : Option Nat := l.foldl (fun a i => minOpt a (some i)) none

/-- The first nonzero status of a list, in the order of precedence it lists (R93). -/
def firstStatus : List Nat → Nat
  | [] => 0
  | x :: t => if x = 0 then firstStatus t else x

/-- A list put in descending order of a k-bit key, equal keys kept in order. -/
def sortDesc {α : Type} (k : Nat) (key : α → Nat) (l : List α) : List α :=
  (List.range k).foldl (fun l b =>
    l.filter (fun x => (key x).testBit b) ++ l.filter (fun x => !(key x).testBit b)) l

/-- A list put in ascending order of a k-bit key, equal keys kept in order. -/
def sortAsc {α : Type} (k : Nat) (key : α → Nat) (l : List α) : List α :=
  (List.range k).foldl (fun l b =>
    l.filter (fun x => !(key x).testBit b) ++ l.filter (fun x => (key x).testBit b)) l

/-! ### Chunks (R71, R72) -/

/-- A chunk: its number over the whole tensor, its first index and its length. -/
structure Chunk where
  c     : Nat
  start : Nat
  len   : Nat
  deriving DecidableEq, Repr

/-- The chunks of length lc that meet [lo, hi), cut to it (R71, R191). -/
def chunksOfRange (lo hi lc : Nat) : List Chunk :=
  if lc = 0 ∨ hi ≤ lo then []
  else (List.range ((hi - 1) / lc + 1 - lo / lc)).map fun j =>
    let c := lo / lc + j
    let a := max lo (c * lc)
    ⟨c, a, min hi ((c + 1) * lc) - a⟩

/-- The shares of k over chunks in proportion to their lengths (R72). -/
def sharesOfK (k : Nat) (cs : List Chunk) : List Nat :=
  let total := (cs.map (·.len)).sum
  let floors := cs.map fun c => k * c.len / total
  let rest := k - floors.sum
  floors.zipIdx.map fun p => if p.2 < rest then p.1 + 1 else p.1

/-! ### Keys (R74) -/

/-- The key of a float value (R74). -/
def keyOf (v : FV) : Nat := encodeF .fp32 v.abs

/-- |x| as FP32 rounded toward zero (R74). -/
def keyOfInt (x : Int) : Nat :=
  let m := x.natAbs
  if m = 0 then 0
  else
    let k := Nat.log2 m - 23
    encodeF .fp32 (.fin false (m >>> k) k)

/-- An int32 value of its two's complement encoding. -/
def int32Of (w : Nat) : Int := if w % 2 ^ 32 < 2 ^ 31 then (w % 2 ^ 32 : Nat) else (w % 2 ^ 32 : Nat) - 2 ^ 32

/-- The two's complement encoding of an int32 value. -/
def ofInt32 (x : Int) : Nat := (x % 2 ^ 32).toNat

/-- Saturation to the int32 range, and whether it acted. -/
def sat32 (x : Int) : Int × Bool :=
  if x > 2 ^ 31 - 1 then (2 ^ 31 - 1, true) else if x < -(2 ^ 31) then (-(2 ^ 31), true) else (x, false)

/-! ### An entry as a command reads it -/

/-- An element as read: its index, its value as an FP32 operand, its key and encoding, whether it is
poisoned or non-finite, and the flushes of forming it (R45, R100). -/
structure Elem where
  idx    : Nat
  v      : FV
  key    : Nat
  enc    : Nat
  poison : Bool
  nf     : Bool
  flush  : Nat
  deriving DecidableEq, Repr

/-- The entry is valid (R75): finite, nonzero key, not poisoned. -/
def Elem.valid (e : Elem) : Bool := !e.poison && !e.nf && e.key != 0

/-! ### Rank order, windows and passes (R76-R83) -/

/-- What orders an entry (R76): its key, or its bin. -/
def rankKey (exact : Bool) (key : Nat) : Nat := if exact then key else bits key 30 19

/-- What the selection of a chunk comes to: s_c, the windows, the refinement passes, whether an entry left
out ties with the last selected, and the rank key and index of the last selected. -/
structure Picked where
  s      : Nat
  wins   : Nat
  refine : Nat
  ties   : Bool
  key    : Nat
  idx    : Nat
  deriving DecidableEq, Repr

/-- Refinement passes of the window of ranks [a, b) over ranked keys (R81, R82). -/
def windowRefines (keys : List Nat) (a b : Nat) : Nat :=
  let win := (keys.take b).drop a
  let earlier := keys.take a
  let last := win.getLast?.getD 0
  let count (f : Nat → Bool) (l : List Nat) := (l.filter f).length
  let bin (k : Nat) := bits k 30 19
  let sb (k : Nat) := bits k 18 7
  let inT (k : Nat) : Bool := bin k == bin last
  let room := 4096 - count (fun k => decide (bin last < bin k)) win
  let left := count inT keys - count inT earlier
  if left ≤ room then 0
  else
    let inS (k : Nat) : Bool := inT k && sb k == sb last
    let room2 := room - count (fun k => inT k && decide (sb last < sb k)) win
    let left2 := count inS keys - count inS earlier
    if left2 ≤ room2 then 1 else 2

/-- The selection of the first k of a chunk's valid entries, given as (index, key) in index order. -/
def pick (exact : Bool) (k : Nat) (valid : List (Nat × Nat)) : Picked :=
  let ranked := sortDesc 31 (fun p => rankKey exact p.2) valid
  let s := min k valid.length
  let wins := ceilDiv s 4096
  let last := nth ranked (s - 1) (0, 0)
  let rk (p : Nat × Nat) := rankKey exact p.2
  { s := s, wins := wins
    refine := if exact then
      ((List.range wins).map fun j => windowRefines (ranked.map (·.2)) (4096 * j) (min (4096 * (j + 1)) s)).sum
      else 0
    ties := decide (0 < s ∧ s < ranked.length) && rk (nth ranked s (0, 0)) == rk last
    key := rk last, idx := last.1 }

/-- The entries that the first k places take, found from a histogram (R78, R81), of the valid entries that a chunk holds:
those in bins above the threshold bin, and as many of the threshold bin as places are left. Where the bins are a record
that disagrees with the chunk (no rule says what then happens), the bins settle the threshold and the places, and the
chunk's data the entries (DESIGN CHOICE, log entry 107). -/
def histTake (k : Nat) (bins : List Nat) (valid : List (Nat × Nat)) : Nat :=
  let s := min k bins.sum
  let above := (bins.zipIdx.reverse).foldl (fun (acc : Nat × Option (Nat × Nat)) b => match acc.2 with
    | some _ => acc
    | none => if s ≤ acc.1 + b.1 then (acc.1, some (b.2, s - acc.1)) else (acc.1 + b.1, none)) (0, none)
  match above.2 with
  | none => 0
  | some (t, room) =>
    (valid.filter fun p => decide (t < bits p.2 30 19)).length +
    min room (valid.filter fun p => bits p.2 30 19 == t).length

/-- The entry is among the selected (R77): it ranks no later than the last selected. -/
def Picked.has (p : Picked) (exact : Bool) (e : Elem) : Bool :=
  e.valid && decide (0 < p.s) &&
  (decide (p.key < rankKey exact e.key) || (rankKey exact e.key == p.key && decide (e.idx ≤ p.idx)))

/-- reads_c of R83; h is 1 when a histogram pass was run. -/
def Picked.reads (p : Picked) (h : Nat) : Nat := max 1 (h + p.wins + p.refine)

/-! ### Sums (R85) -/

/-- The four pairs of R85. -/
structure Sums where
  sel   : Pair
  selSq : Pair
  out   : Pair
  outSq : Pair
  deriving DecidableEq, Repr

/-- Four pairs at (+0, +0). -/
def Sums.zero : Sums := ⟨.zero, .zero, .zero, .zero⟩

/-- The square of a value under an FP32 input mode (R85). -/
def squareOf (mode : Nat) (v : FV) : FV :=
  let a := toE8M10 mode v
  (mulF a a).1

/-- One valid entry added to the sums. -/
def Sums.add (s : Sums) (mode : Nat) (chosen : Bool) (v : FV) : Sums :=
  if chosen then { s with sel := s.sel.add v, selSq := s.selSq.add (squareOf mode v) }
  else { s with out := s.out.add v, outSq := s.outSq.add (squareOf mode v) }

/-- The pairs of a later chunk merged in (R85). -/
def Sums.merge (a b : Sums) : Sums :=
  ⟨a.sel.merge b.sel, a.selSq.merge b.selSq, a.out.merge b.out, a.outSq.merge b.outSq⟩

/-- A pair as stored: hi, then lo (R88). -/
def Pair.bytes (p : Pair) : Bytes := toLE 4 (encodeF .fp32 p.hi) ++ toLE 4 (encodeF .fp32 p.lo)

/-- The four pairs as stored. -/
def Sums.bytes (s : Sums) : Bytes := s.sel.bytes ++ s.selSq.bytes ++ s.out.bytes ++ s.outSq.bytes

/-- The sums of a chunk's valid entries in index order. -/
def chunkSums (mode : Nat) (chosen : Elem → Bool) (es : List Elem) : Sums :=
  es.foldl (fun s e => if e.valid then s.add mode (chosen e) e.v else s) .zero

/-! ### Selection counters of a Pier (R94) -/

/-- A completed chunk of a selection counted at its Pier. -/
def State.countPick (s : State) (pier : Nat) (p : Picked) (k h : Nat) : State :=
  let s := s.bump64 (R.pierSelChunksLo pier)
  let s := s.bump64 (R.pierSelReadsLo pier) (p.reads h)
  let s := s.bump (R.pierSelRefine pier) p.refine
  let s := s.bump (R.pierSelMulti pier) (b2n (decide (1 < p.wins)))
  let s := s.bump (R.pierSelPartial pier) (b2n (decide (p.s < k)))
  s.bump (R.pierSelTies pier) (b2n p.ties)

/-! ### SELECT (R86-R90) -/

/-- An input element of SELECT. A poisoned element whose stored bits spell a non-finite value counts as a non-finite
input too (R90 does not say; DESIGN CHOICE, log entry 108). -/
def selElem (int32 : Bool) (f : VFmt) (poison : Bool) (i w : Nat) : Elem :=
  if int32 then
    let x := int32Of w
    ⟨i, (rnd32 (.ofInt x)).1, keyOfInt x, w, poison, false, 0⟩
  else
    let (v, fl) := decodeF f w
    ⟨i, v, keyOf v, encodeF .fp32 v, poison, !v.isFin, b2n fl⟩

/-- The checks of R87: the status of the first that fails. -/
def selectCheck (d : Desc) : Option Nat :=
  let f := opBits d 0x35 1 3 0
  let int32 := opBit d 0x35 4
  let len := opd d 0x30 5
  let ki := opd d 0x36 2
  let k := opd d 0x38 4
  if !((!int32 && [6, 7, 8].contains f) || (int32 && f == 0)) then some 0x70
  else if len = 0 ∨ ki = 0 ∨ 16384 < ki ∨ len < k ∨ opd d 0x3C 4 < k ∨ opd d 0x20 8 % 64 ≠ 0 ∨
      opd d 0x28 8 % 64 ≠ 0 then some 0x23
  else none

/-- The elements of a chunk of SELECT's input. -/
def State.selRead (s : State) (d : Desc) (c : Chunk) : List Elem :=
  let int32 := opBit d 0x35 4
  let f := VFmt.ofCode (opBits d 0x35 1 3 0)
  let w := if int32 then 4 else f.width / 8
  let a := opd d 0x20 8
  let bs := s.rd (a + w * c.start) (w * c.len)
  ((chunksOf w bs).zipIdx).map fun p =>
    selElem int32 f (s.poisoned (a + w * (c.start + p.2)) w) (c.start + p.2) (leNat p.1)

/-- A chunk of a selection: where it was read, what was picked, and its elements. -/
structure PickedChunk where
  chunk : Chunk
  k     : Nat
  elems : List Elem
  pick  : Picked
  deriving DecidableEq, Repr

/-- The list summary's 64 bytes (R88). -/
def listSummary (count tally : Nat) (sums : Sums) (thresh events excluded kind : Nat) : Bytes :=
  toLE 5 count ++ zeros 3 ++ toLE 5 tally ++ zeros 3 ++ sums.bytes ++ toLE 4 thresh ++
  toLE 4 (min events 0xFFFFFFFF) ++ toLE 5 excluded ++ toLE 1 kind ++ zeros 2

/-- A list entry's 16 bytes (R89). -/
def listEntry (idx val : Nat) : Bytes := toLE 5 idx ++ zeros 3 ++ toLE 4 val ++ zeros 4

/-- What a chunk that met poison picks: no rule gives it, so it is free within what R82 allows: at most two refinement
passes a window, and none in bin resolution (R35, R90, log entry 12). -/
def State.freePick (s : State) (exact : Bool) (k : Nat) : Picked × State :=
  let (n, s) := s.freeBytes 4
  let (b, s) := s.freeBytes 1
  let m := leNat n % (k + 1)
  let wins := ceilDiv m 4096
  ({ s := m, wins := wins, refine := if exact then leNat b / 2 % (2 * wins + 1) else 0, ties := (leNat b).testBit 0, key := 0, idx := 0 }, s)

/-- One chunk of SELECT: its Pier counts it, and what it picked stands in the result. A chunk under the abort policy
is read once and picks nothing (R90). -/
def State.selChunk (s : State) (exact abort : Bool) (c : PickedChunk) : PickedChunk × State :=
  let (p, s) := s.takePier
  let s := s.bump (R.pierFlush p) ((c.elems.map (·.flush)).sum)
  if abort then (c, (s.bump64 (R.pierSelChunksLo p)).bump64 (R.pierSelReadsLo p))
  else
    let (pick, s) := if c.elems.any (·.poison) then s.freePick exact c.k else (c.pick, s)
    ({ c with pick := pick }, s.countPick p pick c.k 1)

/-- SELECT (R86-R90). It waits while no Pier may take a chunk. -/
def startSelect (l : Live) (s : State) : State :=
  let d := l.desc
  match selectCheck d with
  | some st => s.endWith l st
  | none =>
    if s.freePiers = [] then s
    else
      let len := opd d 0x30 5
      let k := opd d 0x38 4
      let dst := opd d 0x28 8
      let exact := opBit d 0x35 5
      let mode := opBits d 0x35 1 7 7
      let cs := chunksOfRange 0 len (opd d 0x36 2 * 1024)
      let all := (cs.zip (sharesOfK k cs)).map fun p =>
        let es := s.selRead d p.1
        (⟨p.1, p.2, es, pick exact p.2 ((es.filter Elem.valid).map fun e => (e.idx, e.key))⟩ : PickedChunk)
      let es := (all.map (·.elems)).flatten
      let nf := leastOf ((es.filter (·.nf)).map (·.idx))
      let bad := es.any (·.poison)
      let abort := nf.isSome && !opBit d 0x35 6
      let (all, s) := all.foldl (fun (r : List PickedChunk × State) c =>
        let (c, s) := r.2.selChunk exact abort c
        (r.1 ++ [c], s)) ([], s)
      let passes := (all.map fun c => c.pick.reads 1).foldl max 1
      if bad then
        let (bs, s) := s.freeBytes (64 + 16 * k)
        (s.wrPoison dst bs).finish l
          (if abort then ⟨0x50, 0, 1, nf⟩ else ⟨0x50, (all.map (·.pick.s)).sum, passes, nf⟩)
      else if abort then s.finish l ⟨0x10, 0, 1, nf⟩
      else
        let chosen (c : PickedChunk) := c.elems.filter (c.pick.has exact)
        let out := (all.map chosen).flatten
        let sums := all.foldl (fun t c => t.merge (chunkSums mode (c.pick.has exact) c.elems)) .zero
        let events := (all.filter fun c => decide (c.pick.s < c.k)).length
        let thresh := (leastOf (out.map (·.key))).getD 0
        let summary := listSummary out.length (es.filter Elem.valid).length sums thresh events
          (es.filter (·.nf)).length (b2n (opBit d 0x35 4))
        let s := s.wr dst (summary ++ (out.map fun e => listEntry e.idx e.enc).flatten)
        s.finish l ⟨if events = 0 then 0 else 1, out.length, passes, nf⟩

/-! ### MERGE (R91-R93) -/

/-- An input entry of MERGE: its list, index, value encoding, and whether a word of it is poisoned. -/
structure MergeIn where
  rank   : Nat
  idx    : Nat
  val    : Nat
  poison : Bool
  deriving DecidableEq, Repr

/-- An output entry of MERGE: how many lists held its index, the flushes of its inputs, whether its sum
saturated. -/
structure MergeOut where
  idx    : Nat
  val    : Nat
  dup    : Nat
  sat    : Bool
  nf     : Bool
  flush  : Nat
  poison : Bool
  deriving DecidableEq, Repr

/-- The entries of one input list. A poisoned entry stands where its stored index says (DESIGN CHOICE, log entry 109). -/
def State.mergeList (s : State) (rank addr n : Nat) : List MergeIn :=
  (List.range n).map fun i =>
    let bs := s.rd (addr + 16 * i) 16
    ⟨rank, leAt bs 0 5, leAt bs 8 4, s.poisoned (addr + 16 * i) 16⟩

/-- A list's entries up to the first that is not greater than the one before it, and that entry (R93). -/
def inOrderPart : List MergeIn → List MergeIn × Option MergeIn
  | a :: b :: t =>
    if b.idx ≤ a.idx then ([a], some b)
    else
      let (l, x) := inOrderPart (b :: t)
      (a :: l, x)
  | l => (l, none)

/-- The entries of one index formed into its output (R92). -/
def mergeGroup (int32 : Bool) (g : List MergeIn) : MergeOut :=
  let idx := (g.head?.map (·.idx)).getD 0
  let poison := g.any (·.poison)
  match g with
  | [e] =>
    ⟨idx, e.val, 0, false, !int32 && !(decodeRaw .fp32 e.val).isFin, 0, poison⟩
  | _ =>
    if int32 then
      let (v, sat) := sat32 ((g.map fun e => int32Of e.val).sum)
      ⟨idx, ofInt32 v, g.length - 1, sat, false, 0, poison⟩
    else
      let vs := g.map fun e => decodeF .fp32 e.val
      let p := vs.foldl (fun (p : Pair) v => p.add v.1) .zero
      ⟨idx, encodeF .fp32 p.hi, g.length - 1, false, !p.hi.isFin, (vs.filter (·.2)).length, poison⟩

/-- Entries in index order cut into groups of one index; n bounds the groups. -/
def mergeGroups (int32 : Bool) : Nat → List MergeIn → List MergeOut
  | 0, _ => []
  | _, [] => []
  | n + 1, e :: t =>
    let same := t.takeWhile fun x => x.idx == e.idx
    mergeGroup int32 (e :: same) :: mergeGroups int32 n (t.drop same.length)

/-- MERGE (R91-R93). Where several lists are out of order it stops at the least of the offending indices. A poisoned word
of the input table ends it POISONED with nothing written, before the lists' addresses are looked at. Once an entry it
has read is poisoned, its summary is written poisoned, a reduction over them (R35), as are the granules that hold an
output entry derived from one. The COUNT that R93 sets is that of the summary; the completion record's is 0, which no
rule of MERGE names. (DESIGN CHOICE, log entry 109.) -/
def startMerge (l : Live) (s : State) : State :=
  let d := l.desc
  let table := opd d 0x20 8
  let dst := opd d 0x28 8
  let n := opBits d 0x30 1 6 0
  let int32 := opBit d 0x31 0
  let cap := opd d 0x34 4
  let recs := (List.range n).map fun i => (s.rdN (table + 16 * i) 8, leNat (s.rd (table + 16 * i + 8) 5))
  if n = 0 ∨ 64 < n ∨ table % 64 ≠ 0 ∨ dst % 64 ≠ 0 then s.endWith l 0x23
  else if s.poisoned table (16 * n) then s.endWith l 0x50
  else if recs.any fun r => r.1 % 16 != 0 then s.endWith l 0x23
  else if s.freePiers = [] then s
  else
    let lists := recs.zipIdx.map fun p => inOrderPart (s.mergeList p.2 p.1.1 p.1.2)
    let offenders := lists.filterMap (·.2)
    let stop := leastOf (offenders.map (·.idx))
    let ins := (lists.map (·.1)).flatten
    let ins := match stop with
      | some e => ins.filter fun x => decide (x.idx < e)
      | none => ins
    let all := mergeGroups int32 ins.length (sortAsc 40 (·.idx) ins)
    let out := all.take cap
    let nf := leastOf ((out.filter (·.nf)).map (·.idx))
    let (p, s) := s.takePier
    let s := s.bump (R.pierFlush p) ((out.map (·.flush)).sum)
    let summary := listSummary out.length ((out.map (·.dup)).sum) .zero 0 ((out.filter (·.sat)).length)
      ((out.filter (·.nf)).length) (b2n int32)
    let s := s.wr dst (summary ++ (out.map fun o => listEntry o.idx o.val).flatten)
    let s := out.zipIdx.foldl (fun s p =>
      if p.1.poison then s.markPoison (dst + 64 + 16 * p.2) 16 else s) s
    let bad := ins.any (·.poison) || offenders.any fun x => some x.idx == stop && x.poison
    let s := if bad then s.markPoison dst 64 else s
    let short := stop.isSome || decide (out.length < all.length)
    s.finish l ⟨firstStatus [if bad then 0x50 else 0, if short then 0x23 else 0], 0, 0, nf⟩

end Sys2Proof.Machine
end

