-- ==== Sys2Proof/Machine/Stream.lean ====
section
/-! DEFINITION. Exchange groups and shards (R168, R171, R406), the stream context as a command reads it, its
checks (R97, R103, R119, R171, R191), the elements v of a stream (R100, R192), outlier rows and scales. -/

namespace Sys2Proof.Machine

/-! ### Groups -/

/-- The group is in use (R168). -/
def State.groupUsed (s : State) (g : Nat) : Bool :=
  let n := s.fld (grpBase g) Grp.nMembers
  decide (1 ≤ n ∧ n ≤ 65536 ∧ s.fld (grpBase g) Grp.myRank < n)

/-- The shard of rank r of n ranks in [lo, hi) (R171). -/
def shardOf (lo hi n r : Nat) : Nat × Nat := (lo + r * (hi - lo) / n, lo + (r + 1) * (hi - lo) / n)

/-- The range of a group for a tensor of a length (R171), through at most `fuel` parents; none when the chain
is deeper, returns to itself, or passes through a group not in use. -/
def State.groupRange (s : State) (len : Nat) : Nat → Nat → Option (Nat × Nat)
  | fuel, g =>
    if !s.flag (grpBase g) Grp.parentEn then some (0, len)
    else match fuel with
      | 0 => none
      | fuel + 1 =>
        let p := s.fld (grpBase g) Grp.parent
        if !s.groupUsed p then none
        else match State.groupRange s len fuel p with
          | none => none
          | some (lo, hi) => some (shardOf lo hi (s.fld (grpBase p) Grp.nMembers) (s.fld (grpBase p) Grp.myRank))

/-- The chain of a group's parents is deeper than `fuel`, or returns to itself (R171). -/
def State.chainDeep (s : State) : Nat → Nat → Bool
  | fuel, g =>
    if !s.flag (grpBase g) Grp.parentEn then false
    else match fuel with
      | 0 => true
      | fuel + 1 => State.chainDeep s fuel (s.fld (grpBase g) Grp.parent)

/-- A group that a descriptor may name (R168, R171): in use, its parents to a depth of six. -/
def State.groupFits (s : State) (g : Nat) : Bool := s.groupUsed g && !s.chainDeep 6 g

/-- The range of a group (R171): parents to a depth of six. -/
def State.range (s : State) (g len : Nat) : Option (Nat × Nat) := s.groupRange len 6 g

/-- The shard of a rank in a group's range. -/
def State.shard (s : State) (g : Nat) (rng : Nat × Nat) (r : Nat) : Nat × Nat :=
  shardOf rng.1 rng.2 (s.fld (grpBase g) Grp.nMembers) r

/-- This chip's shard in a group's range. -/
def State.myShard (s : State) (g : Nat) (rng : Nat × Nat) : Nat × Nat :=
  s.shard g rng (s.fld (grpBase g) Grp.myRank)

/-- The node of a member (R169). -/
def State.memberNode (s : State) (g r : Nat) : Nat :=
  bits (s.rdN (s.fld (grpBase g) Grp.memberAddr + 8 * r) 4) 19 0

/-- The connection to a member, when CONN_VALID (R169). -/
def State.memberConn (s : State) (g r : Nat) : Option Nat :=
  let w := s.rdN (s.fld (grpBase g) Grp.memberAddr + 8 * r + 4) 2
  if w.testBit 15 then some (w % 32768) else none

/-- Every member but this chip has a connection (R406). -/
def State.membersOk (s : State) (g : Nat) : Bool :=
  let b := grpBase g
  (List.range (s.fld b Grp.nMembers)).all fun r => r == s.fld b Grp.myRank || (s.memberConn g r).isSome

/-- Some word of the member table is poisoned. -/
def State.membersPoisoned (s : State) (g : Nat) : Bool :=
  s.poisoned (s.fld (grpBase g) Grp.memberAddr) (8 * s.fld (grpBase g) Grp.nMembers)

/-- The rank of a node among a group's members (R10: bits [15:0] decide). -/
def State.rankOfNode (s : State) (g node : Nat) : Option Nat :=
  (List.range (s.fld (grpBase g) Grp.nMembers)).find? fun r =>
    s.memberNode g r % 65536 == node % 65536

/-! ### The stream context -/

/-- What a command reads of a stream context at its start (R95, R96). -/
structure Stream where
  ctx        : Nat
  mode       : Nat
  id         : Nat
  gFmt       : Nat
  code       : Nat
  resFmt     : Nat
  exact      : Bool
  exclude    : Bool
  resStoch   : Bool
  fp32In     : Nat
  srBits     : Nat
  det        : Bool
  int32      : Bool
  scaleSrc   : Nat
  statEn     : Bool
  statSlot   : Nat
  outAuto    : Bool
  outN       : Nat
  outRatio   : Nat
  group      : Nat
  length     : Nat
  rowLen     : Nat
  chunkKi    : Nat
  k          : Nat
  gAddr      : Nat
  resAddr    : Nat
  histBase   : Nat
  lamaxAddr  : Nat
  amaxAddr   : Nat
  outList    : Nat
  outData    : Nat
  scale      : Nat
  inScale    : Nat
  deriving DecidableEq, Repr

/-- The software fields of a stream context. -/
def State.stream (s : State) (ctx : Nat) : Stream :=
  let b := strmBase ctx
  let f := s.fld b
  { ctx := ctx, mode := f Strm.mode, id := f Strm.streamId, gFmt := f Strm.gFmt, code := f Strm.codeFmt
    resFmt := f Strm.resFmt, exact := s.flag b Strm.exact, exclude := s.flag b Strm.nanExclude
    resStoch := s.flag b Strm.resRound, fp32In := f Strm.fp32In, srBits := f Strm.srBits
    det := s.flag b Strm.roundMode, int32 := s.flag b Strm.gInt32, scaleSrc := f Strm.scaleSrc
    statEn := s.flag b Strm.statEn, statSlot := f Strm.statSlot, outAuto := s.flag b Strm.outAuto
    outN := f Strm.outN, outRatio := f Strm.outRatio, group := f Strm.group, length := f Strm.length
    rowLen := f Strm.rowLen, chunkKi := f Strm.chunkKi, k := f Strm.k, gAddr := f Strm.gAddr
    resAddr := f Strm.resAddr, histBase := f Strm.histBase, lamaxAddr := f Strm.lamaxAddr
    amaxAddr := f Strm.amaxAddr, outList := f Strm.outListAddr, outData := f Strm.outDataAddr
    scale := f Strm.scale, inScale := f Strm.inScale }

/-- The context's stored words checked as a command reads them (R31, R244). -/
def State.streamUse (s : State) (ctx : Nat) : Bool × State := s.ctxUse (strmBase ctx) 256

/-- A number container whose exponent field is all ones. -/
def scaleBad (w : Nat) : Bool := bits w 30 23 == 255

/-- The value of an E8M10 container with its sign ignored (R40, R65, R191). -/
def scaleVal (w : Nat) : FV := (decodeF .e8m10 w).1.abs

/-- MODE, CODE_FMT, SCALE_SRC, RES_FMT, G_FMT and SR_BITS are permitted together (R97, R54, R191). -/
def Stream.formatOk (c : Stream) : Bool :=
  [0, 6, 8].contains c.resFmt && c.srBits != 3 &&
  if c.int32 then
    c.gFmt == 0 && (c.mode == 0 || c.mode == 1) && (c.code == 1 || c.code == 2) &&
    (c.scaleSrc == 0 || c.scaleSrc == 1) && c.outN == 0
  else
    [6, 7, 8].contains c.gFmt &&
    match c.mode with
    | 0 | 1 =>
      [1, 2, 4, 5, 6, 7].contains c.code && c.scaleSrc != 3 && (c.scaleSrc != 2 || decide (4 ≤ c.code))
    | 2 | 3 => c.code == 3 && (c.scaleSrc == 0 || c.scaleSrc == 1) && c.outN == 0
    | 4 => [6, 7, 8].contains c.code && c.scaleSrc == 2
    | _ => false

/-- The group divides this chip's shard in a parent. -/
def State.hasParent (s : State) (g : Nat) : Bool := s.flag (grpBase g) Grp.parentEn

/-- The input range of a stream (R171, R191); none gives BOUNDS. -/
def State.inputRange (s : State) (c : Stream) : Option (Nat × Nat) :=
  if !s.groupUsed c.group then none
  else match s.range c.group c.length with
    | none => none
    | some r =>
      if !c.int32 then (if r = (0, c.length) then some r else none)
      else if s.hasParent c.group then some r
      else some (s.myShard c.group r)

/-- OUT_N and ROW_LEN are in their ranges (R103). -/
def Stream.rowsShape (c : Stream) : Bool :=
  c.outN == 0 || decide (c.outN ≤ 64 ∧ 1 ≤ c.rowLen ∧ c.rowLen ≤ 2 ^ 24)

/-- The rows a list at OUT_LIST_ADDR names (R103). -/
def State.rowList (s : State) (c : Stream) (n : Nat) : List Nat :=
  (List.range n).map fun j => leNat (s.rd (c.outList + 8 * j) 5)

/-- Strictly ascending. -/
def ascending : List Nat → Bool
  | a :: b :: t => decide (a < b) && ascending (b :: t)
  | _ => true

/-- A list of rows is strictly ascending and names no row beyond the last (R103). -/
def Stream.rowsOk (c : Stream) (rows : List Nat) : Bool :=
  ascending rows && rows.all fun r => decide (r * c.rowLen < c.length)

/-- The addresses are aligned as R119 asks; `compress` and `record` say which fields count. -/
def Stream.aligned (c : Stream) (compress record parent : Bool) : Bool :=
  decide (c.gAddr % 64 = 0 ∧ c.resAddr % 64 = 0 ∧ c.lamaxAddr % 4 = 0 ∧ c.amaxAddr % 4 = 0) &&
  (!record || c.histBase % 64 == 0) &&
  (!(c.outN != 0 || (compress && c.int32 && !parent)) || c.outData % 64 == 0)

/-- The checks of R97, R103, R119, R171 and R191 that STATS and COMPRESS share, before any read of the tensor:
the status of the first failure, or the input range. -/
def State.streamCheck (s : State) (c : Stream) (compress record : Bool) : Except Nat (Nat × Nat) :=
  if !c.formatOk then .error 0x70
  else if c.length = 0 ∨ c.chunkKi = 0 ∨ 16384 < c.chunkKi ∨ (c.mode = 0 ∧ c.length < c.k) then .error 0x23
  else if !c.aligned compress record (s.hasParent c.group) || !c.rowsShape then .error 0x23
  else match s.inputRange c with
    | none => .error 0x23
    | some r => if c.int32 && scaleBad c.inScale then .error 0x10 else .ok r

/-- The outlier rows a list puts in force, or the status of its failure (R103): BOUNDS for a list of
software's, POISONED for any. -/
def State.rowsInForce (s : State) (c : Stream) (n : Nat) (check : Bool) : Except Nat (List Nat) :=
  if n = 0 then .ok []
  else
    let rows := s.rowList c n
    if check && !c.rowsOk rows then .error 0x23
    else if s.poisoned c.outList (8 * n) then .error 0x50
    else .ok rows

/-! ### Elements -/

/-- An element of a stream: as an entry of selection, and for an int32 shard x, the real value it stands for,
and whether x saturated (R192). -/
structure SElem where
  e    : Elem
  x    : Int
  real : FV
  sat  : Bool
  deriving DecidableEq, Repr

/-- r of SR_BITS (R54). -/
def srR (b : Nat) : Nat := if b = 1 then 8 else if b = 2 then 24 else 16

/-- v of an element (R100, R101). -/
def formV (c : Stream) (i g : Nat) (e : Option Nat) (poison : Bool) : SElem :=
  let (gv, gf) := decodeF (VFmt.ofCode c.gFmt) g
  let (v, nf, fl) := match e with
    | none => (gv, !gv.isFin, b2n gf)
    | some w =>
      let (ev, ef) := decodeF (VFmt.ofCode c.resFmt) w
      let (v, vf) := addF gv ev
      (v, !(gv.isFin && ev.isFin && v.isFin), b2n gf + b2n ef + b2n vf)
  ⟨⟨i, v, keyOf v, encodeF .fp32 v, poison, nf, fl⟩, 0, .zero, false⟩

/-- Reading a scale's container flushes a subnormal (R45). -/
def scaleFlush (w : Nat) : Nat := b2n (decodeF .e8m10 w).2

/-- The nearest integer to n / d, ties to even. -/
def roundHalfEven (n d : Nat) : Nat :=
  let q := n / d
  let r := n % d
  if 2 * r > d ∨ (2 * r = d ∧ q % 2 = 1) then q + 1 else q

/-- e / S rounded half to even, for a finite e and a nonzero S (R192). -/
def divRound (e s : FV) : Int :=
  match e, s with
  | .fin en em ee, .fin _ sm se =>
    if sm = 0 then 0
    else
      let d := ee - se
      let q := if 0 ≤ d then roundHalfEven (em <<< d.toNat) sm else roundHalfEven em (sm <<< (-d).toNat)
      if en then -(q : Int) else q
  | _, _ => 0

/-- owner_x of R192. -/
def ownerX (c : Stream) (i a : Nat) (e : Option Nat) (poison : Bool) : SElem :=
  let a := int32Of a
  let sc := scaleVal c.inScale
  let (ev, ef) := match e with
    | none => (FV.zero, false)
    | some w => decodeF (VFmt.ofCode c.resFmt) w
  if !ev.isFin then ⟨⟨i, ev, 0, 0, poison, true, b2n ef⟩, 0, ev, false⟩
  else
    let (x, sat) := sat32 (a + divRound ev sc)
    let real := if sc.isZero then ev else addExact (mulExact (.ofInt a) sc) ev
    ⟨⟨i, (rnd32 (.ofInt x)).1, keyOfInt x, ofInt32 x, poison, false, b2n ef⟩, x, real, sat⟩

/-- Width in bytes of one input element. -/
def Stream.gWidth (c : Stream) : Nat := if c.int32 then 4 else (VFmt.ofCode c.gFmt).width / 8

/-- Width in bytes of one residual element; 0 for none. -/
def Stream.resWidth (c : Stream) : Nat := (VFmt.ofCode c.resFmt).width / 8

/-- The elements of a chunk; lo is what index 0 of the input and residual stands for (R100, R191). -/
def State.streamRead (s : State) (c : Stream) (lo : Nat) (ch : Chunk) : List SElem :=
  let w := c.gWidth
  let rw := c.resWidth
  let off := ch.start - lo
  let gs := chunksOf w (s.rd (c.gAddr + w * off) (w * ch.len))
  let es := chunksOf rw (s.rd (c.resAddr + rw * off) (rw * ch.len))
  gs.zipIdx.map fun p =>
    let e := if rw = 0 then none else some (leNat (nth es p.2 []))
    let bad := s.poisoned (c.gAddr + w * (off + p.2)) w ||
      (rw != 0 && s.poisoned (c.resAddr + rw * (off + p.2)) rw)
    if c.int32 then ownerX c (ch.start + p.2) (leNat p.1) e bad
    else formV c (ch.start + p.2) (leNat p.1) e bad

/-- What index 0 of a stream's input stands for (R191). -/
def Stream.origin (c : Stream) (r : Nat × Nat) : Nat := if c.int32 then r.1 else 0

/-- The place of an element's row among the rows in force. -/
def Stream.rowAt (c : Stream) (rows : List Nat) (i : Nat) : Option Nat :=
  if c.rowLen = 0 then none else rows.idxOf? (i / c.rowLen)

/-! ### The scale (R98, R107) -/

/-- qmax of a code format (R98), as m and e. -/
def qmaxOf (code : Nat) : Nat × Int :=
  match code with
  | 2 => (7, 0) | 4 => (448, 0) | 5 => (57344, 0) | 7 => (65504, 0) | 6 => (255, 120) | _ => (127, 0)

/-- A quotient of dyadics with a sticky last bit: enough for any one rounding. -/
def quotSticky (nm : Nat) (ne : Int) (dm : Nat) (de : Int) : Nat × Int :=
  let k := 64 + Nat.log2 dm
  let q := (nm <<< k) / dm
  (2 * q + b2n ((nm <<< k) % dm != 0), ne - de - k - 1)

/-- The agreed scale formed from a finite amax (R107, R52): its E8M10 container. -/
def agreedScale (code : Nat) (a : FV) : Nat :=
  match a with
  | .fin _ m e =>
    if m = 0 then 0
    else
      let (qm, qe) := qmaxOf code
      let (n, k) := quotSticky m e qm qe
      let up := if dyGt 1 (-126) n k then roundUpE8M10 1 (-126) else roundUpE8M10 n k
      encodeF .e8m10 up
  | _ => 0

/-- What a context's SCALE_SRC gives (R107): the status of a failure or the scale's container, and the amax
read, when one was. -/
def State.takeScale (s : State) (c : Stream) : Except Nat Nat × Option Nat :=
  match c.scaleSrc with
  | 0 =>
    if s.poisoned c.amaxAddr 4 then (.error 0x50, none)
    else
      let a := s.rdN c.amaxAddr 4
      let v := (decodeF .fp32 a).1
      if v.isFin then (.ok (agreedScale c.code v), some a) else (.error 0x10, some a)
  | 1 =>
    let w := c.scale / 2 ^ 13 * 2 ^ 13
    if scaleBad w then (.error 0x10, none) else (.ok w, none)
  | 2 => (.ok 0x3F800000, none)
  | _ => (.error 0x70, none)

/-! ### Order of a stream's commands (R96) -/

/-- The command is ordered with the others of its stream context: STATS, COMPRESS, a send role or
RESIDUAL_RETURN. -/
def orderedOn (op : Nat) (d : Desc) : Option Nat :=
  if op = 1 ∨ op = 2 ∨ op = 0x22 ∨ ((op = 0x13 ∨ op = 0x14) ∧ !opBit d 0x22 0) then
    some (opBits d 0x20 2 13 0)
  else none

/-- A command of the same stream dispatched before has not completed (R96). -/
def State.streamHeld (s : State) (l : Live) : Bool :=
  match orderedOn l.op l.desc with
  | none => false
  | some c => s.q.live.any fun x => decide (x.id < l.id) && orderedOn x.op x.desc == some c

/-- Result words of a stream context written: poisoned or good (R35). -/
def State.markResult (s : State) (ctx off len : Nat) (bad : Bool) : State :=
  let u := unitsOf 16 (strmBase ctx + off) len
  if bad then { s with resPoison := insertRange u.1 u.2 s.resPoison }
  else { s with resPoison := s.resPoison.filter fun g => !(decide (u.1 ≤ g ∧ g < u.1 + u.2)) }

end Sys2Proof.Machine
end

