-- ==== Sys2Proof/Machine/Stats.lean ====
section
/-! DEFINITION. STATS (R79, R103-R106, R193) and the stat slots (R115-R117). -/

namespace Sys2Proof.Machine

/-! ### Stat slots -/

/-- The counters of a slot that is all zero. -/
def zeroBins : List Nat := List.replicate 260 0

/-- The counters of a stat slot. -/
def State.statBins (s : State) (slot : Nat) : List Nat :=
  match s.q.stats.find? fun x => x.slot == slot with
  | some x => x.bins
  | none => zeroBins

/-- A stat slot's counters replaced; a slot that is all zero is not listed. -/
def State.setStat (s : State) (slot : Nat) (bins : List Nat) : State :=
  let rest := s.q.stats.filter fun x => x.slot != slot
  let low := rest.filter fun x => decide (x.slot < slot)
  let high := rest.filter fun x => decide (slot < x.slot)
  let mid := if bins.all (· == 0) then [] else [⟨slot, bins⟩]
  { s with q := { s.q with stats := low ++ mid ++ high } }

/-- Counts added to a slot as a whole, saturating (R115, R116). -/
def State.addStat (s : State) (slot : Nat) (bins : List Nat) : State :=
  s.setStat slot (((s.statBins slot).zip bins).map fun p => min (p.1 + p.2) 0xFFFFFFFF)

/-- STAT_SEL: the slot's counters copied into the read buffer (R117). -/
def selectStat (v : Word) (s : State) : State :=
  let n := v.toNat % 64
  { s.setReg R.statSel n with q := { s.q with statBuf := s.statBins n } }

/-- STAT_CLEAR: one slot, or with ALL every slot, cleared (R117). -/
def clearStat (v : Word) (s : State) : State :=
  if v.getLsbD 31 then { s with q := { s.q with stats := [] } } else s.setStat (v.toNat % 64) zeroBins

/-- A slot has a saturated counter (R117). -/
def State.statSat (s : State) (slot : Nat) : Bool := (s.statBins slot).any (· == 0xFFFFFFFF)

/-! ### STATS -/

/-- The least FP32 value not less than a nonnegative dyadic (R193). -/
def roundUp32 (m : Nat) (e : Int) : FV :=
  if m = 0 then .zero
  else
    let k := Nat.log2 m - 23
    let q := if m % 2 ^ k = 0 then m >>> k else (m >>> k) + 1
    if dyGt q (e + k) (2 ^ 24 - 1) 104 then .inf false else .fin false q (e + k)

/-- The stat-slot bin of a value and of whether a flush occurred in forming it (R115). -/
def statBin (v : FV) (flushed : Bool) : Nat :=
  match v with
  | .nan => 259
  | .inf _ => 258
  | .fin _ m _ => if m = 0 then (if flushed then 257 else 256) else bits (encodeF .fp32 v.abs) 30 23

/-- v of an element for the stat slot and ABS_SUM: as formed, or x times IN_SCALE rounded once (R193). -/
def Stream.statV (c : Stream) (x : SElem) : FV :=
  if c.int32 && !x.e.nf then (rnd32 (mulExact (.ofInt x.x) (scaleVal c.inScale))).1 else x.e.v

/-- A chunk as STATS read it. -/
structure StatsChunk where
  ch    : Chunk
  elems : List SElem
  deriving DecidableEq, Repr

/-- The maximum of |v| over each row with an element, excluded ones as zero (R104), rows in order. -/
def rowMaxima (c : Stream) (es : List SElem) : List (Nat × FV) :=
  if c.rowLen = 0 then []
  else
    let n := ceilDiv c.length c.rowLen
    (List.range n).map fun r =>
      (r, (es.filter fun x => x.e.idx / c.rowLen == r).foldl
        (fun m x => if x.e.valid then m.max x.e.v.abs else m) .zero)

/-- m_j is at least 2^ratio times m. -/
def atLeast (mj : FV) (ratio : Nat) (m : FV) : Bool :=
  match mj, m with
  | .fin _ a ea, .fin _ b eb => !dyGt b (eb + ratio) a ea
  | _, _ => false

/-- The automatic choice of outlier rows (R104): the rows, ascending, and the local amax. -/
def chooseRows (c : Stream) (es : List SElem) : List Nat × FV :=
  let ranked := sortDesc 31 (fun p => keyOf p.2) (rowMaxima c es)
  let m (j : Nat) : FV := (nth ranked (j - 1) (0, .zero)).2
  let ok (j : Nat) : Bool := !(m j).isZero && atLeast (m j) c.outRatio (m (c.outN + 1))
  let j := ((List.range c.outN).map (· + 1)).foldl (fun a j => if ok j then j else a) 0
  (sortAsc 40 id ((ranked.take j).map (·.1)), m (j + 1))

/-- A key histogram record (R79). -/
def histRecord (c : Stream) (step : Nat) (ch : Chunk) (keys : List Nat) (excluded : Nat) : Bytes :=
  let bins := keys.foldl (fun l k => modNth l (bits k 30 19) (· + 1)) (List.replicate 4096 0)
  let head := toLE 4 step ++ toLE 4 c.id ++ toLE 4 (ch.c % 2 ^ 30) ++ toLE 4 keys.length ++
    toLE 4 excluded ++ zeros 40
  let body := (bins.map (toLE 4)).flatten
  head ++ toLE 4 (crc32c (head ++ body)) ++ body

/-- Where a chunk's record lies (R79, R191). -/
def Stream.recordAddr (c : Stream) (r : Nat × Nat) (ch : Chunk) : Nat :=
  c.histBase + (ch.c - (if c.int32 then r.1 / (c.chunkKi * 1024) else 0)) * 16448

/-- The counters of a Pier that read a chunk once (R120). -/
def State.countRead (s : State) (pier : Nat) (es : List SElem) (reads : Nat) : State :=
  let s := s.bump64 (R.pierCmpElemsLo pier) (es.length * reads)
  let s := s.bump (R.pierCmpChunks pier)
  let s := s.bump (R.pierCmpNf pier) (b2n (es.any (·.e.nf)))
  s.bump (R.pierFlush pier) ((es.map (·.e.flush)).sum)

/-- What STATS finds (R104-R106, R193). -/
structure StatsFound where
  amax    : FV
  valid   : Nat
  absSum  : Pair
  outs    : Nat
  listed  : List Nat
  nf      : Option Nat
  bad     : Bool
  abort   : Bool
  deriving DecidableEq, Repr

/-- STATS's findings over the chunks it read; rows is software's list. With a poisoned input the automatic choice is made
by none of them: startStats writes it as poisoned (R35). -/
def statsFind (c : Stream) (rows : List Nat) (cs : List StatsChunk) : StatsFound :=
  let es := (cs.map (·.elems)).flatten
  let nf := leastOf ((es.filter (·.e.nf)).map (·.e.idx))
  let bad := es.any (·.e.poison)
  let abort := nf.isSome && !c.exclude
  let auto := c.outN != 0 && c.outAuto
  let (chosen, top) := if auto && !abort && !bad then chooseRows c es else ([], .zero)
  let force := if auto then chosen else rows
  let counted (x : SElem) : Bool := x.e.valid && (c.rowAt force x.e.idx).isNone
  let absSum := cs.foldl (fun p (k : StatsChunk) => p.merge
    ((k.elems.filter counted).foldl (fun (p : Pair) x => p.add (c.statV x).abs) .zero)) .zero
  let ok := es.filter counted
  let amax :=
    if c.int32 then
      match mulExact (.ofInt (ok.foldl (fun a x => max a x.x.natAbs) 0)) (scaleVal c.inScale) with
      | .fin _ m e => roundUp32 m e
      | v => v
    else if auto then top
    else ok.foldl (fun m x => m.max x.e.v.abs) .zero
  { amax := if abort then .nan else amax, valid := ok.length, absSum := absSum
    outs := force.length, listed := chosen, nf := nf, bad := bad, abort := abort }

/-- STATS's records written (R79, R105): software's rows uncounted; a record of poisoned data poisoned (R35). -/
def State.writeRecords (s : State) (c : Stream) (step : Nat) (r : Nat × Nat) (rows : List Nat)
    (cs : List StatsChunk) : State :=
  cs.foldl (fun s k =>
    let keys := (k.elems.filter fun x => x.e.valid && (c.rowAt rows x.e.idx).isNone).map (·.e.key)
    let excl := if c.exclude then (k.elems.filter (·.e.nf)).length else 0
    s.wrP (k.elems.any (·.e.poison)) (c.recordAddr r k.ch) (histRecord c step k.ch keys excl)) s

/-- The 260 counts of STATS's elements (R115). -/
def statCounts (c : Stream) (cs : List StatsChunk) : List Nat :=
  ((cs.map (·.elems)).flatten).foldl (fun l x =>
    modNth l (statBin (c.statV x) (x.e.flush != 0)) (· + 1)) zeroBins

/-- The context fields STATS writes (R101, R106). With a poisoned input its results are poisoned: LOCAL_AMAX, VALID with
OUT_COUNT, and ABS_SUM (R35). -/
def State.statsFields (s : State) (ctx step status : Nat) (f : StatsFound) (amax : Bytes) : State :=
  let b := strmBase ctx
  let s := s.setFld b Strm.localAmax (leNat amax)
  let s := s.setFld b Strm.statsStep step
  let s := s.setFld b Strm.valid f.valid
  let s := s.setFld b Strm.nf (b2n f.nf.isSome)
  let s := s.setFld b Strm.outCount f.outs
  let s := s.setFld b Strm.statsStatus status
  let s := match f.nf with
    | some i => s.setFld b Strm.firstNf i
    | none => s
  let s := s.setFld b Strm.absSum (leNat f.absSum.bytes)
  ((s.markResult ctx 0x80 4 f.bad).markResult ctx 0x90 6 f.bad).markResult ctx 0xA0 8 f.bad

/-- The automatic choice of rows written (R104, R106). With a poisoned input and no abort the whole choice is poisoned
(R35): its contents and its OUT_COUNT are free, and the room of all OUT_N entries is written as poisoned words (DESIGN
CHOICE, log entry 110: R106 says only that an abort chooses none). -/
def State.writeRows (s : State) (c : Stream) (f : StatsFound) : StatsFound × State :=
  if f.bad && !f.abort && c.outN != 0 && c.outAuto then
    let (bs, s) := s.freeBytes (8 * c.outN)
    let (n, s) := s.freeBytes 1
    ({ f with outs := leNat n % (c.outN + 1) }, s.wrPoison c.outList bs)
  else (f, s.wr c.outList ((f.listed.map (toLE 8)).flatten))

/-- STATS (R106). It waits for its stream (R96), and while no Pier may take a chunk. -/
def startStats (l : Live) (s : State) : State :=
  let d := l.desc
  let ctx := opBits d 0x20 2 13 0
  let step := opd d 0x24 4
  let record := opBit d 0x28 0
  if s.streamHeld l then s
  else
    let (ok, s) := s.streamUse ctx
    let c := s.stream ctx
    let (ok2, s) := s.ctxUse (grpBase c.group) 256
    if !ok || !ok2 then s.endWith l 0x51
    else match s.streamCheck c false record with
      | .error st => s.endWith l st
      | .ok r =>
        match s.rowsInForce c (if c.outAuto then 0 else c.outN) true with
        | .error st => s.endWith l st
        | .ok rows =>
          if s.freePiers = [] then s
          else
            let cs := (chunksOfRange r.1 r.2 (c.chunkKi * 1024)).map fun ch =>
              (⟨ch, s.streamRead c (c.origin r) ch⟩ : StatsChunk)
            let f := statsFind c rows cs
            let s := cs.foldl (fun s k =>
              let (p, s) := s.takePier
              s.countRead p k.elems 1) s
            let status := firstStatus [if f.bad then 0x50 else 0, if f.abort then 0x10 else 0]
            let (junk, s) := if f.bad then s.freeBytes 4 else ([], s)
            let amax := if f.bad then junk else toLE 4 (encodeF .fp32 f.amax)
            let s := s.wrP f.bad c.lamaxAddr amax
            let (f, s) := s.writeRows c f
            let s := if record then s.writeRecords c step r rows cs else s
            let s := if c.statEn && status == 0 then s.addStat c.statSlot (statCounts c cs) else s
            let s := s.statsFields ctx step status f amax
            s.finish l ⟨status, 0, 1, f.nf⟩

end Sys2Proof.Machine
end

