-- ==== Sys2Proof/Machine/Trestle.lean ====
section
/-! DEFINITION. The Trestle generator (R59). -/

namespace Sys2Proof.Machine

/-- mix of R59. -/
def trestleMix (x0 : DWord) : DWord :=
  let x1 := x0 ^^^ (x0 >>> 31)
  let x2 := x1 * 0xC2E75A1984B36F2D#64
  let x3 := x2 ^^^ (x2 >>> 29)
  let x4 := x3 * 0x6B1DF3A70E95C4E3#64
  x4 ^^^ (x4 >>> 32)

/-- The Trestle (R59): seed, step, stream and index to 32 bits. -/
def trestle (seed : DWord) (step : Word) (stream : BitVec 24) (index : BitVec 40) : Word :=
  let w : DWord := (stream.setWidth 64 <<< 40) ||| index.setWidth 64
  let x := seed ^^^ (step.setWidth 64 * 0x9F4C2B71D38EA5C5#64)
  (trestleMix (trestleMix x ^^^ w) >>> 32).setWidth 32

/-- The r random bits of an element (R58): bits [31:32-r] of the Trestle output. -/
def trestleBits (r : Nat) (seed step stream index : Nat) : Nat :=
  (trestle (BitVec.ofNat 64 seed) (BitVec.ofNat 32 step) (BitVec.ofNat 24 stream)
    (BitVec.ofNat 40 index)).toNat >>> (32 - r)

end Sys2Proof.Machine
end

