-- ==== Sys2Proof/Machine/Compress.lean ====
section
/-! DEFINITION. COMPRESS (R80, R107-R114, R119, R122, R191, R192). -/

namespace Sys2Proof.Machine

/-- The thirteen counters of R114. -/
structure Counts where
  code     : Nat
  codeOvf  : Nat
  codeVan  : Nat
  res      : Nat
  resOvf   : Nat
  resVan   : Nat
  row      : Nat
  rowOvf   : Nat
  rowVan   : Nat
  excluded : Nat
  sent     : Nat
  blocks   : Nat
  held     : Nat
  deriving DecidableEq, Repr

/-- All zero. -/
def Counts.zero : Counts := ⟨0, 0, 0, 0, 0, 0, 0, 0, 0, 0, 0, 0, 0⟩

/-- Counters added. -/
def Counts.add (a b : Counts) : Counts :=
  ⟨a.code + b.code, a.codeOvf + b.codeOvf, a.codeVan + b.codeVan, a.res + b.res, a.resOvf + b.resOvf,
   a.resVan + b.resVan, a.row + b.row, a.rowOvf + b.rowOvf, a.rowVan + b.rowVan, a.excluded + b.excluded,
   a.sent + b.sent, a.blocks + b.blocks, a.held + b.held⟩

/-- The counters in the order of R114. -/
def Counts.list (a : Counts) : List Nat :=
  [a.code, a.codeOvf, a.codeVan, a.res, a.resOvf, a.resVan, a.row, a.rowOvf, a.rowVan, a.excluded, a.sent,
   a.blocks, a.held]

/-- What a COMPRESS works with from its start on: its context, step, seed, outlier rows, scale container, MAG,
and the index its input begins at. -/
structure Run where
  c    : Stream
  step : Nat
  seed : Nat
  rows : List Nat
  sEnc : Nat
  mag  : Nat
  lo   : Nat
  deriving DecidableEq, Repr

/-- The code format. -/
def Run.fmt (w : Run) : VFmt := VFmt.ofCode w.c.code

/-- The scale S, its sign ignored. -/
def Run.scale (w : Run) : FV := scaleVal w.sEnc

/-- The draw of an element for an output (R58, R99). -/
def Run.draw (w : Run) (i out : Nat) : Nat :=
  trestleBits (srR w.c.srBits) w.seed w.step (out * 2 ^ 23 + w.c.id) i

/-- Quantisation by a scale that may be +0 (R55, R107): a nonzero value then saturates. -/
def quantBy (v s : FV) (f : VFmt) (det : Bool) (r rand : Nat) : Quant :=
  match v, s with
  | .fin vs vm ve, .fin _ sm se =>
    if sm ≠ 0 then quantise vs vm ve sm se f det r rand 0
    else if vm = 0 then quantise vs 0 0 1 0 f det r rand 0
    else if f.isFloat then ⟨encodeF f (.fin vs (largestF f).1 (largestF f).2), true, false⟩
    else ⟨signedCode f.width vs (2 ^ (f.width - 1) - 1), true, false⟩
  | v, _ => ⟨(nonFiniteCode f v 0).1, false, false⟩

/-- A code of value zero (R108): integer 0, or a float zero of either sign. -/
def codeZero (f : VFmt) (q : Nat) : Bool := if f.isFloat then (decodeRaw f q).isZero else q == 0

/-- The dequantised value of a code, and whether its product was flushed (R51): an FP32 code is not rounded
to the multiplier's format. -/
def dequantBy (f : VFmt) (q : Nat) (s : FV) : FV × Bool :=
  let (v, _) := codeValue f q 0
  if f = .fp32 then rnd32 (mulExact v s) else mulF v s

/-- One element's outcome in a last read (R108): the entry packed, the value of its new residual before
conversion and whether forming it flushed, its outlier word, the counters, and flushes counted at the Pier. -/
structure ElOut where
  entry : Option (Nat × Nat)
  res   : FV
  van   : Bool
  row   : Option (Nat × Nat)
  cnt   : Counts
  flush : Nat
  deriving DecidableEq, Repr

/-- The counters of one code conversion (R109). -/
def codeCounts (q : Quant) : Counts :=
  { Counts.zero with code := 1, codeOvf := b2n q.overflow, codeVan := b2n q.vanished }

/-- v less the dequantised code, with the flushes. -/
def lessCode (w : Run) (v : FV) (q : Nat) : FV × Bool × Nat :=
  let (p, pf) := dequantBy w.fmt q w.scale
  let (e, ef) := subF v p
  (e, ef, b2n pf)

/-- MAG x S, the local image of a sign (R110). -/
def Run.image (w : Run) (neg : Bool) : FV × Bool :=
  let (v, f) := mulF (.ofInt w.mag) w.scale
  (if neg then v.neg else v, f)

/-- The code path of an element outside the outlier rows (R108). -/
def elCode (w : Run) (x : SElem) (chosen : Bool) : ElOut :=
  let i := x.e.idx
  let v := x.e.v
  let z := Counts.zero
  match w.c.mode with
  | 2 | 3 =>
    let b := v.isNeg && !v.isZero
    let (im, imf) := w.image b
    let (e, ef) := subF v im
    ⟨some (i, b2n b), e, ef, none, { z with code := 1 }, b2n imf⟩
  | 0 =>
    if !chosen then ⟨none, v, false, none, z, 0⟩
    else
      let q := quantBy v w.scale w.fmt w.c.det (srR w.c.srBits) (w.draw i 0)
      if codeZero w.fmt q.code then ⟨none, v, false, none, codeCounts q, 0⟩
      else
        let (e, ef, pf) := lessCode w v q.code
        ⟨some (i, q.code), e, ef, none, codeCounts q, pf⟩
  | _ =>
    let q := quantBy v w.scale w.fmt w.c.det (srR w.c.srBits) (w.draw i 0)
    let code := if x.e.key = 0 then 0 else q.code
    let (e, ef, pf) := lessCode w v code
    ⟨some (i, code), e, ef, none, codeCounts q, pf⟩

/-- The code path of an element of an int32 shard (R192). -/
def ownerCode (w : Run) (x : SElem) (chosen : Bool) : ElOut :=
  let past := { Counts.zero with resOvf := b2n x.sat }
  if w.c.mode = 1 ∨ chosen then
    let big := 2 ^ (w.fmt.width - 1) - 1
    let (q, ovf) := match rescaleMag (rescaleOf w.c.inScale w.sEnc) x.x.natAbs with
      | none => (big, true)
      | some m => if big < m then (big, true) else (m, false)
    let code := signedCode w.fmt.width (decide (x.x < 0)) q
    let cnt := { past with code := 1, codeOvf := b2n ovf, codeVan := b2n (q = 0 && x.x ≠ 0) }
    let sent := mulExact (.ofInt (if x.x < 0 then -(q : Int) else q)) w.scale
    ⟨if q ≠ 0 ∨ w.c.mode = 1 then some (x.e.idx, code) else none, addExact x.real sent.neg, false, none, cnt, 0⟩
  else ⟨none, x.real, false, none, past, 0⟩

/-- One element in the last read of its chunk (R108, R192); a poisoned one is handled by the caller. -/
def elOut (w : Run) (x : SElem) (chosen : Bool) : ElOut :=
  let i := x.e.idx
  let dense := w.c.mode != 0
  let filler := if dense then some (i, 0) else none
  if x.e.poison then ⟨filler, .zero, false, none, .zero, 0⟩
  else if x.e.nf then ⟨filler, .zero, false, none, { Counts.zero with excluded := 1 }, 0⟩
  else if w.c.int32 then ownerCode w x chosen
  else match w.c.rowAt w.rows i with
    | some j =>
      let q := quantBy x.e.v .one .bf16 w.c.det (srR w.c.srBits) (w.draw i 0)
      let (e, ef) := subF x.e.v (decodeRaw .bf16 q.code)
      let at' := w.c.outData + 2 * (j * w.c.rowLen + (i - i / w.c.rowLen * w.c.rowLen))
      ⟨filler, e, ef, some (at', q.code),
       { Counts.zero with row := 1, rowOvf := b2n q.overflow, rowVan := b2n q.vanished }, 0⟩
    | none => elCode w x chosen

/-- The residual's encoding and its counters (R102). -/
def resCode (w : Run) (i : Nat) (e : FV) (van : Bool) : Nat × Counts :=
  if w.c.resFmt = 6 then
    let q := quantBy e .one .bf16 (!w.c.resStoch) (srR w.c.srBits) (w.draw i 1)
    (q.code, { Counts.zero with res := 1, resOvf := b2n (q.overflow || !e.isFin), resVan := b2n van + b2n q.vanished })
  else
    let (v, fl) := rnd32 e
    (encodeF .fp32 v, { Counts.zero with res := 1, resOvf := b2n !v.isFin, resVan := b2n van + b2n fl })

/-- A chunk after its last read (R108, R112). -/
structure DoneChunk where
  ch      : Chunk
  pier    : Nat
  entries : List (Nat × Nat)
  bad     : Bool
  nf      : Option Nat
  held    : Bool
  reads   : Nat
  partly  : Bool
  sums    : Sums
  cnt     : Counts
  deriving DecidableEq, Repr

/-- The chunk's key histogram record is usable (R80). -/
def State.recordOk (s : State) (w : Run) (r : Nat × Nat) (ch : Chunk) : Bool :=
  let a := w.c.recordAddr r ch
  let b := s.rd a 16448
  !s.poisoned a 16448 && leAt b 0x3C 4 == crc32c (sub b 0 0x3C ++ sub b 0x40 16384) &&
  leAt b 0 4 == w.step && bits (leAt b 4 4) 23 0 == w.c.id && bits (leAt b 8 4) 29 0 == ch.c % 2 ^ 30

/-- The bins of a chunk's record (R79), with the valid entries of rows chosen after it was written taken out (R80). -/
def State.recordBins (s : State) (w : Run) (r : Nat × Nat) (ch : Chunk) (es : List SElem) : List Nat :=
  let bins := (chunksOf 4 (s.rd (w.c.recordAddr r ch + 0x40) 16384)).map leNat
  if !w.c.outAuto then bins
  else es.foldl (fun l x =>
    if x.e.valid && (w.c.rowAt w.rows x.e.idx).isSome then modNth l (bits x.e.key 30 19) (· - 1) else l) bins

/-- A chunk's residuals written (R102): the encodings in order, poisoned ones as poisoned words. -/
def State.writeResiduals (s : State) (w : Run) (ch : Chunk) (xs : List (SElem × Nat)) : State :=
  let rw := w.c.resWidth
  let a := w.c.resAddr + rw * (ch.start - w.lo)
  if rw = 0 then s
  else
    let n := (xs.filter (·.1.e.poison)).length
    let (junk, s) := s.freeBytes (rw * n)
    let (bs, _) := xs.foldl (fun (acc : List Bytes × Bytes) x =>
      if x.1.e.poison then (acc.1 ++ [acc.2.take rw], acc.2.drop rw) else (acc.1 ++ [toLE rw x.2], acc.2))
      ([], junk)
    let s := s.wr a bs.flatten
    xs.zipIdx.foldl (fun s p => if p.1.1.e.poison then s.markPoison (a + rw * p.2) rw else s) s

/-- The reads and the last read of one chunk on a Pier (R78-R84, R94, R108-R112). -/
def State.compressChunk (s : State) (w : Run) (r : Nat × Nat) (record : Bool) (ch : Chunk) (k : Nat) :
    DoneChunk × State :=
  let (p, s) := s.takePier
  let es := s.streamRead w.c w.lo ch
  let seen := es.map fun x =>
    if (w.c.rowAt w.rows x.e.idx).isSome then { x with e := { x.e with key := 0 } } else x
  let valid := seen.filter (·.e.valid)
  let sparse := w.c.mode == 0
  let usable := record && s.recordOk w r ch
  let h := if usable then 0 else 1
  let ranks := valid.map fun x => (x.e.idx, x.e.key)
  let pk := pick w.c.exact (if sparse && usable then histTake k (s.recordBins w r ch es) ranks else k) ranks
  let chosen (e : Elem) : Bool := if sparse then pk.has w.c.exact e else e.valid
  let reads := if sparse then pk.reads h else 1
  let outs := (es.zip seen).map fun x => (x.1, elOut w x.1 (chosen x.2.e))
  let res := outs.map fun o => (o.1, o.2, resCode w o.1.e.idx o.2.res o.2.van)
  let resCnt (o : SElem × ElOut × Nat × Counts) : Counts :=
    if w.c.resWidth = 0 then .zero
    else if o.1.e.poison then { Counts.zero with res := 1 } else o.2.2.2
  let bad := es.any (·.e.poison)
  let nf := leastOf ((es.filter (·.e.nf)).map (·.e.idx))
  let held := bad || (nf.isSome && !w.c.exclude)
  let entries := outs.filterMap (·.2.entry)
  let cnt := res.foldl (fun a o => (a.add o.2.1.cnt).add (resCnt o))
    { Counts.zero with held := b2n held, sent := entries.length }
  let s := s.writeResiduals w ch (res.map fun o => (o.1, o.2.2.1))
  let s := (outs.filterMap (·.2.row)).foldl (fun s x => s.wr x.1 (toLE 2 x.2)) s
  let s := s.countRead p es reads
  let s := s.bump (R.pierFlush p) ((outs.map (·.2.flush)).sum)
  let s := s.bump (R.pierCmpHeld p) (b2n held)
  let s := if sparse then
      (s.countPick p pk k h).bump (R.pierSelRecord p) (b2n (record && !usable))
    else (s.bump64 (R.pierSelChunksLo p)).bump64 (R.pierSelReadsLo p) reads
  ({ ch := ch, pier := p, entries := entries, bad := bad, nf := nf, held := held, reads := reads
     partly := sparse && decide (pk.s < k)
     sums := chunkSums w.c.fp32In chosen (seen.map (·.e)), cnt := cnt }, s)

/-! ### Packing -/

/-- The coding a COMPRESS packs with. -/
def State.codingOf (s : State) (slot : Option Nat) : Option Coding :=
  match slot with
  | none => none
  | some n => some ⟨n, (s.tbl n).gen, (s.tbl n).lens⟩

/-- The packed blocks counted at the Pier that packed them (R120, R167). -/
def State.countBlocks (s : State) (pier : Nat) (bs : List PackedBlock) : State :=
  let n (t : Nat) := (bs.filter fun b => b.btype == t).length
  let s := s.bump (R.pierCmpBlocks pier) bs.length
  let s := s.bump (R.pierCodRaw pier) (n 0)
  let s := s.bump (R.pierCodCoded pier) (n 1)
  let s := s.bump (R.pierCodStored pier) (n 2)
  let s := s.bump (R.pierCodZero pier) (n 3)
  s.bump (R.pierCodEsc pier) ((bs.map (·.esc)).sum)

/-- The blocks of one segment: a chunk cut by a shard (R122). -/
structure Segment where
  rank   : Nat
  chunk  : Nat
  pier   : Nat
  held   : Bool
  blocks : List PackedBlock
  deriving DecidableEq, Repr

/-- A chunk's segment in a shard, when they meet. -/
def segmentOf (w : Run) (coding : Option Coding) (rank : Nat) (shard : Nat × Nat) (d : DoneChunk) :
    Option Segment :=
  let a := max shard.1 d.ch.start
  let b := min shard.2 (d.ch.start + d.ch.len)
  if b ≤ a then none
  else
    let es := d.entries.filter fun e => decide (a ≤ e.1 ∧ e.1 < b)
    some ⟨rank, d.ch.c, d.pier, d.held, packSegment w.fmt (w.c.mode == 0) a es coding⟩

/-- The outlier list of a span (R121). -/
def outlierBytes (rows : List Nat) : Bytes := padTo 16 ((rows.map (toLE 8)).flatten)

/-- What the spans of one COMPRESS share. -/
structure PackInfo where
  d      : Desc
  nf     : Bool
  partly : Bool
  coding : Option Coding
  node   : Nat
  deriving DecidableEq, Repr

/-- The span of a rank (R121, R124, R125), its stream header written at a time (R174). STOCH follows the stream's
rounding in every mode, also where no element's code is formed by rounding (sign, vote and stored modes; DESIGN CHOICE,
log entry 111). -/
def spanOf (w : Run) (p : PackInfo) (born rank : Nat) (blocks : List Bytes) : Span :=
  let c := w.c
  let len := 64 + (blocks.map List.length).sum
  let outl := outlierBytes w.rows
  let hdr : SpanHdr :=
    { version := 2, kind := 1, mode := c.mode, fmt := c.code, owner := c.int32, nf := p.nf, partly := p.partly
      stoch := !c.det && !c.int32, scale := w.sEnc, length := c.length
      mag := if c.mode = 2 then w.mag else 0, chunkKi := c.chunkKi, k := if c.mode = 0 then c.k else 0
      blockCount := blocks.length, group := c.group, channel := p.d.channel.toNat, step := w.step
      seq := p.d.seq.toNat, node := p.node, outCount := w.rows.length
      slot := (p.coding.map (·.slot)).getD 0, coded := p.coding.isSome, gen := (p.coding.map (·.gen)).getD 0
      rowLen := if w.rows = [] then 0 else c.rowLen, outOff := if w.rows = [] then 0 else len
      bytes := len + outl.length }
  { ctx := c.ctx, group := c.group, rank := rank, channel := p.d.channel.toNat, seq := p.d.seq.toNat
    step := w.step, mag := w.mag, born := born, hdr := hdr.toBytes, blocks := blocks, outl := outl, bad := [] }

/-! ### The command -/

/-- MAG of the sign and vote modes (R110): the code, its conversion's counters, and the flushes of forming the mean
(R45). -/
def State.takeMag (s : State) (w : Run) : Nat × Counts × Nat :=
  let b := strmBase w.c.ctx
  let n := s.fld b Strm.valid
  if n = 0 then (0, .zero, 0)
  else
    let (sum, sf) := decodeF .fp32 (s.fld b Strm.absSum % 2 ^ 32)
    let (mu, mf) := match sum, (rnd32 (.ofInt n)).1 with
      | .fin sg m e, .fin _ dm de =>
        let (q, k) := quotSticky m e dm de
        rnd32 (.fin sg q k)
      | v, _ => (v, false)
    let q := quantBy mu w.scale .int8 w.c.det (srR w.c.srBits) (w.draw (2 ^ 40 - 1) 0)
    (q.code, codeCounts q, b2n sf + b2n mf)

/-- A pack of a stream replaced by the newest COMPRESS's. -/
def State.setPack (s : State) (p : Pack) : State :=
  { s with q := { s.q with packs := s.q.packs.filter (·.ctx != p.ctx) ++ [p] } }

/-- COMPRESS ended before packing (R119, R177): COMPRESS_STATUS written, and nothing packed. -/
def State.compressFail (s : State) (l : Live) (ctx step status : Nat) : State :=
  let s := s.setFld (strmBase ctx) Strm.compressStatus status
  (s.setPack ⟨ctx, step, l.desc.channel.toNat, l.desc.seq.toNat, false, true, []⟩).endWith l status

/-- The fields COMPRESS writes at its end (R101, R110, R114). -/
def State.compressFields (s : State) (w : Run) (status : Nat) (nf : Option Nat) (sums : Sums) (cnt : Counts)
    (bad : Bool) : State :=
  let b := strmBase w.c.ctx
  let s := s.setFld b Strm.nf (b2n nf.isSome)
  let s := s.setFld b Strm.firstNf (nf.getD 0)
  let s := if w.c.mode = 2 ∨ w.c.mode = 3 then s.setFld b Strm.mag w.mag else s
  let s := s.ctxWr (b + 0xA8) sums.bytes
  let s := s.ctxWr (b + 0xC8) ((cnt.list.map fun n => toLE 4 (min n 0xFFFFFFFF)).flatten)
  (s.setFld b Strm.compressStatus status).markResult w.c.ctx 0xA8 32 bad

/-- Everything after the checks: the chunks, packing, and the completion (R108-R113, R119). `flushes` are those of forming
the scale and the mean, counted at the Pier of the first chunk (R45, log entry 112). -/
def State.compressRun (s : State) (l : Live) (w : Run) (r : Nat × Nat) (record : Bool) (magCnt : Counts)
    (flushes : Nat) : State :=
  let c := w.c
  let chs := chunksOfRange r.1 r.2 (c.chunkKi * 1024)
  let ks := if c.mode = 0 then sharesOfK c.k chs else chs.map fun _ => 0
  let (done, s) := (chs.zip ks).foldl (fun (acc : List DoneChunk × State) p =>
    let (d, s) := acc.2.compressChunk w r record p.1 p.2
    (acc.1 ++ [d], s)) ([], s)
  let s := match done with
    | d :: _ => s.bump (R.pierFlush d.pier) flushes
    | [] => s
  let single := c.int32 && !s.hasParent c.group
  let me := s.fld (grpBase c.group) Grp.myRank
  let ranks := if single then [me] else List.range (s.fld (grpBase c.group) Grp.nMembers)
  let coding := s.codingOf l.coded
  let rng := if c.int32 && single then r else (s.range c.group c.length).getD (0, 0)
  let shard (k : Nat) : Nat × Nat := if single then r else s.shard c.group rng k
  let segs := (ranks.map fun k => done.filterMap (segmentOf w coding k (shard k))).flatten
  let s := segs.foldl (fun s g => s.countBlocks g.pier g.blocks) s
  let nf := done.foldl (fun a d => minOpt a d.nf) none
  let info : PackInfo :=
    { d := l.desc, nf := nf.isSome, partly := segs.any (·.held), coding := coding, node := s.node }
  let spans := ranks.map fun k => spanOf w info s.now k
    ((segs.filter fun g => g.rank == k && !g.held).map fun g => g.blocks.map (·.bytes)).flatten
  let held := (done.filter (·.held)).map fun d =>
    let mine := segs.filter fun g => g.chunk == d.ch.c
    ({ ctx := c.ctx, channel := l.desc.channel.toNat, step := w.step, chunk := d.ch.c, mag := w.mag, mode := c.mode
       scale := w.sEnc, blocks := (mine.map fun g => g.blocks.map (·.bytes)).flatten
       ranks := (mine.map fun g => g.blocks.map fun _ => g.rank).flatten, bad := [] } : Held)
  let s := if single then s.wr c.outData ((spans.map Span.bytes).flatten) else s
  let s := s.setPack ⟨c.ctx, w.step, l.desc.channel.toNat, l.desc.seq.toNat, false, false, if single then [] else spans⟩
  let s := { s with q := { s.q with held := s.q.held ++ held } }
  let bad := done.any (·.bad)
  let status := firstStatus [if bad then 0x50 else 0, if nf.isSome && !c.exclude then 0x10 else 0,
    if done.any (·.partly) then 1 else 0]
  let cnt := done.foldl (fun a d => a.add d.cnt)
    { magCnt with blocks := ((segs.map fun g => g.blocks.length)).sum }
  let sums := done.foldl (fun a d => a.merge d.sums) Sums.zero
  let s := s.compressFields w status nf sums cnt bad
  s.finish l ⟨status, 0, (done.map (·.reads)).foldl max 0, nf⟩

/-- STATS of the step has completed well, as the sign and vote modes ask (R110). -/
def State.statsDone (s : State) (c : Stream) (step : Nat) : Bool :=
  let b := strmBase c.ctx
  (c.mode != 2 && c.mode != 3) ||
  (s.fld b Strm.statsStep == step && decide (s.fld b Strm.statsStatus ≤ 1))

/-- The chosen rows are those of the step (R119). -/
def State.rowsStep (s : State) (c : Stream) (step : Nat) : Bool :=
  c.outN == 0 || !c.outAuto || s.fld (strmBase c.ctx) Strm.statsStep == step

/-- COMPRESS (R108, R119). It waits for its stream (R96), and while no Pier may take a chunk. -/
def startCompress (l : Live) (s : State) : State :=
  let d := l.desc
  let ctx := opBits d 0x20 2 13 0
  let step := opd d 0x24 4
  let record := opBit d 0x28 0
  if s.streamHeld l || s.freePiers.isEmpty then s
  else
    let (ok, s) := s.streamUse ctx
    let c := s.stream ctx
    let (ok2, s) := s.ctxUse (grpBase c.group) 256
    if !ok || !ok2 then s.endWith l 0x51
    else
      let b := strmBase ctx
      let s := s.setFld b Strm.compressStep step
      match s.streamCheck c true record with
      | .error st => s.compressFail l ctx step st
      | .ok r =>
        if !s.statsDone c step || !s.rowsStep c step then s.compressFail l ctx step 0x23
        else if l.stale then s.compressFail l ctx step 0x32
        else
          let n := if c.outN = 0 then 0 else if c.outAuto then s.fld b Strm.outCount else c.outN
          match s.rowsInForce c n (!c.outAuto) with
          | .error st => s.compressFail l ctx step st
          | .ok rows =>
            let (sc, amax) := s.takeScale c
            let s := match amax with
              | some a => s.setFld b Strm.agreedAmax a
              | none => s
            match sc with
            | .error st => s.compressFail l ctx step st
            | .ok sEnc =>
              let s := if c.scaleSrc = 0 then s.setFld b Strm.scale sEnc else s
              let w0 : Run := ⟨c, step, l.seed.toNat, rows, sEnc, 0, c.origin r⟩
              let (mag, magCnt, mf) := if c.mode = 2 ∨ c.mode = 3 then s.takeMag w0 else (0, .zero, 0)
              let af := match amax with
                | some a => b2n (decodeF .fp32 a).2
                | none => if c.scaleSrc = 1 then scaleFlush sEnc else 0
              let inf := if c.int32 then scaleFlush c.inScale else 0
              s.compressRun l { w0 with mag := mag } r record magCnt (mf + af + inf)

end Sys2Proof.Machine
end

