-- ==== Sys2Proof/Machine/Expand.lean ====
section
/-! DEFINITION. EXPAND and ACT_LOAD (R157-R160, R164) and ACT_SAVE (R161-R165). -/

namespace Sys2Proof.Machine

/-- Indexed values put into runs of consecutive indices; of two values for one index the later one stands. -/
def runsOf : List (Nat × Nat) → List (Nat × List Nat)
  | [] => []
  | (i, v) :: t =>
    match runsOf t with
    | [] => [(i, [v])]
    | (j, vs) :: r =>
      if j = i + 1 then (i, v :: vs) :: r
      else if j = i then (j, vs) :: r
      else (i, [v]) :: (j, vs) :: r

/-- What the check of a stream header needs (R126): the version it accepts. -/
def State.accept (s : State) (version : Nat) : Accept := ⟨version, [s.q.tables]⟩

/-- The output code of one value, the flushes, whether it saturated, and whether it is non-finite (R159). -/
structure OutVal where
  code  : Nat
  flush : Nat
  sat   : Bool
  nf    : Bool
  deriving DecidableEq, Repr

/-- A value of a span converted to an output format (R159). -/
def expandVal (h : SpanHdr) (out c : Nat) : OutVal :=
  let f := VFmt.ofCode h.fmt
  if out = 0 then ⟨c, 0, false, !(codeValue f c 0).1.isFin⟩
  else
    let s := scaleVal h.scale
    let (v, fl) :=
      if h.mode = 2 then
        let m : Int := if c = 0 then h.mag else -(h.mag : Int)
        let (p, pf) := mulF (.ofInt m) s
        (p, b2n pf)
      else
        let (p, pf) := dequantBy f c s
        (p, b2n pf + b2n (codeValue f c 0).2)
    if out = 8 then ⟨encodeF .fp32 v, fl, false, !v.isFin⟩
    else
      let q := quantBy v .one .bf16 true 16 0
      ⟨q.code, fl + b2n q.vanished, q.overflow, !v.isFin⟩

/-- The range of a rejected block (R157), cut to the tensor. -/
def rejectRange (h : SpanHdr) (b : ReadBlock) (next : Option ReadBlock) : Nat × Nat :=
  let a := b.hdr.base
  let e := if b.hdr.sparse then
      match next with
      | some n => n.hdr.base
      | none => h.length
    else a + b.hdr.count
  (a, min e h.length)

/-- Each block with the one after it. -/
def withNext : List ReadBlock → List (ReadBlock × Option ReadBlock)
  | [] => []
  | b :: t => (b, t.head?) :: withNext t

/-- The checks of R160 that follow the header's own. -/
def expandShape (h : SpanHdr) (load level1 fill : Bool) (out cap : Nat) : Option Nat :=
  if out = 0 ∧ !fill ∧ (h.fmt = 2 ∨ h.fmt = 3) then some 0x70
  else if out ≠ 0 ∧ h.mode = 3 then some 0x70
  else if cap < h.length then some 0x23
  else if load ∧ (level1 ∨ out ≠ 0 ∨ h.mode ≠ 4) then some 0x70
  else none

/-- A read block counted at its Pier (R157, R167), which reads a bad copy of its table again (R155). -/
def State.countDecode (s : State) (pier : Nat) (b : ReadBlock) : State :=
  let s := if b.hdr.btype = 1 then s.reload pier b.hdr.slot else s
  match b.res with
  | .ok _ => s.bump (R.pierDecBlocks pier)
  | .error st =>
    let s := s.bump (R.pierDecReject pier)
    if st = 0x30 then s.bump (R.pierDecOverrun pier)
    else if st = 0x31 then s.bump (R.pierDecUnderrun pier)
    else if st = 0x32 then s.bump (R.pierDecStale pier)
    else s

/-- A block of a span that an operation reads counted at its Pier, and logged when it is rejected (R156, R167). -/
def State.noteBlock (s : State) (op : Nat) (d : SpanData) (pier : Nat) (b : ReadBlock) : State :=
  let s := s.countDecode pier b
  match b.res with
  | .ok _ => s
  | .error st => s.logReject op st d b.off b.hdr.base

/-- The status of the rejected block with the lowest BASE_INDEX (R157). -/
def lowestReject (bs : List ReadBlock) : Nat :=
  (bs.foldl (fun (a : Option (Nat × Nat)) b =>
    match b.res, a with
    | .ok _, a => a
    | .error st, none => some (b.hdr.base, st)
    | .error st, some (x, y) => if b.hdr.base < x then some (b.hdr.base, st) else some (x, y)) none).elim 0 (·.2)

/-- The values of one block as expanded; none for a rejected block. -/
def blockOut (h : SpanHdr) (out : Nat) (b : ReadBlock) : List (Nat × OutVal) :=
  match b.res with
  | .ok es => es.map fun e => (e.1, expandVal h out e.2)
  | .error _ => []

/-- EXPAND and ACT_LOAD over a span whose header and shape passed (R157, R159). The scale's own flush counts at the Pier
of the first block (R45, log entry 112). -/
def State.expandRun (s : State) (l : Live) (d : SpanData) (out : Nat) (level1 fill : Bool) (dst : Nat) : State :=
  let h := parseSpanHdr d.raw
  let (a, ps, s) := s.pickPiers (if level1 then 1 else 2) d
  let bs := readBlocks a d
  let width := if out = 6 then 16 else if out = 8 then 32 else (VFmt.ofCode h.fmt).width
  let s := (bs.zip ps).foldl (fun s x =>
    let vals := (blockOut h out x.1).map (·.2)
    let s := s.bump (R.pierFlush x.2) ((vals.map (·.flush)).sum)
    (s.bump (R.pierExpSat x.2) ((vals.filter (·.sat)).length)).noteBlock l.op d x.2 x.1) s
  let s := match ps with
    | p :: _ => s.bump (R.pierFlush p) (if out = 0 then 0 else scaleFlush h.scale)
    | [] => s
  let good := (bs.map (blockOut h out)).flatten
  let bad := (withNext bs).filterMap fun p =>
    match p.1.res with
    | .ok _ => none
    | .error _ => some (rejectRange h p.1 p.2)
  let zero (a e : Nat) : List (Nat × Nat) := (List.range (e - a)).map fun i => (a + i, 0)
  let all := (if fill then zero 0 h.length else []) ++ good.map (fun p => (p.1, p.2.code)) ++
    (bad.map fun r => zero r.1 r.2).flatten
  let s := (runsOf (sortAsc 40 (·.1) all)).foldl (fun s r =>
    s.wr (dst + r.1 * width / 8) (packCodes width r.2)) s
  let s := bad.foldl (fun s r =>
    let a := r.1 * width / 8
    s.markPoison (dst + a) (if r.2 ≤ r.1 then 0 else ceilDiv (r.2 * width) 8 - a)) s
  let nf := leastOf ((good.filter (·.2.nf)).map (·.1))
  let n := (bs.filter fun b => match b.res with | .ok _ => true | .error _ => false).length
  s.finish l ⟨lowestReject bs, n, 0, nf⟩

/-- EXPAND and ACT_LOAD (R158, R160). It waits while no Pier may take a block. -/
def State.startRead (s : State) (l : Live) (load : Bool) : State :=
  let o := l.desc
  let addr := opd o 0x20 8
  let dst := opd o 0x28 8
  let out := opBits o 0x35 1 7 4
  let level1 := opBit o 0x35 3
  let fill := opBit o 0x35 2
  if addr % 64 ≠ 0 ∨ dst % 64 ≠ 0 then s.endWith l 0x23
  else if !([0, 6, 8].contains out) then s.endWith l 0x70
  else if s.freePiers.isEmpty then s
  else
    let d := s.hostSpan addr
    match checkSpanHdr (s.accept (if level1 then 1 else 2)) d with
    | some st => (s.logReject l.op st d 0 0).endWith l st
    | none =>
      match expandShape (parseSpanHdr d.raw) load level1 fill out (opd o 0x30 5) with
      | some st => s.endWith l st
      | none => s.expandRun l d out level1 fill dst

/-- EXPAND (R158). -/
def startExpand (l : Live) (s : State) : State := s.startRead l false

/-- ACT_LOAD (R158). -/
def startActLoad (l : Live) (s : State) : State := s.startRead l true

/-! ### ACT_SAVE -/

/-- The element counts of the dense blocks of a chunk (R122). -/
def denseCounts (len : Nat) : List Nat :=
  (List.range (ceilDiv len 4096)).map fun j => min 4096 (len - 4096 * j)

/-- The worst-case size of ACT_SAVE's output (R162). -/
def worstSize (form : Bool) (width : Nat) (chs : List Chunk) : Nat :=
  let ns := (chs.map fun c => denseCounts c.len).flatten
  let pad := if form then 64 else 16
  (if form then 256 else 64) + (ns.map fun n => 64 + alignUp (n * width / 8) pad).sum

/-- The checks of R162. -/
def State.saveCheck (s : State) (l : Live) : Option Nat :=
  let o := l.desc
  let f := opBits o 0x35 1 7 4
  let form := opBit o 0x35 3
  let coded := opBit o 0x35 2
  let len := opd o 0x30 5
  let ki := opBits o 0x36 2 14 0
  let t := s.tbl (opBits o 0x38 1 7 4)
  if opd o 0x20 8 % 64 ≠ 0 ∨ opd o 0x28 8 % 64 ≠ 0 ∨ len = 0 ∨ ki = 0 ∨ 16384 < ki then some 0x23
  else if f < 4 ∨ (if form then 7 else 8) < f then some 0x70
  else if coded ∧ (l.stale ∨ t.gen ≠ opd o 0x39 1) then some 0x32
  else if coded ∧ t.alphabet ≠ alphabetOf (VFmt.ofCode f) then some 0x70
  else if opd o 0x3C 4 < worstSize form (VFmt.ofCode f).width (chunksOfRange 0 len (ki * 1024)) then some 0x23
  else none

/-- The span header of ACT_SAVE (R163). -/
def saveHdr (o : Desc) (node blocks bytes : Nat) : SpanHdr :=
  { version := 2, kind := 1, mode := 4, fmt := opBits o 0x35 1 7 4, owner := false, nf := false, partly := false
    stoch := false, scale := 0x3F800000, length := opd o 0x30 5, mag := 0, chunkKi := opBits o 0x36 2 14 0
    k := 0, blockCount := blocks, group := 0, channel := 0, step := 0, seq := 0, node := node, outCount := 0
    slot := opBits o 0x38 1 7 4, coded := opBit o 0x35 2, gen := opd o 0x39 1, rowLen := 0, outOff := 0
    bytes := bytes }

/-- The operand header's 64 bytes (R165). -/
def operandHdr (o : Desc) (blocks total : Nat) : Bytes :=
  let coded := opBit o 0x35 2
  let b := toLE 1 0x23 ++ zeros 1 ++ toLE 1 (opBits o 0x35 1 7 4) ++
    toLE 1 (if coded then opBits o 0x38 1 7 4 * 16 else 0) ++ toLE 1 (if coded then opd o 0x39 1 else 0) ++
    zeros 3 ++ toLE 5 (opd o 0x30 5) ++ zeros 3 ++ toLE 4 blocks ++ toLE 4 (if coded then 0x40 else 0) ++
    toLE 4 0x100 ++ toLE 4 total ++ zeros 28
  b ++ toLE 4 (crc32c b)

/-- ACT_SAVE (R161-R163, R165). It waits while no Pier may take a chunk, and stops before the first block that a
poisoned input would enter. -/
def startActSave (l : Live) (s : State) : State :=
  let o := l.desc
  match s.saveCheck l with
  | some st => s.endWith l st
  | none =>
    if s.freePiers.isEmpty then s
    else
      let f := VFmt.ofCode (opBits o 0x35 1 7 4)
      let form := opBit o 0x35 3
      let src := opd o 0x20 8
      let dst := opd o 0x28 8
      let w := f.width / 8
      let coding := s.codingOf l.coded
      let (segs, whole, s) := (chunksOfRange 0 (opd o 0x30 5) (opBits o 0x36 2 14 0 * 1024)).foldl
        (fun (acc : List (List PackedBlock) × Bool × State) c =>
          if !acc.2.1 then acc
          else
            let (p, s) := acc.2.2.takePier
            let codes := (chunksOf w (s.rd (src + w * c.start) (w * c.len))).map leNat
            let bs := packSegment f false c.start (codes.zipIdx.map fun x => (c.start + x.2, x.1)) coding
            let good := ((denseCounts c.len).zipIdx.takeWhile fun b =>
              !s.poisoned (src + w * (c.start + 4096 * b.2)) (w * b.1)).length
            (acc.1 ++ [bs.take good], good == bs.length, s.countBlocks p (bs.take good))) ([], true, s)
      let blocks := (segs.map fun g => g.map (·.bytes)).flatten
      let laid := if form then blocks.map (padTo 64) else blocks
      let first := if form then 0x100 else 64
      let total := first + (laid.map List.length).sum
      if !whole then
        let (junk, s) := s.freeBytes (laid.map List.length).sum
        (s.wr (dst + first) junk).endWith l 0x50
      else
        let hdr :=
          if form then
            let file := if opBit o 0x35 2 then (s.tbl (opBits o 0x38 1 7 4)).file else []
            operandHdr o blocks.length total ++ sub file 0 192
          else (saveHdr o s.node blocks.length total).toBytes
        (s.wr dst (hdr ++ laid.flatten)).finish l ⟨0, total, 0, none⟩

end Sys2Proof.Machine
end

