-- ==== Sys2Proof/Machine/Deck.lean ====
section
/-! DEFINITION. Packets and frames as bytes (R254, R282), the Deck's choice of an output (R296-R302), its
queues (R295-R297), and the transmitter's arbitration (R284). -/

namespace Sys2Proof.Machine

/-! ### Packets -/

/-- The 32 bytes of a packet's header (R254). -/
def pktHeader (p : Packet) : Bytes :=
  toLE 1 (p.version.toNat * 16 + b2n p.kp * 8 + p.vl.toNat) ++ [p.opcode] ++ toLE 3 (p.dst.toNat + bits p.rsv.toNat 3 0 * 2 ^ 20) ++
  toLE 3 (p.src.toNat + bits p.rsv.toNat 7 4 * 2 ^ 20) ++ toLE 2 (b2n p.stream * 32768 + p.conn.toNat) ++ toLE 3 p.psn.toNat ++
  toLE 1 (b2n p.first * 128 + b2n p.last * 64 + b2n p.ce * 32 + b2n p.poison * 16 + b2n p.ctrEn * 8 +
    bits p.rsv.toNat 10 8) ++
  toLE 2 (p.payload.length + bits p.rsv.toNat 13 11 * 2 ^ 13) ++ toLE 4 p.g0.toNat ++ toLE 4 p.g1.toNat ++ toLE 4 p.g2.toNat ++ toLE 4 p.g3.toNat

/-- A packet on the wire: header, payload, tag. -/
def pktBytes (p : Packet) : Bytes := pktHeader p ++ p.payload ++ p.tag

/-- The packet that bytes spell; none when they are too few for the header and PAY_LEN. -/
def packetOf (bs : Bytes) : Option Packet :=
  let n (off len : Nat) := leAt bs off len
  let len := bits (n 0xE 2) 12 0
  let f := n 0xD 1
  if bs.length < 32 + len ∨ 4096 < len then none
  else some
    { version := BitVec.ofNat 4 (bits (n 0 1) 7 4), kp := bit (n 0 1) 3, vl := BitVec.ofNat 3 (n 0 1)
      opcode := BitVec.ofNat 8 (n 1 1), dst := BitVec.ofNat 20 (n 2 3), src := BitVec.ofNat 20 (n 5 3)
      stream := bit (n 8 2) 15, conn := BitVec.ofNat 15 (n 8 2), psn := BitVec.ofNat 24 (n 0xA 3)
      first := bit f 7, last := bit f 6, ce := bit f 5, poison := bit f 4, ctrEn := bit f 3
      g0 := BitVec.ofNat 32 (n 0x10 4), g1 := BitVec.ofNat 32 (n 0x14 4), g2 := BitVec.ofNat 32 (n 0x18 4)
      g3 := BitVec.ofNat 32 (n 0x1C 4)
      rsv := BitVec.ofNat 14 (bits (n 2 3) 23 20 + bits (n 5 3) 23 20 * 16 + bits f 2 0 * 256 + bits (n 0xE 2) 15 13 * 2048)
      payload := (bs.drop 32).take len, tag := bs.drop (32 + len) }

/-- A header of all zeros, to build packets from. -/
def blankPkt : Packet :=
  { version := 0, kp := false, vl := 0, opcode := 0, dst := 0, src := 0, stream := false, conn := 0, psn := 0
    first := true, last := true, ce := false, poison := false, ctrEn := false, g0 := 0, g1 := 0, g2 := 0
    g3 := 0, rsv := 0, payload := [], tag := [] }

/-- Bytes a packet takes in a queue. -/
def pktSize (p : Packet) : Nat := 32 + p.payload.length + p.tag.length

/-! ### Link words -/

/-- A link word (R282): KIND, up to eleven bytes of fields, WCRC. -/
def linkWord (kind : Nat) (fields : Bytes) : Bytes :=
  let b := toLE 1 kind ++ sub fields 0 11
  b ++ toLE 4 (crc32c b)

/-- A frame's link words (R282): SOF, the packet padded with zeros, EOF with LCRC. -/
def frameWords (f : Frame) : List Bytes :=
  let bs := pktBytes f.pkt
  let body := padTo 16 bs
  linkWord 1 (toLE 1 f.vl ++ toLE 1 f.hops ++ zeros 1 ++ toLE 2 bs.length) ::
  chunksOf 16 body ++ [linkWord 2 (toLE 1 (b2n f.stomp) ++ zeros 2 ++ toLE 4 (crc32c body))]

/-- Words put on a link. -/
def State.putLink (s : State) (h : Nat) (words : List Bytes) : State :=
  { s with deck := { s.deck with linkOut := s.deck.linkOut ++ [⟨h, words⟩] } }

/-! ### Links -/

/-- A link's own state. -/
def State.half (s : State) (h : Nat) : HalfPort := nth s.deck.ports h ⟨0, 0, false, [], none, false, false, [0, 0, 0, 0], []⟩

/-- A link's own state replaced. -/
def State.setHalf (s : State) (h : Nat) (f : HalfPort → HalfPort) : State :=
  { s with deck := { s.deck with ports := modNth s.deck.ports h f } }

/-- The half-port exists (R280). -/
def State.halfExists (s : State) (h : Nat) : Bool :=
  decide (h < 48) && (h % 2 == 0 || s.regBit (R.portCfg (h / 2)) 0)

/-- PORT_STAT of a half-port. -/
def portStatOf (h : Nat) : Nat := R.portStat (h / 2) (h % 2)

/-- STATE of a link (R309). -/
def State.linkState (s : State) (h : Nat) : Nat := s.regBits (portStatOf h) 31 28

/-- The link is UP. -/
def State.linkIsUp (s : State) (h : Nat) : Bool := s.halfExists h && s.linkState h == 4

/-! ### The choice of an output (R296-R302) -/

/-- Half-ports of a dimension's mask (R310). -/
def State.dimMask (s : State) (d : Nat) (plus : Bool) : Nat :=
  if plus then s.reg (R.deckDimPlusLo d) + s.reg (R.deckDimPlusHi d) * 2 ^ 32
  else s.reg (R.deckDimMinusLo d) + s.reg (R.deckDimMinusHi d) * 2 ^ 32

/-- The sizes K of the rings (R298). -/
def State.rings (s : State) : List Nat :=
  (List.range (s.regBits R.deckMode 7 5)).map fun d => s.regBits (R.deckRing d) 16 0

/-- The coordinate of a node in dimension d (R298). -/
def coordOf (rings : List Nat) (node d : Nat) : Nat :=
  node / (rings.take d).prod % max (nth rings d 1) 1

/-- The DOR configuration is within its limits (R298). -/
def ringsOk (rings : List Nat) : Bool :=
  decide (1 ≤ rings.length ∧ rings.length ≤ 6 ∧ rings.prod ≤ 65536) &&
  rings.all fun k => decide (2 ≤ k ∧ k ≤ 65536)

/-- The next hop in dimension order (R298): the first dimension in which a destination differs, and whether
the plus and the minus direction lead there. -/
def State.nextHop (s : State) (dst : Nat) : Option (Nat × Bool × Bool) :=
  let rings := s.rings
  let me := s.node
  if rings.prod ≤ dst then none
  else
    (List.range rings.length).findSome? fun d =>
      let k := nth rings d 1
      let off := (coordOf rings dst d + k - coordOf rings me d) % max k 1
      if off = 0 then none
      else if off < k - off then some (d, true, false)
      else if k - off < off then some (d, false, true)
      else some (d, true, s.regBit R.deckMode 3)

/-- The dimension whose mask holds a half-port (R299). -/
def State.dimOf (s : State) (h : Nat) : Option Nat :=
  (List.range 6).find? fun d => (s.dimMask d true).testBit h || (s.dimMask d false).testBit h

/-- The lower lane of a virtual lane's pair; VL 6 and 7 have none. -/
def lowerLane (vl : Nat) : Nat := if vl < 6 then vl / 2 * 2 else vl

/-- The upper lane of a virtual lane's pair. -/
def upperLane (vl : Nat) : Nat := if vl < 6 then vl / 2 * 2 + 1 else vl

/-- The lane on which a hop in dimension d leaves (R299). -/
def State.hopLane (s : State) (from_ : Option Nat) (vl d : Nat) (plus : Bool) : Nat :=
  let rings := s.rings
  let c := coordOf rings s.node d
  let wrap := if plus then c + 1 == nth rings d 1 else c == 0
  let same := match from_ with
    | none => false
    | some h => s.dimOf h == some d
  if wrap then upperLane vl else if same then vl else lowerLane vl

/-- The candidates in dimension order: half-port and lane (R298, R299). -/
def State.dorCandidates (s : State) (from_ : Option Nat) (vl dst : Nat) : List (Nat × Nat) :=
  match s.nextHop dst with
  | none => []
  | some (d, plus, minus) =>
    let side (on dir : Bool) : List (Nat × Nat) :=
      if on then ((setIdx (s.dimMask d dir) 48).filter s.linkIsUp).map fun h => (h, s.hopLane from_ vl d dir)
      else []
    side plus true ++ side minus false

/-- The candidates of a routing entry (R301). -/
def State.tableCandidates (s : State) (vl dst : Nat) : List (Nat × Nat) :=
  let b := routeBase dst
  let lane := match s.fld b Route.lane with
    | 1 => lowerLane vl
    | 2 => upperLane vl
    | _ => vl
  if s.flag b Route.valid then ((setIdx (s.fld b Route.ports) 48).filter s.linkIsUp).map fun h => (h, lane)
  else []

/-- The candidates for a destination under DECK_MODE (R298, R301). -/
def State.candidates (s : State) (from_ : Option Nat) (vl dst : Nat) : List (Nat × Nat) :=
  if !s.regBit R.deckCtrl 1 then []
  else match s.regBits R.deckMode 1 0 with
    | 0 =>
      if s.regBit R.deckMode 4 && s.flag (routeBase dst) Route.valid then s.tableCandidates vl dst
      else s.dorCandidates from_ vl dst
    | 1 => s.tableCandidates vl dst
    | _ => []

/-- Bytes queued on a half-port and lane. -/
def State.queued (s : State) (h vl : Nat) : Nat :=
  ((s.deck.out.filter fun f => decide (f.h = h ∧ f.vl = vl)).map fun f => pktSize f.pkt).sum

/-- The choice among candidates (R300): fewest bytes queued, ties to the lowest half-port; or the lowest. -/
def State.chooseOut (s : State) (cs : List (Nat × Nat)) : Option (Nat × Nat) :=
  let cost (c : Nat × Nat) : Nat := if s.regBit R.deckMode 3 then s.queued c.1 c.2 * 64 + c.1 else c.1
  cs.foldl (fun best c => match best with
    | none => some c
    | some b => if cost c < cost b then some c else some b) none

/-- A frame discarded for want of a route (R302). -/
def State.noRoute (s : State) (dst : Nat) : State :=
  ((s.bump R.deckNoroute).setReg R.deckNorouteLast dst).raiseIrq 0x60 1

/-- A frame put on an output queue, with the congestion mark (R297). -/
def State.enqueue (s : State) (f : Frame) : State :=
  let mark := decide (f.h < 48 ∧ s.reg R.deckCeThresh * 1024 ≤ s.queued f.h f.vl)
  let s := if mark then s.bump R.deckCeMarked else s
  let p := { f.pkt with vl := BitVec.ofNat 3 f.vl, ce := f.pkt.ce || mark }
  { s with deck := { s.deck with out := s.deck.out ++ [{ f with pkt := p }] } }

/-- The number that names this chip itself as the place a frame goes to (R296). -/
def localPort : Nat := 48

/-- A packet routed (R296, R298-R302): queued for this chip itself, on the output chosen, or discarded. -/
def State.route (s : State) (from_ : Option Nat) (hops : Nat) (stomp : Bool) (p : Packet) : State :=
  let dst := p.dst.toNat % 65536
  if dst = s.node then s.enqueue ⟨localPort, p.vl.toNat, hops, stomp, p⟩
  else match s.chooseOut (s.candidates from_ p.vl.toNat dst) with
    | none => s.noRoute dst
    | some (h, vl) => s.enqueue ⟨h, vl, hops, stomp, p⟩

/-- A packet that this chip originates: HOPS 0 (R295). -/
def State.emit (s : State) (p : Packet) : State := s.route none 0 false p

/-- Bytes in all queues of the Deck are within its 12 MiB. -/
def State.deckRoom (s : State) : Bool :=
  decide ((s.deck.out.map fun f => pktSize f.pkt).sum < 12 * 2 ^ 20)

/-! ### Expansion joints (R18, R19, R31) -/

/-- Bytes as protected words of 16 each (R18, R30). -/
def protect (bs : Bytes) : List Nat := (chunksOf 16 (padTo 16 bs)).map fun w => eccWord (leNat w)

/-- What stands in the joint from one island to another. -/
def State.jointOf (s : State) (src dst : Nat) : List InJoint :=
  ((s.joints.find? fun j => decide (j.src = src ∧ j.dst = dst)).map (·.fifo)).getD []

/-- What stands in a joint replaced; an empty joint is not listed. -/
def State.setJoint (s : State) (src dst : Nat) (fifo : List InJoint) : State :=
  let rest := s.joints.filter fun j => !(decide (j.src = src ∧ j.dst = dst))
  { s with joints := if fifo.isEmpty then rest else rest ++ [⟨src, dst, fifo⟩] }

/-- A frame put into a joint behind what stands there. -/
def State.intoJoint (s : State) (src dst : Nat) (f : Frame) : State :=
  let bs := pktBytes f.pkt
  s.setJoint src dst (s.jointOf src dst ++ [⟨f.h, f.vl, f.hops, f.stomp, bs.length, protect bs⟩])

/-- Protected words checked at a joint's output or at a crossing (R31-R33): the data, the places of the words that are
poisoned, and the counts. -/
def State.checkWords (m : Sram) : List Nat → Nat → State → Bytes × List Nat × State
  | [], _, s => ([], [], s)
  | w :: ws, i, s =>
    let (d, bad, s) := match eccRead w with
      | .good d => (d, false, s)
      | .corrected d => (d, false, s.bump (R.hdrErrCntCe m.page))
      | .uncorrectable d => (d, true, s.countUe m i)
    let (bs, l, s) := State.checkWords m ws (i + 1) s
    (toLE 16 d ++ bs, if bad then i :: l else l, s)

/-- The first frame of a joint taken out and checked: the frame, and the places of its poisoned words; no frame when its
bytes spell none. -/
def State.outOfJoint (s : State) (src dst : Nat) : Option (Option Frame × List Nat × State) :=
  match s.jointOf src dst with
  | [] => none
  | f :: rest =>
    let (bs, bad, s) := State.checkWords (.joint src dst) f.words 0 (s.setJoint src dst rest)
    some ((packetOf (bs.take f.len)).map fun p => ⟨f.h, f.vl, f.hops, f.stomp, p⟩, bad, s)

/-- The words in every joint at an island's side discarded at its reset (R19). A frame in a joint from the Deck belongs to
the Deck's work, so the Deck, where it survives, records INTERNAL. -/
def State.dropJoints (s : State) (island : Nat) : State :=
  let lost := s.joints.any fun j => decide (j.src = 3 ∧ j.dst = island)
  let s := { s with joints := s.joints.filter fun j => !(decide (j.src = island ∨ j.dst = island)) }
  if lost then s.errFirst 0x60 0x7F else s

/-! ### Transmission (R284, R285) -/

/-- Lane v may send on a half-port: not paused there, and a frame waits. -/
def State.laneReady (s : State) (h v : Nat) : Bool :=
  (v == 6 || !(s.half h).paused.testBit v) && s.deck.out.any fun f => decide (f.h = h ∧ f.vl = v)

/-- The weights of VL 0, 1, 4 and 5 (R310 DECK_ARB). -/
def State.weights (s : State) : List Nat :=
  [s.regBits R.deckArb 7 0, s.regBits R.deckArb 15 8, s.regBits R.deckArb 23 16, s.regBits R.deckArb 31 24]

/-- The next lane of the weighted round robin and the credits left (R284): a lane takes its turns while it has
credit; when no ready lane has any, every lane's is renewed. -/
def rrPick (ready : List Bool) (weights credits : List Nat) : Option (Nat × List Nat) :=
  let lane (c : List Nat) : Option Nat := (List.range 4).find? fun i => nth ready i false && decide (0 < nth c i 0)
  match lane credits with
  | some i => some (i, modNth credits i (· - 1))
  | none =>
    let full := weights.map fun w => max w 1
    match lane full with
    | some i => some (i, modNth full i (· - 1))
    | none => none

/-- The lane that a half-port sends next (R284): VL 6, then the older of VL 2 and 3, then the round robin. -/
def State.nextLane (s : State) (h : Nat) : Option (Nat × List Nat) :=
  let c := (s.half h).credits
  if s.laneReady h 6 then some (6, c)
  else match s.deck.out.find? fun f =>
      decide (f.h = h) && (f.vl == 2 || f.vl == 3) && !(s.half h).paused.testBit f.vl with
    | some f => some (f.vl, c)
    | none =>
      match rrPick ([0, 1, 4, 5].map (s.laneReady h)) s.weights c with
      | some (i, c) => some (nth [0, 1, 4, 5] i 0, c)
      | none => none

/-- The first frame of a list on a half-port and lane, and the rest. -/
def takeFrame (h v : Nat) : List Frame → Option (Frame × List Frame)
  | [] => none
  | f :: t =>
    if f.h = h ∧ f.vl = v then some (f, t)
    else match takeFrame h v t with
      | some (g, r) => some (g, f :: r)
      | none => none

/-- One frame of a half-port handed to its port through the joint between them (R18, R284). -/
def State.transmit (s : State) (h : Nat) : State :=
  match s.nextLane h with
  | none => s
  | some (v, c) =>
    match takeFrame h v s.deck.out with
    | none => s
    | some (f, rest) =>
      let s := { s with deck := { s.deck with out := rest } }
      (s.setHalf h fun x => { x with credits := c }).intoJoint 3 (37 + h / 2) f

/-- The first frame in a port's joint put on its link (R309 PORT_FRAMES_TX), stomped when a word of it is poisoned (R285);
one whose link has gone down meanwhile is discarded and counted as those queued for it were (R293). -/
def State.portOut (s : State) (p : Nat) : State :=
  match s.outOfJoint 3 (37 + p) with
  | none => s
  | some (none, _, s) => s.bump R.deckDownDrop
  | some (some f, bad, s) =>
    if s.linkIsUp f.h then
      (s.putLink f.h (frameWords { f with stomp := f.stomp || !bad.isEmpty })).bump64 (R.portFramesTxLo p)
    else s.bump R.deckDownDrop

/-- The UP half-ports with a frame that may be sent. -/
def State.sendable (s : State) : Option Nat :=
  (List.range 48).find? fun h => s.linkIsUp h && (s.nextLane h).isSome

/-! ### MGMT (R303) -/

/-- A MGMT packet of a kind to a node, with its bytes 0x12-0x1B and payload. -/
def State.mgmt (s : State) (dst kind group channel rank seq : Nat) (payload : Bytes) : State :=
  s.emit { blankPkt with
    version := 2, vl := 6, opcode := 0x30, dst := BitVec.ofNat 20 dst, src := BitVec.ofNat 20 s.node
    g0 := BitVec.ofNat 32 (kind + group % 4096 * 65536)
    g1 := BitVec.ofNat 32 (channel % 65536 + rank % 65536 * 65536)
    g2 := BitVec.ofNat 32 seq, payload := payload }

end Sys2Proof.Machine
end

