-- ==== Sys2Proof/Machine/Upset.lean ====
section
/-! DEFINITION. Bits that flip in stored words (R27, R30-R34, R70, R155): a flip may come with any tick of the engine's
own work, in any array, joint or crossing, and the check at the next read corrects it, or counts it and marks the word
(DESIGN CHOICE, log entry 102). -/

namespace Sys2Proof.Machine

/-- The arrays of R27 and the crossings of R24, numbered. -/
def Sram.ofNat (n : Nat) : Sram :=
  if n % 76 = 0 then .keystone
  else if n % 76 = 1 then .span
  else if n % 76 = 2 then .context
  else if n % 76 < 35 then .pier (n % 76 - 3)
  else if n % 76 < 43 then .coalesce (n % 76 - 35)
  else if n % 76 = 43 then .deck
  else if n % 76 < 68 then .port (n % 76 - 44)
  else .crossing (n % 76 - 68)

/-- A word that is checked when an operation reads its place: of the firmware image (R359, R361), of the table windows
(R28), or of those that a crossing carries next (R24). Any other is checked at the next tick. -/
def State.placed (s : State) (u : Upset) : Bool :=
  match u.array with
  | .keystone => decide (u.granule * 16 < s.reg R.bootLoadPtr)
  | .context => decide (u.granule < 0x180000) && windowArray u.granule == .context
  | .span => windowArray u.granule == .span
  | .crossing _ => true
  | _ => false

/-- An entry of a list that a number picks. -/
def pickOf (n len : Nat) : Nat := n % max len 1

/-! ### The words that an array holds -/

/-- A stored word of 16 bytes, by what holds it: the candidate share, a contribution, a packed or a retained span, the
blocks of a held-back chunk, a waiting message, a table's master or a Pier's copy, a stored descriptor, a line of a
coalescing buffer, a frame of the Deck or of a receive buffer, and firmware's own words. -/
inductive Stored where
  | cand (w : Nat) | inbound (i w : Nat) | pack (i j w : Nat) | retained (i w : Nat) | held (i w : Nat)
  | msg (i j w : Nat) | table (k w : Nat) | copy (p k w : Nat) | desc (i w : Nat) | line (granule w : Nat)
  | frame (i w : Nat) | buffer (h i w : Nat) | firmware
  deriving DecidableEq, Repr

/-- The words that bytes take. -/
def wordsOf (bs : Bytes) : Nat := (bs.length + 15) / 16

/-- The lines of an Abutment's coalescing buffer, by their granules. -/
def State.linesOf (s : State) (n : Nat) : List Nat :=
  (s.cb.filter fun l => abutOf (l.granule * 64) == n).map (·.granule)

/-- The stored word that a number picks in the span buffers (R29). -/
def QState.storedSpan (q : QState) (g : Nat) : Stored :=
  let n := g / 6
  let i (len : Nat) : Nat := pickOf n len
  let r (len : Nat) : Nat := n / max len 1
  match g % 6 with
  | 0 => .cand (n % 0x600000)
  | 1 =>
    let k := i q.inbound.length
    .inbound k (pickOf (r q.inbound.length) (((q.inbound[k]?).map fun x => wordsOf x.data).getD 0))
  | 2 =>
    let k := i q.packs.length
    let spans := ((q.packs[k]?).map (·.spans)).getD []
    let j := pickOf (r q.packs.length) spans.length
    .pack k j (pickOf (r q.packs.length / max spans.length 1) (((spans[j]?).map fun x => wordsOf x.bytes).getD 0))
  | 3 =>
    let k := i q.retained.length
    .retained k (pickOf (r q.retained.length) (((q.retained[k]?).map fun x => wordsOf x.bytes).getD 0))
  | 4 =>
    let k := i q.held.length
    .held k (pickOf (r q.held.length) (((q.held[k]?).map fun x => wordsOf x.blocks.flatten).getD 0))
  | _ =>
    let k := i q.msgs.length
    let pkts := ((q.msgs[k]?).map (·.pkts)).getD []
    let j := pickOf (r q.msgs.length) pkts.length
    .msg k j (pickOf (r q.msgs.length / max pkts.length 1) (((pkts[j]?).map fun p => wordsOf p.payload).getD 0))

/-- The stored word that an array holds at a granule: the rules give no places within an array beside those of the image
and of the table windows, so a number picks among what it holds (DESIGN CHOICE, log entry 102). -/
def State.storedAt (s : State) (a : Sram) (g : Nat) : Stored :=
  match a with
  | .span => s.q.storedSpan g
  | .context =>
    if g % 2 = 0 then .table (g / 2 % 16) (g / 32 % 10)
    else .desc (pickOf (g / 2) s.q.store.length) (g / 2 / max s.q.store.length 1 % 4)
  | .pier p => .copy p (g % 16) (g / 16 % 10)
  | .coalesce n => .line (nth (s.linesOf n) (pickOf g (s.linesOf n).length) 0) (g / max (s.linesOf n).length 1 % 4)
  | .deck =>
    let i := pickOf g s.deck.out.length
    .frame i (pickOf (g / max s.deck.out.length 1) (((s.deck.out[i]?).map fun f => wordsOf (pktBytes f.pkt)).getD 0))
  | .port n =>
    let h := 2 * n + g % 2
    let b := (s.half h).buffer
    let i := pickOf (g / 2) b.length
    .buffer h i (pickOf (g / 2 / max b.length 1) (((b[i]?).map fun f => wordsOf (pktBytes f.pkt)).getD 0))
  | _ => .firmware

/-- The 64 bytes of a stored descriptor (R229). -/
def descBytes (op : Nat) (d : Desc) : Bytes :=
  toLE 1 op ++ toLE 1 (d.prio.toNat * 16 + b2n d.fencePrev * 8 + b2n d.irq * 4 + b2n d.errOnly * 2) ++
  toLE 2 d.group.toNat ++ toLE 2 d.channel.toNat ++ toLE 2 d.cq.toNat ++ toLE 4 d.seq.toNat ++
  toLE 4 d.trigThresh.toNat ++ toLE 2 d.trigCtr.toNat ++ toLE 2 d.doneCtr.toNat ++
  toLE 2 (b2n d.trigEn * 128 + b2n d.doneEn * 64 + b2n d.doneAny * 32) ++ toLE 2 d.tag.toNat ++
  toLE 4 d.ppSlot.toNat ++ zeros 4 ++ sub d.ops 0 32

/-- The bytes among which a stored word lies; none where nothing stands. -/
def State.storedBytes (s : State) : Stored → Option Bytes
  | .cand w => some (s.q.cand.readN (16 * w) 16)
  | .inbound i _ => (s.q.inbound[i]?).map (·.data)
  | .pack i j _ => (s.q.packs[i]?).bind fun p => (p.spans[j]?).map (·.bytes)
  | .retained i _ => (s.q.retained[i]?).map (·.bytes)
  | .held i _ => (s.q.held[i]?).map (·.blocks.flatten)
  | .msg i j _ => (s.q.msgs[i]?).bind fun m => (m.pkts[j]?).map (·.payload)
  | .table k _ => (s.q.tables[k]?).bind fun t => if t.state = .free then none else some t.file
  | .copy p k _ => ((nth s.piers p [])[k]?).bind fun t => if t.state = .free then none else some t.file
  | .desc i _ => (s.q.store[i]?).bind fun x => if x.op = 0x100 then none else some (descBytes x.op x.desc)
  | .line k _ => (s.cb.find? fun l => l.granule == k).map (·.data)
  | .frame i _ => (s.deck.out[i]?).map fun f => pktBytes f.pkt
  | .buffer h i _ => ((s.half h).buffer[i]?).map fun f => pktBytes f.pkt
  | .firmware => some (zeros 16)

/-- The place of a stored word among the bytes around it. -/
def Stored.word : Stored → Nat
  | .inbound _ w | .pack _ _ w | .retained _ w | .held _ w | .msg _ _ w | .table _ w | .copy _ _ w
  | .desc _ w | .line _ w | .frame _ w | .buffer _ _ w => w
  | .cand _ | .firmware => 0

/-- Bytes with a 16-byte word replaced, their length kept. -/
def putWordAt (bs : Bytes) (w : Nat) (v : Bytes) : Bytes := (Machine.put bs (16 * w) v).take bs.length

/-- Bytes cut again at the lengths of pieces. -/
def recut : List Bytes → Bytes → List Bytes
  | [], _ => []
  | b :: t, bs => bs.take b.length :: recut t (bs.drop b.length)

/-- A word of a span replaced, and marked when it is bad. -/
def Span.rewrite (x : Span) (w : Nat) (v : Bytes) (bad : Bool) : Span :=
  let bs := putWordAt x.bytes w v
  let n := x.hdr.length + (x.blocks.map List.length).sum
  let starts := (x.blocks.map fun b => SpanPart.block (parseBlkHdr b).base) ++ [.outliers]
  let part := starts.foldl (fun (best : SpanPart) p => if x.partAt p ≤ 16 * w then p else best) .header
  { x with
    hdr := bs.take x.hdr.length, blocks := recut x.blocks (bs.drop x.hdr.length), outl := bs.drop n
    bad := if bad then (part, w - x.partAt part / 16) :: x.bad else x.bad }

/-- A word of a chunk's held-back blocks replaced, and its block marked when it is bad. -/
def Held.rewrite (x : Held) (w : Nat) (v : Bytes) (bad : Bool) : Held :=
  let blocks := recut x.blocks (putWordAt x.blocks.flatten w v)
  let ends := x.blocks.zipIdx.find? fun b => decide (16 * w < ((x.blocks.take (b.2 + 1)).map List.length).sum)
  { x with
    blocks := blocks
    bad := match bad, ends with
      | true, some b => (parseBlkHdr b.1).base :: x.bad
      | _, _ => x.bad }

/-- A word of a table's file replaced, and the table marked when it is bad. -/
def TblSlot.rewrite (t : TblSlot) (w : Nat) (v : Bytes) (bad : Bool) : TblSlot :=
  let file := putWordAt t.file w v
  { t with file := file, lens := tableLens file, bad := t.bad || bad }

/-- A word of a frame replaced. A bad word in the header, or any bad word of a frame for another chip, ends the frame
stomped (R285, R295); one in the payload of a frame for this chip poisons it. -/
def Frame.rewrite (f : Frame) (w : Nat) (v : Bytes) (bad : Bool) : Frame :=
  match packetOf (putWordAt (pktBytes f.pkt) w v) with
  | none => { f with stomp := true }
  | some p =>
    if !bad then { f with pkt := p }
    else if f.h = localPort ∧ 2 ≤ w then { f with pkt := { p with poison := true } }
    else { f with pkt := p, stomp := true }

/-- A stored descriptor with a word replaced; opcode 0x100 stands for one that cannot be read any more. -/
def Slot.rewrite (x : Slot) (w : Nat) (v : Bytes) (bad : Bool) : Slot :=
  let r := descOf x.desc.src (putWordAt (descBytes x.op x.desc) w v)
  if bad then { x with op := 0x100 } else { x with op := r.1, desc := r.2 }

/-- A stored word of the queue island replaced (R32, R33). -/
def QState.rewrite (q : QState) (c : Stored) (v : Bytes) (bad : Bool) : QState :=
  match c with
  | .cand w =>
    { q with cand := q.cand.writeN (16 * w) v, candBad := if bad then insertN w q.candBad else q.candBad }
  | .inbound i w =>
    { q with inbound := modNth q.inbound i fun x =>
        { x with data := putWordAt x.data w v, poison := if bad then insertN w x.poison else x.poison } }
  | .pack i j w => { q with packs := modNth q.packs i fun p => { p with spans := modNth p.spans j (·.rewrite w v bad) } }
  | .retained i w => { q with retained := modNth q.retained i (·.rewrite w v bad) }
  | .held i w => { q with held := modNth q.held i (·.rewrite w v bad) }
  | .msg i j w =>
    { q with msgs := modNth q.msgs i fun m => { m with pkts := modNth m.pkts j fun p =>
        { p with payload := putWordAt p.payload w v, poison := p.poison || bad } } }
  | .table k w => { q with tables := modNth q.tables k (·.rewrite w v bad) }
  | .desc i w => { q with store := modNth q.store i (·.rewrite w v bad) }
  | _ => q

/-- A stored word replaced by what its check passed on (R32, R33): corrected, or known to be bad. -/
def State.rewrite (s : State) (c : Stored) (v : Bytes) (bad : Bool) : State :=
  match c with
  | .copy p k w => { s with piers := modNth s.piers p fun l => modNth l k (·.rewrite w v bad) }
  | .line g w =>
    { s with cb := s.cb.map fun l =>
        if l.granule = g then { l with data := putWordAt l.data w v, poison := l.poison || bad } else l }
  | .frame i w => { s with deck := { s.deck with out := modNth s.deck.out i (·.rewrite w v bad) } }
  | .buffer h i w => s.setHalf h fun x => { x with buffer := modNth x.buffer i (·.rewrite w v bad) }
  | .firmware => s
  | c => { s with q := s.q.rewrite c v bad }

/-- The check of one flipped word (R32, R33, R70), in an island that holds its contents. -/
def State.struck (s : State) (u : Upset) : State :=
  if !((pageIsland u.array.page).map s.islandReady).getD false then s
  else
    let c := s.storedAt u.array u.granule
    match s.storedBytes c with
    | none => s
    | some bs =>
      match eccRead (eccWord (leNat (sub bs (16 * c.word) 16)) ^^^ u.flips) with
      | .good d => s.rewrite c (toLE 16 d) false
      | .corrected d => (s.rewrite c (toLE 16 d) false).bump (R.hdrErrCntCe u.array.page)
      | .uncorrectable d => (s.rewrite c (toLE 16 d) true).countUe u.array u.granule

/-- The words that flipped since the last tick, checked. -/
def State.checkUpsets (s : State) : State :=
  let s' := { s with upsets := s.upsets.filter s.placed }
  (s.upsets.filter fun u => !s.placed u).foldl State.struck s'

/-- Bits of a word in a joint flipped. -/
def Joint.flip (j : Joint) (g m : Nat) : Joint :=
  { j with fifo := modNth j.fifo (pickOf g j.fifo.length) fun f =>
      let r := g / max j.fifo.length 1
      { f with words := modNth f.words (pickOf r f.words.length) fun w => w ^^^ m % 2 ^ 144 } }

/-- A flip that this tick brings, when it brings one: a free value. -/
def State.flip (s : State) : State :=
  let s' := { s with free := s.free + 1 }
  match Config.upset s.free with
  | some (a, g, m) =>
    if a % 77 = 76 then
      { s' with joints := modNth s.joints (pickOf (a / 77) s.joints.length) fun j => j.flip g m }
    else { s' with upsets := ⟨Sram.ofNat (a % 77), g, m % 2 ^ 144⟩ :: s.upsets }
  | none => s'

/-! ### Crossings (R24, R225) -/

/-- A word of an Abutment's operands carried over the die-to-die fabric and checked at the far side (R24, R31): what
arrives, whether it is poisoned, and the counts on the Abutment's page (R225). The words travel one after another, so a
flip that waits strikes the next. -/
def State.cross (s : State) (n data : Nat) : (Nat × Bool) × State :=
  match s.upsets.find? fun u => u.array = .crossing n with
  | none => ((data, false), s)
  | some u => s.checkWord (.crossing n) u.granule data

end Sys2Proof.Machine
end

