-- ==== Sys2Proof/Machine/Abut.lean ====
section
/-! DEFINITION. The Abutments: the coalescing buffer (R200-R202), cells and elements, ATOMIC_MAX on local cells
(R206-R208), RESCALE (R209, R210) and DOT (R211-R213). -/

namespace Sys2Proof.Machine

/-! ### Which Abutments may work (R372) -/

/-- An Abutment may take work: its island is ready, it is not held, and no test runs on it (R372, R400). -/
def State.abutFree (s : State) (n : Nat) : Bool :=
  !s.underTest (61 + n) && s.islandReady (61 + n) && !s.regBit (R.hdrCtrl (0x68 + n)) 2

/-- Every Abutment that bytes [a, a + n) reach may work. -/
def State.abutsFree (s : State) (a n : Nat) : Bool :=
  (List.range 8).all s.abutFree ||
  (let u := unitsOf 64 a n
   (List.range u.2).all fun i => s.abutFree (abutOf ((u.1 + i) * 64)))

/-- An Abutment is out of service (R350). -/
def State.abutGone (s : State) (n : Nat) : Bool :=
  match s.pwr.islands[61 + n]? with
  | some i => i.oos
  | none => false

/-- Bytes [a, a + n) reach an Abutment that is out of service. -/
def State.abutsGone (s : State) (a n : Nat) : Bool :=
  (List.range 8).any s.abutGone &&
  (let u := unitsOf 64 a n
   (List.range u.2).any fun i => s.abutGone (abutOf ((u.1 + i) * 64)))

/-- An operation on ranges (address, bytes): it ends with INTERNAL when one reaches an Abutment out of service
(R350), waits while one is not free (R372), and runs otherwise. -/
def State.abutGate (s : State) (l : Live) (ranges : List (Nat × Nat)) (go : State → State) : State :=
  if ranges.any fun r => s.abutsGone r.1 r.2 then s.endWith l 0x7F
  else if ranges.all fun r => s.abutsFree r.1 r.2 then go s
  else s

/-- A counter of the Abutment beside a byte raised. -/
def State.abutBump (s : State) (reg : Nat → Nat) (a : Nat) (n : Nat := 1) : State := s.bump (reg (abutOf a)) n

/-- A 64-bit counter of the Abutment beside a byte raised. -/
def State.abutBump64 (s : State) (reg : Nat → Nat) (a : Nat) (n : Nat := 1) : State := s.bump64 (reg (abutOf a)) n

/-! ### The coalescing buffer (R201, R202) -/

/-- Lines an Abutment holds. -/
def State.cbCount (s : State) (abut : Nat) : Nat :=
  (s.cb.filter fun l => abutOf (l.granule * 64) == abut).length

/-- The least recently used line of an Abutment evicted when all 131,072 are taken (R202). -/
def State.cbRoom (s : State) (abut : Nat) : State :=
  if s.cbCount abut < 131072 then s
  else match s.cb.reverse.find? fun l => abutOf (l.granule * 64) == abut with
    | none => s
    | some l => { s.cbWriteBack l with cb := s.cb.filter fun x => x.granule != l.granule }

/-- An operation has touched a granule in its Abutment (R203, R225). -/
def State.touch (s : State) (id g : Nat) : State :=
  if s.touched.contains (id, g) then s else { s with touched := (id, g) :: s.touched }

/-- The line of an element's granule brought to the front, allocated when there is none: read from memory
unless the operation writes every byte of the granule (R201). -/
def State.cbTouch (s : State) (id a : Nat) (load : Bool) : State :=
  let g := a / 64
  let s := (s.abutBump64 R.abutCbLookupLo a).touch id g
  match s.cb.find? fun l => l.granule == g with
  | some l =>
    let l' := { l with users := if l.users.contains id then l.users else l.users ++ [id] }
    { s with cb := l' :: s.cb.filter fun x => x.granule != g }
  | none =>
    let s := (s.cbRoom (abutOf a)).abutBump64 R.abutCbMissLo a
    let l : CbLine :=
      { granule := g, data := if load then s.rd (g * 64) 64 else zeros 64
        poison := load && s.poisoned (g * 64) 64, dirty := false, users := [id] }
    { s with cb := l :: s.cb }

/-- Bytes of a granule as an Abutment sees them, its line before memory, and whether they are poisoned. -/
def State.granule (s : State) (g : Nat) : Bytes × Bool :=
  match s.cb.find? fun l => l.granule == g with
  | some l => (l.data, l.poison)
  | none => (s.rd (g * 64) 64, s.poisoned (g * 64) 64)

/-- Bytes [a, a + n) as the Abutments see them, and whether any is poisoned. -/
def State.seen (s : State) (a n : Nat) : Bytes × Bool :=
  let u := unitsOf 64 a n
  let gs := (List.range u.2).map fun i => s.granule (u.1 + i)
  (sub ((gs.map (·.1)).flatten) (a - u.1 * 64) n, gs.any (·.2))

/-- Bytes of one granule written where the Abutment sees them: its line, or memory. -/
def State.putGranule (s : State) (a : Nat) (bs : Bytes) (poison : Bool) : State :=
  let g := a / 64
  if s.cb.any fun l => l.granule == g then
    { s with cb := s.cb.map fun l =>
        if l.granule = g then
          { l with data := put l.data (a % 64) bs, dirty := true
                   poison := poison || (l.poison && bs.length != 64) }
        else l }
  else s.wrP poison a bs

/-- Bytes written where the Abutments see them. -/
def State.putSeen (s : State) (a : Nat) (bs : Bytes) (poison : Bool) : State :=
  let u := unitsOf 64 a bs.length
  (List.range u.2).foldl (fun s i =>
    let lo := max a ((u.1 + i) * 64)
    let hi := min (a + bs.length) ((u.1 + i + 1) * 64)
    s.putGranule lo (sub bs (lo - a) (hi - lo)) poison) s

/-- An element of w bytes read by an operation: a 4-byte one through its granule's line (R201). A poisoned word of a line
reads as uncorrectable and is counted (R33, R34). -/
def State.abLoad (s : State) (id a w : Nat) : (Nat × Bool) × State :=
  let s := if w = 4 then s.cbTouch id a true else s.touch id (a / 64)
  let (bs, p) := s.seen a w
  let s := if p && s.cb.any (fun l => l.granule == a / 64) then s.countUe (.coalesce (abutOf a)) (a / 16) else s
  ((leNat bs, p), s)

/-- Elements of w bytes read in order. -/
def State.abLoads (s : State) (id a w : Nat) : Nat → List (Nat × Bool) × State
  | 0 => ([], s)
  | n + 1 =>
    let (l, s) := State.abLoads s id a w n
    let (x, s) := s.abLoad id (a + w * n) w
    (l ++ [x], s)

/-- One output element of w bytes stored by an operation whose whole output is bytes [lo, hi). ABUT_POISON_OUT counts
elements: no rule says how wide its words are (DESIGN CHOICE, log entry 114). -/
def State.abStore (s : State) (id lo hi a w v : Nat) (poison : Bool) : State :=
  let s := if poison then s.abutBump R.abutPoisonOut a else s
  let g := a / 64 * 64
  if w = 4 then
    (s.cbTouch id a (!(decide (lo ≤ g ∧ g + 64 ≤ hi)))).putGranule a (toLE w v) poison
  else (s.touch id (a / 64)).putGranule a (toLE w v) poison

/-- Output elements (value, poisoned) of w bytes stored from an address: 4-byte ones through their lines,
narrower ones as one run whose granules that hold a poisoned element are marked. -/
def State.abStores (s : State) (id a w : Nat) (xs : List (Nat × Bool)) : State :=
  let hi := a + w * xs.length
  if w = 4 then
    xs.zipIdx.foldl (fun s p => s.abStore id a hi (a + w * p.2) w p.1.1 p.1.2) s
  else
    let u := unitsOf 64 a (w * xs.length)
    let s := (List.range u.2).foldl (fun (s : State) i => s.touch id (u.1 + i)) s
    let s := s.putSeen a ((xs.map fun x => toLE w x.1).flatten) false
    xs.zipIdx.foldl (fun s p => if p.1.2 then s.abStore id a hi (a + w * p.2) w p.1.1 true else s) s

/-- Values for poisoned outputs: contents no rule gives, drawn free. -/
def State.freeFor (s : State) (w : Nat) : List (Nat × Bool) → List (Nat × Bool) × State
  | [] => ([], s)
  | (v, false) :: t =>
    let (r, s) := s.freeFor w t
    ((v, false) :: r, s)
  | (_, true) :: t =>
    let (bs, s) := s.freeBytes w
    let (r, s) := s.freeFor w t
    ((leNat bs, true) :: r, s)

/-- CLEAR: +0 over every word of bytes [a, a + 4 n), a granule covered whole without being read (R179, R201). -/
def State.cbClear (s : State) (id a n : Nat) : State :=
  (List.range n).foldl (fun s i =>
    let g := (a + 4 * i) / 64 * 64
    let whole := decide (a ≤ g ∧ g + 64 ≤ a + 4 * n)
    let s := s.cbTouch id (a + 4 * i) (!whole)
    let s := s.putGranule (a + 4 * i) (zeros 4) false
    if whole then { s with cb := s.cb.map fun l => if l.granule * 64 = g then { l with poison := false } else l }
    else s) s

/-- ABUT_CTRL (R202, R225): CB_FLUSH writes back every dirty line of the Abutment, which stay valid; CLEAR
clears its counters. -/
def abutControl (abut : BitVec 3) (v : Word) (s : State) : State :=
  let n := abut.toNat
  let mine (l : CbLine) : Bool := abutOf (l.granule * 64) == n
  let s := if v.getLsbD 1 then
      let s := (s.cb.filter mine).foldl (fun s l => s.cbWriteBack l) s
      { s with cb := s.cb.map fun l => if mine l then { l with dirty := false } else l }
    else s
  if v.getLsbD 0 then ((s.zeroRegs (0x68 + n) 0x50 0x88).setReg (R.abutFlush n) 0) else s

/-! ### ATOMIC_MAX (R206-R208) -/

/-- One cell's new value (R207): its encoding, its flushes, and whether it is non-finite. -/
def maxCell (cell operand : Nat) : Nat × Nat × Bool :=
  let (c, cf) := decodeF .fp32 cell
  let (o, of) := decodeF .fp32 operand
  let m := c.max o
  (encodeF .fp32 m, b2n cf + b2n of, !m.isFin)

/-- What applying operands to cells gives: the status, the lowest non-finite cell. -/
structure MaxDone where
  status : Nat
  nf     : Option Nat
  deriving DecidableEq, Repr

/-- Operands (value, poisoned) carried over the fabric to the Abutments beside the addresses that they go to, each in a
word of its own (R24, R31): a poisoned one arrives poisoned and is counted (R33, R34), and a flip that waits strikes the
next of its crossing. -/
def State.crossAll (s : State) (at' : Nat → Nat) (xs : List (Nat × Bool)) : List (Nat × Bool) × State :=
  if s.upsets.isEmpty && xs.all (fun x => !x.2) then (xs, s)
  else xs.zipIdx.foldl (fun (acc : List (Nat × Bool) × State) x =>
    let n := abutOf (at' x.2)
    if x.1.2 then (acc.1 ++ [x.1], acc.2.countUe (.crossing n) 0)
    else
      let (r, s) := acc.2.cross n x.1.1
      (acc.1 ++ [(r.1 % 2 ^ 32, r.2)], s)) ([], s)

/-- Operands applied to cells from an address (R207, R208), after their crossing (R24). -/
def State.maxCells (s : State) (id dst : Nat) (ops : List (Nat × Bool)) : MaxDone × State :=
  let (ops, s) := s.crossAll (fun j => dst + 4 * j) ops
  let (cells, s) := s.abLoads id dst 4 ops.length
  let out := (cells.zip ops).map fun p => (maxCell p.1.1 p.2.1, p.1.2 || p.2.2)
  let (vals, s) := s.freeFor 4 (out.map fun o => (o.1.1, o.2))
  let s := vals.zipIdx.foldl (fun s p =>
    let a := dst + 4 * p.2
    let s := s.putGranule a (toLE 4 p.1.1) p.1.2
    let s := if p.1.2 then s.abutBump R.abutPoisonOut a else s
    s.abutBump R.abutMaxOps a) s
  let s := out.zipIdx.foldl (fun s p => s.abutBump R.abutFlush (dst + 4 * p.2) p.1.1.2.1) s
  let nf := leastOf ((out.zipIdx.filter fun p => p.1.1.2.2 && !p.1.2).map (·.2))
  (⟨if out.any (·.2) then 0x50 else 0, nf⟩, s)

/-- The operands of an ATOMIC_MAX descriptor. -/
def State.maxOperands (s : State) (d : Desc) : List (Nat × Bool) :=
  let src := opd d 0x20 8
  if opBit d 0x38 0 then [(opd d 0x20 4, false)]
  else (List.range (opBits d 0x36 2 12 0)).map fun j => (leNat (s.rd (src + 4 * j) 4), s.poisoned (src + 4 * j) 4)

/-- The checks of R208. -/
def maxBad (d : Desc) : Bool :=
  let n := opBits d 0x36 2 12 0
  let inline := opBit d 0x38 0
  decide (opd d 0x28 8 % 4 ≠ 0 ∨ n = 0 ∨ 4096 < n) || (inline && n != 1) ||
  (!inline && opd d 0x20 8 % 4 != 0)

/-- A local ATOMIC_MAX (R207, R208). It waits for the Abutments of its cells. -/
def startMaxLocal (l : Live) (s : State) : State :=
  let d := l.desc
  let n := opBits d 0x36 2 12 0
  let dst := opd d 0x28 8
  if maxBad d then s.endWith l 0x23
  else s.abutGate l [(dst, 4 * n)] fun s =>
    let (r, s) := s.maxCells l.id dst (s.maxOperands d)
    s.finish l ⟨r.status, n, 0, r.nf⟩

/-! ### RESCALE (R209, R210) -/

/-- One output of RESCALE: its code, whether it saturated, and its flushes. -/
def rescaleOut (out sin sout : Nat) (acc : Int) : Nat × Bool × Nat :=
  match VFmt.ofCode out with
  | .int8 | .int4 =>
    let w := (VFmt.ofCode out).width
    let big := 2 ^ (w - 1) - 1
    let (q, sat) := match rescaleMag (rescaleOf sin sout) acc.natAbs with
      | none => (big, true)
      | some m => if big < m then (big, true) else (m, false)
    (signedCode w (decide (acc < 0)) q, sat, 0)
  | f =>
    let q := quantBy (mulExact (.ofInt acc) (scaleVal sin)) .one f true 16 0
    (q.code, q.overflow, b2n q.vanished)

/-- RESCALE (FUNC 0). It waits for the Abutments it reaches. A scale's own flush counts at the Abutment of the first
output (R45, log entry 112). -/
def startRescale (l : Live) (s : State) : State :=
  let d := l.desc
  let src := opd d 0x20 8
  let dst := opd d 0x28 8
  let sin := opd d 0x30 4
  let sout := opd d 0x34 4
  let n := opd d 0x38 5
  let out := opBits d 0x3D 1 7 4
  let w := (VFmt.ofCode out).width
  if !([1, 2, 6, 8].contains out) then s.endWith l 0x70
  else if src % 64 ≠ 0 ∨ dst % 64 ≠ 0 ∨ n = 0 then s.endWith l 0x23
  else if scaleBad sin || (scaleBad sout && decide (out < 6)) then s.endWith l 0x10
  else s.abutGate l [(src, 4 * n), (dst, ceilDiv (n * w) 8)] fun s =>
    let (ins, s) := s.abLoads l.id src 4 n
    let outs := ins.map fun x => (rescaleOut out sin sout (int32Of x.1), x.2)
    let good := outs.map fun o => if o.2 then (0, 0) else (b2n o.1.2.1, o.1.2.2)
    let s := good.zipIdx.foldl (fun s p =>
      let a := dst + w * p.2 / 8
      (s.abutBump R.abutRescaleSat a p.1.1).abutBump R.abutFlush a p.1.2) s
    let s := s.abutBump R.abutFlush dst (scaleFlush sin + if out < 6 then scaleFlush sout else 0)
    let (vals, s) := s.freeFor 4 (outs.map fun o => (o.1.1, o.2))
    let s :=
      if out = 2 then
        let s := s.putSeen dst (packCodes 4 (vals.map fun v => v.1 % 16)) false
        vals.zipIdx.foldl (fun s p =>
          if p.1.2 then
            let a := dst + p.2 / 2
            (s.putGranule a (s.seen a 1).1 true).abutBump R.abutPoisonOut a
          else s) s
      else s.abStores l.id dst (w / 8) vals
    s.endWith l (if outs.any (·.2) then 0x50 else 0)

/-! ### DOT (R211-R213) -/

/-- The operand formats DOT permits (R211). -/
def dotFmt (f : Nat) : Bool := [1, 4, 5, 6, 7, 8, 10].contains f

/-- An integer operand format. -/
def dotInt (f : Nat) : Bool := f == 1 || f == 10

/-- The five sums of DOT. -/
structure DotSums where
  ab : Pair
  a  : Pair
  b  : Pair
  aa : Pair
  bb : Pair
  deriving DecidableEq, Repr

/-- All at (+0, +0). -/
def DotSums.zero : DotSums := ⟨.zero, .zero, .zero, .zero, .zero⟩

/-- One element's terms added (R212). -/
def DotSums.add (s : DotSums) (mode : Nat) (a b : FV) : DotSums :=
  let x := toE8M10 mode a
  let y := toE8M10 mode b
  ⟨s.ab.add (mulF x y).1, s.a.add a, s.b.add b, s.aa.add (mulF x x).1, s.bb.add (mulF y y).1⟩

/-- A later tile's sums merged in. -/
def DotSums.merge (s t : DotSums) : DotSums :=
  ⟨s.ab.merge t.ab, s.a.merge t.a, s.b.merge t.b, s.aa.merge t.aa, s.bb.merge t.bb⟩

/-- An exact integer sum as a pair (R212). -/
def intPair (x : Int) : Pair := ⟨(rnd32 (.ofInt x)).1, .zero⟩

/-- The sums over elements (R212). -/
def dotSums (ints : Bool) (mode fa fb za zb : Nat) (els : List (Nat × Nat)) : DotSums :=
  let av (c : Nat) := (codeValue (VFmt.ofCode fa) c za).1
  let bv (c : Nat) := (codeValue (VFmt.ofCode fb) c zb).1
  if ints then
    let xs := els.map fun e => (codeInt (VFmt.ofCode fa) e.1 za, codeInt (VFmt.ofCode fb) e.2 zb)
    ⟨intPair (xs.map fun e => e.1 * e.2).sum, intPair (xs.map (·.1)).sum, intPair (xs.map (·.2)).sum,
     intPair (xs.map fun e => e.1 * e.1).sum, intPair (xs.map fun e => e.2 * e.2).sum⟩
  else
    let tiles := (List.range (ceilDiv els.length 4096)).map fun t => (els.drop (4096 * t)).take 4096
    tiles.foldl (fun s t => s.merge
      (t.foldl (fun (p : DotSums) e => p.add mode (av e.1) (bv e.2)) .zero)) .zero

/-- The DOT record (R212). -/
def dotRecord (r : DotSums) (n : Nat) (ints : Bool) (nf : Option Nat) : Bytes :=
  r.ab.bytes ++ r.a.bytes ++ r.b.bytes ++ r.aa.bytes ++ r.bb.bytes ++ toLE 5 n ++ toLE 1 (b2n ints) ++ zeros 2 ++
  toLE 5 (nf.getD 0) ++ toLE 1 (b2n nf.isSome) ++ zeros 10

/-- DOT (FUNC 1). It waits for the Abutments it reaches. A poisoned record counts as its sixteen words of 4 bytes (log
entry 114). -/
def startDot (l : Live) (s : State) : State :=
  let d := l.desc
  let a := opd d 0x20 8
  let b := opd d 0x28 8
  let dst := opd d 0x30 8
  let n := opd d 0x38 4
  let fa := opBits d 0x3E 1 7 4
  let fb := opBits d 0x3E 1 3 0
  let zpMode := opBits d 0x3F 1 5 4
  let ints := dotInt fa && dotInt fb
  let wa := (VFmt.ofCode fa).width / 8
  let wb := (VFmt.ofCode fb).width / 8
  if !dotFmt fa || !dotFmt fb || decide (2 ≤ zpMode) || (zpMode == 1 && !ints) then s.endWith l 0x70
  else if a % 64 ≠ 0 ∨ b % 64 ≠ 0 ∨ dst % 64 ≠ 0 ∨ n = 0 ∨ (ints ∧ 2 ^ 28 < n) then s.endWith l 0x23
  else s.abutGate l [(a, wa * n), (b, wb * n), (dst, 64)] fun s =>
    let (as, s) := s.abLoads l.id a wa n
    let (bs, s) := s.abLoads l.id b wb n
    let za := if fa = 10 then opd d 0x3C 1 else 0
    let zb := if fb = 10 then opd d 0x3D 1 else 0
    let va (x : Nat × Bool) := codeValue (VFmt.ofCode fa) x.1 za
    let vb (x : Nat × Bool) := codeValue (VFmt.ofCode fb) x.1 zb
    let bad := as.any (·.2) || bs.any (·.2)
    let nf := leastOf (((as.zip bs).zipIdx.filter fun p =>
      (!p.1.1.2 && !(va p.1.1).1.isFin) || (!p.1.2.2 && !(vb p.1.2).1.isFin)).map (·.2))
    let s := as.zipIdx.foldl (fun s p => s.abutBump R.abutFlush (a + wa * p.2) (b2n (va p.1).2)) s
    let s := bs.zipIdx.foldl (fun s p => s.abutBump R.abutFlush (b + wb * p.2) (b2n (vb p.1).2)) s
    let sums := dotSums ints (opBits d 0x3F 1 3 3) fa fb za zb ((as.zip bs).map fun p => (p.1.1, p.2.1))
    let (junk, s) := if bad then s.freeBytes 64 else (dotRecord sums n ints nf, s)
    let s := s.putSeen dst junk bad
    let s := if bad then s.abutBump R.abutPoisonOut dst 16 else s
    s.finish l ⟨if bad then 0x50 else 0, 0, 0, nf⟩

end Sys2Proof.Machine
end

