-- ==== Sys2Proof/Machine/Update.lean ====
section
/-! DEFINITION. UPDATE (R215-R224) and the choice between RESCALE and DOT by FUNC (R209). -/

namespace Sys2Proof.Machine

/-- The function of opcode 0x20 (R209): FUNC 2 and 3 give FORMAT_VERSION. -/
def startFunc (l : Live) (s : State) : State :=
  match opBits l.desc 0x3F 1 7 6 with
  | 0 => startRescale l s
  | 1 => startDot l s
  | _ => s.endWith l 0x70

/-! ### The update record (R216) -/

/-- An update record. -/
structure UpdRec where
  gSrc    : Nat
  wFmt    : Nat
  recipe  : Nat
  mFmt    : Nat
  vFmt    : Nat
  fp32In  : Nat
  srBits  : Nat
  det     : Bool
  vZp     : Nat
  stream  : Nat
  length  : Nat
  base    : Nat
  wAddr   : Nat
  wLo     : Nat
  mAddr   : Nat
  vAddr   : Nat
  gAddr   : Nat
  tile    : Nat
  nSpans  : Nat
  hyper   : List Nat
  mScale  : Nat
  vScale  : Nat
  mAmax   : Nat
  vAmax   : Nat
  amaxStep : Nat
  deriving DecidableEq, Repr

/-- The record spelled by 256 bytes (R216). -/
def parseUpd (b : Bytes) : UpdRec :=
  let n (off len : Nat) := leAt b off len
  { gSrc := bits (n 0 1) 5 4, wFmt := bits (n 0 1) 3 2, recipe := bits (n 0 1) 1 0
    mFmt := bits (n 1 1) 7 4, vFmt := bits (n 1 1) 3 0
    fp32In := bits (n 2 1) 3 3, srBits := bits (n 2 1) 2 1, det := bit (n 2 1) 0, vZp := n 3 1
    stream := bits (n 4 4) 21 0, length := n 8 5, base := n 0x10 5, wAddr := n 0x18 8, wLo := n 0x20 8
    mAddr := n 0x28 8, vAddr := n 0x30 8, gAddr := n 0x38 8, tile := n 0x40 8, nSpans := n 0x48 4
    hyper := (List.range 9).map fun i => n (0x50 + 4 * i) 4
    mScale := n 0x80 4, vScale := n 0x84 4, mAmax := n 0x88 4, vAmax := n 0x8C 4, amaxStep := n 0x90 4 }

/-- The recipe uses the first moment. -/
def UpdRec.usesM (u : UpdRec) : Bool := u.recipe != 0

/-- The recipe uses the second moment. -/
def UpdRec.usesV (u : UpdRec) : Bool := u.recipe == 2

/-- The first moment is narrow. -/
def UpdRec.narrowM (u : UpdRec) : Bool := u.mFmt == 1

/-- The second moment is narrow. -/
def UpdRec.narrowV (u : UpdRec) : Bool := u.vFmt == 10

/-- Hyperparameter n of R216 (LR 0, WD 1, BETA1 2, OMB1 3, BETA2 4, OMB2 5, C1 6, C2 7, EPS2 8). -/
def UpdRec.hp (u : UpdRec) (n : Nat) : FV := (decodeF .e8m10 (nth u.hyper n 0)).1

/-- The hyperparameters a recipe uses (R221). -/
def UpdRec.usedHp (u : UpdRec) : List Nat :=
  match u.recipe with
  | 0 => [0, 1]
  | 1 => [0, 1, 2]
  | 2 => [0, 1, 2, 3, 4, 5, 6, 7, 8]
  | _ => [0, 1, 2, 3, 4, 5]

/-- Width in bytes of a weight word (the high half under W_FMT 0). -/
def UpdRec.wWidth (u : UpdRec) : Nat := if u.wFmt = 1 then 4 else 2

/-- Width in bytes of a dense gradient element. -/
def UpdRec.gWidth (u : UpdRec) : Nat := if u.gSrc = 0 then 4 else 2

/-- Width in bytes of a moment. -/
def fmtBytes (f : Nat) : Nat := (VFmt.ofCode f).width / 8

/-- Order 1 of R219. -/
def UpdRec.formatBad (u : UpdRec) (pass : Nat) : Bool :=
  u.wFmt == 3 || u.gSrc == 3 || !([0, 1, 6, 8].contains u.mFmt) || !([0, 6, 8, 10].contains u.vFmt) ||
  u.srBits == 3 || (u.usesM != (u.mFmt != 0)) || (u.usesV != (u.vFmt != 0)) || pass == 3 ||
  (pass == 0 && (u.narrowM || u.narrowV)) || ((pass == 1 || pass == 2) && !(u.narrowM || u.narrowV))

/-- Order 2 of R219. -/
def UpdRec.boundsBad (u : UpdRec) (recAddr pass : Nat) : Bool :=
  decide (recAddr % 64 ≠ 0 ∨ u.wAddr % 64 ≠ 0 ∨ (u.wFmt = 0 ∧ u.wLo % 64 ≠ 0) ∨ (u.usesM ∧ u.mAddr % 64 ≠ 0) ∨
    (u.usesV ∧ u.vAddr % 64 ≠ 0) ∨ u.gAddr % (if u.gSrc = 2 then 8 else 64) ≠ 0 ∨ u.tile % 8 ≠ 0 ∨
    u.length = 0 ∨ 2 ^ 40 < u.base + u.length ∨ (u.gSrc = 2 ∧ (u.nSpans = 0 ∨ 65536 < u.nSpans)) ∨
    (pass ≠ 0 ∧ u.narrowV ∧ u.vZp = 255))

/-- Order 4 of R219 over the words of the record that are not poisoned: a poisoned one is left to order 5 (R35, R224). -/
def UpdRec.nonfiniteBut (u : UpdRec) (pass : Nat) (bad : Nat → Bool) : Bool :=
  u.usedHp.any (fun n => scaleBad (nth u.hyper n 0) && !bad (0x50 + 4 * n)) ||
  (u.narrowM && scaleBad u.mScale && !bad 0x80) || (u.narrowV && scaleBad u.vScale && !bad 0x84) ||
  (pass == 2 && ((u.narrowM && scaleBad u.mAmax && !bad 0x88) || (u.narrowV && scaleBad u.vAmax && !bad 0x8C)))

/-- Order 4 of R219 of a record none of whose words is poisoned. -/
def UpdRec.nonfinite (u : UpdRec) (pass : Nat) : Bool := u.nonfiniteBut pass fun _ => false

/-- The flushes of reading what a pass takes from the record (R45): the hyperparameters that the recipe uses, the scales
of narrow moments, and in pass 2 their amaxes. -/
def UpdRec.flushes (u : UpdRec) (pass : Nat) : Nat :=
  let amax (w : Nat) : Nat := if pass = 2 then b2n (decodeF .fp32 w).2 else 0
  ((u.usedHp.map fun n => scaleFlush (nth u.hyper n 0))).sum +
  (if u.narrowM then scaleFlush u.mScale + amax u.mAmax else 0) +
  (if u.narrowV then scaleFlush u.vScale + amax u.vAmax else 0)

/-! ### Spans of a step -/

/-- The first failure of orders 6 to 9 of R219: its status, and the span and place it is logged at. -/
structure UpdFail where
  status : Nat
  span   : SpanData
  off    : Nat
  base   : Nat
  logged : Bool
  deriving DecidableEq, Repr

/-- Orders 6 to 8 over the spans of a step, each order over every span in turn (R219). -/
def spanFail (a : Accept) (u : UpdRec) (step : Nat) (spans : List SpanData) : Option UpdFail :=
  let order6 := spans.findSome? fun d =>
    if d.addr % 64 ≠ 0 then some ⟨0x23, d, 0, 0, false⟩
    else match checkSpanHdr a d with
      | some st => some ⟨st, d, 0, 0, true⟩
      | none => none
  let order7 := spans.findSome? fun d =>
    let h := parseSpanHdr d.raw
    if !h.owner ∨ 1 < h.mode ∨ (h.fmt ≠ 1 ∧ h.fmt ≠ 2) then some (UpdFail.mk 0x70 d 0 0 true) else none
  let order8 := spans.findSome? fun d =>
    let h := parseSpanHdr d.raw
    if h.step ≠ step ∨ h.length < u.base + u.length then some (UpdFail.mk 0x23 d 0 0 true) else none
  order6.or (order7.or order8)

/-- A span with its blocks as read, each with the Pier that decoded it. -/
structure ReadSpan where
  span   : SpanData
  blocks : List (ReadBlock × Nat)

/-- The spans of a step read, each block by a Pier of its own (R155). -/
def State.readSpans : List SpanData → State → List ReadSpan × State
  | [], s => ([], s)
  | d :: t, s =>
    let (a, ps, s) := s.pickPiers 2 d
    let (l, s) := State.readSpans t s
    (⟨d, (readBlocks a d).zip ps⟩ :: l, s)

/-- The blocks of a step's spans in order, up to and with the first that is rejected (order 9 of R219). -/
def uptoReject : List (SpanData × ReadBlock × Nat) → List (SpanData × ReadBlock × Nat)
  | [] => []
  | x :: t => match x.2.1.res with
    | .ok _ => x :: uptoReject t
    | .error _ => [x]

/-- The status of the rejected block, when one is. -/
def rejectOf (l : List (SpanData × ReadBlock × Nat)) : Option Nat :=
  l.findSome? fun x => match x.2.1.res with
    | .ok _ => none
    | .error st => some st

/-- An entry of a span that an UPDATE applies: its place, its span's place in the table, and its term code x
SCALE with whether the product was flushed (R218), and whether it arrived poisoned (R24). -/
structure GradTerm where
  j      : Nat
  span   : Nat
  term   : FV
  flush  : Bool
  poison : Bool
  deriving DecidableEq, Repr

/-- The terms of a step's spans, in table order within each element (R218). -/
def gradTerms (u : UpdRec) (spans : List ReadSpan) : List GradTerm :=
  let all := (spans.zipIdx.map fun p =>
    let h := parseSpanHdr p.1.span.raw
    (p.1.blocks.map fun b => match b.1.res with
      | .ok es => es.filterMap fun e =>
          if u.base ≤ e.1 ∧ e.1 < u.base + u.length then
            let (t, f) := dequantBy (VFmt.ofCode h.fmt) e.2 (scaleVal h.scale)
            some (GradTerm.mk (e.1 - u.base) p.2 t f false)
          else none
      | .error _ => []).flatten).flatten
  sortAsc 40 (·.j) all

/-- The terms carried over the fabric to the Abutments of their elements (R24). -/
def State.crossTerms (s : State) (u : UpdRec) (ts : List GradTerm) : List GradTerm × State :=
  if s.upsets.isEmpty then (ts, s)
  else
    let places := ts.map fun t => u.wAddr + u.wWidth * t.j
    let (xs, s) := s.crossAll (fun i => nth places i 0) (ts.map fun t => (encodeF .fp32 t.term, false))
    ((ts.zip xs).map fun p =>
      if encodeF .fp32 p.1.term = p.2.1 ∧ !p.2.2 then p.1
      else { p.1 with term := (decodeF .fp32 p.2.1).1, poison := p.2.2 }, s)

/-- The terms of one element and the rest, from terms in element order. -/
def takeTerms (j : Nat) (ts : List GradTerm) : List GradTerm × List GradTerm :=
  let here := ts.takeWhile fun t => t.j == j
  (here, ts.drop here.length)

/-- Extra spans that name an element (R218 DUP). -/
def dupsOf (ts : List GradTerm) : Nat :=
  let ids := ts.foldl (fun (l : List Nat) t => if l.contains t.span then l else l ++ [t.span]) []
  ids.length - 1

/-! ### Arithmetic (R220) -/

/-- A value with the flushes of forming it. -/
structure FN where
  v : FV
  n : Nat
  deriving DecidableEq, Repr

/-- floor of the square root, found bit by bit below 2^k. -/
def isqrt (k x : Nat) : Nat :=
  (List.range k).reverse.foldl (fun r b => if (r + 2 ^ b) * (r + 2 ^ b) ≤ x then r + 2 ^ b else r) 0

/-- rsqrt (R220). -/
def rsqrt (x : FV) : FV :=
  match x with
  | .nan => .nan
  | .inf true => .nan
  | .inf false => .zero
  | .fin s m e =>
    if m = 0 then .inf false
    else if s then .nan
    else
      -- m x 2^e with e even; 1 / sqrt = 2^(-e/2) / sqrt m
      let m' := if e % 2 = 0 then m else 2 * m
      let e' := if e % 2 = 0 then e else e - 1
      let k := 32 + Nat.log2 m'
      let q := isqrt (k + 1) (2 ^ (2 * k) / m')
      let sticky := b2n (q * q * m' != 2 ^ (2 * k))
      (rnd32 (.fin false (2 * q + sticky) (-(e' / 2) - k - 1))).1

/-- sgn (R220). -/
def sgn (x : FV) : FV :=
  match x with
  | .nan => .nan
  | .inf n => if n then FV.one.neg else .one
  | .fin s m _ => if m = 0 then .zero else if s then FV.one.neg else .one

/-- mul of R220, with its flush. -/
def umul (mode : Nat) (a b : FV) : FN :=
  let (v, f) := mulF (toE8M10 mode a) (toE8M10 mode b)
  ⟨v, b2n f⟩

/-- add of R220. -/
def uadd (a b : FV) : FN :=
  let (v, f) := addF a b
  ⟨v, b2n f⟩

/-- sub of R220. -/
def usub (a b : FV) : FN :=
  let (v, f) := subF a b
  ⟨v, b2n f⟩

/-- The state of one element and the flushes met so far. -/
structure WMV where
  w : FV
  m : FV
  v : FV
  n : Nat
  deriving DecidableEq, Repr

/-- One element of UPDATE's arithmetic (R221). -/
def updArith (u : UpdRec) (w m v g : FV) : WMV :=
  let mul := umul u.fp32In
  let wd := mul (u.hp 1) w
  let w1 := usub w wd.v
  let n := wd.n + w1.n
  match u.recipe with
  | 0 =>
    let st := mul (u.hp 0) g
    let w2 := usub w1.v st.v
    ⟨w2.v, m, v, n + st.n + w2.n⟩
  | 1 =>
    let bm := mul (u.hp 2) m
    let m' := uadd bm.v g
    let st := mul (u.hp 0) m'.v
    let w2 := usub w1.v st.v
    ⟨w2.v, m'.v, v, n + bm.n + m'.n + st.n + w2.n⟩
  | 2 =>
    let bm := mul (u.hp 2) m
    let og := mul (u.hp 3) g
    let m' := uadd bm.v og.v
    let bv := mul (u.hp 4) v
    let gg := mul g g
    let ogg := mul (u.hp 5) gg.v
    let v' := uadd bv.v ogg.v
    let mh := mul m'.v (u.hp 6)
    let vh := mul v'.v (u.hp 7)
    let d := uadd vh.v (u.hp 8)
    let st := mul mh.v (rsqrt d.v)
    let lu := mul (u.hp 0) st.v
    let w2 := usub w1.v lu.v
    ⟨w2.v, m'.v, v'.v, n + bm.n + og.n + m'.n + bv.n + gg.n + ogg.n + v'.n + mh.n + vh.n + d.n + st.n + lu.n + w2.n⟩
  | _ =>
    let bm := mul (u.hp 2) m
    let og := mul (u.hp 3) g
    let c := uadd bm.v og.v
    let st := mul (u.hp 0) (sgn c.v)
    let w2 := usub w1.v st.v
    let b2m := mul (u.hp 4) m
    let o2g := mul (u.hp 5) g
    let m' := uadd b2m.v o2g.v
    ⟨w2.v, m'.v, v, n + bm.n + og.n + c.n + st.n + w2.n + b2m.n + o2g.n + m'.n⟩

/-! ### Loads and stores (R217, R222) -/

/-- A loaded value, its flushes, and saturations counted on reading it. -/
structure Loaded where
  v   : FV
  n   : Nat
  ovf : Nat
  deriving DecidableEq, Repr

/-- A moment's load (R222). -/
def loadMoment (fmt code zp scale : Nat) : Loaded :=
  match VFmt.ofCode fmt with
  | .int8 =>
    let (p, f) := mulF (.ofInt (codeInt .int8 code 0)) (scaleVal scale)
    ⟨p, b2n f, b2n (code == 0x80)⟩
  | .u8zp =>
    let (p, f) := mulF (.ofInt (codeInt .u8zp code zp)) (scaleVal scale)
    ⟨p, b2n f, 0⟩
  | .none => ⟨.zero, 0, 0⟩
  | f =>
    let (v, fl) := decodeF f code
    ⟨v, b2n fl, 0⟩

/-- A store: its encoding and counts. -/
structure StoreOut where
  code : Nat
  ovf  : Nat
  van  : Nat
  nf   : Bool
  deriving DecidableEq, Repr

/-- A store of a format (R222): `rand` is its draw, `scale` the scale of a narrow moment. -/
def storeVal (u : UpdRec) (fmt : Nat) (scale zp rand : Nat) (v : FV) : StoreOut :=
  let f := VFmt.ofCode fmt
  match v with
  | .fin vs vm ve =>
    if f = .fp32 then ⟨encodeF .fp32 v, 0, 0, false⟩
    else
      let r := srR u.srBits
      let q := match f, scaleVal scale with
        | .bf16, _ => quantise vs vm ve 1 0 .bf16 u.det r rand 0
        | f, .fin _ sm se => quantise vs vm ve sm se f u.det r rand zp
        | _, _ => ⟨0, false, false⟩
      ⟨q.code, b2n q.overflow, b2n q.vanished, false⟩
  | v => ⟨(nonFiniteCode f v zp).1, 0, 0, true⟩

/-- The scale of a narrow moment in pass 2 (R223): max of amax / d and 2^-126, rounded up. -/
def momentScale (amax d : Nat) : Nat :=
  match (decodeF .fp32 amax).1 with
  | .fin _ m e =>
    if m = 0 then encodeF .e8m10 (roundUpE8M10 1 (-126))
    else
      let (n, k) := quotSticky m e d 0
      encodeF .e8m10 (if dyGt 1 (-126) n k then roundUpE8M10 1 (-126) else roundUpE8M10 n k)
  | _ => 0

/-- One element's inputs as read: words and whether they are poisoned. -/
structure UpdIn where
  j    : Nat
  w    : Nat × Bool
  wLo  : Nat × Bool
  m    : Nat × Bool
  v    : Nat × Bool
  g    : Nat × Bool
  terms : List GradTerm
  deriving DecidableEq, Repr

/-- One element's outputs. -/
structure UpdOut where
  w    : Nat × Bool
  wLo  : Nat × Bool
  m    : Nat × Bool
  v    : Nat × Bool
  ovf  : Nat
  van  : Nat
  nf   : Bool
  calcNf : Bool
  mAbs : FV
  vAbs : FV
  dup  : Nat
  applied : Nat
  deriving DecidableEq, Repr

/-- The gradient of an element (R218), with its flushes. -/
def gradOf (u : UpdRec) (x : UpdIn) : FN :=
  if u.gSrc = 2 then
    x.terms.foldl (fun (a : FN) t =>
      let r := uadd a.v t.term
      ⟨r.v, a.n + r.n + b2n t.flush⟩) ⟨.zero, 0⟩
  else
    let (v, f) := decodeF (if u.gSrc = 0 then .fp32 else .bf16) x.g.1
    ⟨v, b2n f⟩

/-- One element of a pass (R221-R224). -/
def updElem (u : UpdRec) (pass seed step mS vS : Nat) (x : UpdIn) : UpdOut :=
  let i := u.base + x.j
  let draw (out : Nat) := trestleBits (srR u.srBits) seed step (out * 2 ^ 22 + u.stream) i
  let wEnc := if u.wFmt = 0 then x.w.1 * 2 ^ 16 + x.wLo.1 else x.w.1
  let (w, wf) := decodeF (if u.wFmt = 2 then .bf16 else .fp32) wEnc
  let g := gradOf u x
  let m := loadMoment (if u.usesM then u.mFmt else 0) x.m.1 0 u.mScale
  let v := loadMoment (if u.usesV then u.vFmt else 0) x.v.1 u.vZp u.vScale
  let r := updArith u w m.v v.v g.v
  let ws := storeVal u (if u.wFmt = 2 then 6 else 8) 0x3F800000 0 (draw 0) r.w
  let ms := storeVal u u.mFmt mS 0 (draw 1) r.m
  let vs := storeVal u u.vFmt vS u.vZp (draw 2) r.v
  let none' : StoreOut := ⟨0, 0, 0, false⟩
  let ms := if u.usesM then ms else none'
  let vs := if u.usesV then vs else none'
  let gBad := x.g.2 || x.terms.any (·.poison)
  let wBad := x.w.2 || x.wLo.2 || gBad || x.m.2 || x.v.2
  let mBad := x.m.2 || gBad
  let vBad := x.v.2 || gBad
  let stores := pass != 1
  let keep (b : Bool) (n : Nat) : Nat := if b then 0 else n
  { w := (if u.wFmt = 0 then ws.code / 2 ^ 16 else ws.code, wBad)
    wLo := (ws.code % 2 ^ 16, wBad), m := (ms.code, mBad), v := (vs.code, vBad)
    ovf := m.ovf + v.ovf + (if stores then keep wBad ws.ovf + keep mBad ms.ovf + keep vBad vs.ovf else 0)
    van := b2n wf + g.n + m.n + v.n + r.n +
      (if stores then keep wBad ws.van + keep mBad ms.van + keep vBad vs.van else 0)
    nf := stores && ((!wBad && ws.nf) || (u.usesM && !mBad && ms.nf) || (u.usesV && !vBad && vs.nf))
    calcNf := (!wBad && !r.w.isFin) || (u.usesM && !mBad && !r.m.isFin) || (u.usesV && !vBad && !r.v.isFin)
    mAbs := r.m.abs, vAbs := r.v.abs, dup := dupsOf x.terms, applied := x.terms.length }

/-- The inputs of elements j on, with their terms. -/
def withTerms : List UpdIn → List GradTerm → List UpdIn
  | [], _ => []
  | x :: t, ts =>
    let (here, rest) := takeTerms x.j ts
    { x with terms := here } :: withTerms t rest

/-- The reads of one pass (R217, R218): every element's state words. -/
def State.updReads (s : State) (id : Nat) (u : UpdRec) : List UpdIn × State :=
  let n := u.length
  let no : List (Nat × Bool) := []
  let (w, s) := s.abLoads id u.wAddr u.wWidth n
  let (wLo, s) := if u.wFmt = 0 then s.abLoads id u.wLo 2 n else (no, s)
  let (m, s) := if u.usesM then s.abLoads id u.mAddr (fmtBytes u.mFmt) n else (no, s)
  let (v, s) := if u.usesV then s.abLoads id u.vAddr (fmtBytes u.vFmt) n else (no, s)
  let (g, s) := if u.gSrc ≠ 2 then s.abLoads id u.gAddr u.gWidth n else (no, s)
  let z := (0, false)
  (w.zipIdx.map fun p =>
    ⟨p.2, p.1, nth wLo p.2 z, nth m p.2 z, nth v p.2 z, nth g p.2 z, []⟩, s)

/-- One tensor's outputs stored, poisoned ones with contents no rule gives (R224). -/
def State.updStore (s : State) (id a w : Nat) (xs : List (Nat × Bool)) : State :=
  let (vals, s) := s.freeFor w xs
  s.abStores id a w vals

/-- The tile records (R214, R216). -/
def State.writeTiles (s : State) (u : UpdRec) (outs : List UpdOut) : State :=
  if u.tile = 0 then s
  else
    let recs := (List.range (ceilDiv outs.length 4096)).map fun t =>
      let nfs := ((((outs.drop (4096 * t)).take 4096).zipIdx.filter (·.1.nf)).map fun p => u.base + 4096 * t + p.2)
      match leastOf nfs with
      | some i => toLE 8 (2 ^ 63 + i)
      | none => zeros 8
    s.wr u.tile recs.flatten

/-- The engine's words of the record after a pass (R216, R223). -/
def recordTail (u : UpdRec) (pass step mS vS : Nat) (mA vA : FV) : Bytes :=
  let p1 (narrow : Bool) (new : FV) (old : Nat) : Nat := if pass = 1 ∧ narrow then encodeF .fp32 new else old
  let p2 (narrow : Bool) (new old : Nat) : Nat := if pass = 2 ∧ narrow then new else old
  toLE 4 (p2 u.narrowM mS u.mScale) ++ toLE 4 (p2 u.narrowV vS u.vScale) ++ toLE 4 (p1 u.narrowM mA u.mAmax) ++
  toLE 4 (p1 u.narrowV vA u.vAmax) ++ toLE 4 (if pass = 1 then step else u.amaxStep)

/-- The amax of moments (R47, R223): the canonical NaN when any is non-finite. -/
def amaxOf (l : List FV) : FV := if l.any (!·.isFin) then .nan else l.foldl FV.max FV.zero

/-- One amax of pass 1 that a poisoned moment entered: written poisoned, its contents free (R224). -/
def State.poisonAmax (s : State) (a : Nat) : State :=
  let (junk, s) := s.freeBytes 4
  (s.putSeen a junk true).abutBump R.abutPoisonOut a

/-- A pass over the elements (R221-R224). `flushes` are those of the spans' scales, which VAN counts with the record's
own (R45, R216). -/
def State.updRun (s : State) (l : Live) (u : UpdRec) (recAddr pass step : Nat) (terms : List GradTerm) (flushes : Nat) :
    State :=
  let seed := l.seed.toNat
  let mS := if pass = 2 ∧ u.narrowM then momentScale u.mAmax 127 else u.mScale
  let vS := if pass = 2 ∧ u.narrowV then momentScale u.vAmax (255 - u.vZp) else u.vScale
  let (ins, s) := s.updReads l.id u
  let outs := (withTerms ins terms).map (updElem u pass seed step mS vS)
  let s :=
    if pass = 1 then s
    else
      let s := s.updStore l.id u.wAddr u.wWidth (outs.map (·.w))
      let s := if u.wFmt = 0 then s.updStore l.id u.wLo 2 (outs.map (·.wLo)) else s
      let s := if u.usesM then s.updStore l.id u.mAddr (fmtBytes u.mFmt) (outs.map (·.m)) else s
      let s := if u.usesV then s.updStore l.id u.vAddr (fmtBytes u.vFmt) (outs.map (·.v)) else s
      s.writeTiles u outs
  let s := outs.zipIdx.foldl (fun s p =>
    let a := u.wAddr + u.wWidth * p.2
    (s.abutBump64 R.abutUpdElemsLo a).abutBump R.abutUpdNf a (b2n p.1.nf)) s
  let bad := outs.any fun o => o.w.2
  let sat (f : UpdOut → Nat) : Nat := min ((outs.map f).sum) 0xFFFFFFFF
  let van := min ((outs.map (·.van)).sum + u.flushes pass + flushes) 0xFFFFFFFF
  let cnts := [sat (·.ovf), van, sat fun o => b2n o.nf, sat (·.dup), sat (·.applied)]
  let mA := amaxOf (outs.map (·.mAbs))
  let vA := amaxOf (outs.map (·.vAbs))
  let s := s.putSeen (recAddr + 0x80) (recordTail u pass step mS vS mA vA) false
  let s := s.putSeen (recAddr + 0x98) ((cnts.map (toLE 4)).flatten) false
  let s := if pass = 1 ∧ u.narrowM ∧ (outs.any fun o => o.m.2) then s.poisonAmax (recAddr + 0x88) else s
  let s := if pass = 1 ∧ u.narrowV ∧ (outs.any fun o => o.v.2) then s.poisonAmax (recAddr + 0x8C) else s
  let nf := leastOf ((outs.zipIdx.filter fun p => if pass = 1 then p.1.calcNf else p.1.nf).map fun p => u.base + p.2)
  s.finish l ⟨if bad then 0x50 else 0, 0, 0, nf⟩

/-- The ranges an UPDATE reaches: weights, moments and a dense gradient. -/
def UpdRec.ranges (u : UpdRec) : List (Nat × Nat) :=
  let n := u.length
  [(u.wAddr, u.wWidth * n)] ++ (if u.wFmt = 0 then [(u.wLo, 2 * n)] else []) ++
  (if u.usesM then [(u.mAddr, fmtBytes u.mFmt * n)] else []) ++
  (if u.usesV then [(u.vAddr, fmtBytes u.vFmt * n)] else []) ++
  (if u.gSrc = 2 then [] else [(u.gAddr, u.gWidth * n)])

/-- Orders 6 to 9 and the pass of an UPDATE that its Abutments, and the Piers that read its spans, may run (R155, R167,
R218, R219). -/
def State.updGo (s : State) (l : Live) (u : UpdRec) (a pass step : Nat) : State :=
  if u.gSrc = 2 then
    let spans := ((List.range u.nSpans).map fun i => s.rdN (u.gAddr + 8 * i) 8).map s.hostSpan
    match spanFail (s.accept 2) u step spans with
    | some f =>
      let s := if f.logged then s.logReject l.op f.status f.span f.off f.base else s
      s.endWith l f.status
    | none =>
      let (rs, s) := State.readSpans spans s
      let seen := uptoReject (rs.map fun r => r.blocks.map fun b => (r.span, b.1, b.2)).flatten
      let s := seen.foldl (fun (s : State) x => s.noteBlock l.op x.1 x.2.2 x.2.1) s
      match rejectOf seen with
      | some st => s.endWith l st
      | none =>
        let (terms, s) := s.crossTerms u (gradTerms u rs)
        s.updRun l u a pass step terms ((rs.map fun r => scaleFlush (parseSpanHdr r.span.raw).scale).sum)
  else s.updRun l u a pass step [] 0

/-- The counters of the last UPDATE zeroed at dispatch of one that waits (R216). -/
def State.updHold (s : State) (l : Live) (a : Nat) (record : Bytes) : State :=
  (s.putSeen (a + 0x98) (zeros 20) false).setPhase l.id (.update record)

/-- UPDATE (R215-R224). The record is read and checked at dispatch; the command waits for the Abutments it reaches, and
for a Pier that may read its spans. -/
def startUpdate (l : Live) (s : State) : State :=
  let d := l.desc
  let a := opd d 0x20 8
  let step := opd d 0x28 4
  let pass := opBits d 0x2C 1 1 0
  match l.phase with
  | .update record =>
    let u := parseUpd record
    s.abutGate l u.ranges fun s => if u.gSrc = 2 ∧ s.freePiers = [] then s else s.updGo l u a pass step
  | _ =>
    let record := s.rd a 256
    let u := parseUpd record
    if u.formatBad pass then s.endWith l 0x70
    else if u.boundsBad a pass then s.endWith l 0x23
    else if pass = 2 ∧ u.amaxStep ≠ step then s.endWith l 0x23
    else if u.nonfiniteBut pass fun off => s.poisoned (a + off) 4 then s.endWith l 0x10
    else if s.poisoned a 256 || (u.gSrc == 2 && s.poisoned u.gAddr (8 * u.nSpans)) then s.endWith l 0x50
    else if u.ranges.any fun r => s.abutsGone r.1 r.2 then s.endWith l 0x7F
    else if (u.ranges.all fun r => s.abutsFree r.1 r.2) && (u.gSrc != 2 || !s.freePiers.isEmpty) then
      s.updGo l u a pass step
    else s.updHold l a record

end Sys2Proof.Machine
end

