-- ==== Sys2Proof/Machine/P384.lean ====
section
/-! DEFINITION. ECDSA over P-384 (FIPS 186-5), which the image check of Falsework uses (R359).
PRESUMED: the published standard, log entry 18. -/

namespace Sys2Proof.Machine

/-- The prime of the curve. -/
def p384P : Nat := 2 ^ 384 - 2 ^ 128 - 2 ^ 96 + 2 ^ 32 - 1

/-- The order of its base point. -/
def p384N : Nat :=
  0xffffffffffffffffffffffffffffffffffffffffffffffffc7634d81f4372ddf581a0db248b0a77aecec196accc52973

/-- The coefficient b of y^2 = x^3 - 3 x + b. -/
def p384B : Nat :=
  0xb3312fa7e23ee7e4988e056be3f82d19181d9c6efe8141120314088f5013875ac656398d8a2ed19d2a85c8edd3ec2aef

/-- The base point. -/
def p384G : Nat × Nat :=
  (0xaa87ca22be8b05378eb1c71ef320ad746e1d3b628ba79b9859f741e082542a385502f25dbf55296c3a545e3872760ab7,
   0x3617de4a96262c6f5d9e98bf9292dc29f8f41dbd289a147ce9da3113b5f0b8c00a60b1ce1d7e819d7a431d7c90ea0e5f)

/-- a^e mod m, over the low `fuel` bits of e. -/
def powMod (fuel a e m : Nat) : Nat :=
  match fuel with
  | 0 => 1 % m
  | f + 1 =>
    let r := powMod f (a * a % m) (e / 2) m
    if e % 2 = 1 then r * a % m else r

/-- Inverse modulo a prime. -/
def invMod (a m : Nat) : Nat := powMod 384 (a % m) (m - 2) m

/-- A point in Jacobian coordinates; z = 0 is the point at infinity. -/
structure JPoint where
  x : Nat
  y : Nat
  z : Nat
  deriving DecidableEq, Repr

/-- a - b mod p. -/
def subP (a b : Nat) : Nat := (a + p384P - b % p384P) % p384P

/-- Twice a point. -/
def JPoint.dbl (q : JPoint) : JPoint :=
  if q.z = 0 ∨ q.y = 0 then ⟨1, 1, 0⟩
  else
    let y2 := q.y * q.y % p384P
    let s := 4 * q.x * y2 % p384P
    let z2 := q.z * q.z % p384P
    let m := 3 * (subP q.x z2) * (q.x + z2) % p384P
    let x := subP (m * m) (2 * s)
    let y := subP (m * subP s x) (8 * (y2 * y2 % p384P))
    ⟨x, y, 2 * q.y * q.z % p384P⟩

/-- The sum of two points. -/
def JPoint.add (a b : JPoint) : JPoint :=
  if a.z = 0 then b
  else if b.z = 0 then a
  else
    let za := a.z * a.z % p384P
    let zb := b.z * b.z % p384P
    let u1 := a.x * zb % p384P
    let u2 := b.x * za % p384P
    let s1 := a.y * (zb * b.z % p384P) % p384P
    let s2 := b.y * (za * a.z % p384P) % p384P
    if u1 = u2 then (if s1 = s2 then a.dbl else ⟨1, 1, 0⟩)
    else
      let h := subP u2 u1
      let r := subP s2 s1
      let h2 := h * h % p384P
      let h3 := h2 * h % p384P
      let v := u1 * h2 % p384P
      let x := subP (r * r) (h3 + 2 * v)
      let y := subP (r * subP v x) (s1 * h3)
      ⟨x, y, h * (a.z * b.z % p384P) % p384P⟩

/-- k times a point, over the low `fuel` bits of k. -/
def JPoint.mul (fuel k : Nat) (q : JPoint) : JPoint :=
  match fuel with
  | 0 => ⟨1, 1, 0⟩
  | f + 1 =>
    let r := JPoint.mul f (k / 2) q
    if k % 2 = 1 then r.dbl.add q else r.dbl

/-- Whether (r, s) is a valid signature of a 48-byte digest under the public key (x, y). -/
def ecdsaVerify (x y r s : Nat) (digest : Bytes) : Bool :=
  let onCurve := decide (x < p384P ∧ y < p384P ∧
    (y * y) % p384P = (x * x * x + (p384P - 3) * x + p384B) % p384P)
  let inRange := decide (0 < r ∧ r < p384N ∧ 0 < s ∧ s < p384N)
  if onCurve && inRange then
    let w := invMod s p384N
    let u1 := beNat digest * w % p384N
    let u2 := r * w % p384N
    let q := (JPoint.mul 384 u1 ⟨p384G.1, p384G.2, 1⟩).add (JPoint.mul 384 u2 ⟨x, y, 1⟩)
    if q.z = 0 then false
    else
      let zi := invMod q.z p384P
      decide ((q.x * (zi * zi % p384P) % p384P) % p384N = r)
  else false

end Sys2Proof.Machine
end

