-- ==== Sys2Proof/Machine/Aes.lean ====
section
/-! DEFINITION. AES-256 in Galois/counter mode (FIPS 197, NIST SP 800-38D), which the transport uses
(R270). PRESUMED: the published standards that R12 names, log entry 18. -/

namespace Sys2Proof.Machine

/-- The S-box of AES, 32 entries a row, entry 0 least significant. -/
def aesSboxRows : List Nat :=
  [0xc072a49cafa2d4adf04759fa7dc982ca76abd7fe2b670130c56f6bf27b777c63,
   0x75b227ebe28012079a059618c323c7041531d871f1e5a534ccf73f362693fdb7,
   0xcf584c4a39becb6a5bb1fc20ed00d153842fe329b3d63b52a05a6e1b1a2c8309,
   0xd2f3ff1021dab6bcf5389d928f40a351a89f3c507f02f94585334d43fbaaefd0,
   0xdb0b5ede14b8ee4688902a22dc4f816073195d643d7ea7c41744975fec130ccd,
   0x08ae7a65eaf4566ca94ed58d6d37c8e779e4959162acd3c25c2406490a3a32e0,
   0x9e1dc186b95735610ef6034866b53e708a8bbd4b1f74dde8c6b4a61c2e2578ba,
   0x16bb54b00f2d99416842e6bf0d89a18cdf2855cee9871e9b948ed9691198f8e1]

/-- One S-box lookup. -/
def aesSbox (x : Nat) : Nat := (nth aesSboxRows (x / 32) 0 >>> (8 * (x % 32))) % 256

/-- Doubling in GF(2^8). -/
def aesX2 (a : Nat) : Nat := if 128 ≤ a then ((2 * a) % 256) ^^^ 0x1B else 2 * a

/-- XOR of two equally long lists. -/
def xorL (a b : List Nat) : List Nat := List.zipWith (fun x y => x ^^^ y) a b

/-- The words of an AES-256 key schedule, newest first; n more words are added; i is the next index. -/
def aesExpand : Nat → Nat → Nat → List (List Nat) → List (List Nat)
  | 0, _, _, w => w
  | n + 1, i, rcon, w =>
    let t := nth w 0 []
    let old := nth w 7 []
    if i % 8 = 0 then
      let r := (t.drop 1 ++ t.take 1).map aesSbox
      aesExpand n (i + 1) (aesX2 rcon) (xorL old (xorL r [rcon, 0, 0, 0]) :: w)
    else if i % 8 = 4 then aesExpand n (i + 1) rcon (xorL old (t.map aesSbox) :: w)
    else aesExpand n (i + 1) rcon (xorL old t :: w)

/-- Lists of k elements. -/
def groupsOf (k n : Nat) (l : List Nat) : List (List Nat) :=
  (List.range n).map fun i => (l.drop (i * k)).take k

/-- The 15 round keys of 16 bytes. -/
def aesKeys (key : Bytes) : List (List Nat) :=
  let w0 := groupsOf 4 8 (key.map BitVec.toNat)
  groupsOf 16 15 ((aesExpand 52 8 1 w0.reverse).reverse).flatten

/-- ShiftRows on a state stored column by column. -/
def aesShift (s : List Nat) : List Nat :=
  (List.range 16).map fun i => nth s ((i + 4 * (i % 4)) % 16) 0

/-- MixColumns of one column. -/
def aesMixCol (c : List Nat) : List Nat :=
  let a := nth c 0 0
  let b := nth c 1 0
  let d := nth c 2 0
  let e := nth c 3 0
  [aesX2 a ^^^ aesX2 b ^^^ b ^^^ d ^^^ e, a ^^^ aesX2 b ^^^ aesX2 d ^^^ d ^^^ e,
   a ^^^ b ^^^ aesX2 d ^^^ aesX2 e ^^^ e, aesX2 a ^^^ a ^^^ b ^^^ d ^^^ aesX2 e]

/-- One AES-256 block encryption, with the round keys. -/
def aesBlock (keys : List (List Nat)) (blk : List Nat) : List Nat :=
  let s0 := xorL blk (nth keys 0 [])
  let s := ((keys.drop 1).take 13).foldl (fun s k =>
    xorL ((groupsOf 4 4 (aesShift (s.map aesSbox))).map aesMixCol).flatten k) s0
  xorL (aesShift (s.map aesSbox)) (nth keys 14 [])

/-- Multiplication in the field of GCM, n bits of x left; the first bit is the most significant. -/
def ghashMul : Nat → Nat → Nat → Nat → Nat
  | 0, _, _, z => z
  | n + 1, x, v, z =>
    let z := if x.testBit n then z ^^^ v else z
    let v := if v.testBit 0 then (v >>> 1) ^^^ (0xE1 <<< 120) else v >>> 1
    ghashMul n x v z

/-- GHASH of a run whose length is a multiple of 16. -/
def ghash (h : Nat) (bs : Bytes) : Nat :=
  (chunksOf 16 bs).foldl (fun y b => ghashMul 128 (y ^^^ beNat b) h 0) 0

/-- The counter-mode key stream XORed over a run of bytes, from counter c. -/
def gcmCtr (keys : List (List Nat)) (nonce : Bytes) (c : Nat) (bs : Bytes) : Bytes :=
  (((chunksOf 16 bs).zipIdx).map fun p =>
    let ks := aesBlock keys ((nonce ++ toBE 4 (c + p.2)).map BitVec.toNat)
    List.zipWith (fun (b : Byte) k => b ^^^ BitVec.ofNat 8 k) p.1 ks).flatten

/-- The 16-byte tag over associated data and ciphertext. -/
def gcmTag (keys : List (List Nat)) (nonce aad ct : Bytes) : Bytes :=
  let h := beNat ((aesBlock keys (List.replicate 16 0)).map (BitVec.ofNat 8))
  let g := ghash h (padTo 16 aad ++ padTo 16 ct ++ toBE 8 (8 * aad.length) ++ toBE 8 (8 * ct.length))
  gcmCtr keys nonce 1 (toBE 16 g)

/-- Encryption with a 12-byte nonce: ciphertext and tag. -/
def gcmSeal (key nonce aad pt : Bytes) : Bytes × Bytes :=
  let keys := aesKeys key
  let ct := gcmCtr keys nonce 2 pt
  (ct, gcmTag keys nonce aad ct)

/-- Decryption: the plaintext when the tag is right. -/
def gcmOpen (key nonce aad ct tag : Bytes) : Option Bytes :=
  let keys := aesKeys key
  if gcmTag keys nonce aad ct = tag then some (gcmCtr keys nonce 2 ct) else none

end Sys2Proof.Machine
end

