-- ==== Sys2Proof/Machine/Transport.lean ====
section
/-! DEFINITION. Connections and their streams (R248-R253), the protection of packets (R270-R273), sending,
acknowledging and resending (R267, R269), and the end of a connection (R252, R268, R277). -/

namespace Sys2Proof.Machine

/-! ### The state of a connection -/

/-- What the engine keeps of a connection beside its context, when nothing has been kept. -/
def blankConn (c : Nat) : ConnX := ⟨c, 0, false, 0, 0, false, false, false, false, 0, 0, [], []⟩

/-- What the engine keeps of a connection beside its context. -/
def State.connX (s : State) (c : Nat) : ConnX := (s.x.conns.find? fun x => x.conn == c).getD (blankConn c)

/-- What the engine keeps of a connection replaced. -/
def State.setConnX (s : State) (c : Nat) (f : ConnX → ConnX) : State :=
  let y := f (s.connX c)
  { s with x := { s.x with conns := s.x.conns.filter (fun x => x.conn != c) ++ [y] } }

/-- STATE of a connection (R249): 0 DOWN, 1 HELLO, 2 UP, 3 ENDED. -/
def State.connState (s : State) (c : Nat) : Nat := s.fld (connBase c) Conn.state

/-- The connections with ENABLE set, in order. -/
def State.enabledConns (s : State) : List Nat :=
  (s.ctx.filterMap fun p =>
    if 0x1000000 ≤ p.1 ∧ p.1 % 256 = 0 ∧ p.2.getLsbD 7 then some ((p.1 - 0x1000000) / 256) else none)

/-- The reorder window of a stream (R248). -/
def windowOf (control : Bool) : Nat := if control then 32 else 256

/-- Fields of the stream a packet belongs to. -/
def txNxt (control : Bool) : Fld := if control then Conn.txNxtC else Conn.txNxtD
/-- Oldest unacknowledged ESN of a stream. -/
def txUna (control : Bool) : Fld := if control then Conn.txUnaC else Conn.txUnaD
/-- Next ESN expected on a stream. -/
def rxExp (control : Bool) : Fld := if control then Conn.rxExpC else Conn.rxExpD
/-- Placement map of a stream. -/
def rxMap (control : Bool) : Fld := if control then Conn.rxMapC else Conn.rxMapD
/-- RNR wait of a stream. -/
def rnrOf (control : Bool) : Fld := if control then Conn.rnrC else Conn.rnrD
/-- Resend rounds of a stream. -/
def retryOf (control : Bool) : Fld := if control then Conn.retryC else Conn.retryD

/-- The extended number congruent to a 24-bit one within 2^23 of a reference (R250). -/
def extend (ref psn : Nat) : Int :=
  let lo : Int := (ref : Int) - 2 ^ 23
  lo + ((psn : Int) - lo) % 2 ^ 24

/-- The opcode may be carried at a level (R253, R255). -/
def levelAllows (level op : Nat) : Bool :=
  match level with
  | 1 => [0x01, 0x02, 0x03, 0x04, 0x08, 0x11, 0x12, 0x20, 0x21, 0x22].contains op
  | 2 => [0x01, 0x02, 0x03, 0x04, 0x05, 0x06, 0x07, 0x08, 0x10, 0x11, 0x12, 0x20, 0x21, 0x22].contains op
  | _ => false

/-! ### Protection (R270-R273) -/

/-- A key slot, when present. -/
def State.keySlot (s : State) (c : Nat) (rx phase : Bool) : Option Bytes :=
  (s.x.keys.find? fun k => decide (k.conn = c ∧ k.rx = rx ∧ k.phase = phase)).map (·.key)

/-- A key stored in a slot, or the slot emptied. -/
def State.setKey (s : State) (c : Nat) (rx phase : Bool) (key : Option Bytes) : State :=
  let rest := s.x.keys.filter fun k => !(decide (k.conn = c ∧ k.rx = rx ∧ k.phase = phase))
  { s with x := { s.x with keys := match key with
      | some k => rest ++ [⟨c, rx, phase, k⟩]
      | none => rest } }

/-- The 96-bit IV (R271). -/
def ivOf (conn : Nat) (higher stream space : Bool) (n : Nat) : Bytes :=
  toBE 12 ((conn % 32768) <<< 81 + b2n higher <<< 80 + b2n stream <<< 79 + b2n space <<< 78 + n % 2 ^ 48)

/-- The associated data of a packet: its header with VL and CE zero (R270). -/
def aadOf (p : Packet) : Bytes := pktHeader { p with vl := 0, ce := false }

/-- A packet sealed for sending on connection c, whose number in its space is n; none when its TX key is
absent. -/
def State.sealPkt (s : State) (c : Nat) (p : Packet) (space : Bool) (n : Nat) : Option Packet :=
  let b := connBase c
  let phase := s.flag b Conn.txPhase
  let p := { p with kp := phase }
  if !s.flag b Conn.cipher then some p
  else match s.keySlot c false phase with
    | none => none
    | some key =>
      let iv := ivOf c (decide (p.dst.toNat % 65536 < s.node)) p.stream space n
      let (ct, tag) := gcmSeal key iv (aadOf p) p.payload
      some { p with payload := ct, tag := tag }

/-- An arriving packet opened: its plain form, or none when its tag is wrong or its key absent (R272). -/
def State.openPkt (s : State) (c : Nat) (p : Packet) (space : Bool) (n : Nat) : Option Packet :=
  let b := connBase c
  if !s.flag b Conn.cipher then some p
  else match s.keySlot c true p.kp with
    | none => none
    | some key =>
      let iv := ivOf (s.fld b Conn.remoteConn) (decide (s.node < s.fld b Conn.remoteNode % 65536)) p.stream space n
      match gcmOpen key iv (aadOf p) p.payload p.tag with
      | some pt => some { p with payload := pt, tag := [] }
      | none => none

/-- REKEY_DUE set when PHASE_CNT has reached 2^30 (R273). -/
def State.rekeyCheck (s : State) (c : Nat) : State :=
  let b := connBase c
  if 2 ^ 30 ≤ s.fld b Conn.phaseCnt ∧ !s.flag b Conn.rekeyDue then
    (s.setFld b Conn.rekeyDue 1).raiseIrq 0x70 0x10
  else s

/-- A packet counted as sent under TX_PHASE (R249 PHASE_CNT) and by RMA_PKT_TX. -/
def State.countSent (s : State) (c : Nat) : State :=
  let b := connBase c
  let s := s.bump64 R.rmaPktTxLo
  let k := (s.connX c).pkts + 1
  if k < 65536 then s.setConnX c fun x => { x with pkts := k }
  else
    ((s.setConnX c fun x => { x with pkts := 0 }).setFld b Conn.phaseCnt
      (min (s.fld b Conn.phaseCnt + 1) 0xFFFFFFFF)).rekeyCheck c

/-! ### The transport log (R277) -/

/-- An entry of the log of AK_RMA. -/
def State.rmaLog (s : State) (status side node op conn key addr psn : Nat) : State :=
  (s.putLog16 R.rmaLogCnt R.rmaLogHead (R.rmaLog 0)
    [status * 2 ^ 24 + side * 2 ^ 23 + node % 2 ^ 20, op % 256 * 2 ^ 24 + conn % 32768, key % 2 ^ 32,
     addr / 2 ^ 32 % 65536, addr % 2 ^ 32, psn % 2 ^ 24, s.now % 2 ^ 32, s.now / 2 ^ 32]).raiseIrq 0x70 1

/-! ### The acknowledgement space -/

/-- The header of a packet on a connection (R254). -/
def State.connPkt (s : State) (c op : Nat) : Packet :=
  let b := connBase c
  { blankPkt with
    version := BitVec.ofNat 4 (s.fld b Conn.level), vl := 2, opcode := BitVec.ofNat 8 op
    dst := BitVec.ofNat 20 (s.fld b Conn.remoteNode), src := BitVec.ofNat 20 s.node
    conn := BitVec.ofNat 15 (s.fld b Conn.remoteConn) }

/-- The TX key of a connection has protected all it may: nothing new is sent until a switch (R273). -/
def State.worn (s : State) (c : Nat) : Bool := decide (2 ^ 31 ≤ s.fld (connBase c) Conn.phaseCnt)

/-- A packet of the acknowledgement space sent (R267, R271), unless the key is worn (R273). -/
def State.sendSpace (s : State) (c : Nat) (p : Packet) : State :=
  let b := connBase c
  let n := s.fld b Conn.ackTxSeq
  if s.worn c then s
  else match s.sealPkt c { p with psn := BitVec.ofNat 24 n } true n with
  | none => s
  | some p => ((s.setFld b Conn.ackTxSeq (n + 1)).countSent c).emit p

/-- The marks of a stream since the last acknowledgement cleared. -/
def ConnX.acked (x : ConnX) (control : Bool) : ConnX :=
  if control then { x with advC := 0, ceC := false } else { x with advD := 0, ceD := false }

/-- ESNs passed since the last acknowledgement. -/
def ConnX.adv (x : ConnX) (control : Bool) : Nat := if control then x.advC else x.advD

/-- A CE has arrived since the last acknowledgement. -/
def ConnX.ce (x : ConnX) (control : Bool) : Bool := if control then x.ceC else x.ceD

/-- ACK (R267), or NAK with its code and number. What has advanced stays to be acknowledged after a NAK, which frees
nothing at the sender. -/
def State.sendAck (s : State) (c : Nat) (control : Bool) (nak : Option (Nat × Nat) := none) : State :=
  let b := connBase c
  let p := s.connPkt c (if nak.isSome then 0x21 else 0x20)
  let p := { p with
    stream := control
    g0 := BitVec.ofNat 32 (s.fld b (rxExp control) % 2 ^ 24 + b2n ((s.connX c).ce control) * 2 ^ 31)
    g1 := match nak with
      | some (code, m) => BitVec.ofNat 32 (m % 2 ^ 24 + code * 2 ^ 24)
      | none => 0 }
  if s.worn c then s
  else match nak with
    | none => (s.sendSpace c p).setConnX c (·.acked control)
    | some (code, _) =>
      let s := s.bump R.rmaNakTx
      (if code = 1 then s.bump R.rmaRnrTx else s).sendSpace c p

/-- HELLO (R251). -/
def State.sendHello (s : State) (c : Nat) (seen : Bool) : State :=
  let b := connBase c
  s.sendSpace c { s.connPkt c 0x22 with
    version := 1, g0 := BitVec.ofNat 32 (b2n seen * 2 ^ 30)
    g2 := BitVec.ofNat 32 (s.fld b Conn.lvlMin + s.fld b Conn.lvlMax * 16 + c * 65536) }

/-! ### Sending -/

/-- Bytes of the outbound staging share in use: packed spans and kept packets (R29, R246, R267). -/
def State.usedOut (s : State) : Nat :=
  (s.q.packs.map fun p => (p.spans.map fun x => x.hdr.length + (x.blocks.map List.length).sum + x.outl.length).sum).sum +
  (s.x.kept.map fun k => pktSize k.pkt).sum

/-- A share of the span buffers in bytes (R247). -/
def State.share (s : State) (lo : Nat) : Nat := s.regBits R.qmgrSpanShare (lo + 7) lo * 2 ^ 20

/-- A message to send, before what its opcode needs is filled in. -/
def newMsg (conn : Nat) (control : Bool) (op len : Nat) (load : Load) : OutMsg :=
  { live := none, conn := conn, control := control, op := op, vl := if control then 2 else 0, prio := 16, key := 0
    addr := 0, channel := 0, seq := 0, reqPsn := 0, counter := 0, add := 0, remCtr := 0, ctrEn := false
    len := len, load := load, sent := 0, begun := false, poison := false }

/-- Bytes with those of each listed unit of k bytes zeroed; a is the address of the first (R266). -/
def zeroUnits (k a : Nat) (bs : Bytes) (bad : List Nat) : Bytes :=
  if bad.isEmpty then bs else bs.zipIdx.map fun p => if bad.contains ((a + p.2) / k) then 0 else p.1

/-- The next packet's part of a message: offset, bytes, poison (R255, R266); none when a RELAY has nothing to
forward yet. -/
def State.nextPart (s : State) (m : OutMsg) : Option (Nat × Bytes × Bool) :=
  let n := min 4096 (m.len - m.sent)
  match m.load with
  | .host a =>
    let bad := s.poisoned (a + m.sent) n
    some (m.sent, zeroUnits 64 (a + m.sent) (s.rd (a + m.sent) n) (if bad then s.memPoison else []), bad)
  | .data bs ws =>
    some (m.sent, zeroUnits 16 m.sent (sub bs m.sent n) ws, touches 16 m.sent n ws)
  | .pieces [] => none
  | .pieces (p :: _) => some (p.off, p.bytes, p.poison)

/-- Bytes 0x10-0x1F of a packet of a message (R255). -/
def OutMsg.words (m : OutMsg) (off : Nat) : Nat × Nat × Nat × Nat :=
  match m.op with
  | 0x01 | 0x06 => (m.key, m.addr % 2 ^ 32, m.addr / 2 ^ 32 % 65536 + m.remCtr * 65536, off)
  | 0x02 => (m.key, m.addr % 2 ^ 32, m.addr / 2 ^ 32 % 65536 + m.remCtr * 65536, m.add)
  | 0x04 | 0x05 | 0x10 | 0x11 =>
    (m.len, m.channel % 65536 + m.seq % 65536 * 65536, m.seq / 65536 % 65536 + m.remCtr * 65536, off)
  | 0x08 => (0, 0, 0, 0)
  | _ => (m.reqPsn, m.counter, m.add, if m.op = 0x03 then off else 0)

/-- The packet that carries a part of a message. -/
def State.msgPkt (s : State) (m : OutMsg) (part : Nat × Bytes × Bool) : Packet :=
  let w := m.words part.1
  { s.connPkt m.conn m.op with
    vl := BitVec.ofNat 3 m.vl, stream := m.control, first := !m.begun
    last := decide (m.len ≤ m.sent + part.2.1.length), poison := part.2.2, ctrEn := m.ctrEn
    g0 := BitVec.ofNat 32 w.1, g1 := BitVec.ofNat 32 w.2.1, g2 := BitVec.ofNat 32 w.2.2.1
    g3 := BitVec.ofNat 32 w.2.2.2, payload := part.2.1 }

/-- Nothing holds a new packet of a size on a stream (R263, R267, R273). -/
def State.maySend (s : State) (c : Nat) (control : Bool) (size : Nat) : Bool :=
  let b := connBase c
  s.connState c == 2 &&
  decide ((s.fld b (txNxt control) + 2 ^ 48 - s.fld b (txUna control)) % 2 ^ 48 < windowOf control) &&
  decide (s.usedOut + size ≤ s.share 0) && !s.worn c &&
  !s.flag b (rnrOf control) && s.deckRoom

/-- A RELAY whose message is complete here and forwarded whole completes (R195). -/
def State.relayCheck (s : State) (id : Nat) : State :=
  match s.q.live.find? fun l => l.id == id with
  | some l =>
    match l.phase with
    | .relay r =>
      if r.done && !(s.x.out.any fun m => m.live == some id) then
        s.endWith l (if r.poison then 0x50 else 0)
      else s
    | _ => s
  | none => s

/-- A job done: its descriptor ends when none of its other jobs is at work, with the first status found. -/
def State.jobDone (s : State) (j : Job) : State :=
  let rest := s.snap.jobs.filter (·.id != j.id)
  let s := { s with snap := { s.snap with jobs := rest } }
  match j.live with
  | none => s
  | some id =>
    match rest.find? (·.live == some id), s.q.live.find? (·.id == id) with
    | some k, _ =>
      let k' : Job := { k with status := j.status ++ k.status }
      { s with snap := { s.snap with jobs := rest.map fun x => if x.id = k.id then k' else x } }
    | none, some l => s.finish l ⟨(j.status.find? (· != 0)).getD 0, j.count, 0, none⟩
    | none, none => s

/-- A part of a snapshot without COMMIT, or the last record of an export, has all been handed to the port. -/
def State.jobHanded (s : State) (m : OutMsg) : State :=
  match s.snap.jobs.find? fun j => j.id == m.counter with
  | some j =>
    if (j.stage == .snapCopy || j.stage == .expCommit) &&
        !(s.x.out.any fun x => x.live.isNone && x.op == 0x01 && x.counter == j.id) then s.jobDone j
    else s
  | none => s

/-- What a message's descriptor does when its last byte has been handed to the port (R263, R266, R189, R195). A CTRL
SEND waits until its packet is acknowledged or refused (R275; DESIGN CHOICE, log entry 105). -/
def State.handed (s : State) (m : OutMsg) : State :=
  match m.live with
  | none => if m.op = 0x01 then s.jobHanded m else s
  | some id =>
    match s.q.live.find? fun l => l.id == id with
    | none => s
    | some l =>
      match l.phase with
      | .remote =>
        if m.op = 0x01 ∨ m.op = 0x04 then
          s.finish l ⟨if m.poison then 0x50 else 0, m.len, 0, none⟩
        else s
      | .relay _ => s.relayCheck id
      | .send r => if m.poison then s.setPhase id (.send { r with poisoned := true }) else s
      | .skipping status => if s.x.out.any fun y => y.live == some id then s else s.endWith l status
      | _ => s

/-- A request waits for its answer from its first packet on (R263, R264), and a CTRL SEND for its acknowledgement
(R275). -/
def State.noteAwait (s : State) (m : OutMsg) (esn : Nat) (poison : Bool) : State :=
  if !m.begun && [0x02, 0x06, 0x07, 0x08, 0x11].contains m.op then
    let last := if m.op = 0x06 then esn + ceilDiv m.len 4096 - 1 else esn
    let dest := if m.op = 0x02 then match m.load with
        | .host a => some a
        | _ => none
      else none
    let a : Await :=
      { live := m.live, job := if m.live.isNone then some m.counter else none, conn := m.conn, esn := last
        op := m.op, len := if m.op = 0x02 then m.add else m.len, got := 0, poison := poison && m.op == 0x11, dest := dest, buf := [] }
    { s with x := { s.x with awaits := s.x.awaits ++ [a] } }
  else s

/-- One packet of a message sent: sealed, kept, numbered, counted, and given to the Deck (R267). -/
def State.sendPart (s : State) (i : Nat) (m : OutMsg) (part : Nat × Bytes × Bool) : State :=
  let b := connBase m.conn
  let esn := s.fld b (txNxt m.control)
  match s.sealPkt m.conn { s.msgPkt m part with psn := BitVec.ofNat 24 esn } false esn with
  | none => s
  | some p =>
    let s := s.noteAwait m esn part.2.2
    let k : Kept := { conn := m.conn, control := m.control, esn := esn, pkt := p }
    let s := { s with x := { s.x with kept := s.x.kept ++ [k], lastChannels := modNth s.x.lastChannels m.prio (fun _ => m.channel) } }
    let s := ((s.setFld b (txNxt m.control) (esn + 1)).countSent m.conn).emit p
    let m' := { m with
      sent := m.sent + part.2.1.length, begun := true, poison := m.poison || part.2.2
      load := match m.load with
        | .pieces l => .pieces (l.drop 1)
        | x => x }
    if p.last then
      ({ s with x := { s.x with out := s.x.out.eraseIdx i } }).handed m'
    else { s with x := { s.x with out := modNth s.x.out i fun _ => m' } }

/-- The place of the message a stream sends next: the one begun, or the highest priority, channels in turn
(R197). -/
def State.nextMsg (s : State) (c : Nat) (control : Bool) : Option (Nat × OutMsg) :=
  let l := (s.x.out.zipIdx.map fun p => (p.2, p.1)).filter fun p => p.2.conn == c && p.2.control == control
  match l.find? fun p => p.2.begun with
  | some p => some p
  | none =>
    let rank (p : Nat × OutMsg) : Nat :=
      (16 - p.2.prio) * 65536 + (p.2.channel + 65535 - nth s.x.lastChannels p.2.prio 0 % 65536) % 65536
    l.foldl (fun best p => match best with
      | none => some p
      | some b => if rank p < rank b then some p else some b) none

/-- Packets of a stream sent while nothing holds them; n bounds how many. -/
def State.pumpStream (c : Nat) (control : Bool) : Nat → State → State
  | 0, s => s
  | n + 1, s =>
    match s.nextMsg c control with
    | none => s
    | some (i, m) =>
      match s.nextPart m with
      | none => s
      | some part =>
        if s.maySend c control (48 + part.2.1.length) then State.pumpStream c control n (s.sendPart i m part) else s

/-- What both streams of a connection may send is sent. -/
def State.pump (s : State) (c : Nat) : State :=
  State.pumpStream c false 257 (State.pumpStream c true 33 s)

/-- A message given to its connection, unless that has ended, or is UP at a LEVEL that does not carry it (R150, R253). -/
def State.post (s : State) (m : OutMsg) : State :=
  if s.connState m.conn = 3 ∨ (s.connState m.conn = 2 ∧ !levelAllows (s.fld (connBase m.conn) Conn.level) m.op) then s
  else ({ s with x := { s.x with out := s.x.out ++ [m] } }).pump m.conn

/-- The 32 bytes of a notice (R186). -/
def noticeBytes (kind status group channel seq step node base : Nat) : Bytes :=
  toLE 1 kind ++ toLE 1 status ++ toLE 2 group ++ toLE 2 channel ++ zeros 2 ++ toLE 4 seq ++ toLE 4 step ++
  toLE 3 node ++ zeros 1 ++ toLE 5 base ++ zeros 7

/-- A notice sent on a connection (R186, R255). -/
def State.notice (s : State) (c channel seq : Nat) (payload : Bytes) (live : Option Nat := none) : State :=
  s.post { newMsg c true 0x10 32 (.data payload []) with channel := channel, seq := seq, live := live }

/-- RESP (R262). -/
def State.respond (s : State) (c psn status op nf addr key : Nat) : State :=
  s.post { newMsg c true 0x12 16
    (.data (toLE 1 status ++ toLE 1 op ++ toLE 2 nf ++ zeros 2 ++ toLE 6 addr ++ toLE 4 key) []) with
    reqPsn := psn % 2 ^ 24 }

/-! ### The end of a connection -/

/-- A memory region's count of placements not yet visible lowered (R256). -/
def State.dropInflight (s : State) (p : Packet) : State :=
  if p.opcode.toNat = 0x06 then
    let b := regionBase (p.g0.toNat / 65536)
    s.setFld b Region.inflight (s.fld b Region.inflight - 1)
  else s

/-- The descriptor waits for something on a connection (R268): its operation, its relay, its job, or a notice
that an owner still owes. -/
def State.usesConn (s : State) (l : Live) (c : Nat) : Bool :=
  let at_ (off : Nat) : Bool := opBits l.desc off 2 14 0 == c
  match l.op with
  | 0x10 | 0x11 | 0x12 | 0x15 => at_ 0x38
  | 0x16 => opBit l.desc 0x35 7 && at_ 0x34
  | 0x43 => opBit l.desc 0x22 0 && at_ 0x28
  | 0x44 => at_ 0x2C || (opBit l.desc 0x2F 7 && at_ 0x2E)
  | 0x33 => at_ 0x2C || s.snap.jobs.any fun j => j.live == some l.id && j.conn == c
  | _ => s.snap.jobs.any fun j => j.live == some l.id && j.conn == c

/-- The member table names a connection for a rank (R169). -/
def State.memberOn (s : State) (g r c : Nat) : Bool :=
  s.rdN (s.fld (grpBase g) Grp.memberAddr + 8 * r + 4) 2 == 32768 + c

/-- A send role waits for a notice on a connection (R189, R268). -/
def State.owesOn (s : State) (l : Live) (c : Nat) : Bool :=
  match l.phase with
  | .send r => r.owners.any fun o => o.answer.isNone && s.memberOn r.group o.rank c
  | .skipping _ => s.x.out.any fun m => m.live == some l.id && m.conn == c
  | _ => false

/-- The entry of a Caisson whose SNAPSHOT is cut loses its open snapshot (R321). -/
def State.abandon (s : State) (e : Nat) : State :=
  let s := { s with snap := { s.snap with caissons := modNth s.snap.caissons e fun k =>
    { k with openAt := none, step := 0, off := 0, dir := [] } } }
  s.setRegBits (R.snapCStat e) 25 25 0

/-- A descriptor at work on Caissons ends: its jobs go, and the open snapshots of a SNAPSHOT (R321). -/
def State.endJobs (s : State) (l : Live) (status : Nat) : State :=
  let mine := s.snap.jobs.filter fun j => j.live == some l.id
  let s := if l.op = 0x30 then mine.foldl (fun s j => s.abandon j.entry) s else s
  let gone (j : Option Nat) : Bool := mine.any fun k => j == some k.id
  let s := { s with
    snap := { s.snap with jobs := s.snap.jobs.filter fun j => j.live != some l.id }
    x := { s.x with
      out := s.x.out.filter fun m => !(m.live.isNone && m.op != 0x10 && gone (some m.counter) && m.begun == false)
      awaits := s.x.awaits.filter fun a => !(gone a.job) } }
  s.endWith l status

/-- An outstanding descriptor ended because of a connection. -/
def State.endForConn (s : State) (l : Live) (c status : Nat) : State :=
  match l.phase with
  | .job => s.endJobs l status
  | .relay r =>
    let s := { s with x := { s.x with
      out := s.x.out.filter fun m => m.live != some l.id
      dropped := if r.begun && !r.done && opBits l.desc 0x2C 2 14 0 != c then
          (opBits l.desc 0x2C 2 14 0, l.desc.channel.toNat, l.desc.seq.toNat) :: s.x.dropped
        else s.x.dropped } }
    s.endWith l status
  | _ =>
    let s := { s with x := { s.x with
      out := s.x.out.filter fun m => m.live != some l.id
      awaits := s.x.awaits.filter fun a => a.live != some l.id } }
    s.endWith l status

/-- Descriptors that satisfy a test ended one after another, in order of dispatch. -/
def State.endAll (s : State) (test : State → Live → Bool) (f : State → Live → State) : State :=
  (s.q.live.map (·.id)).foldl (fun s id =>
    match s.q.live.find? fun l => l.id == id with
    | some l => if test s l then f s l else s
    | none => s) s

/-- The stream state of a connection thrown away: kept packets, partly placed messages, messages to send and
answers awaited (R252, R268). -/
def State.dropStreams (s : State) (c : Nat) : State :=
  let s := (s.x.rx.filter fun a => a.conn == c && !a.refused).foldl (fun s a => s.dropInflight a.pkt) s
  { s with x := { s.x with
    kept := s.x.kept.filter (·.conn != c)
    rx := s.x.rx.filter (·.conn != c)
    out := s.x.out.filter (·.conn != c)
    awaits := s.x.awaits.filter (·.conn != c)
    conns := s.x.conns.filter (·.conn != c)
    flushes := s.x.flushes.filter (·.conn != c)
    dropped := s.x.dropped.filter (·.1 != c) } }

/-- The descriptors that a connection ends (R268). A send role ends too, unless firmware declared the peer
lost: then R189 says when it ends. -/
def State.endUsers (s : State) (c status : Nat) (declared : Bool) : State :=
  let used := s.q.live.filter fun l => s.usesConn l c || (!declared && s.owesOn l c)
  used.foldl (fun s l =>
    if s.q.live.any (·.id == l.id) then s.endForConn l c status else s) s

/-- The arming of an entry ends: its STATE becomes REFUSED with a REASON (R314). -/
def State.refuseEntry (s : State) (e status : Nat) : State :=
  let s := { s with snap := { s.snap with jobs := s.snap.jobs.filter fun j => !(j.live.isNone && j.entry == e) } }
  (s.setRegBits (R.snapCStat e) 31 29 3).setRegBits (R.snapCStat e) 7 0 status

/-- A connection ends (R268, R277): once. -/
def State.endConn (s : State) (c status op psn : Nat) (declared : Bool := false) : State :=
  let b := connBase c
  if s.connState c = 1 ∨ s.connState c = 2 then
    let s := (s.setFld b Conn.state 3).setFld b Conn.endStatus status
    let s := if s.regBit R.rmaConnErr 31 then s else s.setReg R.rmaConnErr (2 ^ 31 + status * 2 ^ 23 + c)
    let s := s.raiseIrq 0x70 2
    let s := s.rmaLog status 0 (s.fld b Conn.remoteNode) op c 0 0 psn
    let s := s.endUsers c status declared
    let s := (s.snap.jobs.filter fun j => j.live.isNone && j.conn == c).foldl (fun (s : State) j =>
      s.refuseEntry j.entry status) s
    s.dropStreams c
  else s

end Sys2Proof.Machine
end

