-- ==== Sys2Proof/Machine/Remote.lean ====
section
/-! DEFINITION. The operations that a descriptor asks of a connection (R263, R264): WRITE, READ, SEND, FLUSH,
the remote forms of ATOMIC_MAX (R206-R208) and COUNTER_ADD (R240), and RELAY (R194, R195). -/

namespace Sys2Proof.Machine

/-- The checks of a descriptor's connection at dispatch in order (R263): FORMAT_VERSION at a level that forbids
the packet opcode, BOUNDS when not enabled, END_STATUS when ENDED. -/
def State.connCheck (s : State) (c op : Nat) : Option Nat :=
  let b := connBase c
  if s.connState c = 2 ∧ !levelAllows (s.fld b Conn.level) op then some 0x70
  else if !s.flag b Conn.enable then some 0x23
  else if s.connState c = 3 then some (s.fld b Conn.endStatus)
  else none

/-- The contexts of the connections that an operation needs are read and checked (R31): false, UNCORRECTABLE (R244). -/
def State.useConns (s : State) (l : List Nat) : Bool × State :=
  l.foldl (fun (r : Bool × State) c =>
    let (ok, t) := r.2.ctxUse (connBase c) 256
    (r.1 && ok, t)) (true, s)

/-- A message of a descriptor: the descriptor waits, and the message is given to the connection. -/
def State.postFor (s : State) (l : Live) (m : OutMsg) : State :=
  (s.setPhase l.id .remote).post { m with live := some l.id, prio := l.desc.prio.toNat }

/-- Operands of R263. -/
structure MoveOps where
  localAddr  : Nat
  remoteAddr : Nat
  key        : Nat
  len        : Nat
  ctrl       : Bool
  conn       : Nat
  remCtr     : Nat
  ctrEn      : Bool
  deriving DecidableEq, Repr

/-- The operands of WRITE, READ, SEND and FLUSH (R263). -/
def moveOps (d : Desc) : MoveOps :=
  { localAddr := opd d 0x20 8, remoteAddr := opd d 0x28 6, key := opd d 0x30 4, len := opd d 0x34 4
    ctrl := opBit d 0x39 7, conn := opBits d 0x38 2 14 0, remCtr := opd d 0x3A 2, ctrEn := opBit d 0x3C 7 }

/-- The packet opcode of a descriptor of R263. -/
def moveOpcode (op : Nat) (ctrl : Bool) : Nat :=
  match op with
  | 0x10 => 0x01 | 0x11 => 0x02 | 0x12 => if ctrl then 0x11 else 0x04 | _ => 0x08

/-- The checks of R263 at dispatch, in order. -/
def State.moveCheck (s : State) (op : Nat) (o : MoveOps) : Option Nat :=
  let b := connBase o.conn
  if s.connState o.conn = 2 ∧ !levelAllows (s.fld b Conn.level) (moveOpcode op o.ctrl) then some 0x70
  else if o.ctrEn && (op == 0x11 || op == 0x15) then some 0x70
  else if o.ctrl && op != 0x12 then some 0x70
  else if !s.flag b Conn.enable then some 0x23
  else if op ≠ 0x15 ∧ o.len = 0 then some 0x23
  else if o.ctrl && decide (4096 < o.len) then some 0x23
  else if s.connState o.conn = 3 then some (s.fld b Conn.endStatus)
  else none

/-- The message of a descriptor of R263. -/
def moveMsg (op : Nat) (d : Desc) (o : MoveOps) : OutMsg :=
  let pk := moveOpcode op o.ctrl
  let len := if pk = 0x02 ∨ pk = 0x08 then 0 else o.len
  { newMsg o.conn o.ctrl pk len (.host o.localAddr) with
    vl := if o.ctrl then 2 else 0, key := o.key, addr := o.remoteAddr, remCtr := o.remCtr
    ctrEn := o.ctrEn && (pk == 0x01 || pk == 0x04 || pk == 0x11)
    channel := d.channel.toNat, seq := d.seq.toNat, add := if pk = 0x02 then o.len else 0 }

/-- A descriptor of R263 started: it waits while its connection is in HELLO. -/
def startMove (op : Nat) (l : Live) (s : State) : State :=
  let o := moveOps l.desc
  let (ok, s) := s.useConns [o.conn]
  if !ok then s.endWith l 0x51
  else match s.moveCheck op o with
    | some status => s.endWith l status
    | none => if s.connState o.conn = 2 then s.postFor l (moveMsg op l.desc o) else s

/-- WRITE (R263). -/
def startWrite (l : Live) (s : State) : State := startMove 0x10 l s

/-- READ (R263). -/
def startRead (l : Live) (s : State) : State := startMove 0x11 l s

/-- SEND (R263). -/
def startSend (l : Live) (s : State) : State := startMove 0x12 l s

/-- FLUSH (R264). -/
def startFlush (l : Live) (s : State) : State := startMove 0x15 l s

/-- The operands of a remote ATOMIC_MAX as its message carries them, and the words of it that are poisoned. -/
def State.maxLoad (s : State) (d : Desc) : Load :=
  let ops := s.maxOperands d
  .data ((ops.map fun o => toLE 4 o.1).flatten)
    (((ops.zipIdx.filter fun p => p.1.2).map fun p => p.2 / 4).eraseDups)

/-- ATOMIC_MAX (R206-R208), local or remote. -/
def startMax (l : Live) (s : State) : State :=
  let d := l.desc
  if !opBit d 0x35 7 then startMaxLocal l s
  else
    let c := opBits d 0x34 2 14 0
    let (ok, s) := s.useConns [c]
    if maxBad d then s.endWith l 0x23
    else if !ok then s.endWith l 0x51
    else match s.connCheck c 0x06 with
      | some status => s.endWith l status
      | none =>
        if s.connState c = 2 then
          s.postFor l { newMsg c false 0x06 (4 * opBits d 0x36 2 12 0) (s.maxLoad d) with
            key := opd d 0x30 4, addr := opd d 0x28 6, channel := d.channel.toNat }
        else s

/-- COUNTER_ADD (R240), local or remote; UNCORRECTABLE for a counter entry or a connection that cannot be used (R244). -/
def startCounterAdd (l : Live) (s : State) : State :=
  let d := l.desc
  let c := opBits d 0x28 2 14 0
  let set := opBit d 0x22 1
  if !opBit d 0x22 0 then
    let (ok, s) := s.ctrTry (opd d 0x20 2) fun v => if set then opd d 0x24 4 else v + opd d 0x24 4
    s.endWith l (if ok then 0 else 0x51)
  else if set then s.endWith l 0x70
  else
    let (ok, s) := s.useConns [c]
    if !ok then s.endWith l 0x51
    else match s.connCheck c 0x07 with
      | some status => s.endWith l status
      | none =>
        if s.connState c = 2 then
          s.postFor l { newMsg c false 0x07 0 (.data [] []) with
            counter := opd d 0x20 2, add := opd d 0x24 4, channel := d.channel.toNat }
        else s

/-! ### RELAY (R194, R195) -/

/-- Operands of RELAY (R194). -/
structure RelayOps where
  dst     : Nat
  cap     : Nat
  inConn  : Nat
  fwd     : Bool
  outConn : Nat
  deriving DecidableEq, Repr

/-- The operands of a RELAY descriptor. -/
def relayOps (d : Desc) : RelayOps :=
  { dst := opd d 0x20 8, cap := opd d 0x28 4, inConn := opBits d 0x2C 2 14 0
    fwd := opBit d 0x2F 7, outConn := opBits d 0x2E 2 14 0 }

/-- A RELAY's state replaced. -/
def State.setRelay (s : State) (id : Nat) (r : Relaying) : State := s.setPhase id (.relay r)

/-- The offset of a packet's payload in its message (R255). -/
def offOf (p : Packet) : Nat := p.g3.toNat

/-- MSG_LEN of a packet of group M (R255). -/
def msgLen (p : Packet) : Nat := p.g0.toNat

/-- A piece added to what a RELAY forwards. -/
def OutMsg.addPiece (m : OutMsg) (p : Piece) : OutMsg :=
  { m with load := match m.load with
      | .pieces ps => .pieces (ps ++ [p])
      | y => y }

/-- Why a RELAY's forwarding fails before it begins: the status a SEND on OUT_CONN would end with (R195, R263). -/
def State.forwardBad (s : State) (l : Live) : Option Nat :=
  let o := relayOps l.desc
  if o.fwd then s.connCheck o.outConn 0x04 else none

/-- A packet of a RELAY's message placed at DST_ADDR and given to its forwarding (R195, R266). When forwarding fails
as it begins, the RELAY ends, what is placed stays, and the rest of the message is not placed. -/
def State.relayPlace (s : State) (l : Live) (r : Relaying) (p : Packet) : State :=
  let o := relayOps l.desc
  let s := s.wrP p.poison (o.dst + offOf p) p.payload
  match (if r.begun then none else s.forwardBad l) with
  | some st =>
    let rest := (o.inConn, l.desc.channel.toNat, l.desc.seq.toNat)
    ({ s with x := { s.x with dropped := rest :: s.x.dropped } }).endWith l st
  | none =>
  let s := s.setRelay l.id { r with begun := true, poison := r.poison || p.poison }
  if !o.fwd then s
  else
    let piece : Piece := ⟨offOf p, p.payload, p.poison⟩
    let s :=
      if r.begun then
        { s with x := { s.x with
            out := s.x.out.map fun m => if m.live = some l.id then m.addPiece piece else m } }
      else
        let m : OutMsg :=
          { newMsg o.outConn false 0x04 (msgLen p) (.pieces [piece]) with
            live := some l.id, prio := l.desc.prio.toNat, channel := l.desc.channel.toNat
            seq := l.desc.seq.toNat }
        { s with x := { s.x with out := s.x.out ++ [m] } }
    s.pump o.outConn

/-- The RELAY of an outstanding descriptor that a SEND message on a connection matches (R195). -/
def State.relayFor (s : State) (c channel seq : Nat) : Option (Live × Relaying) :=
  s.q.live.findSome? fun l => match l.phase with
    | .relay r =>
      if (relayOps l.desc).inConn = c ∧ l.desc.channel.toNat = channel ∧ l.desc.seq.toNat = seq ∧ !r.done then
        some (l, r)
      else none
    | _ => none

/-- Packets of a message placed through a RELAY one after another. -/
def State.relayAll (s : State) (id : Nat) (ps : List Packet) : State :=
  ps.foldl (fun s p => match s.q.live.find? fun l => l.id == id with
    | some l => match l.phase with
      | .relay r => s.relayPlace l r p
      | _ => s
    | none => s) s

/-- The RELAY's local message is complete (R195). -/
def State.relayDone (s : State) (id : Nat) : State :=
  match s.q.live.find? fun l => l.id == id with
  | some l => match l.phase with
    | .relay r => (s.setRelay id { r with done := true }).relayCheck id
    | _ => s
  | none => s

/-- CHANNEL and SEQ of a packet of group M (R255). -/
def chanSeq (p : Packet) : Nat × Nat :=
  (p.g1.toNat % 65536, p.g1.toNat / 65536 + p.g2.toNat % 65536 * 65536)

/-- The counter that a completed message raises, when CTR_EN (R265) and the window holds it (order 9 of R259). -/
def State.ctrAllowed (s : State) (c ctr : Nat) : Bool :=
  let b := connBase c
  decide (s.fld b Conn.ctrBase ≤ ctr ∧ ctr < s.fld b Conn.ctrBase + s.fld b Conn.ctrCount)

/-- REM_CTR of a packet of group K or M (R255). -/
def remCtrOf (p : Packet) : Nat := p.g2.toNat / 65536

/-- An event record on a connection's EVENT_CQ (R261), taken only when a credit is free. -/
def State.eventRecord (s : State) (c status op count : Nat) : State :=
  s.headRecord (s.fld (connBase c) Conn.eventCq) ⟨status, count, 0, none⟩ op c false

/-- The descriptor opcode of a packet opcode (R261). -/
def descOpcode (op : Nat) : Nat :=
  match op with
  | 0x01 => 0x10 | 0x02 => 0x11 | 0x06 => 0x16 | 0x07 => 0x43 | _ => 0x12

/-- A refusal at orders 6 to 9 reported by the responder (R260): the log, the region's count, the event record,
the RESP, and, of the data stream, the status for its next FLUSH (R264). -/
def State.refuse (s : State) (c esn : Nat) (p : Packet) (status count : Nat) (region : Bool) : State :=
  let op := p.opcode.toNat
  let groupK := op = 0x01 ∨ op = 0x02 ∨ op = 0x06
  let key := if groupK then p.g0.toNat else 0
  let addr := if groupK then p.g1.toNat + p.g2.toNat % 65536 * 2 ^ 32 + (if op = 0x02 then 0 else p.g3.toNat) else 0
  let s := s.bump R.rmaViol
  let s := s.rmaLog status 1 (s.fld (connBase c) Conn.remoteNode) op c key addr p.psn.toNat
  let s := if region then s.bumpFld (regionBase (key / 65536)) Region.violCnt else s
  let s := s.eventRecord c status (descOpcode op) count
  let s := if p.stream then s else s.setConnX c fun x => { x with rxFails := x.rxFails ++ [(esn, status)] }
  s.respond c p.psn.toNat status op 0 addr key

/-- CTR_EN of a completed message (R265, order 9 of R259). -/
def State.raiseFor (s : State) (c esn : Nat) (p : Packet) : State :=
  if !p.ctrEn then s
  else if s.ctrAllowed c (remCtrOf p) then s.ctrAdd (remCtrOf p) 1
  else s.refuse c esn p 0x20 (remCtrOf p) (p.opcode.toNat == 0x01)

/-- A message that a RELAY cannot take because it is longer than CAP (R195): it is discarded, and the RELAY ends
with BOUNDS. -/
def State.relayTooLong (s : State) (l : Live) : State := s.endWith l 0x23

/-- A SEND message already held that a new RELAY matches: it is placed whole (R175, R195, R265). -/
def State.takeHeld (s : State) (l : Live) (h : HeldMsg) : State :=
  let s := { s with q := { s.q with msgs := s.q.msgs.erase h } }
  match h.pkts with
  | [] => s
  | p :: _ =>
    if (relayOps l.desc).cap < msgLen p then s.relayTooLong l
    else
      let raise (s : State) : State := match h.pkts.getLast? with
        | some q => s.raiseFor h.conn (extend (s.fld (connBase h.conn) (rxExp false)) q.psn.toNat).toNat q
        | none => s
      match s.forwardBad l with
      | some st =>
        let o := relayOps l.desc
        let s := h.pkts.foldl (fun (s : State) q => s.wrP q.poison (o.dst + offOf q) q.payload) s
        (raise s).endWith l st
      | none => (raise (s.relayAll l.id h.pkts)).relayDone l.id

/-- The packets of a message still arriving that a new RELAY matches. -/
def State.waitingPkts (s : State) (c channel seq : Nat) : List Arrived :=
  s.x.rx.filter fun a => decide (a.conn = c ∧ a.control = false ∧ a.pkt.opcode = 0x04 ∧ chanSeq a.pkt = (channel, seq)) && !a.placed

/-- Packets of a message still arriving placed through a RELAY. -/
def State.takeWaiting (s : State) (l : Live) (as : List Arrived) : State :=
  match as with
  | [] => s
  | a :: _ =>
    let ids := as.map (·.esn)
    let hit (y : Arrived) : Bool := decide (y.conn = a.conn ∧ y.control = false) && ids.contains y.esn
    let mark (s : State) : State :=
      { s with x := { s.x with rx := s.x.rx.map fun y => if hit y then { y with placed := true } else y } }
    if (relayOps l.desc).cap < msgLen a.pkt then
      let s := mark { s with x := { s.x with
        dropped := (a.conn, l.desc.channel.toNat, l.desc.seq.toNat) :: s.x.dropped } }
      s.relayTooLong l
    else (mark s).relayAll l.id (as.map (·.pkt))

/-- RELAY (R194, R195): it takes a message that waits for it, or waits for one. -/
def startRelay (l : Live) (s : State) : State :=
  let o := relayOps l.desc
  let ended (c : Nat) : Option Nat :=
    if s.connState c = 3 then some (s.fld (connBase c) Conn.endStatus) else none
  let (ok, s) := s.useConns (o.inConn :: if o.fwd then [o.outConn] else [])
  if o.dst % 64 ≠ 0 then s.endWith l 0x23
  else if !ok then s.endWith l 0x51
  else match ended o.inConn, (if o.fwd then ended o.outConn else none) with
    | some status, _ => s.endWith l status
    | none, some status => s.endWith l status
    | none, none =>
      let channel := l.desc.channel.toNat
      let seq := l.desc.seq.toNat
      let s := s.setRelay l.id ⟨false, false, false⟩
      match s.q.msgs.find? fun h => decide (h.conn = o.inConn ∧ h.channel = channel ∧ h.seq = seq) with
      | some h => s.takeHeld l h
      | none => s.takeWaiting l (s.waitingPkts o.inConn channel seq)

end Sys2Proof.Machine
end

