-- ==== Sys2Proof/Machine/Notices.lean ====
section
/-! DEFINITION. The sender's side of a reduction: retained blocks (R29, R112), their return to the residual
(R190), the notices that reach a sender (R188), and the end of a send role (R189). -/

namespace Sys2Proof.Machine

/-- Bytes of a span in the span buffers. -/
def Span.size (x : Span) : Nat := x.hdr.length + (x.blocks.map List.length).sum + x.outl.length

/-- Bytes of the retained share in use: retained spans and held-back chunks (R29, R112). -/
def State.usedRetain (s : State) : Nat :=
  (s.q.retained.map Span.size).sum + (s.q.held.map fun h => (h.blocks.map List.length).sum).sum

/-- A span fits the retained share (R29). -/
def State.retainRoom (s : State) (x : Span) : Bool := decide (s.usedRetain + x.size ≤ s.share 16)

/-! ### Returning blocks (R190) -/

/-- What the return of blocks came to: entries returned or discarded, entries for DROP_CNT, statuses of blocks
that failed. -/
structure Returned where
  count  : Nat
  drops  : Nat
  status : List Nat
  deriving DecidableEq, Repr

/-- Two results joined. -/
def Returned.join (a b : Returned) : Returned := ⟨a.count + b.count, a.drops + b.drops, a.status ++ b.status⟩

/-- The value that a packed code stands for (R190): q x SCALE, or ±MAG x SCALE in sign and vote modes; and the flushes of
forming it (R45). -/
def returnValue (mode mag : Nat) (f : VFmt) (scale : FV) (code : Nat) : FV × Nat :=
  if mode = 2 ∨ mode = 3 then
    let (v, fl) := mulF (.ofInt mag) scale
    (if code = 0 then v else v.neg, b2n fl)
  else
    let (v, fl) := dequantBy f code scale
    (v, b2n fl + b2n (codeValue f code 0).2)

/-- A residual conversion to nearest even (R190): its code, and whether it overflowed or flushed. -/
def returnConvert (resFmt : Nat) (v : FV) (flushed : Bool) : Nat × Bool :=
  if resFmt = 6 then
    let q := quantBy v .one .bf16 true 16 0
    (q.code, flushed || q.overflow || q.vanished || !v.isFin)
  else
    let (w, fl) := rnd32 v
    (encodeF .fp32 w, flushed || fl || !w.isFin)

/-- What one addition to a residual element came to (R190): it overflowed or flushed, the element was poisoned, and the
flushes of reading it (R45). -/
structure ReturnedOne where
  lost   : Bool
  poison : Bool
  flush  : Nat
  deriving DecidableEq, Repr

/-- One value added to its residual element (R190). -/
def State.returnOne (s : State) (c : Stream) (lo i : Nat) (d : FV) : ReturnedOne × State :=
  let w := c.resWidth
  let a := c.resAddr + w * (i - lo)
  let (e, ef) := decodeF (VFmt.ofCode c.resFmt) (s.rdN a w)
  let (v, fl) := addF e d
  let (code, lost) := returnConvert c.resFmt v fl
  if s.poisoned a w then
    let (junk, s) := s.freeBytes w
    (⟨false, true, b2n ef⟩, s.wrPoison a junk)
  else (⟨lost, false, b2n ef⟩, s.wr a (toLE w code))

/-- The residual elements of a block whose word went bad, written poisoned (R190). -/
def State.returnBad (s : State) (c : Stream) (lo : Nat) (es : List Nat) : State :=
  es.foldl (fun (s : State) i =>
    let (junk, s) := s.freeBytes c.resWidth
    s.wrPoison (c.resAddr + c.resWidth * (i - lo)) junk) s

/-- The elements that a block names: the COUNT from its BASE. -/
def BlkHdr.named (b : BlkHdr) (len : Nat) : List Nat := ((List.range b.count).map (b.base + ·)).filter (· < len)

/-- Poisoned words of the span buffers read: each is uncorrectable and counted (R33, R34). Where in the buffers they lie
no rule says: a free value (DESIGN CHOICE, log entry 104). -/
def State.spanUe (s : State) (n : Nat) : State :=
  (List.range n).foldl (fun (s : State) _ =>
    let (g, s) := s.freeBytes 4
    s.countUe .span (leNat g)) s

/-- The Pier that reads a block back (R155): a free choice among those that may take work, or none when none may, and the
master tables serve (DESIGN CHOICE, log entry 115). -/
def State.returnPier (s : State) : Option Nat × State :=
  if s.freePiers.isEmpty then (none, s)
  else
    let (p, s) := s.takePier
    (some p, s)

/-- A count of a Pier, when there is one. -/
def State.atPier (s : State) (p : Option Nat) (f : Nat → State → State) : State :=
  match p with
  | some p => f p s
  | none => s

/-- One block read back under R137 and returned (R190): counted at its Pier (R167), logged when it is rejected (R156), and
its flushes counted there (R45); `bad` says that a word of it went bad. -/
def State.returnBlock (s : State) (c : Stream) (lo mode mag : Nat) (h : SpanHdr) (blk : Bytes) (bad : Bool) :
    Returned × State :=
  let (p, s) := s.returnPier
  let d : SpanData := ⟨zeros 64 ++ blk, if bad then [4] else [], 0⟩
  let tables := match p with
    | some p => s.pierTables p
    | none => s.q.tables
  let b := checkBlock ⟨2, [tables]⟩ { h with bytes := 64 + blk.length } d 0 64
  let n := b.hdr.count
  let s := s.atPier p fun p s => s.countDecode p b
  match b.res with
  | .error st =>
    let st := if bad then 0x50 else st
    let (at_, s) := s.freeBytes 4
    let s := s.tblLog ⟨st, h.node, 0x22, 2 ^ 63 + leNat at_ % 2 ^ 27, b.hdr.base, h.step, h.group, h.channel⟩
    if bad then (⟨n, 0, [st]⟩, (s.spanUe 1).returnBad c lo (b.hdr.named h.length)) else (⟨n, n, [st]⟩, s)
  | .ok es =>
    let sc := scaleVal h.scale
    let (drops, bad, fl, s) := es.foldl (fun (acc : Nat × Bool × Nat × State) e =>
      let v := returnValue mode mag (VFmt.ofCode h.fmt) sc e.2
      let (r, s) := acc.2.2.2.returnOne c lo e.1 v.1
      (acc.1 + b2n r.lost, acc.2.1 || r.poison, acc.2.2.1 + v.2 + r.flush, s)) (0, false, 0, s)
    (⟨n, drops, if bad then [0x50] else []⟩, s.atPier p fun p s => s.bump (R.pierFlush p) fl)

/-- What index 0 of a stream's residual stands for (R191). -/
def State.resOrigin (s : State) (c : Stream) : Nat := c.origin ((s.inputRange c).getD (0, 0))

/-- Blocks returned, or freed under DISCARD or where the stream has no residual (R190), in order; entries that count go to
DROP_CNT. `bad` names by base index the blocks with a word that went bad. Reading the scale counts its flush once, at a
Pier (R45, log entry 112). -/
def State.returnBlocks (s : State) (c : Stream) (discard : Bool) (mode mag : Nat) (h : SpanHdr) (blks : List Bytes)
    (bad : List Nat) : Returned × State :=
  let lo := s.resOrigin c
  let free := discard || c.resFmt == 0
  let s := if free || blks.isEmpty then s
    else s.atPier s.freePiers.head? fun p s => s.bump (R.pierFlush p) (scaleFlush h.scale)
  let (r, s) := blks.foldl (fun (acc : Returned × State) b =>
    if free then
      let n := (parseBlkHdr b).count
      (acc.1.join ⟨n, n, []⟩, acc.2)
    else
      let (r, s) := acc.2.returnBlock c lo mode mag h b (bad.contains (parseBlkHdr b).base)
      (acc.1.join r, s)) (⟨0, 0, []⟩, s)
  (r, s.bumpFld (grpBase c.group) Grp.dropCnt r.drops)

/-- A retained span returned or discarded whole. -/
def State.returnSpan (s : State) (discard : Bool) (x : Span) : Returned × State :=
  let h := parseSpanHdr x.hdr
  s.returnBlocks (s.stream x.ctx) discard h.mode x.mag h x.blocks
    (x.bad.filterMap fun p => match p.1 with
      | .block base => some base
      | _ => none)

/-- Retained spans that satisfy a test taken out of the share. -/
def State.takeRetained (s : State) (p : Span → Bool) : List Span × State :=
  (s.q.retained.filter p, { s with q := { s.q with retained := s.q.retained.filter fun x => !p x } })

/-- The blocks of a held-back chunk that an owner owns, or all of them, and the chunk without them. -/
def Held.part (h : Held) (all : Bool) (owner : Nat) : List Bytes × Held :=
  let l := h.blocks.zip h.ranks
  let mine (x : Bytes × Nat) : Bool := all || x.2 == owner
  let rest := l.filter fun x => !mine x
  ((l.filter mine).map (·.1), { h with blocks := rest.map (·.1), ranks := rest.map (·.2) })

/-- A held-back chunk's blocks returned or discarded. -/
def State.returnHeld (s : State) (c : Stream) (discard : Bool) (h : Held) (blks : List Bytes) : Returned × State :=
  let hdr := { parseSpanHdr (zeros 64) with
    version := 2, fmt := c.code, scale := h.scale, length := c.length, step := h.step, group := c.group
    channel := h.channel, node := s.node }
  s.returnBlocks c discard h.mode h.mag hdr blks h.bad

/-- RESIDUAL_RETURN (R190). It waits for its stream (R96), and while no Pier may read a block (R372). -/
def startResidualReturn (l : Live) (s : State) : State :=
  let d := l.desc
  let ctx := opBits d 0x20 2 13 0
  let discard := opBit d 0x22 1
  let all := opBit d 0x2B 7
  let owner := opBits d 0x28 4 16 0
  let step := opd d 0x24 4
  if s.streamHeld l || (!discard && s.freePiers.isEmpty) then s
  else
    let (ok, s) := s.streamUse ctx
    if !ok then s.endWith l 0x51
    else if opBit d 0x22 0 then
      let mine (h : Held) : Bool := decide (h.ctx = ctx ∧ h.step = step)
      let hs := (s.q.held.filter mine).map fun h => (h, h.part all owner)
      if hs.all fun x => x.2.1.isEmpty then s.endWith l 0x23
      else
        let rest := (hs.map (·.2.2)).filter fun h => !h.blocks.isEmpty
        let s := { s with q := { s.q with held := (s.q.held.filter fun h => !mine h) ++ rest } }
        let (r, s) := hs.foldl (fun (acc : Returned × State) x =>
          let (r, s) := acc.2.returnHeld (acc.2.stream ctx) discard x.1 x.2.1
          (acc.1.join r, s)) (⟨0, 0, []⟩, s)
        s.finish l ⟨firstStatus r.status, r.count, 0, none⟩
    else
      let mine (x : Span) : Bool := decide (x.ctx = ctx ∧ x.channel = d.channel.toNat ∧ x.seq = d.seq.toNat) &&
        (all || x.rank == owner)
      let (xs, s) := s.takeRetained mine
      if xs.isEmpty then s.endWith l 0x23
      else
        let (r, s) := xs.foldl (fun (acc : Returned × State) x =>
          let (r, s) := acc.2.returnSpan discard x
          (acc.1.join r, s)) (⟨0, 0, []⟩, s)
        s.finish l ⟨firstStatus r.status, r.count, 0, none⟩

/-! ### Notices at a sender (R188) -/

/-- The status of a send role whose owners have all answered (R189). R189 gives POISONED (R266) no place in its precedence:
here it stands after the statuses of a failure and before the others (DESIGN CHOICE, log entry 116). -/
def SendRole.status (r : SendRole) : Nat :=
  if r.lost then 0x41
  else match r.firstRej with
    | some st => st
    | none => if r.poisoned then 0x50 else if r.late then (if r.lateDrop then 0x03 else 0x02) else 0

/-- A send role completes when every owner has answered or is lost (R189). -/
def State.sendCheck (s : State) (l : Live) (r : SendRole) : State :=
  if r.owners.all fun o => o.answer.isSome then s.endWith l r.status
  else s.setPhase l.id (.send r)

/-- The owner of a rank has answered. -/
def SendRole.answered (r : SendRole) (rank kind : Nat) : SendRole :=
  { r with owners := r.owners.map fun o => if o.rank = rank then { o with answer := some kind, held := false } else o }

/-- The retained blocks of an owner. -/
def ofOwner (r : SendRole) (rank : Nat) (x : Span) : Bool :=
  decide (x.ctx = r.ctx ∧ x.channel = r.channel ∧ x.seq = r.seq ∧ x.rank = rank)

/-- A span of a send role that has not begun to be sent is never sent (R188): it is taken from the outbound
share and from the messages to send. -/
def State.unsend (s : State) (l : Live) (r : SendRole) (rank : Nat) : List Span × State :=
  let mine := ofOwner r rank
  let waiting := (s.q.packs.map fun (p : Pack) => p.spans.filter fun x => decide (p.ctx = r.ctx) && mine x).flatten
  (waiting, { s with
    q := { s.q with packs := s.q.packs.map fun p =>
      if p.ctx = r.ctx then { p with spans := p.spans.filter fun x => !mine x } else p }
    x := { s.x with out := s.x.out.filter fun m =>
      !(decide (m.live = some l.id ∧ m.counter = rank ∧ m.op = 0x05) && !m.begun) } })

/-- The policy applied to the blocks of an owner (R188): all of them, or the block at a BASE_INDEX. -/
def State.policy (s : State) (r : SendRole) (xs : List Span) : State :=
  xs.foldl (fun (s : State) (x : Span) => (s.returnSpan r.lateDrop x).2) s

/-- The span with only the block at a base index, and the span without it. -/
def Span.split (x : Span) (base : Nat) : Span × Span :=
  let hit (b : Bytes) : Bool := (parseBlkHdr b).base == base
  let one := (x.blocks.filter hit).take 1
  ({ x with blocks := one }, { x with blocks := x.blocks.eraseP hit })

/-- The send role of a notice: the outstanding descriptor and the owner's rank, when that owner still owes an
answer. -/
def State.sendFor (s : State) (group channel seq node : Nat) : Option (Live × SendRole × Nat) :=
  s.q.live.findSome? fun l => match l.phase with
    | .send r =>
      if r.group = group ∧ r.channel = channel ∧ r.seq = seq then
        match s.rankOfNode group node with
        | some k => if r.owners.any fun o => o.rank == k && o.answer.isNone then some (l, r, k) else none
        | none => none
      else none
    | _ => none

/-- RECEIPT, LATE, REJECT_SPAN or REJECT_BLOCK at a sender (R188). -/
def State.noticeAt (s : State) (kind status group channel seq node base : Nat) : State :=
  match s.sendFor group channel seq node with
  | none => s
  | some (l, r, rank) =>
    let g := grpBase group
    match kind with
    | 1 =>
      let (_, s) := s.takeRetained (ofOwner r rank)
      s.sendCheck l (r.answered rank 1)
    | 2 =>
      let s := (s.bumpFld g Grp.lateCnt).bumpFld g Grp.nondetCnt
      let (a, s) := s.unsend l r rank
      let (b, s) := s.takeRetained (ofOwner r rank)
      let s := s.policy r (a ++ b)
      s.sendCheck l { r.answered rank 2 with late := true }
    | 3 =>
      let (b, s) := s.takeRetained (ofOwner r rank)
      let s := s.policy r b
      s.sendCheck l { r.answered rank 3 with firstRej := some (r.firstRej.getD status) }
    | 4 =>
      let (b, s) := s.takeRetained (ofOwner r rank)
      let cut : List (Span × Span) := b.map fun x => x.split base
      let s := s.policy r (cut.map (·.1))
      let s := { s with q := { s.q with retained := s.q.retained ++ cut.map fun (y : Span × Span) => y.2 } }
      s.setPhase l.id (.send { r with firstRej := some (r.firstRej.getD status) })
    | _ => s

/-- A node declared lost answers for its rank in every send role of a group that names it (R189, R334). -/
def State.ownerLost (s : State) (node : Nat) : State :=
  s.endAll (fun _ l => match l.phase with
    | .send _ => true
    | _ => false) fun s l => match l.phase with
      | .send r =>
        match s.rankOfNode r.group node with
        | some k =>
          if r.owners.any fun o => o.rank == k && o.answer.isNone then
            let (_, s) := s.unsend l r k
            s.sendCheck l { r.answered k 0x41 with lost := true }
          else s
        | none => s
      | _ => s

end Sys2Proof.Machine
end

