-- ==== Sys2Proof/Machine/Reduce.lean ====
section
/-! DEFINITION. Reduction instances (R172-R189): the send role, the receive role, contributions as they are
placed, their checks and sums, and the close. -/

namespace Sys2Proof.Machine

/-! ### Open instances -/

/-- The outstanding descriptor and the open instance of a group, channel and sequence. -/
def State.instOf (s : State) (group channel seq : Nat) : Option (Live × Inst) :=
  s.q.live.findSome? fun l => match l.phase with
    | .inst i =>
      if l.desc.group.toNat = group ∧ l.desc.channel.toNat = channel ∧ l.desc.seq.toNat = seq then some (l, i)
      else none
    | _ => none

/-- An outstanding descriptor with its open instance, by the descriptor's number. -/
def State.instById (s : State) (id : Nat) : Option (Live × Inst) :=
  s.q.live.findSome? fun l => match l.phase with
    | .inst i => if l.id = id then some (l, i) else none
    | _ => none

/-- The bytes of an accumulator's planes (R179): address and length of hi, and of lo for pairs. -/
def Inst.ranges (i : Inst) : List (Nat × Nat) :=
  let n := 4 * (i.hi - i.lo)
  if i.accKind = 0 then [(i.accAddr, n)] else [(i.accAddr, n), (alignUp (i.accAddr + n) 64, n)]

/-- The Abutments of an accumulator may work. -/
def State.instFree (s : State) (i : Inst) : Bool := i.ranges.all fun r => s.abutsFree r.1 r.2

/-- A rank has answered, or its contribution waits its turn. -/
def Inst.has (i : Inst) (r : Nat) : Bool := i.answers.any (·.1 == r) || i.pend.any (·.1 == r)

/-! ### Adding (R182, R184, R204, R205) -/

/-- One value, poisoned or not, added to an int32 element: whether it saturated, whether the element ends poisoned. -/
def State.addInt (s : State) (id a : Nat) (v : Int) (vBad : Bool) : Bool × Bool × State :=
  let ((x, p), s) := s.abLoad id a 4
  let p := p || vBad
  let (r, sat) := sat32 (int32Of x + v)
  let (junk, s) := if p then s.freeBytes 4 else (toLE 4 (ofInt32 r), s)
  let s := (s.putGranule a junk p).abutBump64 R.abutAccOpsLo a
  let s := if p then s.abutBump R.abutPoisonOut a else s
  let sat := sat && !p
  (sat, p, s.abutBump R.abutAccSat a (b2n sat))

/-- One value, poisoned or not, added to the pair whose parts lie at two addresses: whether the pair is non-finite,
whether it ends poisoned. -/
def State.addPair (s : State) (id a b : Nat) (v : FV) (vBad : Bool) : Bool × Bool × State :=
  let ((x, p), s) := s.abLoad id a 4
  let ((y, q), s) := s.abLoad id b 4
  let r := (⟨(decodeF .fp32 x).1, (decodeF .fp32 y).1⟩ : Pair).add v
  let bad := p || q || vBad
  let (hi, s) := if bad then s.freeBytes 4 else (toLE 4 (encodeF .fp32 r.hi), s)
  let (lo, s) := if bad then s.freeBytes 4 else (toLE 4 (encodeF .fp32 r.lo), s)
  let s := ((s.putGranule a hi bad).putGranule b lo bad).abutBump64 R.abutAccOpsLo a
  let s := if bad then (s.abutBump R.abutPoisonOut a).abutBump R.abutPoisonOut b else s
  (!r.hi.isFin && !bad, bad, s)

/-- The integer that a code adds under ACC_KIND 0 (R182). -/
def addend (h : SpanHdr) (code : Nat) : Int :=
  match h.mode with
  | 2 => if code = 0 then (h.mag : Int) else -(h.mag : Int)
  | 3 => if code = 0 then 1 else -1
  | _ => codeInt (VFmt.ofCode h.fmt) code 0

/-- What the additions of a block came to. -/
structure Added where
  sat    : Nat
  poison : Bool
  nf     : Option Nat
  deriving DecidableEq, Repr

/-- The addends of a block as the Abutments take them: the element, the bits that travel, and whether they arrived
poisoned (R24). -/
def State.carry (s : State) (i : Inst) (h : SpanHdr) (es : List (Nat × Nat)) : List (Nat × Nat × Bool) × State :=
  let word (e : Nat × Nat) : Nat :=
    if i.accKind = 0 then ofInt32 (addend h e.2)
    else encodeF .fp32 (dequantBy (VFmt.ofCode h.fmt) e.2 (scaleVal h.scale)).1
  let addr (k : Nat) : Nat := i.accAddr + 4 * ((nth es k (i.lo, 0)).1 - i.lo)
  let (ws, s) := s.crossAll addr (es.map fun e => (word e, false))
  ((es.zip ws).map fun x => (x.1.1, x.2.1, x.2.2), s)

/-- The values of an accepted block added to the accumulator (R182, R184). -/
def State.addBlock (s : State) (id : Nat) (i : Inst) (h : SpanHdr) (es : List (Nat × Nat)) : Added × State :=
  let n := 4 * (i.hi - i.lo)
  let lo := alignUp (i.accAddr + n) 64
  let (xs, s) := s.carry i h es
  xs.foldl (fun (acc : Added × State) e =>
    let off := 4 * (e.1 - i.lo)
    if i.accKind = 0 then
      let (sat, p, s) := acc.2.addInt id (i.accAddr + off) (int32Of e.2.1) e.2.2
      (⟨acc.1.sat + b2n sat, acc.1.poison || p, acc.1.nf⟩, s)
    else
      let (nf, p, s) := acc.2.addPair id (i.accAddr + off) (lo + off) (decodeF .fp32 e.2.1).1 e.2.2
      (⟨acc.1.sat, acc.1.poison || p, minOpt acc.1.nf (if nf then some e.1 else none)⟩, s)) (⟨0, false, none⟩, s)

/-- The flushes of forming a block's addends (R45): they count at the Pier that dequantises it, since ABUT_FLUSH names
others (R225). -/
def addFlushes (i : Inst) (h : SpanHdr) (es : List (Nat × Nat)) : Nat :=
  if i.accKind = 0 then 0
  else (es.map fun e =>
    let f := VFmt.ofCode h.fmt
    b2n (dequantBy f e.2 (scaleVal h.scale)).2 + b2n (codeValue f e.2 0).2).sum

/-- An all-zero dense block in the modes where it adds nothing (R182). -/
def addsNothing (i : Inst) (h : SpanHdr) (b : BlkHdr) : Bool :=
  i.accKind == 0 && b.btype == 3 && h.mode != 2 && h.mode != 3

/-! ### Rejection (R181) -/

/-- An open instance's state replaced. -/
def State.setInst (s : State) (id : Nat) (i : Inst) : State := s.setPhase id (.inst i)

/-- The instance after a rejection with a status. -/
def Inst.reject (i : Inst) (status : Nat) : Inst :=
  { i with poisoned := i.poisoned || status == 0x50, firstRej := some (i.firstRej.getD status) }

/-- A notice of an instance sent to whoever sent a contribution: over its connection, or to this chip itself. -/
def State.answer (s : State) (l : Live) (i : Inst) (conn : Option Nat) (kind status base : Nat) : State :=
  let d := l.desc
  match conn with
  | none => s.noticeAt kind status d.group.toNat d.channel.toNat d.seq.toNat s.node base
  | some c =>
    s.notice c d.channel.toNat d.seq.toNat
      (noticeBytes kind status d.group.toNat d.channel.toNat d.seq.toNat i.step s.node base)

/-- A rejection counted, logged and answered (R181, R156). Where in the inbound share a block lies no rule says:
its offset in the log entry (R166) is a free value. -/
def State.rejected (s : State) (l : Live) (i : Inst) (ib : Inbound) (kind status base : Nat) : State :=
  let s := s.bumpFld (grpBase ib.group) Grp.rejCnt
  let (at_, s) := s.freeBytes 4
  let s := s.logReject l.op status ⟨ib.data, ib.poison, 2 ^ 63 + leNat at_ % 2 ^ 27⟩ 0 base
  s.answer l i ib.conn kind status base

/-- The rank that a contribution or SKIP answers for (order 2 of R181): its node is a member's, it came on that
member's connection, and the rank has not answered. -/
def State.senderRank (s : State) (i : Inst) (ib : Inbound) (node : Nat) : Option Nat :=
  match s.rankOfNode ib.group node with
  | none => none
  | some r =>
    let on := if r = s.fld (grpBase ib.group) Grp.myRank then ib.conn.isNone
      else ib.conn.isSome && s.memberConn ib.group r == ib.conn
    if on && !i.has r then some r else none

/-- Order 3 of R181. -/
def contribMatches (i : Inst) (d : SpanData) (h : SpanHdr) : Bool :=
  let rows := (List.range h.outCount).map fun j => leAt d.raw (h.outOff + 8 * j) 5
  decide (h.step = i.step ∧ h.mode = i.mode ∧ h.fmt = i.fmt ∧ h.length = i.length ∧ h.chunkKi = i.chunkKi ∧
    h.outCount = i.outCount ∧ rows = i.outList) && (i.accKind != 0 || h.scale == i.sRef)

/-- The status of a block at order 4 of R181, or its entries. -/
def blockVerdict (i : Inst) (b : ReadBlock) : Except Nat (List (Nat × Nat)) :=
  match b.res with
  | .error st => .error st
  | .ok es => if es.all fun e => decide (i.lo ≤ e.1 ∧ e.1 < i.hi) then .ok es else .error 0x23

/-- A contribution whose header passed summed block by block (R181, R182, R184), each block read by a Pier of its own
(R155), and its rank recorded. -/
def State.sumUp (s : State) (id rank : Nat) (ib : Inbound) : State :=
  let d : SpanData := ⟨ib.data, ib.poison, 0⟩
  let h := parseSpanHdr ib.data
  let (a, ps, s) := s.pickPiers 2 d
  let s := match s.instById id, ps with
    | some (_, i), p :: _ => s.bump (R.pierFlush p) (if i.accKind = 0 then 0 else scaleFlush h.scale)
    | _, _ => s
  let s := ((readBlocks a d).zip ps).foldl (fun (s : State) x =>
    let b := x.1
    match s.instById id with
    | none => s
    | some (l, i) =>
      let s := s.countDecode x.2 b
      match blockVerdict i b with
      | .error st => (s.setInst id (i.reject st)).rejected l i ib 4 st b.hdr.base
      | .ok es =>
        if addsNothing i h b.hdr then s
        else
          let s := s.bump (R.pierFlush x.2) (addFlushes i h es)
          let (a, s) := s.addBlock id i h es
          let s := s.bumpFld (grpBase ib.group) Grp.satCnt a.sat
          s.setInst id { i with poisoned := i.poisoned || a.poison, firstNf := minOpt i.firstNf a.nf }) s
  match s.instById id with
  | none => s
  | some (_, i) =>
    s.setInst id { i with answers := i.answers ++ [(rank, .summed)], pend := i.pend.filter (·.1 != rank) }

/-- A contribution checked and admitted (R181): summed at once, or kept for its turn under ACC_KIND 2 (R184). -/
def State.letIn (s : State) (l : Live) (i : Inst) (ib : Inbound) : State :=
  let d : SpanData := ⟨ib.data, ib.poison, 0⟩
  let h := parseSpanHdr ib.data
  match checkSpanHdr (s.accept 2) d with
  | some st => (s.setInst l.id (i.reject st)).rejected l i ib 3 st 0
  | none =>
    match s.senderRank i ib h.node with
    | none => (s.setInst l.id (i.reject 0x23)).rejected l i ib 3 0x23 0
    | some r =>
      if !contribMatches i d h then
        let i' := (i.reject 0x23)
        (s.setInst l.id { i' with answers := i.answers ++ [(r, .rejected)] }).rejected l i ib 3 0x23 0
      else if i.accKind = 2 then s.setInst l.id { i with pend := i.pend ++ [(r, ib)] }
      else s.sumUp l.id r ib

/-- A contribution or SKIP that has reached its open instance taken (R181, R185, R187): a contribution that is
not on time is not summed, and its rank is cut off at the close. -/
def State.takeInbound (s : State) (id : Nat) (ib : Inbound) : State :=
  match s.instById id with
  | none => s
  | some (l, i) =>
    if ib.skip then
      match s.senderRank i ib ib.node with
      | none => s
      | some r => s.setInst id { i with answers := i.answers ++ [(r, .skipped)] }
    else if i.deadline ≠ 0 ∧ i.deadline ≤ ib.placed then s
    else (s.spanUe ib.poison.length).letIn l i ib

/-- Contributions kept for their turn summed in rank order (R184): up to the first rank that has not answered,
or all of them at a close. -/
def State.drain (id : Nat) (all : Bool) : List Nat → State → State
  | [], s => s
  | r :: rs, s =>
    match s.instById id with
    | none => s
    | some (_, i) =>
      if i.answers.any (·.1 == r) then State.drain id all rs s
      else match i.pend.find? (·.1 == r) with
        | some p => State.drain id all rs (s.sumUp id r p.2)
        | none => if all then State.drain id all rs s else s

/-! ### The close (R185) -/

/-- How a rank answered. -/
def Inst.answerOf (i : Inst) (r : Nat) : Option Answer := (i.answers.find? (·.1 == r)).map (·.2)

/-- The status of the completion record (R185). -/
def Inst.status (i : Inst) (cut : Bool) : Nat :=
  if i.poisoned then 0x50
  else match i.firstRej with
    | some st => st
    | none => if cut || i.answers.any (·.2 == .skipped) then 1 else 0

/-- An instance closes (R185, R187, R198). -/
def State.closeInst (s : State) (l : Live) (i : Inst) : State :=
  let g := l.desc.group.toNat
  let b := grpBase g
  let ranks := List.range (s.fld b Grp.nMembers)
  let me := s.fld b Grp.myRank
  let cut := ranks.filter fun r => (i.answerOf r).isNone
  let summed := (i.answers.filter (·.2 == .summed)).length
  let s := s.cbRelease l.id
  let s := if i.ownerValid && i.accKind == 0 then s.setFld (strmBase i.ownerCtx) Strm.inScale i.sRef else s
  let s := s.setFld b (Grp.lastSeq l.desc.channel.toNat) l.desc.seq.toNat
  let s := s.bumpFld b Grp.cutCnt cut.length
  let s := s.bumpFld b Grp.nondetCnt (b2n (!cut.isEmpty) + b2n (i.accKind == 1 && decide (2 ≤ summed)))
  let s := ranks.foldl (fun (s : State) r =>
    let conn := if r = me then none else s.memberConn g r
    match i.answerOf r with
    | some .summed => s.answer l i conn 1 0 0
    | none => s.answer l i conn 2 0 0
    | _ => s) s
  s.finish l ⟨i.status (!cut.isEmpty), summed, 0, i.firstNf⟩

/-- An instance closed once every rank has answered, or at its deadline (R185). -/
def State.closeCheck (s : State) (id : Nat) : State :=
  match s.instById id with
  | none => s
  | some (l, i) =>
    let ranks := List.range (s.fld (grpBase l.desc.group.toNat) Grp.nMembers)
    if ranks.all fun r => i.answers.any (·.1 == r) then s.closeInst l i
    else if i.deadline ≠ 0 ∧ i.deadline ≤ s.now then
      let s := State.drain id true ranks s
      match s.instById id with
      | none => s
      | some (l, i) => s.closeInst l i
    else s

/-- Work of an instance waits for a Pier (R155, R372): a contribution has to be read and none may take work. -/
def State.wantsPier (s : State) (i : Inst) (todo : List Inbound) : Bool :=
  s.freePiers.isEmpty && (todo.any (fun x => !x.skip) || !i.pend.isEmpty)

/-- An open instance at work, once its Abutments may work and Piers may read what waits for it: what waits in the inbound
share is taken in the order in which it was placed, ordered contributions are added, and it closes when it may. -/
def State.serve (s : State) (id : Nat) : State :=
  match s.instById id with
  | none => s
  | some (l, i) =>
    let mine (x : Inbound) : Bool :=
      decide (x.group = l.desc.group.toNat ∧ x.channel = l.desc.channel.toNat ∧ x.seq = l.desc.seq.toNat)
    let todo := s.q.inbound.filter mine
    if !s.instFree i || s.wantsPier i todo then s
    else
      let s := { s with q := { s.q with inbound := s.q.inbound.filter fun x => !mine x } }
      let s := todo.foldl (fun (s : State) x => s.takeInbound id x) s
      let s := State.drain id false (List.range (s.fld (grpBase l.desc.group.toNat) Grp.nMembers)) s
      s.closeCheck id

/-! ### Contributions and SKIPs as they arrive -/

/-- The instance has closed (R172, R176): SEQ does not lie ahead of LAST_SEQ. -/
def State.seqPast (s : State) (group channel seq : Nat) : Bool :=
  decide (2 ^ 31 ≤ (seq + 2 * 2 ^ 32 - 1 - s.fld (grpBase group) (Grp.lastSeq channel)) % 2 ^ 32)

/-- A contribution put behind those placed before it or with it (R174). -/
def insertPlaced (x : Inbound) : List Inbound → List Inbound
  | [] => [x]
  | y :: t => if x.placed < y.placed then x :: y :: t else y :: insertPlaced x t

/-- A contribution wholly placed, or a SKIP (R174-R176): an orphan is counted, one for a closed instance is
discarded, and any other is kept in the inbound share until its instance takes it. -/
def State.place (s : State) (ib : Inbound) : State :=
  if !s.groupUsed ib.group || decide (31 < ib.channel) then s.bump R.qmgrOrphanCnt
  else if s.seqPast ib.group ib.channel ib.seq then s
  else
    let s := { s with q := { s.q with inbound := insertPlaced ib s.q.inbound } }
    match s.instOf ib.group ib.channel ib.seq with
    | some (l, _) => s.serve l.id
    | none => s

/-- The slots that coded blocks of a contribution refer to when it is placed (R143). -/
def State.refsOf (s : State) (d : SpanData) : List Nat :=
  (readBlocks (s.accept 2) d).filterMap fun b =>
    let t := s.tbl b.hdr.slot
    if b.hdr.btype = 1 ∧ t.state ≠ .free ∧ t.gen = b.hdr.gen then some b.hdr.slot else none

/-- A contribution as it stands in the inbound share: it belongs to the instance its stream header names. -/
def State.inboundOf (s : State) (conn : Option Nat) (data : Bytes) (poison : List Nat) : Inbound :=
  let h := parseSpanHdr data
  { conn := conn, skip := false, node := h.node, group := h.group, channel := h.channel, seq := h.seq
    data := data, poison := poison, placed := s.now, refs := s.refsOf ⟨data, poison, 0⟩ }

/-! ### The send role (R177) -/

/-- A send role's state for one owner replaced. -/
def SendRole.setOwner (r : SendRole) (rank : Nat) (f : Owner → Owner) : SendRole :=
  { r with owners := r.owners.map fun o => if o.rank = rank then f o else o }

/-- An outstanding send role. -/
def State.sendById (s : State) (id : Nat) : Option (Live × SendRole) :=
  s.q.live.findSome? fun l => match l.phase with
    | .send r => if l.id = id then some (l, r) else none
    | _ => none

/-- The span packed for a rank that waits in the outbound share. -/
def State.packedFor (s : State) (ctx rank : Nat) : Option Span :=
  s.q.packs.findSome? fun p => if p.ctx = ctx then p.spans.find? (·.rank == rank) else none

/-- A span moved from the outbound to the retained share (R29). -/
def State.retain (s : State) (r : SendRole) (x : Span) : State :=
  { s with q := { s.q with
    packs := s.q.packs.map fun p =>
      if p.ctx = r.ctx then { p with spans := p.spans.filter (·.rank != x.rank) } else p
    retained := s.q.retained ++ [{ x with channel := r.channel, seq := r.seq }] } }

/-- A retained span given to its owner (R174): locally, placed when its stream header was written, or as one message on the
owner's connection. -/
def State.giveSpan (s : State) (l : Live) (r : SendRole) (x : Span) : State :=
  let bs := x.bytes
  if x.rank = s.fld (grpBase r.group) Grp.myRank then s.place { s.inboundOf none bs x.poison with placed := x.born }
  else match s.memberConn r.group x.rank with
    | none => s
    | some c =>
      s.post { newMsg c false 0x05 bs.length (.data bs x.poison) with
        live := some l.id, counter := x.rank, prio := l.desc.prio.toNat, channel := r.channel, seq := r.seq }

/-- The span for one owner sent, or held for room in the retained share (R29). -/
def State.sendOwner (s : State) (id rank : Nat) : State :=
  match s.sendById id with
  | none => s
  | some (l, r) =>
    match s.packedFor r.ctx rank, r.owners.find? (·.rank == rank) with
    | some x, some o =>
      if !s.retainRoom x then
        if o.held then s
        else (s.bump R.qmgrRetainWaitCnt).setPhase id (.send (r.setOwner rank fun o => { o with held := true }))
      else
        let s := s.retain r x
        let s := s.setPhase id (.send (r.setOwner rank fun o => { o with sent := o.answer.isNone, held := false }))
        if o.answer.isSome then s else s.giveSpan l r x
    | _, _ => s

/-- The statuses of owners' connections that have ended, by rank (R268). -/
def State.endedOwners (s : State) (g : Nat) : List (Nat × Nat) :=
  (List.range (s.fld (grpBase g) Grp.nMembers)).filterMap fun r =>
    if r = s.fld (grpBase g) Grp.myRank then none
    else match s.memberConn g r with
      | some c => if s.connState c = 3 then some (r, s.fld (connBase c) Conn.endStatus) else none
      | none => none

/-- A connection to a member agreed a level that does not carry collective messages (R253). -/
def State.levelOneMember (s : State) (g : Nat) : Bool :=
  (List.range (s.fld (grpBase g) Grp.nMembers)).any fun r =>
    r != s.fld (grpBase g) Grp.myRank && match s.memberConn g r with
      | some c => s.connState c == 2 && !levelAllows (s.fld (connBase c) Conn.level) 0x05
      | none => false

/-- SKIP sent to every rank (R177, R189). -/
def State.sendSkips (s : State) (l : Live) (r : SendRole) (step status : Nat) : State :=
  let me := s.fld (grpBase r.group) Grp.myRank
  let note := noticeBytes 5 0 r.group r.channel r.seq step s.node 0
  let s := r.owners.foldl (fun (s : State) o =>
    if o.rank = me then
      s.place { conn := none, skip := true, node := s.node, group := r.group, channel := r.channel, seq := r.seq
                data := [], poison := [], placed := s.now, refs := [] }
    else match s.memberConn r.group o.rank with
      | some c => s.notice c r.channel r.seq note (some l.id)
      | none => s) s
  if s.x.out.any fun m => m.live == some l.id then s.setPhase l.id (.skipping status) else s.endWith l status

/-- The opcode that carries a MODE (R177). -/
def modeFits (op mode : Nat) : Bool := if op = 0x14 then mode == 0 else decide (1 ≤ mode ∧ mode ≤ 4)

/-- The send role (R177). It waits for its stream (R96). -/
def startSendRole (l : Live) (s : State) : State :=
  let d := l.desc
  let ctx := opBits d 0x20 2 13 0
  let step := opd d 0x24 4
  if s.streamHeld l then s
  else
    let (ok, s) := s.streamUse ctx
    let b := strmBase ctx
    let g := s.fld b Strm.group
    let mark (s : State) : State :=
      { s with q := { s.q with packs := s.q.packs.map fun p => if p.ctx = ctx then { p with taken := true } else p } }
    if !ok then s.endWith l 0x51
    else if !modeFits l.op (s.fld b Strm.mode) then s.endWith l 0x70
    else if s.fld b Strm.compressStep ≠ step then s.endWith l 0x23
    else if !s.groupFits g || !s.membersOk g then s.endWith l 0x23
    else if s.membersPoisoned g then s.endWith l 0x50
    else if s.levelOneMember g then s.endWith l 0x70
    else match s.q.packs.find? fun p => decide (p.ctx = ctx ∧ p.step = step) && !p.taken with
      | none => s.endWith l 0x23
      | some p =>
        let ended := s.endedOwners g
        let owners := (List.range (s.fld (grpBase g) Grp.nMembers)).map fun r =>
          (⟨r, false, false, if ended.any (·.1 == r) then some 0x41 else none⟩ : Owner)
        let role : SendRole :=
          { ctx := ctx, group := g, channel := p.channel, seq := p.seq, lateDrop := opBit d 0x22 2
            owners := owners, firstRej := none, late := false, lost := !ended.isEmpty, poisoned := false }
        match ended.find? (·.2 != 0x41) with
        | some e => s.endWith l e.2
        | none =>
          if p.skip then (mark s).sendSkips l role step (s.fld b Strm.compressStatus)
          else if p.spans.isEmpty then s.endWith l 0x23
          else
            let s := (mark s).setPhase l.id (.send role)
            let s := owners.foldl (fun (s : State) o => s.sendOwner l.id o.rank) s
            match s.sendById l.id with
            | some (l, r) => s.sendCheck l r
            | none => s

/-- The outstanding descriptors in the order in which their work is served (R197). -/
def State.inTurn (s : State) : List Nat := (sortAsc 21 (fun l => s.turn l.desc) s.q.live).map (·.id)

/-- RETAINED_ROOM (R29): sends held for room in the retained share go on, the highest priority first (R197). -/
def retryRetained (s : State) : State :=
  s.inTurn.foldl (fun (s : State) id =>
    match s.sendById id with
    | none => s
    | some (_, r) => (r.owners.filter (·.held)).foldl (fun (s : State) o => s.sendOwner id o.rank) s) s

/-! ### The receive role (R178-R180) -/

/-- Operands of the receive role (R178). -/
structure RecvOps where
  ctx        : Nat
  accKind    : Nat
  clear      : Bool
  step       : Nat
  accAddr    : Nat
  deadline   : Nat
  ownerValid : Bool
  ownerCtx   : Nat
  deriving DecidableEq, Repr

/-- The operands of a receive-role descriptor. -/
def recvOps (d : Desc) : RecvOps :=
  { ctx := opBits d 0x20 2 13 0, accKind := opBits d 0x22 1 3 2, clear := opBit d 0x22 1, step := opd d 0x24 4
    accAddr := opd d 0x28 8, deadline := opd d 0x30 8, ownerValid := opBit d 0x39 7
    ownerCtx := opBits d 0x38 2 13 0 }

/-- Order 1 of R180. -/
def recvFormatOk (op : Nat) (o : RecvOps) (c : Stream) : Bool :=
  (match o.accKind with
   | 0 => [1, 2, 3].contains c.code
   | 1 | 2 => [4, 5, 6, 7].contains c.code
   | _ => false) && modeFits op c.mode && c.formatOk

/-- This chip's shard in a group for a tensor of a length (R171). -/
def State.shardHere (s : State) (g len : Nat) : Option (Nat × Nat) :=
  (s.range g len).map fun r => s.myShard g r

/-- Order 2 of R180. -/
def State.recvBoundsOk (s : State) (d : Desc) (o : RecvOps) (c : Stream) : Bool :=
  let g := d.group.toNat
  decide (o.accAddr % 64 = 0) && s.groupFits g && c.group == g && s.membersOk g && c.rowsShape &&
  match s.shardHere g c.length with
  | some (lo, hi) => decide (lo < hi)
  | none => false

/-- Orders 3 to 5 of R180: the rows in force and S_ref, or the status of the first failure. -/
def State.recvReads (s : State) (o : RecvOps) (c : Stream) : Except Nat (List Nat × Nat) :=
  let n := if c.outN = 0 then 0 else if c.outAuto then s.fld (strmBase c.ctx) Strm.outCount else c.outN
  match s.rowsInForce c n true with
  | .error st => .error st
  | .ok rows =>
    if o.accKind ≠ 0 then .ok (rows, 0)
    else match (s.takeScale c).1 with
      | .error st => .error st
      | .ok w => .ok (rows, w)

/-- Where SEQ stands against LAST_SEQ of its channel (R172). -/
def State.seqGap (s : State) (d : Desc) : Nat :=
  (d.seq.toNat + 2 * 2 ^ 32 - 1 - s.fld (grpBase d.group.toNat) (Grp.lastSeq d.channel.toNat)) % 2 ^ 32

/-- The machine with a stream context as a command read it (R96). -/
def State.asRead (s : State) (ctx : Nat) (bytes : Bytes) : State := s.ctxWr (strmBase ctx) bytes

/-- An instance opens (R172, R179, R180): CLEAR, S_ref, and what waits for it, with the reference context as read at
dispatch (R96). It waits while an Abutment of its accumulator is held. -/
def State.openInst (s : State) (l : Live) (ref : Bytes) : State :=
  let o := recvOps l.desc
  let c := (s.asRead o.ctx ref).stream o.ctx
  match (s.asRead o.ctx ref).recvReads o c with
  | .error st => s.endWith l st
  | .ok (rows, sRef) =>
    let sh := (s.shardHere l.desc.group.toNat c.length).getD (0, 0)
    let i : Inst :=
      { mode := c.mode, fmt := c.code, length := c.length, chunkKi := c.chunkKi, outCount := rows.length
        outList := rows, sRef := sRef, accKind := o.accKind, accAddr := o.accAddr, lo := sh.1, hi := sh.2
        deadline := o.deadline, step := o.step, ownerValid := o.ownerValid, ownerCtx := o.ownerCtx
        answers := [], pend := [], poisoned := false, firstRej := none, firstNf := none }
    s.abutGate l i.ranges fun s =>
      let s := if o.clear then i.ranges.foldl (fun (s : State) r => s.cbClear l.id r.1 (r.2 / 4)) s else s
      (s.setInst l.id i).serve l.id

/-- A receive role that waits for its sequence looked at again (R172). -/
def State.seqCheck (s : State) (l : Live) (ref : Bytes) : State :=
  let d := l.desc
  if 2 ^ 31 ≤ s.seqGap d then s.endWith l 0x23
  else if s.seqGap d = 0 ∧ (s.instOf d.group.toNat d.channel.toNat d.seq.toNat).isNone then
    (s.setPhase l.id (.seq ref)).openInst l ref
  else s.setPhase l.id (.seq ref)

/-- The receive role (R178-R180). -/
def startRecvRole (l : Live) (s : State) : State :=
  let o := recvOps l.desc
  let (ok, s) := s.streamUse o.ctx
  let c := s.stream o.ctx
  if !ok then s.endWith l 0x51
  else if !recvFormatOk l.op o c then s.endWith l 0x70
  else if !s.recvBoundsOk l.desc o c then s.endWith l 0x23
  else if s.membersPoisoned l.desc.group.toNat then s.endWith l 0x50
  else if s.levelOneMember l.desc.group.toNat then s.endWith l 0x70
  else s.seqCheck l (s.ctxRd (strmBase o.ctx) 256)

/-- ACCUM and ACCUM_SPARSE (R177): the role the descriptor selects. -/
def startRole (l : Live) (s : State) : State :=
  if opBit l.desc 0x22 0 then startRecvRole l s else startSendRole l s

/-- ACCUM. -/
def startAccum (l : Live) (s : State) : State := startRole l s

/-- ACCUM_SPARSE. -/
def startAccumSparse (l : Live) (s : State) : State := startRole l s

/-- INSTANCE_OPEN (R172): a receive role that waits for its sequence opens when that is reached. -/
def instanceOpen (group : BitVec 12) (channel : BitVec 16) (seq : Word) (s : State) : State :=
  match s.q.live.find? fun l => decide (l.desc.group = group ∧ l.desc.channel = channel ∧ l.desc.seq = seq) &&
      (match l.phase with
        | .seq _ => true
        | _ => false) with
  | some l =>
    match l.phase with
    | .seq ref => s.seqCheck l ref
    | _ => s
  | none => s

/-- The timebase taken to at least a value, for a command that says it has been reached. -/
def State.reach (s : State) (ns : Nat) : State :=
  { s with clock := { s.clock with
      tb := max s.clock.tb (ns * 65536)
      up := s.clock.up + (ns - s.clock.tb / 65536) } }

/-- DEADLINE (R185). -/
def deadlineReached (group : BitVec 12) (channel : BitVec 16) (seq : Word) (s : State) : State :=
  match s.instOf group.toNat channel.toNat seq.toNat with
  | some (l, i) => if i.deadline = 0 then s else (s.reach i.deadline).serve l.id
  | none => s

end Sys2Proof.Machine
end

