-- ==== Sys2Proof/Machine/Install.lean ====
section
/-! DEFINITION. Table installation across a group (R146-R152): TABLE_INSTALL, the acknowledgements gathered at
TBL_ROOT, and the epoch. -/

namespace Sys2Proof.Machine

/-! ### The duties of firmware (R25, R26) -/

/-- Firmware has announced itself since the last reset of the Keystone (R376). -/
def State.announced (s : State) : Bool := s.regBit R.kstnState 29

/-- Firmware serves its duties: it has announced itself, or it is on its first way to READY (R356). -/
def State.firmwareRuns (s : State) : Bool :=
  s.announced || (s.regBits R.kstnState 15 0 == 0 && s.regBits R.bootStat 31 28 == 4)

/-- A duty of firmware: done now, or kept until firmware announces itself (R26). -/
def State.duty (s : State) (i : Instr) (f : State → State) : State :=
  if s.firmwareRuns then f s else { s with kstn := { s.kstn with duties := s.kstn.duties ++ [i] } }

/-! ### The notices (R150) -/

/-- What a TABLE_ACK or TABLE_EPOCH says. -/
structure TblNote where
  group : Nat
  epoch : Nat
  coded : Bool
  fmt   : Nat
  slot  : Nat
  gen   : Nat
  crc   : Nat
  node  : Nat
  deriving DecidableEq, Repr

/-- The 32 bytes of a notice of a kind. -/
def tblNoteBytes (kind : Nat) (n : TblNote) : Bytes :=
  toLE 1 kind ++ zeros 1 ++ toLE 2 (n.group % 4096) ++ toLE 2 n.epoch ++ toLE 1 (b2n n.coded * 128 + n.fmt % 16) ++
  toLE 1 (n.slot % 16 * 16) ++ toLE 1 n.gen ++ zeros 3 ++ toLE 4 n.crc ++ toLE 3 (n.node % 2 ^ 20) ++ zeros 13

/-- The notice that 32 bytes spell. -/
def tblNoteOf (b : Bytes) : TblNote :=
  { group := bits (leAt b 2 2) 11 0, epoch := leAt b 4 2, coded := bit (leAt b 6 1) 7, fmt := bits (leAt b 6 1) 3 0
    slot := bits (leAt b 7 1) 7 4, gen := leAt b 8 1, crc := leAt b 0xC 4, node := bits (leAt b 0x10 3) 19 0 }

/-! ### The root (R151) -/

/-- A mismatch recorded (R151, R166). -/
def State.ackMismatch (s : State) (group node : Nat) : State :=
  let s := if s.regBit R.tblAckErr 31 then s
    else (s.setReg R.tblAckErr (2 ^ 31 + group)).setReg R.tblAckErrNode node
  s.raiseIrq 5 2

/-- The bytes of DEF and PEND of a format code. -/
def State.pend (s : State) (group fmt : Nat) : Nat := s.fld (grpBase group) (Grp.pendFmt fmt)

/-- A PEND of the group is VALID. -/
def State.pendAny (s : State) (group : Nat) : Bool := (List.range 5).any fun k => (s.pend group (4 + k)).testBit 6

/-- TABLE_EPOCH at a member (R152). -/
def State.tableEpochAt (s : State) (n : TblNote) : State :=
  let b := grpBase n.group
  if s.pendAny n.group && s.fld b Grp.pendEpoch == n.epoch then
    let s := (List.range 5).foldl (fun (s : State) k =>
      let v := s.pend n.group (4 + k)
      if v.testBit 6 then
        (s.setFld b (Grp.defFmt (4 + k)) (b2n (v.testBit 7) * 128 + v % 16)).setFld b (Grp.pendFmt (4 + k))
          (setBits v 6 6 0)
      else s) s
    let s := s.setFld b Grp.tableEpoch n.epoch
    let trig := s.fld b Grp.epochTrig
    let s := if trig.testBit 31 then s.ctrAdd (trig % 65536) 1 else s
    s.raiseIrq 5 4
  else s.ackMismatch n.group n.node

/-- The tally of a group emptied. -/
def State.clearAcks (s : State) (group : Nat) : State :=
  { s.setFld (grpBase group) Grp.acks 0 with q := { s.q with acks := s.q.acks.filter (·.group != group) } }

/-- Two acknowledgements agree (R151). -/
def TblAck.agrees (a b : TblAck) : Bool :=
  a.fmt == b.fmt && a.coded == b.coded && a.slot == b.slot && a.gen == b.gen && a.crc == b.crc

/-- TABLE_EPOCH sent to every member (R151). -/
def State.sendEpoch (s : State) (group epoch : Nat) (a : TblAck) : State :=
  let n : TblNote := ⟨group, epoch, a.coded, a.fmt, a.slot, a.gen, a.crc, s.node⟩
  let b := grpBase group
  (List.range (s.fld b Grp.nMembers)).foldl (fun (s : State) r =>
    if r = s.fld b Grp.myRank then s.tableEpochAt n
    else match s.memberConn group r with
      | some c => s.notice c 0 0 (tblNoteBytes 7 n)
      | none => s) s

/-- Every member has acknowledged: TABLE_EPOCH, or a mismatch (R151). -/
def State.compareAcks (s : State) (group epoch : Nat) : State :=
  match s.q.acks.filter (·.group == group) with
  | [] => s
  | a :: t =>
    match t.find? fun x => !a.agrees x with
    | none => s.sendEpoch group epoch a
    | some x => (s.ackMismatch group x.node).clearAcks group

/-- A TABLE_ACK counted by firmware (R150, R151). -/
def tableAckAt (n : TblNote) (s : State) : State :=
  let b := grpBase n.group
  let epoch := (s.fld b Grp.tableEpoch + 1) % 65536
  let root := s.fld b Grp.tblRoot % 65536
  if root ≠ s.node ∨ !s.groupUsed n.group ∨ (s.rankOfNode n.group n.node).isNone ∨ n.epoch ≠ epoch then
    s.ackMismatch n.group n.node
  else if s.q.acks.any fun (a : TblAck) =>
      a.group == n.group && a.epoch == epoch && a.node % 65536 == n.node % 65536 then s
  else
    let a : TblAck := ⟨n.group, epoch, n.node, n.fmt, n.coded, n.slot, n.gen, n.crc⟩
    let kept := s.q.acks.filter fun (x : TblAck) => x.group != n.group || x.epoch == epoch
    let s := { s with q := { s.q with acks := kept ++ [a] } }
    let k := (s.q.acks.filter fun (x : TblAck) => x.group == n.group).length
    let s := s.setFld b Grp.acks k
    if s.fld b Grp.nMembers ≤ k then s.compareAcks n.group epoch else s

/-- A TABLE_ACK that has reached its root's engine, which passes it to firmware (R150). -/
def State.ackToFirmware (s : State) (n : TblNote) : State :=
  s.duty (.tableAck { blankPkt with payload := tblNoteBytes 6 n }) (tableAckAt n)

/-! ### TABLE_INSTALL (R147-R149) -/

/-- Operands of TABLE_INSTALL (R147). -/
structure InstallOps where
  addr   : Nat
  action : Nat
  slot   : Nat
  gen    : Nat
  fmt    : Nat
  epoch  : Nat
  deriving DecidableEq, Repr

/-- The operands of a TABLE_INSTALL descriptor. -/
def installOps (d : Desc) : InstallOps :=
  { addr := opd d 0x20 8, action := opBits d 0x28 1 7 6, slot := opBits d 0x28 1 3 0, gen := opd d 0x29 1
    fmt := opBits d 0x2A 1 3 0, epoch := opd d 0x2C 2 }

/-- A DEF or a VALID PEND of a group names a slot (order 2 of R148). -/
def State.groupNames (s : State) (group slot : Nat) : Bool :=
  (List.range 5).any fun k =>
    let d := s.fld (grpBase group) (Grp.defFmt (4 + k))
    let p := s.pend group (4 + k)
    (d.testBit 7 && d % 16 == slot) || (p.testBit 6 && p.testBit 7 && p % 16 == slot)

/-- The acknowledgement would go on a connection whose agreed level does not carry it (R150, R253). -/
def State.rootLevelOne (s : State) (group : Nat) : Bool :=
  let b := grpBase group
  match s.rankOfNode group (s.fld b Grp.tblRoot) with
  | none => false
  | some r =>
    r != s.fld b Grp.myRank && match s.memberConn group r with
      | some c => s.connState c == 2 && !levelAllows (s.fld (connBase c) Conn.level) 0x10
      | none => false

/-- Orders 1 to 4 of R148, and after them FORMAT_VERSION for an acknowledgement that its connection may not carry
(R253). -/
def State.installFields (s : State) (group : Nat) (o : InstallOps) : Option Nat :=
  let loads := o.action < 2
  let sets := o.action = 1 ∨ o.action = 2
  let t := s.tbl o.slot
  let b := grpBase group
  if loads ∧ (o.addr % 64 ≠ 0 ∨ t.state ≠ .free ∨ o.gen = t.gen) then some 0x23
  else if o.action = 3 ∧ (t.state ≠ .loaded ∨ (List.range 4096).any fun g => s.groupNames g o.slot) then some 0x23
  else if sets ∧ !(decide (4 ≤ o.fmt ∧ o.fmt ≤ 8)) then some 0x70
  else if sets ∧ (!s.groupFits group || !s.membersOk group ||
      decide (o.epoch ≠ (s.fld b Grp.tableEpoch + 1) % 65536) || s.pendAny group) then some 0x23
  else if sets ∧ s.rootLevelOne group then some 0x70
  else none

/-- Orders 5 to 7 of R148. -/
def State.installFile (s : State) (o : InstallOps) : Option Nat :=
  let file := s.rd o.addr 0xA0
  if s.poisoned o.addr 0xA0 then some 0x50
  else if !fileCrcOk file then some 0x33
  else if !fileWf file || (o.action == 1 && leAt file 6 2 != alphabetOf (VFmt.ofCode o.fmt)) then some 0x70
  else none

/-- The slot that a table file makes (R142, R144). -/
def slotOf (file : Bytes) (gen : Nat) : TblSlot :=
  ⟨.loaded, gen, leAt file 8 4, leAt file 6 2, leAt file 0x9C 4, tableLens file, file, false⟩

/-- PEND and PEND_EPOCH set, and the acknowledgement sent to TBL_ROOT (R149). -/
def State.pendAndAck (s : State) (group : Nat) (o : InstallOps) : State :=
  let b := grpBase group
  let coded := o.action == 1
  let slot := if coded then o.slot else 0
  let s := (s.setFld b (Grp.pendFmt o.fmt) (b2n coded * 128 + 64 + slot)).setFld b Grp.pendEpoch o.epoch
  let t := s.tbl slot
  let n : TblNote :=
    { group := group, epoch := o.epoch, coded := coded, fmt := o.fmt, slot := slot
      gen := if coded then t.gen else 0, crc := if coded then t.crc else 0, node := s.node }
  match s.rankOfNode group (s.fld b Grp.tblRoot) with
  | none => s
  | some r =>
    if r = s.fld b Grp.myRank then s.ackToFirmware n
    else match s.memberConn group r with
      | some c => s.notice c 0 0 (tblNoteBytes 6 n)
      | none => s

/-- TABLE_INSTALL (R147-R149). -/
def startTableInstall (l : Live) (s : State) : State :=
  let o := installOps l.desc
  let g := l.desc.group.toNat
  match s.installFields g o, (if o.action < 2 then s.installFile o else none) with
  | some st, _ => s.endWith l st
  | none, some st => s.endWith l st
  | none, none =>
    let s :=
      if o.action < 2 then (s.setTbl o.slot (slotOf (s.rd o.addr 0xA0) o.gen)).loadCopies o.slot
      else if o.action = 3 then s.setTbl o.slot { s.tbl o.slot with state := .retiring }
      else s
    let s := if o.action = 1 ∨ o.action = 2 then s.pendAndAck g o else s
    s.endWith l 0

end Sys2Proof.Machine
end

