-- ==== Sys2Proof/Machine/Jobs.lean ====
section
/-! DEFINITION. Caissons (R314-R331): their records, the redo log, SNAPSHOT, LOG_APPEND, RESTORE and
SNAPSHOT_EXPORT, each a chain of writes, reads and FLUSHes over the entry's connection. -/

namespace Sys2Proof.Machine

/-! ### Entries -/

/-- What the engine holds of an entry. -/
def State.caisson (s : State) (e : Nat) : Caisson := nth s.snap.caissons e ⟨[none, none], none, 0, 0, [], [], 0, 0⟩

/-- What the engine holds of an entry replaced. -/
def State.setCaisson (s : State) (e : Nat) (f : Caisson → Caisson) : State :=
  { s with snap := { s.snap with caissons := modNth s.snap.caissons e f } }

/-- STATE of an entry (R341): 0 OFF, 1 CHECKING, 2 ARMED, 3 REFUSED, 4 LOST. -/
def State.entryState (s : State) (e : Nat) : Nat := s.regBits (R.snapCStat e) 31 29

/-- The connection of an entry. -/
def State.entryConn (s : State) (e : Nat) : Nat := s.regBits (R.snapCConn e) 14 0

/-- The offset of an entry's Caisson in its region. -/
def State.entryAddr (s : State) (e : Nat) : Nat :=
  s.regBits (R.snapCAddrLo e) 31 12 * 4096 + s.regBits (R.snapCAddrHi e) 15 0 * 2 ^ 32

/-- SLOT_MIB of an entry. -/
def State.slotMib (s : State) (e : Nat) : Nat := s.regBits (R.snapCSize e) 31 12

/-- LOG_MIB of an entry. -/
def State.logMib (s : State) (e : Nat) : Nat := s.regBits (R.snapCSize e) 11 0

/-- SLOT of an entry in bytes (R315). -/
def State.slotBytes (s : State) (e : Nat) : Nat := s.slotMib e * 2 ^ 20

/-- LOG of an entry in bytes (R315). -/
def State.logBytes (s : State) (e : Nat) : Nat := s.logMib e * 2 ^ 20

/-- The offset of slot A or B (R315). -/
def State.slotAddr (s : State) (e x : Nat) : Nat := s.entryAddr e + 0x1000 + x * s.slotBytes e

/-- The offset of the log (R315). -/
def State.logAddr (s : State) (e : Nat) : Nat := s.entryAddr e + 0x1000 + 2 * s.slotBytes e

/-! ### Records -/

/-- Bytes with CRC-32C over them in four more. -/
def withCrc (bs : Bytes) : Bytes := bs ++ toLE 4 (crc32c bs)

/-- The last four of n bytes hold the CRC-32C of the others. -/
def crcGood (n : Nat) (bs : Bytes) : Bool := crc32c (sub bs 0 (n - 4)) == leAt bs (n - 4) 4

/-- A Caisson header (R316). -/
def headerBytes (slotMib logMib node : Nat) : Bytes :=
  withCrc (toLE 4 0x48434B41 ++ toLE 1 1 ++ zeros 3 ++ toLE 4 slotMib ++ toLE 4 logMib ++ toLE 3 node ++ zeros 41)

/-- A header is valid (R316). -/
def headerGood (b : Bytes) : Bool := leAt b 0 4 == 0x48434B41 && leAt b 4 1 == 1 && crcGood 64 b

/-- A commit record (R317). -/
def commitBytes (c : Commit) : Bytes :=
  withCrc (toLE 4 0x43534B41 ++ toLE 1 1 ++ zeros 3 ++ toLE 4 c.seq ++ toLE 4 c.step ++ toLE 4 c.logStart ++
    toLE 4 c.recCrc ++ toLE 8 c.logOff ++ toLE 3 c.owner ++ zeros 25)

/-- The valid commit that 64 bytes spell (R317). -/
def commitOf (b : Bytes) : Option Commit :=
  if leAt b 0 4 = 0x43534B41 ∧ crcGood 64 b ∧ bit (leAt b 4 1) 0 then
    some ⟨leAt b 8 4, leAt b 0xC 4, leAt b 0x10 4, leAt b 0x14 4, leAt b 0x18 8, bits (leAt b 0x20 3) 19 0⟩
  else none

/-- The slot of the newest valid commit (R317). -/
def newestOf : List (Option Commit) → Option Nat
  | [some a, some b] =>
    let d := (b.seq + 2 ^ 32 - a.seq % 2 ^ 32) % 2 ^ 32
    some (if 1 ≤ d ∧ d < 2 ^ 31 then 1 else 0)
  | [some _, none] => some 0
  | [none, some _] => some 1
  | _ => none

/-- The slot of the older of two valid commits. -/
def olderOf (l : List (Option Commit)) : Option Nat :=
  match l with
  | [some _, some _] => (newestOf l).map (1 - ·)
  | _ => none

/-- A commit by its slot. -/
def commitAt (l : List (Option Commit)) (x : Option Nat) : Option Commit := x.bind fun i => nth l i none

/-- The commit whose LOG_OFF is the protected start (R324). -/
def guardOf (l : List (Option Commit)) : Option Commit :=
  commitAt l (match olderOf l with
    | some x => some x
    | none => newestOf l)

/-- A directory entry (R318). -/
def dirBytes (d : DirEntry) : Bytes :=
  toLE 2 d.id ++ zeros 6 ++ toLE 8 d.off ++ toLE 5 d.len ++ zeros 3 ++ toLE 4 d.crc ++ zeros 4

/-- Directory entry j of a directory's bytes. -/
def dirAt (b : Bytes) (j : Nat) : DirEntry :=
  let e := sub b (32 * j) 32
  ⟨leAt e 0 2, leAt e 8 8, leAt e 0x10 5, leAt e 0x18 4⟩

/-- A snapshot record (R318). -/
def State.recordOf (s : State) (seq step : Nat) (pos : Bytes) (dir : List DirEntry) : Bytes :=
  withCrc (toLE 4 0x52534B41 ++ toLE 1 1 ++ zeros 3 ++ toLE 4 seq ++ toLE 4 step ++ sub pos 0 16 ++
    toLE 8 s.seed.toNat ++ ((List.range 8).map fun i => toLE 4 (s.reg (R.hostCtr i))).flatten ++
    toLE 8 s.reproId ++ toLE 3 s.node ++ zeros 1 ++ toLE 4 dir.length ++
    toLE 8 ((dir.map (·.len)).sum) ++ toLE 4 (crc32c ((dir.map dirBytes).flatten)) ++ zeros 152)

/-! ### The redo log (R324, R325) -/

/-- A log entry's header. -/
def logHeader (d : Desc) (entry step tensor spanBytes : Nat) : Bytes :=
  withCrc (toLE 4 0x454C4B41 ++ toLE 4 entry ++ toLE 4 step ++ toLE 2 d.group.toNat ++ toLE 2 d.channel.toNat ++
    toLE 4 d.seq.toNat ++ toLE 2 tensor ++ zeros 2 ++ toLE 4 spanBytes ++ zeros 32)

/-- A header is that of entry n (R325). -/
def logHeaderIs (b : Bytes) (n : Nat) : Bool :=
  leAt b 0 4 == 0x454C4B41 && crcGood 64 b && leAt b 4 4 == n % 2 ^ 32

/-- The bytes an entry takes in the log, from its header. -/
def logSize (b : Bytes) : Nat := 64 + alignUp (leAt b 0x18 4) 64

/-- The log holds no entry from the protected start on. -/
def Caisson.empty (k : Caisson) : Bool :=
  match guardOf k.commits with
  | some g => g.logStart == k.next
  | none => true

/-- Bytes free in a log before the protected start (R324). -/
def Caisson.free (k : Caisson) (log : Nat) : Nat :=
  match guardOf k.commits with
  | none => log
  | some g =>
    if k.empty then log
    else if g.logOff < k.tail then log - k.tail + g.logOff
    else g.logOff - k.tail

/-- Where an entry of a size goes (R324); none when it does not fit. -/
def Caisson.place (k : Caisson) (log size : Nat) : Option Nat :=
  let start := match guardOf k.commits with
    | some g => g.logOff
    | none => k.tail
  let fits := decide (k.tail + size ≤ log)
  if k.empty then (if fits then some k.tail else if size ≤ k.tail then some 0 else none)
  else if start < k.tail then (if fits then some k.tail else if size ≤ start then some 0 else none)
  else if k.tail + size ≤ start then some k.tail else none

/-- The registers of an entry that follow what the engine holds of it (R341). -/
def State.showEntry (s : State) (e : Nat) : State :=
  let k := s.caisson e
  let s := match newestOf k.commits, commitAt k.commits (newestOf k.commits) with
    | some x, some c =>
      ((s.setRegBits (R.snapCStat e) 24 24 x).setReg (R.snapCSeq e) c.seq).setReg (R.snapCStep e) c.step
    | _, _ => ((s.setRegBits (R.snapCStat e) 24 24 0).setReg (R.snapCSeq e) 0).setReg (R.snapCStep e) 0
  let s := s.setRegBits (R.snapCStat e) 25 25 (b2n k.openAt.isSome)
  (s.setReg (R.snapCLogNext e) k.next).setReg (R.snapCLogFree e) (k.free (s.logBytes e) / 1024)

/-! ### Jobs -/

/-- A job put to work. -/
def State.addJob (s : State) (live : Option Nat) (e conn : Nat) (stage : Stage) (f : Job → Job) : Job × State :=
  let j : Job := f
    { id := s.snap.nextJob, live := live, entry := e, conn := conn, stage := stage, data := [], buf := [], slot := 0
      pos := 0, count := 0, num := 0, last := 0, diffs := 0, status := [] }
  (j, { s with snap := { s.snap with jobs := s.snap.jobs ++ [j], nextJob := s.snap.nextJob + 1 } })

/-- A job replaced. -/
def State.setJob (s : State) (j : Job) : State :=
  { s with snap := { s.snap with jobs := s.snap.jobs.map fun x => if x.id = j.id then j else x } }

/-- A job by its number. -/
def State.jobById (s : State) (id : Nat) : Option Job := s.snap.jobs.find? fun j => j.id == id

/-- A message of a job, on virtual lane 4 (R248). -/
def jobMsg (j : Job) (conn op len : Nat) (load : Load) : OutMsg :=
  { newMsg conn false op len load with vl := 4, counter := j.id }

/-- Bytes written to a region over a connection. -/
def State.jobWrite (s : State) (j : Job) (conn key addr : Nat) (bs : Bytes) (poison : List Nat := []) : State :=
  s.post { jobMsg j conn 0x01 bs.length (.data bs poison) with key := key, addr := addr }

/-- The pieces of at most 2^31 bytes of a run: offset and length. -/
def piecesOf : Nat → Nat → Nat → List (Nat × Nat)
  | 0, _, _ => []
  | n + 1, off, len => if len = 0 then [] else (off, min len (2 ^ 31)) :: piecesOf n (off + 2 ^ 31) (len - 2 ^ 31)

/-- The bytes of a segment written to a region over a connection, cut into messages of at most 2^31 bytes: a message's
length has 32 bits (R255). -/
def State.jobCopy (s : State) (j : Job) (conn key addr : Nat) (bs : Bytes) : State :=
  (piecesOf (bs.length / 2 ^ 31 + 1) 0 bs.length).foldl (fun (s : State) p =>
    s.jobWrite j conn key (addr + p.1) (sub bs p.1 p.2)) s

/-- A read of a region, whose answer the job waits for. -/
def State.jobRead (s : State) (j : Job) (conn key addr len : Nat) : State :=
  s.post { jobMsg j conn 0x02 0 (.data [] []) with key := key, addr := addr, add := len }

/-- A FLUSH, whose answer the job waits for. -/
def State.jobFlush (s : State) (j : Job) (conn : Nat) : State := s.post (jobMsg j conn 0x08 0 (.data [] []))

/-- The region key of an entry. -/
def State.entryKey (s : State) (e : Nat) : Nat := s.reg (R.snapCKey e)

/-- Bytes written to an entry's Caisson. -/
def State.putEntry (s : State) (j : Job) (addr : Nat) (bs : Bytes) (poison : List Nat := []) : State :=
  s.jobWrite j j.conn (s.entryKey j.entry) addr bs poison

/-- Bytes read from an entry's Caisson. -/
def State.getEntry (s : State) (j : Job) (addr len : Nat) : State :=
  s.jobRead j j.conn (s.entryKey j.entry) addr len

/-- A job fails: its descriptor ends, or its entry is refused. -/
def State.jobFail (s : State) (j : Job) (status : Nat) : State :=
  match j.live with
  | none => s.refuseEntry j.entry status
  | some id =>
    match s.q.live.find? (·.id == id) with
    | some l => s.endJobs l status
    | none => s

/-- The descriptor of a job. -/
def State.jobLive (s : State) (j : Job) : Option Live :=
  match j.live with
  | some id => s.q.live.find? (·.id == id)
  | none => none

/-! ### Arming, step 3 (R314, R316) -/

/-- Arming reads the Caisson header and both commits. -/
def State.startArm (s : State) (e : Nat) : State :=
  let (j, s) := s.addJob none e (s.entryConn e) .armHead id
  match s.connCheck j.conn 0x02 with
  | some status => if s.connState j.conn = 2 ∨ s.connState j.conn = 3 then s.jobFail j status
    else s.getEntry j (s.entryAddr e) 192
  | none => s.getEntry j (s.entryAddr e) 192

/-- The entry becomes ARMED (R314). -/
def State.armed (s : State) (j : Job) (next tail : Nat) : State :=
  let s := (s.setCaisson j.entry fun k => { k with next := next, tail := tail }).jobDone j
  (s.setRegBits (R.snapCStat j.entry) 31 29 2).showEntry j.entry

/-- Arming reads the log entry expected at a position, or at offset 0 (R325). -/
def State.readLogAt (s : State) (j : Job) (second : Bool) : State :=
  let p := if second then 0 else j.pos
  s.getEntry j (s.logAddr j.entry + p) 64

/-- Arming looks for the next log entry; a header that would pass the log's end is read at offset 0. -/
def State.armWalk (s : State) (j : Job) : State :=
  let second := decide (s.logBytes j.entry < j.pos + 64)
  if s.logBytes j.entry < 64 then s.armed j j.num j.pos
  else
    let j := { j with stage := .armLog second }
    (s.setJob j).readLogAt j second

/-- The header and commits that arming read (R316). -/
def State.armHead (s : State) (j : Job) (b : Bytes) : State :=
  let e := j.entry
  if !headerGood (sub b 0 64) then
    let s := s.setJob { j with stage := .armFresh }
    let s := s.putEntry j (s.entryAddr e) (headerBytes (s.slotMib e) (s.logMib e) s.node ++ zeros 0xFC0)
    s.jobFlush j j.conn
  else if leAt b 8 4 ≠ s.slotMib e ∨ leAt b 0xC 4 ≠ s.logMib e then s.refuseEntry e 0x23
  else
    let cs := [commitOf (sub b 64 64), commitOf (sub b 128 64)]
    let s := s.setCaisson e fun k => { k with commits := cs, entries := [] }
    match guardOf cs with
    | none => s.armed j 0 0
    | some g => s.armWalk { j with num := g.logStart, pos := g.logOff }

/-- A log header that arming read (R325). -/
def State.armLog (s : State) (j : Job) (second : Bool) (b : Bytes) : State :=
  if logHeaderIs b j.num then
    let p := if second then 0 else j.pos
    let x : LogEntry := ⟨j.num, leAt b 8 4, p, logSize b⟩
    let s := s.setCaisson j.entry fun k => { k with entries := k.entries ++ [x] }
    s.armWalk { j with num := (j.num + 1) % 2 ^ 32, pos := p + logSize b }
  else if second then s.armed j j.num j.pos
  else
    let j := { j with stage := .armLog true }
    (s.setJob j).readLogAt j true

/-! ### SNAPSHOT (R319-R321) -/

/-- Operands of SNAPSHOT. -/
structure SnapOps where
  table   : Nat
  posAddr : Nat
  step    : Nat
  nSegs   : Nat
  isBegin  : Bool
  isCommit : Bool
  entries : List Nat
  deriving DecidableEq, Repr

/-- The entries that two bits name. -/
def entriesOf (n : Nat) : List Nat := setIdx n 2

/-- The operands of a SNAPSHOT descriptor. -/
def snapOps (d : Desc) : SnapOps :=
  { table := opd d 0x20 8, posAddr := opd d 0x28 8, step := opd d 0x30 4, nSegs := opd d 0x34 2
    isBegin := opBit d 0x36 7, isCommit := opBit d 0x36 6, entries := entriesOf (opBits d 0x36 1 1 0) }

/-- A segment of a segment table (R319): address, length, SEG_ID. -/
structure Seg where
  addr : Nat
  len  : Nat
  id   : Nat
  deriving DecidableEq, Repr

/-- The n segments that a table spells. -/
def segsOf (table : Bytes) (n : Nat) : List Seg :=
  (List.range n).map fun i =>
    let b := sub table (16 * i) 16
    ⟨leAt b 0 8, leAt b 8 5, leAt b 0xE 2⟩

/-- The segments of a table in host memory. -/
def State.segTable (s : State) (addr n : Nat) : List Seg := segsOf (s.rd addr (16 * n)) n

/-- Where segments go in a slot from an offset on, their bytes standing one after another (R320): the directory entry and
the bytes of each, and the offset after them. -/
def layOut : Nat → List Seg → Bytes → List (DirEntry × Bytes) × Nat
  | off, [], _ => ([], off)
  | off, x :: t, bs =>
    let a := alignUp off 4096
    let b := bs.take x.len
    let (d, e) := layOut (a + x.len) t (bs.drop x.len)
    ((⟨x.id, a, x.len, crc32c b⟩, b) :: d, e)

/-- Where segments end in a slot, without their contents. -/
def endOf : Nat → List Seg → Nat
  | off, [] => off
  | off, x :: t => endOf (alignUp off 4096 + x.len) t

/-- The checks of entries at orders 2 to 4 of R321. -/
def State.entriesCheck (s : State) (es : List Nat) : Option Nat :=
  if es.any fun e => s.entryState e == 3 then some 0x60
  else if es.any fun e => s.entryState e == 4 then some 0x41
  else if es.any fun e => s.entryState e != 2 then some 0x23
  else none

/-- Order 5 of R321 for an entry. -/
def State.openBad (s : State) (o : SnapOps) (e : Nat) : Bool :=
  let k := s.caisson e
  if o.isBegin then k.openAt.isSome else k.openAt.isNone || k.step != o.step

/-- Order 6 of R321 for an entry. -/
def State.segsBad (s : State) (o : SnapOps) (segs : List Seg) (e : Nat) : Bool :=
  let k := s.caisson e
  let off := if o.isBegin then 0x10000 else k.off
  let n := if o.isBegin then 0 else k.dir.length
  (segs.any fun x => decide (x.addr % 64 ≠ 0 ∨ x.len = 0 ∨ x.len % 64 ≠ 0)) || decide (2040 < n + segs.length) ||
  (!segs.isEmpty && decide (s.slotBytes e < endOf off segs))

/-- The first status of the checks of connections (R263). -/
def State.entriesConn (s : State) (es : List Nat) : Option Nat := es.findSome? fun e => s.connCheck (s.entryConn e) 0x01

/-- The segments of a SNAPSHOT's part, as its table was read at dispatch. -/
def Job.segs (j : Job) (o : SnapOps) : List Seg := segsOf j.data o.nSegs

/-- The source words of a part read, once for all the entries that it names (R320): its segments and, with COMMIT, its
position record stand behind the table in `data`, and `num` becomes 1. The Bool says that one was poisoned. They are read
together when the first entry's part begins (DESIGN CHOICE, log entry 118). -/
def State.snapRead (s : State) (j : Job) (o : SnapOps) : Job × Bool × State :=
  if j.num = 1 then (j, false, s)
  else
    let segs := j.segs o
    let bad := (o.isCommit && s.poisoned o.posAddr 64) || segs.any fun x => s.poisoned x.addr x.len
    let bs := j.data ++ (segs.map fun x => s.rd x.addr x.len).flatten ++ (if o.isCommit then s.rd o.posAddr 64 else [])
    let jobs := s.snap.jobs.map fun k => if k.live = j.live then { k with data := bs, num := 1 } else k
    ({ j with data := bs, num := 1 }, bad, { s with snap := { s.snap with jobs := jobs } })

/-- The commit step of a part (R320): the directory and the snapshot record, with the position record that the part read,
and FLUSH. -/
def State.snapCommit (s : State) (j : Job) (o : SnapOps) : State :=
  let k := s.caisson j.entry
  let seq := match commitAt k.commits (newestOf k.commits) with
    | some c => (c.seq + 1) % 2 ^ 32
    | none => 1
  let pos := j.data.drop (16 * o.nSegs + ((j.segs o).map (·.len)).sum)
  let rec_ := s.recordOf seq o.step pos k.dir
  let s := s.setJob { j with stage := .snapRecord, data := rec_ }
  let s := s.putEntry j (s.slotAddr j.entry j.slot) (rec_ ++ (k.dir.map dirBytes).flatten)
  s.jobFlush j j.conn

/-- The part step (R320): every segment copied; a part with COMMIT goes on, another is done when all has been
handed over. A poisoned source word fails it (R321). -/
def State.snapPart (s : State) (j : Job) (o : SnapOps) : State :=
  let e := j.entry
  let (j, bad, s) := s.snapRead j o
  if bad then s.jobFail j 0x50
  else
  let segs := j.segs o
  let (dir, off) := layOut (s.caisson e).off segs (j.data.drop (16 * o.nSegs))
  let j := { j with stage := .snapCopy, count := (segs.map (·.len)).sum }
  let s := (s.setCaisson e fun k => { k with off := off, dir := k.dir ++ dir.map (·.1) }).setJob
    { j with stage := if o.isCommit then .snapRecord else .snapWait }
  let s := dir.foldl (fun (s : State) p =>
    s.jobCopy j j.conn (s.entryKey e) (s.slotAddr e j.slot + p.1.off) p.2) s
  if o.isCommit then s.snapCommit j o
  else if s.x.out.any fun x => x.live.isNone && x.op == 0x01 && x.counter == j.id then s.setJob j
  else (s.setJob j).jobDone j

/-- An export reads a slot of an entry (R331). -/
def State.exporting (s : State) (e x : Nat) : Bool :=
  s.snap.jobs.any fun j => decide (j.entry = e ∧ j.slot = x) &&
    match s.jobLive j with
    | some l => l.op == 0x33
    | none => false

/-- The begin step (R320): it waits while an export reads the slot, then empties the slot's commit. -/
def State.snapBegin (s : State) (j : Job) : State :=
  if s.exporting j.entry j.slot then s.setJob { j with stage := .snapWait }
  else
    let s := s.setJob { j with stage := .snapBegin }
    let s := s.setCaisson j.entry fun k => { k with commits := modNth k.commits j.slot fun _ => none }
    let s := s.showEntry j.entry
    (s.putEntry j (s.entryAddr j.entry + 0x40 + 0x40 * j.slot) (zeros 64)).jobFlush j j.conn

/-- SNAPSHOT at work on one entry. -/
def State.snapEntry (s : State) (l : Live) (o : SnapOps) (e : Nat) : State :=
  let k := s.caisson e
  let x := if o.isBegin then (match newestOf k.commits with
    | some n => 1 - n
    | none => 0) else k.openAt.getD 0
  let (j, s) := s.addJob (some l.id) e (s.entryConn e) .snapWait fun j =>
    { j with slot := x, data := s.rd o.table (16 * o.nSegs) }
  if o.isBegin then
    let s := s.setCaisson e fun k => { k with openAt := some x, step := o.step, off := 0x10000, dir := [] }
    (s.showEntry e).snapBegin j
  else s.snapPart j o

/-- Another SNAPSHOT is at work on an entry that this one names. -/
def State.snapBusy (s : State) (es : List Nat) : Bool :=
  s.snap.jobs.any fun j => es.contains j.entry && match s.jobLive j with
    | some l => l.op == 0x30
    | none => false

/-- SNAPSHOT (R319-R321). Parts of one entry's snapshot run one after another. -/
def startSnapshot (l : Live) (s : State) : State :=
  let o := snapOps l.desc
  if s.snapBusy o.entries then s
  else if o.entries = [] ∨ o.table % 64 ≠ 0 ∨ o.posAddr % 64 ≠ 0 ∨ 2040 < o.nSegs ∨ (o.nSegs = 0 ∧ !o.isCommit) then
    s.endWith l 0x23
  else match s.entriesCheck o.entries with
    | some st => s.endWith l st
    | none =>
      if o.entries.any (s.openBad o) then s.endWith l 0x23
      else
        let segs := s.segTable o.table o.nSegs
        let cut (s : State) : State :=
          if o.isBegin then s else o.entries.foldl (fun (s : State) e => s.abandon e) s
        if o.entries.any (s.segsBad o segs) then (cut s).endWith l 0x23
        else
        let (ok, s) := s.useConns (o.entries.map s.entryConn)
        if !ok then (cut s).endWith l 0x51
        else match s.entriesConn o.entries with
          | some st => (cut s).endWith l st
          | none =>
            if s.poisoned o.table (16 * o.nSegs) then (cut s).endWith l 0x50
            else o.entries.foldl (fun (s : State) e => if s.q.live.any (·.id == l.id) then s.snapEntry l o e else s)
              (s.setPhase l.id .job)

/-- A SNAPSHOT that waited for an export goes on (R331). -/
def State.snapResume (s : State) : State :=
  (s.snap.jobs.map (·.id)).foldl (fun (s : State) id =>
    match s.jobById id with
    | some j => if j.stage = .snapWait then s.snapBegin j else s
    | none => s) s

/-- The commit record, after the record's FLUSH (R320), and behind it the header, which names the chip that committed last
(R316; when it is written R320 does not say: DESIGN CHOICE, log entry 119). -/
def State.snapSeal (s : State) (j : Job) (o : SnapOps) : State :=
  let e := j.entry
  let k := s.caisson e
  let first := k.entries.find? fun x => decide (o.step < x.step)
  let c : Commit :=
    { seq := leAt j.data 8 4, step := o.step, logStart := (first.map (·.entry)).getD k.next
      recCrc := leAt j.data 0xFC 4, logOff := (first.map (·.off)).getD k.tail, owner := s.node }
  let s := s.setJob { j with stage := .snapCommit, data := commitBytes c }
  let s := s.putEntry j (s.entryAddr e + 0x40 + 0x40 * j.slot) (commitBytes c)
  (s.putEntry j (s.entryAddr e) (headerBytes (s.slotMib e) (s.logMib e) s.node)).jobFlush j j.conn

/-- The snapshot is committed (R320, R325): log entries that neither commit needs are forgotten. -/
def State.snapDone (s : State) (j : Job) : State :=
  let e := j.entry
  let s := s.setCaisson e fun k =>
    let cs := modNth k.commits j.slot fun _ => commitOf j.data
    let keep := match guardOf cs with
      | some g => k.entries.dropWhile fun x => x.entry != g.logStart
      | none => k.entries
    { k with commits := cs, openAt := none, step := 0, off := 0, dir := [], entries := keep }
  ((s.showEntry e).bump R.snapCommits).jobDone j

/-! ### LOG_APPEND (R323, R324) -/

/-- Operands of LOG_APPEND. -/
structure LogOps where
  addr    : Nat
  step    : Nat
  tensor  : Nat
  entries : List Nat
  deriving DecidableEq, Repr

/-- The operands of a LOG_APPEND descriptor. -/
def logOps (d : Desc) : LogOps :=
  { addr := opd d 0x20 8, step := opd d 0x28 4, tensor := opd d 0x2C 2, entries := entriesOf (opBits d 0x2E 1 1 0) }

/-- An entry may take a span of a step: it has a commit of an earlier step (R323). -/
def State.logReady (s : State) (o : LogOps) (e : Nat) : Bool :=
  let k := s.caisson e
  match commitAt k.commits (newestOf k.commits) with
  | some c => decide (c.step < o.step)
  | none => false

/-- LOG_APPEND at work on one entry. -/
def State.logEntry (s : State) (l : Live) (o : LogOps) (d : SpanData) (e : Nat) : State :=
  let k := s.caisson e
  let size := 64 + alignUp d.raw.length 64
  let p := (k.place (s.logBytes e) size).getD 0
  let (j, s) := s.addJob (some l.id) e (s.entryConn e) .logFlush fun j =>
    { j with count := d.raw.length, status := if d.poison.isEmpty then [] else [0x50] }
  let bs := logHeader l.desc k.next o.step o.tensor d.raw.length ++ padTo 64 d.raw
  let s := s.setCaisson e fun k =>
    { k with entries := k.entries ++ [⟨k.next, o.step, p, size⟩], next := (k.next + 1) % 2 ^ 32, tail := p + size }
  let s := (s.showEntry e).putEntry j (s.logAddr e + p) bs (d.poison.map (· + 4))
  s.jobFlush j j.conn

/-- LOG_APPEND (R323). -/
def startLogAppend (l : Live) (s : State) : State :=
  let o := logOps l.desc
  if o.entries = [] ∨ o.addr % 64 ≠ 0 then s.endWith l 0x23
  else
    let d := s.hostSpan o.addr
    match checkSpanHdr (s.accept 2) d with
    | some st => (s.logReject l.op st d 0 0).endWith l st
    | none =>
      if (parseSpanHdr d.raw).step ≠ o.step then s.endWith l 0x23
      else match s.entriesCheck o.entries with
        | some st => s.endWith l st
        | none =>
          if o.entries.any fun e => !s.logReady o e then s.endWith l 0x23
          else if o.entries.any fun e => ((s.caisson e).place (s.logBytes e) (64 + alignUp d.raw.length 64)).isNone then
            ((s.bump R.snapLogFullCnt).raiseIrq 6 4).endWith l 0x23
          else
            let (ok, s) := s.useConns (o.entries.map s.entryConn)
            if !ok then s.endWith l 0x51
            else match s.entriesConn o.entries with
            | some st => s.endWith l st
            | none => o.entries.foldl (fun (s : State) e => s.logEntry l o d e) (s.setPhase l.id .job)

/-! ### What RESTORE and SNAPSHOT_EXPORT read alike (orders 2 to 5 of R328) -/

/-- The commit that a descriptor asks for, with its slot and its 64 bytes, from a Caisson's first 192 bytes. -/
def State.wantedCommit (s : State) (e : Nat) (b : Bytes) (older : Bool) : Except Nat (Nat × Bytes) :=
  if !headerGood (sub b 0 64) then .error 0x33
  else if leAt b 8 4 ≠ s.slotMib e ∨ leAt b 0xC 4 ≠ s.logMib e then .error 0x23
  else
    let cs := [commitOf (sub b 64 64), commitOf (sub b 128 64)]
    match if older then olderOf cs else newestOf cs with
    | none => .error 0x61
    | some x => .ok (x, sub b (64 + 64 * x) 64)

/-- Order 4 of R328: the snapshot record is whole and the commit's. -/
def recordGood (commit rec_ : Bytes) : Bool := crcGood 256 rec_ && leAt rec_ 0xFC 4 == leAt commit 0x14 4

/-- N_SEGS of a snapshot record. -/
def recordSegs (rec_ : Bytes) : Nat := leAt rec_ 0x54 4

/-- Order 5 of R328. -/
def dirGood (rec_ dir : Bytes) : Bool := crc32c (sub dir 0 (32 * recordSegs rec_)) == leAt rec_ 0x60 4

/-- The parts of what a job has gathered: commit, record, directory. -/
def Job.commit (j : Job) : Bytes := sub j.data 0 64
/-- The snapshot record read. -/
def Job.record (j : Job) : Bytes := sub j.data 64 256
/-- The directory read. -/
def Job.dir (j : Job) : Bytes := j.data.drop 320

/-- The next piece of the segment a job stands at, or none when it has been read whole. -/
def State.readSeg (s : State) (j : Job) (d : DirEntry) : Option State :=
  if j.buf.length < d.len then
    some (s.getEntry j (s.slotAddr j.entry j.slot + d.off + j.buf.length) (min (2 ^ 31) (d.len - j.buf.length)))
  else none

/-! ### RESTORE (R327-R329) -/

/-- Operands of RESTORE. -/
structure RestOps where
  table  : Nat
  report : Nat
  log    : Nat
  cap    : Nat
  nSegs  : Nat
  force  : Bool
  older  : Bool
  entry  : Nat
  deriving DecidableEq, Repr

/-- The operands of a RESTORE descriptor. -/
def restOps (d : Desc) : RestOps :=
  { table := opd d 0x20 8, report := opd d 0x28 8, log := opd d 0x30 8, cap := opd d 0x38 4, nSegs := opd d 0x3C 2
    force := opBit d 0x3E 7, older := opBit d 0x3E 6, entry := opBits d 0x3E 1 0 0 }

/-- Bits of a REPRO_ID other than UNIT (R384). -/
def reproCore (r : Nat) : Nat := setBits r 35 20 0

/-- STEP_DIFF, REPRO_DIFF and UNIT_DIFF of a restore (order 6 of R328), as bits 0, 1 and 2. -/
def State.restDiffs (s : State) (j : Job) : Nat :=
  let step := leAt j.commit 0xC 4
  let r := j.record
  let id := leAt r 0x48 8
  b2n (decide (leAt r 0xC 4 ≠ step ∨ leAt r 0x18 4 ≠ step ∨ leAt r 0x1C 4 ≠ step)) +
  2 * b2n (reproCore id != reproCore s.reproId) + 4 * b2n (bits id 35 20 != bits s.reproId 35 20)

/-- Order 6 of R328 found a difference that only FORCE passes. -/
def Job.differs (j : Job) : Bool := j.diffs % 4 != 0

/-- The restore report (R329), with the differences that order 6 found (R386). -/
def restReport (j : Job) (o : RestOps) (trunc : Bool) : Bytes :=
  let forced := o.force && j.differs
  let r := j.record
  sub j.commit 8 4 ++ sub j.commit 0xC 4 ++ sub r 0x10 8 ++ sub r 0x18 4 ++ sub r 0x1C 4 ++ sub r 0x48 8 ++
  toLE 4 j.count ++ toLE 4 j.last ++ toLE 8 j.num ++
  toLE 1 (b2n o.older + b2n forced * 2 + j.diffs % 4 * 4 + b2n trunc * 16 + j.diffs / 4 * 32) ++ zeros 15

/-- RESTORE ends (orders 11 and 12 of R328): the report, then the first failure in its precedence. -/
def State.restEnd (s : State) (j : Job) (o : RestOps) : State :=
  let trunc := j.status.contains 0x23
  let s := s.wr o.report (restReport j o trunc)
  let status := if j.status.contains 0x33 then 0x33 else if j.status.contains 0x61 then 0x61
    else if trunc then 0x23 else if j.status.contains 0x50 then 0x50 else 0
  s.jobDone { j with status := [status] }

/-- RESTORE reads its commit again (order 11 of R328). -/
def State.restAgain (s : State) (j : Job) : State :=
  let j := { j with stage := .resAgain }
  (s.setJob j).getEntry j (s.entryAddr j.entry + 0x40 + 0x40 * j.slot) 64

/-- RESTORE looks for the next log entry (order 10 of R328, R325): `last`, `num` and `count` hold the step of the
last entry, the bytes and the entries copied. -/
def State.restWalk (s : State) (j : Job) (o : RestOps) : State :=
  if o.log = 0 ∨ s.logBytes j.entry < 64 then s.restAgain j
  else
    let second := decide (s.logBytes j.entry < j.pos + 64)
    let j := { j with stage := .resLog second, buf := [] }
    (s.setJob j).readLogAt j second

/-- The number of the log entry RESTORE expects next. -/
def restExpects (j : Job) : Nat := (leAt j.commit 0x10 4 + j.count) % 2 ^ 32

/-- A log header that RESTORE read. -/
def State.restLog (s : State) (j : Job) (o : RestOps) (second : Bool) (b : Bytes) : State :=
  if logHeaderIs b (restExpects j) then
    let p := if second then 0 else j.pos
    if o.cap < j.num + logSize b then s.restAgain { j with status := j.status ++ [0x23] }
    else
      let j := { j with stage := .resSpan, buf := b, pos := p }
      (s.setJob j).getEntry j (s.logAddr j.entry + p + 64) (logSize b - 64)
  else if second then s.restAgain j
  else
    let j := { j with stage := .resLog true }
    (s.setJob j).readLogAt j true

/-- A log entry's span that RESTORE read: the entry is copied to LOG_ADDR. -/
def State.restSpan (s : State) (j : Job) (o : RestOps) (b : Bytes) (poison : Bool) : State :=
  let size := logSize j.buf
  let s := (s.wr (o.log + j.num) (sub j.buf 0 64)).wrP poison (o.log + j.num + 64) b
  s.restWalk { j with num := j.num + size, count := j.count + 1, last := leAt j.buf 8 4, pos := j.pos + size
                      status := if poison then j.status ++ [0x50] else j.status } o

/-- SEED committed and HOST_CTR0-7 written (order 9 of R328), then the log from LOG_OFF. -/
def State.restSeeds (s : State) (j : Job) (o : RestOps) : State :=
  let r := j.record
  let s := ((s.setReg R.rngSeedLo (leAt r 0x20 4)).setReg R.rngSeedHi (leAt r 0x24 4)).setReg R.rngActiveLo (leAt r 0x20 4)
  let s := (s.setReg R.rngActiveHi (leAt r 0x24 4)).setRegBits R.rngStat 0 0 1
  let s := (List.range 8).foldl (fun (s : State) i => s.setReg (R.hostCtr i) (leAt r (0x28 + 4 * i) 4)) s
  s.restWalk { j with pos := leAt j.commit 0x18 8, num := 0, count := 0, last := 0 } o

/-- The destinations of a RESTORE with the directory entries they name, when all are there (order 7 of R328). -/
def State.restPlan (s : State) (j : Job) (o : RestOps) : Option (List (Seg × DirEntry)) :=
  let dir := (List.range (recordSegs j.record)).map (dirAt j.dir)
  (s.segTable o.table o.nSegs).mapM fun x => (dir.find? fun d => d.id == x.id && d.len == x.len).map fun d => (x, d)

/-- RESTORE reads the segment it stands at, or goes on to order 9. -/
def State.restSeg (s : State) (j : Job) (o : RestOps) : State :=
  match (s.restPlan j o).bind fun l => l[j.pos]? with
  | none => s.restSeeds j o
  | some (_, d) =>
    let j := { j with stage := .resSeg, buf := [] }
    ((s.setJob j).readSeg j d).getD s

/-- A piece of a segment that RESTORE read (order 8 of R328): a whole segment is written, poisoned when its CRC
is wrong. -/
def State.restPiece (s : State) (j : Job) (o : RestOps) (b : Bytes) : State :=
  match (s.restPlan j o).bind fun l => l[j.pos]? with
  | none => s.restSeeds j o
  | some (x, d) =>
    let j := { j with buf := j.buf ++ b }
    match (s.setJob j).readSeg j d with
    | some s => s
    | none =>
      let bad := crc32c j.buf != d.crc
      (s.wrP bad x.addr j.buf).restSeg
        { j with pos := j.pos + 1, status := if bad then j.status ++ [0x33] else j.status } o

/-- A RESTORE that passes order 6 only by FORCE counted (R328, R390). -/
def State.countForced (s : State) (j : Job) : State :=
  let s := s.bump R.snapForcedCnt
  match (s.jobLive j).map (·.desc.group.toNat) with
  | some g => if s.groupUsed g then s.bumpFld (grpBase g) Grp.nondetCnt else s
  | none => s

/-- The directory that RESTORE read (orders 5 to 7 of R328). -/
def State.restDir (s : State) (j : Job) (o : RestOps) : State :=
  let j := { j with diffs := s.restDiffs j }
  if !dirGood j.record j.dir then s.jobFail j 0x33
  else if j.differs && !o.force then (s.wr o.report (restReport j o false)).jobFail j 0x61
  else
    let s := if j.differs then s.countForced j else s
    if (s.restPlan j o).isNone then (s.wr o.report (restReport j o false)).jobFail j 0x61
    else s.restSeg { j with pos := 0 } o

/-- RESTORE (R327). -/
def startRestore (l : Live) (s : State) : State :=
  let o := restOps l.desc
  let c := s.entryConn o.entry
  if o.table % 64 ≠ 0 ∨ o.report % 64 ≠ 0 ∨ o.log % 64 ≠ 0 ∨ o.nSegs = 0 ∨ 2040 < o.nSegs ∨ s.slotMib o.entry = 0 then
    s.endWith l 0x23
  else if s.poisoned o.table (16 * o.nSegs) then s.endWith l 0x50
  else
  let (ok, s) := s.useConns [c]
  if !ok then s.endWith l 0x51
  else match s.connCheck c 0x02 with
    | some st => s.endWith l st
    | none =>
      let (j, s) := (s.setPhase l.id .job).addJob (some l.id) o.entry c .resHead id
      s.getEntry j (s.entryAddr o.entry) 192

/-! ### SNAPSHOT_EXPORT (R330, R331) -/

/-- Operands of SNAPSHOT_EXPORT. -/
structure ExpOps where
  addr  : Nat
  key   : Nat
  conn  : Nat
  older : Bool
  entry : Nat
  deriving DecidableEq, Repr

/-- The operands of a SNAPSHOT_EXPORT descriptor. -/
def expOps (d : Desc) : ExpOps :=
  { addr := opd d 0x20 6, key := opd d 0x28 4, conn := opBits d 0x2C 2 14 0, older := opBit d 0x2E 1
    entry := opBits d 0x2E 1 0 0 }

/-- The commit record of the copy (R330). -/
def State.expCommit (s : State) (j : Job) : Bytes :=
  commitBytes ⟨leAt j.commit 8 4, leAt j.commit 0xC 4, 0, leAt j.commit 0x14 4, 0, s.node⟩

/-- The export reads the segment it stands at, or flushes its copy. -/
def State.expSeg (s : State) (j : Job) (o : ExpOps) : State :=
  if j.pos < recordSegs j.record then
    let j := { j with stage := .expSeg, buf := [] }
    let t := s.setJob j
    match t.readSeg j (dirAt j.dir j.pos) with
    | some t => t
    | none => t.jobFail j 0x33
  else
    let j := { j with stage := .expFlush }
    (s.setJob j).jobFlush j o.conn

/-- A piece of a segment that the export read: a whole one is written to the copy, when its CRC is right. -/
def State.expPiece (s : State) (j : Job) (o : ExpOps) (b : Bytes) : State :=
  let d := dirAt j.dir j.pos
  let j := { j with buf := j.buf ++ b }
  match (s.setJob j).readSeg j d with
  | some s => s
  | none =>
    if crc32c j.buf ≠ d.crc then s.jobFail j 0x33
    else (s.jobCopy j o.conn o.key (o.addr + 0x1000 + d.off) j.buf).expSeg
      { j with pos := j.pos + 1, count := j.count + d.len } o

/-- The directory that the export read: the header, both commits empty, the reserved bytes as zero, the record and the directory are written,
and the segments follow. -/
def State.expDir (s : State) (j : Job) (o : ExpOps) : State :=
  if !dirGood j.record j.dir then s.jobFail j 0x33
  else
    let s := s.jobWrite j o.conn o.key o.addr (headerBytes (s.slotMib o.entry) 0 s.node ++ zeros 0xFC0)
    let s := s.jobWrite j o.conn o.key (o.addr + 0x1000) (j.record ++ j.dir)
    s.expSeg { j with pos := 0, count := 0 } o

/-- SNAPSHOT_EXPORT (R330). -/
def startExport (l : Live) (s : State) : State :=
  let o := expOps l.desc
  let c := s.entryConn o.entry
  if o.addr % 4096 ≠ 0 ∨ s.slotMib o.entry = 0 then s.endWith l 0x23
  else
  let (ok, s) := s.useConns [c, o.conn]
  if !ok then s.endWith l 0x51
  else match s.connCheck c 0x02, s.connCheck o.conn 0x01 with
    | some st, _ => s.endWith l st
    | none, some st => s.endWith l st
    | none, none =>
      let (j, s) := (s.setPhase l.id .job).addJob (some l.id) o.entry c .expHead fun j => { j with slot := 2 }
      s.getEntry j (s.entryAddr o.entry) 192

/-! ### The answer to a job's read or FLUSH -/

/-- The record that RESTORE or the export read (order 4 of R328); the directory is read next. -/
def State.readDir (s : State) (j : Job) (rec_ : Bytes) (next : Stage) (empty : Job → State → State) : State :=
  if !recordGood j.commit rec_ then s.jobFail j 0x33
  else
    let j := { j with stage := next, data := j.commit ++ rec_ }
    let s := s.setJob j
    if recordSegs rec_ = 0 ∨ 2040 < recordSegs rec_ then empty j s
    else s.getEntry j (s.slotAddr j.entry j.slot + 0x100) (32 * recordSegs rec_)

/-- The first 192 bytes of a Caisson that RESTORE or the export read (orders 2 and 3 of R328); the snapshot record
is read next. -/
def State.readRecord (s : State) (j : Job) (b : Bytes) (older : Bool) (next : Stage) : State :=
  match s.wantedCommit j.entry b older with
  | .error st => s.jobFail j st
  | .ok (x, commit) =>
    let j := { j with stage := next, slot := x, data := commit }
    (s.setJob j).getEntry j (s.slotAddr j.entry x) 256

/-- The answer that a job waited for: its status, the bytes read, and whether they came poisoned. -/
def State.jobAnswered (s : State) (id status : Nat) (b : Bytes) (poison : Bool) : State :=
  match s.jobById id with
  | none => s
  | some j =>
    if status ≠ 0 then s.jobFail j status
    else
      let d := (s.jobLive j).map (·.desc)
      match j.stage, d with
      | .armHead, _ => s.armHead j b
      | .armFresh, _ =>
        (s.setCaisson j.entry fun k => { k with commits := [none, none], entries := [] }).armed j 0 0
      | .armLog second, _ => s.armLog j second b
      | .snapBegin, some d => s.snapPart j (snapOps d)
      | .snapRecord, some d => s.snapSeal j (snapOps d)
      | .snapCommit, some _ => s.snapDone j
      | .logFlush, some _ => s.jobDone j
      | .resHead, some d => s.readRecord j b (restOps d).older .resRecord
      | .resRecord, some d => s.readDir j b .resDir fun j s => s.restDir j (restOps d)
      | .resDir, some d => s.restDir { j with data := j.data ++ b } (restOps d)
      | .resSeg, some d => s.restPiece j (restOps d) b
      | .resLog second, some d => s.restLog j (restOps d) second b
      | .resSpan, some d => s.restSpan j (restOps d) b poison
      | .resAgain, some d =>
        s.restEnd { j with status := if b = j.commit then j.status else j.status ++ [0x61] } (restOps d)
      | .expHead, some d => s.readRecord j b (expOps d).older .expRecord
      | .expRecord, some d => s.readDir j b .expDir fun j s => s.expDir j (expOps d)
      | .expDir, some d => s.expDir { j with data := j.data ++ b } (expOps d)
      | .expSeg, some d => s.expPiece j (expOps d) b
      | .expFlush, some d =>
        let o := expOps d
        let s := s.setJob { j with stage := .snapWait }
        let s := s.jobWrite j o.conn o.key (o.addr + 0x40) (s.expCommit j)
        let j := { j with stage := .expCommit }
        if s.x.out.any fun x => x.live.isNone && x.op == 0x01 && x.counter == j.id then s.setJob j
        else (s.setJob j).jobDone j
      | _, _ => s

end Sys2Proof.Machine
end

