-- ==== Sys2Proof/Machine/Receive.lean ====
section
/-! DEFINITION. Packets as they arrive on a connection (R250-R275), the timers of the transport (R267, R269,
R273), and the commands on connections, regions, shared receive queues and keys. -/

namespace Sys2Proof.Machine

/-! ### Order 1 of R259 -/

/-- The stream an opcode belongs to (R255): none for the acknowledgement space and for reserved opcodes. -/
def streamOf (op : Nat) : Option Bool :=
  if [0x01, 0x02, 0x03, 0x04, 0x05, 0x06, 0x07, 0x08].contains op then some false
  else if [0x10, 0x11, 0x12].contains op then some true
  else none

/-- The packet fails order 1 of R259. -/
def State.badHeader (s : State) (p : Packet) : Bool :=
  let c := p.conn.toNat
  let b := connBase c
  let op := p.opcode.toNat
  let st := s.connState c
  let node := p.src.toNat % 65536 != s.fld b Conn.remoteNode % 65536
  if op = 0x22 then p.version != 1 || st == 0 || node
  else
    !levelAllows (s.fld b Conn.level) op || p.version.toNat != s.fld b Conn.level || st != 2 || node ||
    match streamOf op with
    | some t => p.stream != t
    | none => false

/-- A packet whose tag fails (R272). -/
def State.authFail (s : State) (c : Nat) (p : Packet) : State :=
  (s.bump R.secAuthFailCnt).endConn c 0x42 p.opcode.toNat p.psn.toNat

/-! ### Room (order 5 of R259) -/

/-- Packets of one message, which together take MSG_LEN bytes of the inbound share from the first to arrive on: they agree
in what their header says of it, and no packet of `rx` between them begins or ends a message. -/
def sameMsg (rx : List Arrived) (a : Arrived) (c esn : Nat) (p : Packet) : Bool :=
  let ends := if a.esn < esn then a.pkt.last || p.first else if esn < a.esn then p.last || a.pkt.first else false
  decide (a.conn = c ∧ a.control = false ∧ a.pkt.opcode = p.opcode ∧ msgLen a.pkt = msgLen p ∧ chanSeq a.pkt = chanSeq p) &&
  !ends && !(rx.any fun x => decide (x.conn = c ∧ x.control = false ∧ min a.esn esn < x.esn ∧ x.esn < max a.esn esn) &&
    (x.pkt.first || x.pkt.last))

/-- Arriving messages that the inbound share holds, once each, with their lengths. -/
def arrivingLens (rx : List Arrived) : List Arrived → List Nat
  | [] => []
  | a :: t =>
    if (a.pkt.opcode = 0x05 ∨ (a.pkt.opcode = 0x04 ∧ !a.placed)) ∧ !(t.any fun y => sameMsg rx y a.conn a.esn a.pkt) then
      msgLen a.pkt :: arrivingLens rx t
    else arrivingLens rx t

/-- Bytes of the inbound share in use (R29, R175). -/
def State.usedIn (s : State) : Nat :=
  (s.q.inbound.map fun i => i.data.length).sum +
  (s.q.msgs.map fun m => (m.pkts.map fun p => p.payload.length).sum).sum +
  (s.q.live.map fun l => match l.phase with
    | .inst i => (i.pend.map fun p => p.2.data.length).sum
    | _ => 0).sum + (arrivingLens s.x.rx s.x.rx).sum

/-- A SEND or CONTRIB packet finds room in the inbound share (R175, R195). A RELAY's message needs none. -/
def State.roomFor (s : State) (c esn : Nat) (p : Packet) : Bool :=
  let op := p.opcode.toNat
  let placedDirect := op == 0x04 &&
    ((s.relayFor c (chanSeq p).1 (chanSeq p).2).isSome || s.x.dropped.contains (c, (chanSeq p).1, (chanSeq p).2))
  (op != 0x04 && op != 0x05) || placedDirect || s.x.rx.any (fun a => sameMsg s.x.rx a c esn p) ||
  decide (s.usedIn + msgLen p ≤ s.share 8)

/-- The shared receive queue of a connection. -/
def State.srqOf (s : State) (c : Nat) : Nat := s.fld (connBase c) Conn.srq

/-- A CTRL message does not fit a slot (R275). -/
def State.ctrlTooBig (s : State) (c : Nat) (p : Packet) : Bool :=
  decide (2 ^ s.fld (srqBase (s.srqOf c)) Srq.log2Slot < 32 + p.payload.length)

/-- A slot is free for a CTRL message (R274), beside those that messages already placed will take. -/
def State.slotFree (s : State) (c : Nat) : Bool :=
  let q := s.srqOf c
  let b := srqBase q
  let due := (s.x.rx.filter fun a => a.pkt.opcode == 0x11 && s.srqOf a.conn == q && !s.ctrlTooBig a.conn a.pkt).length
  s.flag b Srq.enable && decide (due < (s.fld b Srq.pi + 2 ^ 20 - s.fld b Srq.ci) % 2 ^ 20)

/-- The group that a refused contribution's stream header names, when this packet carries it (R175). -/
def fullGroup (p : Packet) : Option Nat :=
  if p.opcode = 0x05 ∧ offOf p = 0 then some (parseSpanHdr p.payload).group else none

/-! ### Orders 6 to 8 of R259 -/

/-- KEY of a packet of group K. -/
def keyOfPkt (p : Packet) : Nat := p.g0.toNat

/-- ADDR of a packet of group K. -/
def addrOfPkt (p : Packet) : Nat := p.g1.toNat + p.g2.toNat % 65536 * 2 ^ 32

/-- The bytes of the region that a packet of group K reaches: offset and length. -/
def reachOf (p : Packet) : Nat × Nat :=
  if p.opcode = 0x02 then (addrOfPkt p, p.g3.toNat) else (addrOfPkt p + offOf p, p.payload.length)

/-- The access check of a packet of group K. -/
def State.accessCheck (s : State) (c : Nat) (p : Packet) : Option Nat :=
  let key := keyOfPkt p
  let b := regionBase (key / 65536)
  let st := s.fld b Region.state
  let right := match p.opcode.toNat with
    | 0x01 => s.flag b Region.write
    | 0x02 => s.flag b Region.read
    | _ => s.flag b Region.atomic
  let (a, n) := reachOf p
  if st = 0 ∨ s.fld b Region.tag ≠ key % 65536 then some 0x22
  else if 2 ≤ st then some 0x21
  else if s.fld b Region.scope ≠ s.fld (connBase c) Conn.scope ∨ !right ∨ s.fld b Region.length < a + n then some 0x20
  else none

/-! ### What a completed message does (R265) -/

/-- An awaited answer taken out of the list. -/
def State.dropAwait (s : State) (a : Await) : State :=
  { s with x := { s.x with awaits := s.x.awaits.erase a } }

/-- The request a 24-bit PSN answers: the ESN of its last packet, or of any packet of an ATOMIC_MAX. -/
def Await.answers (a : Await) (c psn : Nat) : Bool :=
  let n := if a.op = 0x06 then max 1 (ceilDiv a.len 4096) else 1
  a.conn == c && (List.range n).any fun k => (a.esn - k) % 2 ^ 24 == psn % 2 ^ 24 && decide (k ≤ a.esn)

/-- An awaited request ends with a status: its descriptor or its job. -/
def State.settleAwait (s : State) (a : Await) (r : Result) : State :=
  let s := s.dropAwait a
  match a.live, a.job with
  | some id, _ =>
    match s.q.live.find? fun l => l.id == id with
    | some l => s.finish l r
    | none => s
  | none, some j => s.jobAnswered j r.status a.buf a.poison
  | none, none => s

/-- The last packet of a READ_RESP has been passed (R263): the READ ends once all its bytes are placed. -/
def State.readDone (s : State) (c psn : Nat) : State :=
  match s.x.awaits.find? fun a => a.op == 0x02 && a.answers c psn with
  | none => s
  | some a =>
    if a.got < a.len then s
    else
      match a.job with
      | some _ => s.settleAwait a (.of 0)
      | none => s.settleAwait a ⟨if a.poison then 0x50 else 0, a.len, 0, none⟩

/-- A CTRL message written into its slot (R275). -/
def State.ctrlDone (s : State) (c esn : Nat) (p : Packet) : State :=
  if s.ctrlTooBig c p then s.respond c p.psn.toNat 0x23 0x11 0 0 0
  else
    let b := srqBase (s.srqOf c)
    let n := s.fld b Srq.ci
    let i := n % 2 ^ s.fld b Srq.log2Slots
    let (chan, seq) := chanSeq p
    let hdr := toLE 1 0x11 ++ zeros 1 ++ toLE 3 p.src.toNat ++ zeros 1 ++ toLE 2 c ++ toLE 4 p.payload.length ++
      toLE 2 chan ++ zeros 2 ++ toLE 4 seq ++ zeros 12
    let s := s.wrP p.poison (s.fld b Srq.base + i * 2 ^ s.fld b Srq.log2Slot) (hdr ++ p.payload)
    let s := s.setFld b Srq.ci ((n + 1) % 2 ^ 20)
    let s := if s.flag b Srq.owner then s
      else s.headRecord (s.fld b Srq.cq) ⟨0, p.payload.length, 0, none⟩ 0x12 (i % 65536) false
    s.raiseFor c esn p

/-- The earliest on the stream of some recorded refusals, by ESN (R264). -/
def earliest (l : List (Nat × Nat)) : Option (Nat × Nat) :=
  l.foldl (fun (best : Option (Nat × Nat)) f => match best with
    | none => some f
    | some b => if f.1 < b.1 then some f else some b) none

/-- The status that a FLUSH ends with (R264): the responder's, or that of an earlier refusal that this requester recorded
itself. The responder's stands where a refusal of that status was recorded, or first of all. -/
def flushStatus (fails : List (Nat × Nat)) (status : Nat) : Nat :=
  match earliest fails with
  | none => status
  | some f =>
    match earliest (fails.filter fun x => x.2 == status) with
    | some g => if status = 0 ∨ f.1 < g.1 then f.2 else status
    | none => if status = 0 then f.2 else status

/-- RESP at the requester (R260, R263, R264). Every refusal at orders 6 to 9 of R259 is held for the next FLUSH; one of a CTRL,
whose stream is another, as from the oldest packet of the data stream not acknowledged (DESIGN CHOICE, log entry 105). A
CTRL whose payload its slot cannot hold ends with BOUNDS (R275). -/
def State.respDone (s : State) (c : Nat) (p : Packet) : State :=
  let status := leAt p.payload 0 1
  let op := leAt p.payload 1 1
  let nf := leAt p.payload 2 2
  let psn := p.g0.toNat % 2 ^ 24
  let refusal := (status = 0x20 ∨ status = 0x21 ∨ status = 0x22) ∧ op ≠ 0x08
  let b := connBase c
  let s :=
    if refusal then
      let s := s.rmaLog status 0 (s.fld b Conn.remoteNode) op c (leAt p.payload 0xC 4) (leAt p.payload 6 6) psn
      let s := s.eventRecord c status (descOpcode op) 0
      let una := s.fld b (txUna false)
      let esn := if op = 0x11 then una else (extend una psn).toNat
      s.setConnX c fun x => { x with txFails := x.txFails ++ [(esn, status)] }
    else s
  match s.x.awaits.find? fun a => a.op == op && a.answers c psn with
  | some a =>
    if op = 0x08 then
      let mine := (s.connX c).txFails.filter fun f => decide (f.1 < a.esn)
      let s := s.setConnX c fun x => { x with txFails := x.txFails.filter fun f => decide (a.esn ≤ f.1) }
      s.settleAwait a (.of (flushStatus mine status))
    else if op = 0x11 then (if status = 0x23 then s.settleAwait a (.of status) else s)
    else if op = 0x06 then
      let ok := status = 0 ∨ status = 0x50
      s.settleAwait a ⟨status, if ok then a.len / 4 else 0, 0,
        if ok ∧ nf.testBit 15 then some (bits nf 12 0) else none⟩
    else s.settleAwait a (.of status)
  | none => s

/-- A remote ATOMIC_MAX applied once its Abutments may work (R207, R208). -/
def State.applyMax (s : State) (m : MaxWait) : State :=
  let s := m.pkts.foldl (fun (s : State) p => s.dropInflight p) s
  if s.abutsGone m.dst (4 * m.ops.length) then s.respond m.conn m.psn 0x7F 0x06 0 0 0
  else
    let id := s.q.nextId
    let s := { s with q := { s.q with nextId := id + 1 } }
    let (r, s) := s.maxCells id m.dst m.ops
    let s := s.cbRelease id
    let nf := match r.nf with
      | some j => 32768 + j
      | none => 0
    s.respond m.conn m.psn r.status 0x06 nf 0 0

/-- FLUSH_REQs that waited for remote ATOMIC_MAXes answered once all of those are done (R264). -/
def State.answerFlushes (s : State) : State :=
  let waits (f : FlushWait) : Bool := s.x.maxes.any fun m => decide (m.conn = f.conn) && f.maxes.contains m.psn
  let ready := s.x.flushes.filter fun f => !waits f
  let s := { s with x := { s.x with flushes := s.x.flushes.filter waits } }
  ready.foldl (fun (s : State) f => s.respond f.conn f.psn f.status 0x08 0 0 0) s

/-- Remote ATOMIC_MAXes that waited for an Abutment go on (R372), and the FLUSH_REQs behind them. -/
def State.retryMaxes (s : State) : State :=
  let ready := s.x.maxes.filter fun m =>
    s.abutsGone m.dst (4 * m.ops.length) || s.abutsFree m.dst (4 * m.ops.length)
  let s := { s with x := { s.x with maxes := s.x.maxes.filter fun m => !ready.contains m } }
  (ready.foldl (fun (s : State) m => s.applyMax m) s).answerFlushes

/-- A completed ATOMIC_MAX_REQ (R207): its cells, with the operands of its packets in order. -/
def State.maxDone (s : State) (c : Nat) (last : Packet) (ps : List Packet) : State :=
  let ops := (ps.map fun p => (chunksOf 4 p.payload).map fun b => (leNat b, p.poison)).flatten
  let dst := s.fld (regionBase (keyOfPkt last / 65536)) Region.base + addrOfPkt last
  let m : MaxWait := ⟨c, last.psn.toNat, ps, dst, ops⟩
  ({ s with x := { s.x with maxes := s.x.maxes ++ [m] } }).retryMaxes

/-- A notice on a connection (R186, R188, R150). -/
def State.noticeRx (s : State) (c : Nat) (b : Bytes) : State :=
  let kind := leAt b 0 1
  let group := bits (leAt b 2 2) 11 0
  let channel := leAt b 4 2
  let seq := leAt b 8 4
  let node := bits (leAt b 0x10 3) 19 0
  match kind with
  | 1 | 2 | 3 | 4 => s.noticeAt kind (leAt b 1 1) group channel seq node (leAt b 0x14 5)
  | 5 => s.place { conn := some c, skip := true, node := node, group := group, channel := channel, seq := seq
                   data := [], poison := [], placed := s.now, refs := [] }
  | 6 => s.ackToFirmware (tblNoteOf b)
  | 7 => s.tableEpochAt (tblNoteOf b)
  | _ => s

/-- A whole SEND message that no RELAY has taken (R175, R195). -/
def State.sendDone (s : State) (c esn : Nat) (last : Packet) (as : List Arrived) : State :=
  let (chan, seq) := chanSeq last
  if s.x.dropped.contains (c, chan, seq) then
    { s with x := { s.x with dropped := s.x.dropped.erase (c, chan, seq) } }
  else match s.relayFor c chan seq, as.all (·.placed) with
    | some (l, _), true => (s.raiseFor c esn last).relayDone l.id
    | _, _ => { s with q := { s.q with msgs := s.q.msgs ++ [⟨c, chan, seq, as.map (·.pkt)⟩] } }

/-- The 16-byte words of a message that came poisoned (R266). -/
def poisonWords (ps : List Packet) : List Nat :=
  ((ps.filter (·.poison)).map fun p =>
    let u := unitsOf 16 (offOf p) p.payload.length
    (List.range u.2).map (u.1 + ·)).flatten

/-- A contribution wholly placed (R174). -/
def State.contribDone (s : State) (c : Nat) (ps : List Packet) : State :=
  let data := ps.foldl (fun bs p => put bs (offOf p) p.payload) []
  s.place (s.inboundOf (some c) data (poisonWords ps))

/-- A FLUSH_REQ passed (R264): it is answered once every ATOMIC_MAX before it on its connection is written and visible. -/
def State.flushDone (s : State) (c esn : Nat) (p : Packet) : State :=
  let x := s.connX c
  let status := ((earliest (x.rxFails.filter fun f => decide (f.1 < esn))).map (·.2)).getD 0
  let s := s.setConnX c fun x => { x with rxFails := x.rxFails.filter fun f => decide (esn ≤ f.1) }
  let maxes := (s.x.maxes.filter fun m => m.conn == c).map (·.psn)
  ({ s with x := { s.x with flushes := s.x.flushes ++ [(⟨c, p.psn.toNat, status, maxes⟩ : FlushWait)] } } : State).answerFlushes

/-- A message completes (R265): RX_EXP has passed its LAST packet. `as` are its packets in order. -/
def State.completeMsg (s : State) (c esn : Nat) (last : Packet) (as : List Arrived) : State :=
  let ps := as.map (·.pkt)
  if as.any (·.refused) then
    (as.filter fun a => !a.refused).foldl (fun (s : State) a => s.dropInflight a.pkt) s
  else match last.opcode.toNat with
    | 0x01 => s.raiseFor c esn last
    | 0x02 =>
      s.post { newMsg c false 0x03 last.g3.toNat
          (.host (s.fld (regionBase (keyOfPkt last / 65536)) Region.base + addrOfPkt last)) with
        vl := last.vl.toNat / 4 * 4, reqPsn := last.psn.toNat }
    | 0x03 => s.readDone c (last.g0.toNat % 2 ^ 24)
    | 0x04 => s.sendDone c esn last as
    | 0x05 => s.contribDone c ps
    | 0x06 => s.maxDone c last ps
    | 0x07 =>
      let ctr := last.g1.toNat % 65536
      let add := last.g2.toNat
      if s.ctrAllowed c ctr then (s.ctrAdd ctr add).respond c last.psn.toNat 0 0x07 0 0 0
      else s.refuse c esn last 0x20 ctr false
    | 0x08 => s.flushDone c esn last
    | 0x10 => s.noticeRx c last.payload
    | 0x11 => s.ctrlDone c esn last
    | 0x12 => s.respDone c last
    | _ => s

/-! ### Placing (R267) -/

/-- A READ_RESP packet placed by its offset (R263, R266). -/
def State.placeResp (s : State) (c : Nat) (p : Packet) : State :=
  match s.x.awaits.find? fun a => a.op == 0x02 && a.answers c (p.g0.toNat % 2 ^ 24) with
  | none => s
  | some a =>
    let a' : Await :=
      { a with
        got := a.got + p.payload.length, poison := a.poison || p.poison
        buf := if a.dest.isNone then put a.buf (offOf p) p.payload else a.buf }
    let s := { s with x := { s.x with awaits := s.x.awaits.map fun y => if y = a then a' else y } }
    match a.dest with
    | some d => s.wrP p.poison (d + offOf p) p.payload
    | none => s

/-- A packet that passed orders 1 to 5 placed: whether it has reached its place, and whether it is refused. -/
def State.placePkt (s : State) (c esn : Nat) (p : Packet) : Bool × Bool × State :=
  let op := p.opcode.toNat
  if op = 0x01 ∨ op = 0x02 ∨ op = 0x06 then
    let mine (a : Arrived) : Bool := decide (a.conn = c ∧ a.control = false ∧ a.pkt.opcode = p.opcode ∧
      (op = 0x02 ∧ a.esn = esn ∨ op ≠ 0x02 ∧ a.esn + offOf p / 4096 = esn + offOf a.pkt / 4096))
    if s.x.rx.any fun a => mine a && a.refused then (false, true, s)
    else match s.accessCheck c p with
      | some st => (false, true, s.refuse c esn p st (keyOfPkt p / 65536) true)
      | none =>
        let b := regionBase (keyOfPkt p / 65536)
        if op = 0x01 then
          (true, false, s.wrP p.poison (s.fld b Region.base + addrOfPkt p + offOf p) p.payload)
        else if op = 0x06 then (true, false, s.setFld b Region.inflight (s.fld b Region.inflight + 1))
        else (true, false, s)
  else if op = 0x03 then (true, false, s.placeResp c p)
  else if op = 0x04 then
    let (chan, seq) := chanSeq p
    match s.relayFor c chan seq with
    | some (l, r) =>
      if s.x.dropped.contains (c, chan, seq) then (true, false, s)
      else if !r.begun ∧ (relayOps l.desc).cap < msgLen p then
        let s := { s with x := { s.x with dropped := (c, chan, seq) :: s.x.dropped } }
        (true, false, s.relayTooLong l)
      else (true, false, s.relayPlace l r p)
    | none => (s.x.dropped.contains (c, chan, seq), false, s)
  else (true, false, s)

/-! ### Advancing (R267) -/

/-- The packet of an ESN that has been placed. -/
def State.arrivedAt (s : State) (c : Nat) (control : Bool) (esn : Nat) : Option Arrived :=
  s.x.rx.find? fun a => decide (a.conn = c ∧ a.control = control ∧ a.esn = esn)

/-- The packets of a message whose LAST packet has an ESN, in order: what of the stream is held up to it. -/
def State.msgUpTo (s : State) (c : Nat) (control : Bool) (esn : Nat) : List Arrived :=
  sortAsc 48 (·.esn) (s.x.rx.filter fun a => decide (a.conn = c ∧ a.control = control ∧ a.esn ≤ esn))

/-- RX_EXP moved over what is placed without a gap (R267): n bounds how far. The Bool says that a LAST packet was
passed. -/
def State.advance (c : Nat) (control : Bool) : Nat → State → Bool × State
  | 0, s => (false, s)
  | n + 1, s =>
    let b := connBase c
    let m := s.fld b (rxMap control)
    if m % 2 = 0 then (false, s)
    else
      let esn := s.fld b (rxExp control)
      let s := (s.setFld b (rxMap control) (m / 2)).setFld b (rxExp control) (esn + 1)
      let s := s.setConnX c fun x => if control then { x with advC := x.advC + 1 } else { x with advD := x.advD + 1 }
      match s.arrivedAt c control esn with
      | some a =>
        if a.pkt.last then
          let as := s.msgUpTo c control esn
          let s := { s with x := { s.x with
            rx := s.x.rx.filter fun y => !(decide (y.conn = c ∧ y.control = control ∧ y.esn ≤ esn)) } }
          (true, (State.advance c control n (s.completeMsg c esn a.pkt as)).2)
        else State.advance c control n s
      | none => State.advance c control n s

/-- The gap timer of a stream. -/
def State.setGap (s : State) (c : Nat) (control on : Bool) : State :=
  s.setConnX c fun x => if control then { x with gapC := on } else { x with gapD := on }

/-- A CE seen on a stream. -/
def State.noteCe (s : State) (c : Nat) (control : Bool) (p : Packet) : State :=
  if p.ce then s.setConnX c fun x => if control then { x with ceC := true } else { x with ceD := true } else s

/-- A sequenced packet, in plain, within the window (orders 5 to 8 of R259, R267). -/
def State.accept5 (s : State) (c esn : Nat) (p : Packet) : State :=
  let b := connBase c
  let control := p.stream
  let n := esn - s.fld b (rxExp control)
  if (s.fld b (rxMap control)).testBit n then s
  else if p.opcode = 0x11 && !s.slotFree c then
    let q := srqBase (s.srqOf c)
    let s := (s.bumpFld q Srq.emptyCnt).raiseIrq 0x70 8
    s.sendAck c control (some (1, esn % 2 ^ 24))
  else if !s.roomFor c esn p then
    let s := match fullGroup p with
      | some g => s.bumpFld (grpBase g) Grp.fullCnt
      | none => s
    s.sendAck c control (some (1, esn % 2 ^ 24))
  else
    let s := s.bump64 R.rmaPktRxLo
    let (placed, refused, s) := s.placePkt c esn p
    let a : Arrived := { conn := c, control := control, esn := esn, pkt := p, placed := placed, refused := refused }
    let s := { s with x := { s.x with rx := s.x.rx ++ [a] } }
    let s := s.setFld b (rxMap control) (s.fld b (rxMap control) ||| 1 <<< n)
    let (last, s) := State.advance c control (windowOf control) s
    let s := s.setGap c control (s.fld b (rxMap control) != 0)
    if last || decide (16 ≤ (s.connX c).adv control) then s.sendAck c control else s

/-! ### The acknowledgement space -/

/-- Kept packets of a stream from an ESN on sent again, in order (R267). -/
def State.resend (s : State) (c : Nat) (control : Bool) (from_ : Nat) : State :=
  let ks := sortAsc 48 (·.esn) (s.x.kept.filter fun k => decide (k.conn = c ∧ k.control = control ∧ from_ ≤ k.esn))
  ks.foldl (fun (s : State) k => ((s.bump R.rmaResent).bump64 R.rmaPktTxLo).emit k.pkt) s

/-- A round of resending counted, or the connection ended (R267). -/
def State.resendRound (s : State) (c : Nat) (control : Bool) (from_ : Nat) : State :=
  let b := connBase c
  let r := s.fld b (retryOf control)
  if r = 7 then
    match s.x.kept.find? fun k => decide (k.conn = c ∧ k.control = control) with
    | some k => s.endConn c 0x40 k.pkt.opcode.toNat k.pkt.psn.toNat
    | none => s.endConn c 0x40 0 0
  else (s.setFld b (retryOf control) (r + 1)).resend c control from_

/-- The Toll on an ECE (R269). -/
def State.tollCut (s : State) (c cum : Nat) : State :=
  let b := connBase c
  let w := bits (cum + 2 ^ 48 - 1) 23 8
  let s := s.setFld b Conn.marked 1
  if w = s.fld b Conn.lastCutWin then s
  else
    let r := s.fld b Conn.rate
    (((s.setFld b Conn.rate (max (r - r / 8) (s.regBits R.rmaTollMin 15 0))).setFld b Conn.lastCutWin w).bump R.rmaCuts)

/-- CTRL SENDs whose packets an ACK has passed end (R275): OK, or POISONED (R266). -/
def State.ctrlAcked (s : State) (c cum : Nat) : State :=
  (s.x.awaits.filter fun a => decide (a.conn = c ∧ a.op = 0x11 ∧ a.esn < cum)).foldl (fun (s : State) a =>
    s.settleAwait a ⟨if a.poison then 0x50 else 0, a.len, 0, none⟩) s

/-- ACK and NAK at the sender (R267, R269). -/
def State.ackRx (s : State) (c : Nat) (p : Packet) : State :=
  let b := connBase c
  let control := p.stream
  let una := s.fld b (txUna control)
  let cum := (extend una (p.g0.toNat % 2 ^ 24)).toNat
  let s := if p.g0.toNat.testBit 31 ∧ !control then s.tollCut c cum else s
  if p.opcode = 0x20 then
    if una < cum ∧ cum ≤ s.fld b (txNxt control) then
      let s := { s with x := { s.x with
        kept := s.x.kept.filter fun k => !(decide (k.conn = c ∧ k.control = control ∧ k.esn < cum)) } }
      let s := (s.setFld b (txUna control) cum).setFld b (retryOf control) 0
      (if control then s.ctrlAcked c cum else s).pump c
    else s
  else
    let m := (extend una (p.g1.toNat % 2 ^ 24)).toNat
    match p.g1.toNat / 2 ^ 24 with
    | 0 => s.resendRound c control m
    | 1 =>
      let s := s.setFld b (rnrOf control) 1
      s.setConnX c fun x => if control then { x with rnrC := m } else { x with rnrD := m }
    | _ => s

/-- What waits on a connection that has come UP at a LEVEL that does not carry it (R253): it is never sent, and the send
roles that it belongs to end with FORMAT_VERSION. -/
def State.purgeLevel (s : State) (c : Nat) : State :=
  let level := s.fld (connBase c) Conn.level
  if levelAllows level 0x05 then s
  else
    let users := s.q.live.filter fun l => s.owesOn l c
    let s := { s with x := { s.x with out := s.x.out.filter fun m => m.conn != c || levelAllows level m.op } }
    users.foldl (fun (s : State) l => if s.q.live.any (·.id == l.id) then s.endForConn l c 0x70 else s) s

/-- HELLO (R251). -/
def State.helloRx (s : State) (c : Nat) (p : Packet) : State :=
  let b := connBase c
  let lo := p.g2.toNat % 16
  let hi := p.g2.toNat / 16 % 16
  let seen := p.g0.toNat.testBit 30
  if p.g2.toNat / 65536 % 32768 ≠ s.fld b Conn.remoteConn then s
  else
    let top := min hi (s.fld b Conn.lvlMax)
    let bottom := max lo (s.fld b Conn.lvlMin)
    let lvl := min top 2
    match s.connState c with
    | 1 =>
      if 1 ≤ lvl ∧ bottom ≤ lvl then
        let s := (s.setFld b Conn.level lvl).setFld b Conn.state 2
        let s := s.setConnX c fun x => { x with seen := seen }
        ((s.sendHello c true).purgeLevel c).pump c
      else s.endConn c 0x70 0x22 p.psn.toNat
    | 2 =>
      let s := s.setConnX c fun x => { x with seen := x.seen || seen }
      if seen then s else s.sendHello c true
    | _ => s

/-! ### An arriving packet -/

/-- A sequenced packet that passed orders 1 and 2 (orders 3 and 4 of R259). -/
def State.sequenced (s : State) (c : Nat) (esn : Int) (p : Packet) : State :=
  let b := connBase c
  let exp := s.fld b (rxExp p.stream)
  let s := (s.setConnX c fun x => { x with seen := true }).noteCe c p.stream p
  if esn < exp then (s.bump R.rmaDup).sendAck c p.stream
  else if (exp : Int) + windowOf p.stream ≤ esn then s.bump R.rmaOutWin
  else s.accept5 c esn.toNat p

/-- A packet of the acknowledgement space that passed orders 1 and 2 (R271). -/
def State.spaceRx (s : State) (c : Nat) (n : Int) (p : Packet) : State :=
  let b := connBase c
  if n ≤ s.fld b Conn.ackRxSeq then s
  else
    let s := (s.setFld b Conn.ackRxSeq n.toNat).bump64 R.rmaPktRxLo
    if p.opcode = 0x22 then s.helloRx c p else s.ackRx c p

/-- The entries that a packet needs read and checked (R31): its connection's, its region's, its shared receive queue's. -/
def State.useFor (s : State) (p : Packet) : Bool × State :=
  let (ok, s) := s.ctxUse (connBase p.conn.toNat) 256
  let (ok2, s) :=
    if [0x01, 0x02, 0x06].contains p.opcode.toNat then s.ctxUse (regionBase (keyOfPkt p / 65536)) 64
    else if p.opcode = 0x11 then s.ctxUse (srqBase (s.srqOf p.conn.toNat)) 64
    else (true, s)
  (ok && ok2, s)

/-- A packet received on a connection (R259). One that needs an entry known to be bad is discarded, and draws no answer
(R33; no rule names a status for it: DESIGN CHOICE, log entry 120). -/
def receive (p : Packet) (s : State) : State :=
  let c := p.conn.toNat
  let b := connBase c
  let (ok, s) := s.useFor p
  if !ok then s
  else if s.badHeader p then s.bump R.rmaBadHdr
  else
    let s := if p.ce then s.bump R.rmaCeRx else s
    let space := (streamOf p.opcode.toNat).isNone
    let ref := if space then s.fld b Conn.ackRxSeq else s.fld b (rxExp p.stream)
    let n := extend ref p.psn.toNat
    match s.openPkt c p space (n % 2 ^ 48).toNat with
    | none => s.authFail c p
    | some q => if space then s.spaceRx c n q else s.sequenced c n q

/-- A packet of a row, whose opcode the row itself names. -/
def receiveAs (op : Byte) (p : Packet) (s : State) : State := receive { p with opcode := op } s

/-! ### Timers -/

/-- RETX_TIMER (R267): the oldest unacknowledged packet and all after it are sent again. -/
def retxTimer (conn : BitVec 15) (control : Bool) (s : State) : State :=
  let c := conn.toNat
  let b := connBase c
  if s.connState c = 2 ∧ s.fld b (txUna control) ≠ s.fld b (txNxt control) ∧ !s.flag b (rnrOf control) then
    s.resendRound c control (s.fld b (txUna control))
  else s

/-- REORDER_TIMER (R267): a NAK for the first missing ESN, and the gap timer runs again. -/
def reorderTimer (conn : BitVec 15) (control : Bool) (s : State) : State :=
  let c := conn.toNat
  let b := connBase c
  let x := s.connX c
  if s.connState c = 2 && (if control then x.gapC else x.gapD) && s.fld b (rxMap control) != 0 then
    s.sendAck c control (some (0, s.fld b (rxExp control) % 2 ^ 24))
  else s

/-- ACK_DELAY (R267): an ACK for what has advanced. -/
def ackDelay (conn : BitVec 15) (control : Bool) (s : State) : State :=
  let c := conn.toNat
  if s.connState c = 2 ∧ 0 < (s.connX c).adv control then s.sendAck c control else s

/-- RNR_TIMER (R267): resending goes on from where the peer had no room. -/
def rnrTimer (conn : BitVec 15) (control : Bool) (s : State) : State :=
  let c := conn.toNat
  let b := connBase c
  if s.connState c = 2 ∧ s.flag b (rnrOf control) then
    let x := s.connX c
    ((s.setFld b (rnrOf control) 0).resend c control (if control then x.rnrC else x.rnrD)).pump c
  else s

/-- HELLO_PERIOD (R251). -/
def helloPeriod (conn : BitVec 15) (s : State) : State :=
  let c := conn.toNat
  match s.connState c with
  | 1 => s.sendHello c false
  | 2 => if (s.connX c).seen then s else s.sendHello c true
  | _ => s

/-- TOLL_PERIOD (R269). -/
def tollPeriod (s : State) : State :=
  s.enabledConns.foldl (fun (s : State) c =>
    let b := connBase c
    let s := if s.flag b Conn.marked then s
      else s.setFld b Conn.rate (min (s.fld b Conn.rate + s.regBits R.rmaTollStep 31 16) (s.regBits R.rmaTollMax 15 0))
    s.setFld b Conn.marked 0) s

/-- REKEY_DUE (R273): PHASE_CNT has reached its next threshold, 2^30 or 2^31. -/
def rekeyDue (conn : BitVec 15) (s : State) : State :=
  let c := conn.toNat
  let b := connBase c
  if s.connState c = 2 then
    let n := s.fld b Conn.phaseCnt
    let s := s.setFld b Conn.phaseCnt (if n < 2 ^ 30 then 2 ^ 30 else max n (2 ^ 31))
    (s.setConnX c fun x => { x with pkts := 0 }).rekeyCheck c
  else s

/-- STAGING_ROOM (R267): what waited for room in the outbound staging share is sent. -/
def stagingRoom (conn : BitVec 15) (s : State) : State := s.pump conn.toNat

/-! ### Connections -/

/-- ENABLE = 1 is refused (R251). -/
def State.enableBad (s : State) (c : Nat) (v : Nat) : Bool :=
  let lo := bits v 11 8
  let hi := bits v 15 12
  bits v 31 16 == s.node % 65536 || decide (hi < lo) || decide (2 < lo) || decide (hi < 1) ||
  (v.testBit 6 && !((s.keySlot c false false).isSome && (s.keySlot c true false).isSome && (s.keySlot c true true).isSome))

/-- CONN_ENABLE (R251): the write of word 0 with ENABLE = 1. -/
def connEnable (conn : BitVec 15) (v : Word) (s : State) : State :=
  let c := conn.toNat
  let b := connBase c
  let n := v.toNat &&& 0xFFFFFFC0 ||| 0
  if s.flag b Conn.enable then s
  else if s.enableBad c n then (s.ctxWr b (toLE 4 (setBits n 7 7 0))).errFirst 0x70 0x23
  else
    let s := s.ctxWr b (toLE 4 (setBits n 7 7 1))
    (s.setFld b Conn.state 1).setFld b Conn.rate (s.regBits R.rmaTollInit 15 0)

/-- The stream state of a connection, an ATOMIC_MAX that waits for its Abutments included, and what the engine writes in its
context cleared (R252). -/
def State.clearConn (s : State) (c : Nat) : State :=
  let mine := s.x.maxes.filter (·.conn == c)
  let s := mine.foldl (fun (s : State) m => m.pkts.foldl (fun (s : State) p => s.dropInflight p) s) s
  let s := { s with x := { s.x with maxes := s.x.maxes.filter (·.conn != c) } }
  (s.dropStreams c).ctxWr (connBase c + 0x20) (zeros 0x60)

/-- CONN_DISABLE (R252): only the clearing of ENABLE takes effect while it was 1. -/
def connDisable (conn : BitVec 15) (v : Word) (s : State) : State :=
  let c := conn.toNat
  let b := connBase c
  if s.flag b Conn.enable then
    let s := (s.setFld b Conn.enable 0).setFld b Conn.state 0
    let s := s.endUsers c 0x41 false
    let s := (s.snap.jobs.filter fun j => j.live.isNone && j.conn == c).foldl (fun (s : State) j =>
      s.refuseEntry j.entry 0x41) s
    let s := s.clearConn c
    { s with x := { s.x with keys := s.x.keys.filter (·.conn != c) } }
  else s.ctxWr b (toLE 4 (v.toNat &&& 0xFFFFFF40))

/-! ### Regions -/

/-- REGION_REGISTER (R257, R380): the write of word 0. -/
def regionRegister (region : BitVec 16) (v : Word) (s : State) : State :=
  let n := region.toNat
  let b := regionBase n
  let stage := s.x.regionStage
  let s := { s with x := { s.x with regionStage := none } }
  let words := match stage with
    | some (k, ws) => if k = n then some ws else none
    | none => none
  let st := s.fld b Region.state
  let tag := bits v.toNat 31 16
  let ok := bits v.toNat 7 6 == 1 && (st == 0 || (st == 3 && tag != s.fld b Region.tag))
  match words with
  | some ws =>
    if ok then
      let s := ws.foldl (fun (s : State) w =>
        if w.1 = 6 ∨ w.1 = 7 then s else s.ctxWr (b + 4 * w.1) (toLE 4 w.2.toNat)) s
      s.ctxWr b (toLE 4 (v.toNat &&& 0xFFFF00F8))
    else s.errFirst 0x70 0x23
  | none => s.errFirst 0x70 0x23

/-- A region whose revocation has drained (R258). -/
def State.revokeCheck (s : State) (n : Nat) : State :=
  let b := regionBase n
  if s.fld b Region.state = 2 ∧ s.fld b Region.inflight = 0 then
    let s := s.setFld b Region.state 3
    let s := (s.setRegBits R.rmaRevokeStat 31 31 0).setRegBits R.rmaRevokeStat 30 30 1
    s.raiseIrq 0x70 4
  else s

/-- A revocation of a region (R258). -/
def State.revoke (s : State) (n tag : Nat) : State :=
  let b := regionBase n
  if s.fld b Region.state = 1 ∧ s.fld b Region.tag = tag then
    let s := s.setFld b Region.state 2
    (s.setRegBits R.rmaRevokeStat 31 31 1).setRegBits R.rmaRevokeStat 15 0 n
  else s.setRegBits R.rmaRevokeStat 29 29 1

/-- Revocations that waited begun in turn, up to the first that is then in progress (R258). -/
def State.revokeNext : List (Nat × Nat) → State → State
  | [], s => { s with x := { s.x with revokes := [] } }
  | (n, tag) :: t, s =>
    if s.regBit R.rmaRevokeStat 31 then { s with x := { s.x with revokes := (n, tag) :: t } }
    else State.revokeNext t (s.revoke n tag)

/-- RMA_REVOKE (R258): a second one waits for the first. -/
def rmaRevoke (v : Word) (s : State) : State :=
  let n := bits v.toNat 31 16
  let tag := bits v.toNat 15 0
  if s.regBit R.rmaRevokeStat 31 || !s.x.revokes.isEmpty then
    { s with x := { s.x with revokes := s.x.revokes ++ [(n, tag)] } }
  else s.revoke n tag

/-- REVOKE_DONE (R258). -/
def revokeDone (region : BitVec 16) (s : State) : State :=
  let s := s.revokeCheck region.toNat
  State.revokeNext s.x.revokes s

/-! ### Shared receive queues and keys -/

/-- RMA_SRQ_DB (R274, R276). -/
def srqDoorbell (v : Word) (s : State) : State :=
  let b := srqBase (bits v.toNat 31 22)
  let pi := bits v.toNat 19 0
  if (pi + 2 ^ 20 - s.fld b Srq.ci) % 2 ^ 20 ≤ 2 ^ s.fld b Srq.log2Slots then s.setFld b Srq.pi pi else s

/-- SEC_KEY_CTRL (R278, R273): COMMIT, ERASE and TX_SWITCH in turn. -/
def keyControl (v : Word) (s : State) : State :=
  let sel := s.reg R.secKeySel
  let c := bits sel 14 0
  let phase := sel.testBit 16
  let rx := sel.testBit 17
  let b := connBase c
  if s.locks.any (fun p => p.1 == 0x78) then s
  else
    let s :=
      if v.getLsbD 0 then
        let key := ((List.range 8).map fun i => toLE 4 (s.reg (R.secKey i))).flatten
        (List.range 8).foldl (fun (s : State) i => s.setReg (R.secKey i) 0) (s.setKey c rx phase (some key))
      else s
    let s :=
      if v.getLsbD 1 && !(!rx && phase == s.flag b Conn.txPhase && s.connState c == 2) then s.setKey c rx phase none
      else s
    if v.getLsbD 2 && (s.keySlot c false phase).isSome then
      let s := ((s.setFld b Conn.txPhase (b2n phase)).setFld b Conn.phaseCnt 0).setFld b Conn.rekeyDue 0
      (s.setConnX c fun x => { x with pkts := 0 }).pump c
    else s

/-- RMA_CTRL (R276). -/
def rmaControl (v : Word) (s : State) : State :=
  let s := if v.getLsbD 0 then s.zeroRegs 0x70 0x70 0xA0 else s
  if v.getLsbD 1 then ((s.zeroRegs 0x70 0x200 0x3FC).setReg R.rmaLogCnt 0).setReg R.rmaLogHead 0 else s

/-- QMGR_SPAN_SHARE (R247): the outbound, inbound and retained shares hold nothing. -/
def State.sharesEmpty (s : State) : Bool := s.usedOut == 0 && s.usedIn == 0 && s.usedRetain == 0

/-- QMGR_SPAN_SHARE (R247). -/
def spanShare (v : Word) (s : State) : State :=
  let n := v.toNat
  let cand := bits n 31 24
  let ret := bits n 23 16
  let sin := bits n 15 8
  let sout := bits n 7 0
  let sums := decide (cand + ret + sin + sout = 96 ∧ 4 ≤ cand ∧ 4 ≤ ret ∧ 1 ≤ sin ∧ 1 ≤ sout ∧ 4 ≤ sin + sout)
  if s.locks.any (fun p => p.1 == 7) then s
  else if sums && s.sharesEmpty && !s.anyRing then s.setReg R.qmgrSpanShare n
  else s.errFirst 7 0x23

end Sys2Proof.Machine
end

