-- ==== Sys2Proof/Machine/Snapshot.lean ====
section
/-! DEFINITION. Arming of Caisson entries (R312-R314), heartbeats and their watching (R332, R333), and the
declaration of a lost node (R334, R335). -/

namespace Sys2Proof.Machine

/-- The page is locked (R373). -/
def State.locked (s : State) (page : Nat) : Bool := s.locks.any (·.1 == page)

/-- A register word as software may change it: RW fields, and RWL fields while the page is not locked (R16,
R373). -/
def State.writable (s : State) (a : Nat) : Nat :=
  match regRow a with
  | some r => r.rw ||| (if s.locked (a / 4096) then 0 else r.rwl)
  | none => 0

/-- A register's writable fields replaced by those of a word (R16). -/
def State.writeFields (s : State) (a v : Nat) : State :=
  let m := s.writable a
  s.setReg a ((s.reg a &&& (0xFFFFFFFF ^^^ m)) ||| (v &&& m))

/-! ### DISCOVER (R313, R314) -/

/-- The payload of a DISCOVER packet (R313). -/
def State.discoverBytes (s : State) (answer : Bool) : Bytes :=
  toLE 1 (b2n answer) ++ toLE 1 0x21 ++ toLE 3 s.node ++ zeros 1 ++ toLE 2 (s.regBits R.snapSelf 15 0) ++
  toLE 4 (s.reg R.snapDomain) ++ zeros 4 ++ toLE 8 s.reproId ++ zeros 8

/-- A DISCOVER packet sent to a node. -/
def State.sendDiscover (s : State) (dst : Nat) (answer : Bool) : State :=
  s.mgmt dst 2 0 0 0 0 (s.discoverBytes answer)

/-- The partner of an entry. -/
def State.entryNode (s : State) (e : Nat) : Nat := s.regBits (R.snapCNode e) 19 0

/-- An entry in CHECKING that still waits for the partner's answer. -/
def State.askingPartner (s : State) (e : Nat) : Bool :=
  s.entryState e == 1 && !(s.snap.jobs.any fun j => j.live.isNone && j.entry == e)

/-- DISCOVER_REPEAT (R314): the request to an arming partner is sent again while no answer has come. -/
def discoverRepeat (entry : Bool) (s : State) : State :=
  let e := b2n entry
  if s.firmwareRuns && s.askingPartner e then s.sendDiscover (s.entryNode e) false else s

/-- Step 2 of arming an entry, on an answer (R314). -/
def State.answerAt (s : State) (domain e : Nat) : State :=
  let own := s.reg R.snapDomain
  let feed (d : Nat) : Nat := bits d 31 20
  let conflict := decide (feed own = feed domain ∨ feed own = 0 ∨ feed domain = 0)
  let forced := s.regBit (R.snapCNode e) 30
  let s := s.setReg (R.snapCPeerDomain e) domain
  let s := s.setRegBits (R.snapCStat e) 27 27 (b2n (bits own 19 8 == bits domain 19 8))
  let s := s.setRegBits (R.snapCStat e) 26 26 (b2n (bits own 7 0 == bits domain 7 0))
  if conflict && !forced then ((s.refuseEntry e 0x60).errFirst 6 0x60).raiseIrq 6 2
  else
    let s := if conflict then
        ((s.setRegBits (R.snapCStat e) 28 28 1).bump R.snapOverrideCnt).raiseIrq 6 2
      else s
    s.startArm e

/-- DISCOVER (R313, R314): a request is answered; an answer takes on the entries that wait for it (nodes match on bits
[15:0], R10). -/
def discover (src : BitVec 20) (m : DiscoverMsg) (s : State) : State :=
  s.duty (.discover src m) fun s =>
    if !m.answer then s.sendDiscover src.toNat true
    else (List.range 2).foldl (fun (s : State) e =>
      if s.askingPartner e && s.entryNode e % 65536 == src.toNat % 65536 then s.answerAt m.domain.toNat e else s) s

/-! ### The ARM bit (R314) -/

/-- Ending what names an entry: its arming, its open snapshot and the SNAPSHOTs and LOG_APPENDs outstanding. -/
def State.quitEntry (s : State) (e : Nat) : State :=
  let names (l : Live) : Bool :=
    (l.op == 0x30 && (entriesOf (opBits l.desc 0x36 1 1 0)).contains e) ||
    (l.op == 0x32 && (entriesOf (opBits l.desc 0x2E 1 1 0)).contains e)
  let s := s.endAll (fun _ l => names l) fun s l => s.endJobs l 0x23
  let s := { s with snap := { s.snap with jobs := s.snap.jobs.filter fun j => !(j.live.isNone && j.entry == e) } }
  s.abandon e

/-- A write of SNAP_Cn_NODE (R314): fields are taken only while ARM is 0, and ARM itself arms or disarms. -/
def armControl (entry : Bool) (v : Word) (s : State) : State :=
  let e := b2n entry
  let a := R.snapCNode e
  if s.locked 6 then s
  else if s.regBit a 31 then
    if v.toNat.testBit 31 then s
    else (((s.quitEntry e).setRegBits a 31 31 0).setRegBits (R.snapCStat e) 31 29 0).showEntry e
  else
    let s := s.writeFields a v.toNat
    if v.toNat.testBit 31 then
      let s := s.setReg (R.snapCStat e) (1 <<< 29)
      let s := s.setCaisson e fun _ => Caisson.reset
      s.duty (.discoverRepeat entry) (discoverRepeat entry)
    else if s.entryState e = 4 then s.setRegBits (R.snapCStat e) 31 29 0
    else s

/-! ### Heartbeats (R332, R333) -/

/-- The payload of a HEARTBEAT (R332). -/
def State.heartbeatBytes (s : State) : Bytes :=
  toLE 3 s.node ++ toLE 1 (s.regBits R.snapSelf 17 16) ++ toLE 2 (s.regBits R.snapSelf 15 0) ++ zeros 2 ++
  toLE 4 s.snap.hbSeq ++ zeros 4

/-- A HEARTBEAT sent to a node. -/
def State.sendHeartbeat (s : State) (dst : Nat) : State :=
  let s := { s with snap := { s.snap with hbSeq := (s.snap.hbSeq + 1) % 2 ^ 32 } }
  s.mgmt dst 1 0 0 0 0 s.heartbeatBytes

/-- A watch entry is VALID. -/
def State.watched (s : State) (i : Nat) : Bool := s.regBit (R.snapWatch i) 31

/-- STATE of a watch entry. -/
def State.watchState (s : State) (i : Nat) : Nat := s.regBits (R.snapWatch i) 30 28

/-- STATE and MISSED of a watch entry set. -/
def State.setWatch (s : State) (i state missed : Nat) : State :=
  s.setReg (R.snapWatch i) (setBits (setBits (s.reg (R.snapWatch i)) 30 28 state) 27 24 missed)

/-- HEARTBEAT_PERIOD (R332). -/
def heartbeatPeriod (s : State) : State :=
  (List.range 64).foldl (fun (s : State) i =>
    if s.watched i then s.sendHeartbeat (s.regBits (R.snapWatch i) 19 0) else s) s

/-- A heartbeat at a watch entry (R333). -/
def State.heartbeatAt (s : State) (kstn i : Nat) : State :=
  match s.watchState i, decide (kstn = 0) with
  | 0, true => s.setWatch i 1 0
  | 1, true => s.setWatch i 1 0
  | 2, true => s.setWatch i 1 0
  | 1, false => (s.setWatch i 2 0).raiseIrq 6 8
  | 2, false => s.setWatch i 2 0
  | _, _ => s

/-- HEARTBEAT (R333): every watch entry of the sender moves (R10). -/
def heartbeat (src : BitVec 20) (hb : Heartbeat) (s : State) : State :=
  (List.range 64).foldl (fun (s : State) i =>
    if s.watched i && s.regBits (R.snapWatch i) 15 0 == src.toNat % 65536 then s.heartbeatAt hb.kstn.toNat i else s) s

/-! ### Declaring a node lost (R334) -/

/-- A group's member table names a node. -/
def State.groupHas (s : State) (g node : Nat) : Bool := s.groupUsed g && (s.rankOfNode g node).isSome

/-- Every outstanding BARRIER of a group that names the node ends with PEER_LOST (R308), and the records of
such groups that have not been released are freed. -/
def State.barriersLost (s : State) (node : Nat) : State :=
  let s := s.endAll (fun s l => decide (l.phase = .barrier) && s.groupHas l.desc.group.toNat node) fun s l =>
    s.endWith l 0x41
  { s with clock := { s.clock with
      bars := (s.clock.bars.filter fun b => !(b.release.isNone && s.groupHas b.group node)).map fun b =>
        if s.groupHas b.group node then { b with live := none } else b } }

/-- An open instance closes at once, as at its deadline, with what has been placed before (R334). While an Abutment of its
accumulator is held, or no Pier may read what waits for it, it closes as soon as that is over, at a deadline that leaves
on time what had been placed. -/
def State.closeNow (s : State) (id : Nat) : State :=
  match s.instById id with
  | none => s
  | some (l, i) =>
    let mine (x : Inbound) : Bool :=
      decide (x.group = l.desc.group.toNat ∧ x.channel = l.desc.channel.toNat ∧ x.seq = l.desc.seq.toNat)
    let next := s.now + 1
    if !s.instFree i || s.wantsPier i (s.q.inbound.filter mine) then
      s.setInst id { i with deadline := if i.deadline = 0 then next else min i.deadline next }
    else
      let s := s.serve id
      let ranks := List.range (s.fld (grpBase l.desc.group.toNat) Grp.nMembers)
      match s.instById id with
      | none => s
      | some _ =>
        let s := State.drain id true ranks s
        match s.instById id with
        | none => s
        | some (l, i) => s.closeInst l i

/-- Every open receive instance of a group that names the node closes (R334). -/
def State.instancesLost (s : State) (node : Nat) : State :=
  (s.q.live.map (·.id)).foldl (fun (s : State) id =>
    match s.instById id with
    | some (l, _) => if s.groupHas l.desc.group.toNat node then s.closeNow id else s
    | none => s) s

/-- Each Caisson entry that names the node becomes LOST (R334). -/
def State.entriesLost (s : State) (node : Nat) : State :=
  (List.range 2).foldl (fun (s : State) e =>
    if s.entryNode e % 65536 == node % 65536 then
      let s := { s with snap := { s.snap with jobs := s.snap.jobs.filter fun j => !(j.live.isNone && j.entry == e) } }
      (s.abandon e).setRegBits (R.snapCStat e) 31 29 4
    else s) s

/-- The LOST notice (R334): a FIRMWARE packet to the neighbour on each link that is UP, whose payload is
firmware's own. -/
def State.lostNotice (s : State) : State :=
  (List.range 48).foldl (fun (s : State) h =>
    let seen := s.reg (R.portSeen (h / 2) (h % 2))
    if s.linkIsUp h && seen.testBit 31 then
      let (n, s) := s.freeBytes 1
      let (bs, s) := s.freeBytes (leNat n)
      s.mgmt (bits seen 19 0) 5 0 0 0 0 bs
    else s) s

/-- A node lies on the dimension-order route from this chip to a destination (R298): it agrees with the
destination in the dimensions already travelled, with this chip in those to come, and lies on the arc between. A tie goes
both ways when ADAPTIVE is 1, and by plus alone otherwise. -/
def State.onRoute (s : State) (lost dst : Nat) : Bool :=
  let rings := s.rings
  let n := rings.length
  let c (node d : Nat) : Nat := coordOf rings node d
  (List.range n).any fun d =>
    let k := nth rings d 1
    let off := (c dst d + k - c s.node d) % max k 1
    let up := (c lost d + k - c s.node d) % max k 1
    (List.range d).all (fun e => c lost e == c dst e) &&
    ((List.range n).filter (d < ·)).all (fun e => c lost e == c s.node e) &&
    ((decide (off ≤ k - off ∧ 1 ≤ up ∧ up ≤ off)) ||
      (decide ((k - off < off ∨ (k - off = off ∧ s.regBit R.deckMode 3)) ∧ 1 ≤ k - up ∧ k - up ≤ k - off ∧ up ≠ 0)))

/-- Routing entries that firmware writes for a lost node (R337): the node's own, VALID with no port, and in
dimension order a detour, of firmware's choice, for each destination whose route passes through it. -/
def State.routeAround (s : State) (node : Nat) : State :=
  let n := node % 65536
  let s := s.ctxWr (routeBase n) (toLE 8 (2 ^ 63))
  let dor := s.regBits R.deckMode 1 0 == 0 && ringsOk s.rings
  let far := if dor then (List.range s.rings.prod).filter fun d => d != n && d != s.node && s.onRoute n d else []
  let s := far.foldl (fun (s : State) d =>
    let (b, s) := s.freeBytes 8
    let e := leNat b
    s.ctxWr (routeBase d) (toLE 8 (2 ^ 63 + bits e 49 0))) s
  { s with snap := { s.snap with
      detours := (s.snap.detours.filter fun (x : Nat × Nat) => x.1 != n) ++ (n :: far).map fun d => (n, d) } }

/-- Firmware declares a node lost (R334, R337; nodes match on bits [15:0], R10). -/
def declareNodeLost (node : BitVec 20) (s : State) : State :=
  let n := node.toNat
  let conns := s.enabledConns.filter fun c => s.fld (connBase c) Conn.remoteNode % 65536 == n % 65536
  let s := conns.foldl (fun (s : State) c => s.endConn c 0x41 0 0 true) s
  let s := ((s.barriersLost n).instancesLost n).ownerLost n
  (s.entriesLost n).lostNotice.routeAround n

/-- A watch entry becomes LOST (R333), and firmware declares its node lost (R334). -/
def State.watchLost (s : State) (i missed : Nat) : State :=
  let node := s.regBits (R.snapWatch i) 19 0
  let s := s.setWatch i 3 missed
  let s := ((s.setReg R.snapLostLast (2 ^ 31 + node)).bump R.snapLostCnt).raiseIrq 6 1
  s.duty (.declareNodeLost (BitVec.ofNat 20 node)) (declareNodeLost (BitVec.ofNat 20 node))

/-- HEARTBEAT_MISS (R333). -/
def heartbeatMiss (entry : BitVec 6) (s : State) : State :=
  let i := entry.toNat
  let st := s.watchState i
  if s.watched i && (st == 1 || st == 2) then
    let m := min (s.regBits (R.snapWatch i) 27 24 + 1) 15
    if s.regBits R.snapHbCfg 23 20 ≤ m then s.watchLost i m else s.setWatch i st m
  else s

/-- GRACE_EXPIRY (R333). -/
def graceExpiry (entry : BitVec 6) (s : State) : State :=
  let i := entry.toNat
  if s.watched i && s.watchState i == 2 then s.watchLost i (s.regBits (R.snapWatch i) 27 24) else s

/-- SNAP_WATCH_WRITE (R333, R341). -/
def snapWatchWrite (entry : BitVec 6) (v : Word) (s : State) : State :=
  let i := entry.toNat
  let fresh := v.toNat.testBit 31 && !s.watched i
  let s := s.writeFields (R.snapWatch i) v.toNat
  if fresh then s.setWatch i 0 0 else s

/-- DECLARE_NODE_LOST (R334): a Keystone that is resetting declares once it has announced itself again. -/
def declareLostRow (node : BitVec 20) (s : State) : State := s.duty (.declareNodeLost node) (declareNodeLost node)

/-- FIRMWARE (R334, R335): a LOST notice declares its node lost, or fences this chip when it names it. -/
def firmwareAt (src : BitVec 20) (lost : Option (BitVec 20)) (s : State) : State :=
  s.duty (.firmware src lost) fun s =>
    match lost with
    | none => s
    | some n =>
      if n.toNat % 65536 = s.node then ({ s with q := { s.q with selfLost := true } }).raiseIrq 6 16
      else declareNodeLost n s

end Sys2Proof.Machine
end

