-- ==== Sys2Proof/Machine/Time.lean ====
section
/-! DEFINITION. The timebase (R304, R305) and BARRIER (R306-R308). -/

namespace Sys2Proof.Machine

/-! ### The timebase -/

/-- A timestamp extended around this chip's own timebase (R304), in units of 2^-16 ns. -/
def State.extendTs (s : State) (ts : DWord) : Int :=
  (s.clock.tb : Int) + (ts - BitVec.ofNat 64 s.clock.tb).toInt

/-- The half-port of the parent, when one is named (R311 TIME_PARENT). -/
def State.parentLink (s : State) : Option Nat :=
  if s.regBit R.timeParent 31 then some (s.regBits R.timeParent 5 0) else none

/-- TIME_STAT.LOCKED becomes 1 (R305, R311). -/
def State.lockTime (s : State) : State :=
  let was := s.regBit R.timeStat 0
  let s := { s.setRegBits R.timeStat 0 0 1 with clock := { s.clock with locked := true } }
  if was then s else s.raiseIrq 3 1

/-- A timestamp word sent on a link (R282, R304). -/
def State.putTs (s : State) (h kind flags seq ts : Nat) : State :=
  s.putLink h [linkWord kind (toLE 1 flags ++ toLE 2 seq ++ toLE 8 ts)]

/-- TSYNC_REQ at a parent (R304). -/
def tsyncReq (h : BitVec 6) (seq : BitVec 16) (_t1 t2 t3 : DWord) (s : State) : State :=
  if s.linkIsUp h.toNat then
    let s := s.putTs h.toNat 8 (b2n (s.regBit R.timeStat 0)) seq.toNat t2.toNat
    s.putTs h.toNat 9 0 seq.toNat t3.toNat
  else s

/-- The exchange under way, when a word on a link belongs to it (R304). -/
def State.exchangeOn (s : State) (h : BitVec 6) (seq : BitVec 16) : Option Exchange :=
  match s.clock.exchange with
  | some x => if s.parentLink = some h.toNat ∧ x.seq = seq.toNat then some x else none
  | none => none

/-- TSYNC_T2 at a child (R304). -/
def tsyncT2 (h : BitVec 6) (locked : Bool) (seq : BitVec 16) (t2 : DWord) (s : State) : State :=
  match s.exchangeOn h seq with
  | some x => { s with clock := { s.clock with exchange := some { x with t2 := some t2.toNat, locked := locked } } }
  | none => s

/-- A signed number within 32 bits, saturated (R311 TIME_OFFSET). -/
def satReg (x : Int) : Nat :=
  (max (-(2 ^ 31)) (min (2 ^ 31 - 1) x) % 2 ^ 32).toNat

/-- The correction of an exchange (R305): a step, or a slew. -/
def State.correct (s : State) (offset : Int) : State :=
  let far := decide (1000 * 65536 < offset.natAbs)
  if s.regBit R.timeStat 0 || (s.clock.locked && !far) then { s with clock := { s.clock with slew := offset } }
  else
    { s with clock := { s.clock with
        tb := (((s.clock.tb : Int) + offset) % 2 ^ 80).toNat
        slew := 0 } }

/-- An exchange completed (R304, R305): offset and delay are halves of the sums given here. -/
def State.exchanged (s : State) (offset2 delay2 : Int) (parentLocked : Bool) : State :=
  let s := s.setReg R.timeOffset (satReg (offset2 / 512))
  let s := s.setReg R.timeDelay (delay2 / 512 % 2 ^ 32).toNat
  let s := (s.bump R.timeSyncCnt).setRegBits R.timeStat 1 1 0
  let near := decide (offset2.natAbs * 1000 ≤ 2 * 65536 * s.reg R.timeLockPs) && parentLocked
  let s := s.correct (offset2 / 2)
  let run := if near then s.clock.run + 1 else 0
  let s : State := { s with clock := { s.clock with exchange := none, run := run } }
  if 8 ≤ s.clock.run then s.lockTime else s

/-- TSYNC_T3 at a child (R304, R305). -/
def tsyncT3 (h : BitVec 6) (seq : BitVec 16) (t3 t4 : DWord) (s : State) : State :=
  match s.exchangeOn h seq with
  | some x =>
    match x.t2 with
    | some t2 =>
      let e (n : DWord) : Int := s.extendTs n
      let out := e (BitVec.ofNat 64 t2) - e (BitVec.ofNat 64 x.t1)
      let back := e t4 - e t3
      s.exchanged (out - back) (out + back) x.locked
    | none => s
  | none => s

/-- TIME_INTERVAL_EXPIRY (R304). -/
def timeIntervalExpiry (t1 : DWord) (s : State) : State :=
  match s.parentLink with
  | some h =>
    if s.regBit R.timeCtrl 1 && s.linkIsUp h then
      let n := s.clock.seq
      let s := { s with clock := { s.clock with
        seq := (n + 1) % 65536, exchange := some ⟨n, t1.toNat, none, false⟩ } }
      s.putTs h 7 0 n t1.toNat
    else s
  | none => s

/-- HOLDOVER (R305): the end of a holdover period in which no exchange completed. A root follows no parent. -/
def holdover (s : State) : State :=
  if s.regBit R.timeCtrl 0 then s
  else if !s.regBit R.timeStat 1 then s.setRegBits R.timeStat 1 1 1
  else if s.regBit R.timeStat 0 then
    let s := { s.setRegBits R.timeStat 0 0 0 with clock := { s.clock with run := 0, slew := 0 } }
    (s.bump R.timeUnlockCnt).raiseIrq 3 2
  else s

/-- A write of TIME_CTRL (R305, R311): its fields, and then SET at the root. -/
def timeCtrlSet (v : Word) (s : State) : State :=
  let s := s.writeFields R.timeCtrl v.toNat
  if v.toNat.testBit 2 && s.regBit R.timeCtrl 0 then
    let t := s.reg R.timeSetLo + s.reg R.timeSetHi * 2 ^ 32
    ({ s with clock := { s.clock with tb := t * 65536, slew := 0 } }).lockTime
  else s

/-- TIME_REPARENT (R378): the new parent, and the exchange restarted. -/
def State.reparent (s : State) (h : Nat) : State :=
  { s.setReg R.timeParent (2 ^ 31 + h) with clock := { s.clock with exchange := none, run := 0 } }

/-- One nanosecond of the top island's clock, changed by at most TIME_SLEW ppm while a correction is taken up: the part of
a unit that a nanosecond leaves over is carried to the next (R304, R305). -/
def State.tickClock (s : State) : State :=
  let may := s.reg R.timeSlew * 65536 + s.clock.part
  let most : Int := (may / 1000000 : Nat)
  let d := max (-most) (min most s.clock.slew)
  { s with clock := { s.clock with
      tb := (((s.clock.tb : Int) + 65536 + d) % 2 ^ 80).toNat
      slew := s.clock.slew - d
      part := if s.clock.slew = d then 0 else may % 1000000
      up := s.clock.up + 1 } }

/-! ### Barriers (R307) -/

/-- The barrier of an identity. -/
def Bar.is (b : Bar) (group channel seq : Nat) : Bool := decide (b.group = group ∧ b.channel = channel ∧ b.seq = seq)

/-- The record of an identity. -/
def State.bar (s : State) (group channel seq : Nat) : Option Bar := s.clock.bars.find? (·.is group channel seq)

/-- A record put in place of the one with its identity, or added. -/
def State.putBar (s : State) (b : Bar) : State :=
  let rest := s.clock.bars.filter fun x => !x.is b.group b.channel b.seq
  { s with clock := { s.clock with bars := rest ++ [b] } }

/-- The children of rank r (R307). -/
def childrenOf (n fanout r : Nat) : List Nat :=
  (List.range n).filter fun c => decide (fanout * r + 1 ≤ c ∧ c ≤ fanout * r + fanout)

/-- The parent of rank r ≥ 1 (R307). -/
def parentOf (fanout r : Nat) : Nat := (r - 1) / fanout

/-- N_MEMBERS of a barrier's group. -/
def State.barMembers (s : State) (b : Bar) : Nat := s.fld (grpBase b.group) Grp.nMembers

/-- This chip's rank in a barrier's group. -/
def State.barRank (s : State) (b : Bar) : Nat := s.fld (grpBase b.group) Grp.myRank

/-- BAR_ARRIVE sent to the parent (R303, R307). -/
def State.sendArrive (s : State) (b : Bar) : State :=
  let r := s.barRank b
  s.mgmt (s.memberNode b.group (parentOf b.fanout r)) 3 b.group b.channel r b.seq []

/-- BAR_RELEASE sent to a child (R303, R307). -/
def State.sendRelease (s : State) (b : Bar) (t child : Nat) : State :=
  s.mgmt (s.memberNode b.group child) 4 b.group b.channel 0 b.seq (toLE 8 t)

/-- The BARRIERs of a record complete (R308). -/
def State.barDone (s : State) (b : Bar) : State :=
  s.endAll (fun _ l => decide (l.phase = .barrier ∧ l.desc.group.toNat = b.group ∧
    l.desc.channel.toNat = b.channel ∧ l.desc.seq.toNat = b.seq)) fun s l => s.endWith l 0

/-- release(t) (R307): the time is kept and sent on, and the BARRIER completes when it has been reached. -/
def State.barRelease (s : State) (b : Bar) (t : Nat) : State :=
  let b := { b with release := some t }
  let s := s.putBar b
  let s := (childrenOf (s.barMembers b) b.fanout (s.barRank b)).foldl (fun (s : State) c => s.sendRelease b t c) s
  if t ≤ s.now then s.barDone b else s

/-- A record looked at after an arrival or a dispatch (R307). -/
def State.barCheck (s : State) (b : Bar) : State :=
  let r := s.barRank b
  if b.live.isSome ∧ b.release.isNone ∧ !b.sent ∧
      ((childrenOf (s.barMembers b) b.fanout r).all fun c => b.arrived.contains c) then
    if r = 0 then s.barRelease b ((s.now + b.delay) % 2 ^ 64)
    else (s.putBar { b with sent := true }).sendArrive b
  else s.putBar b

/-- BARRIER (R306-R308). -/
def startBarrier (l : Live) (s : State) : State :=
  let d := l.desc
  let (g, c, q) := (d.group.toNat, d.channel.toNat, d.seq.toNat)
  let fanout := opBits d 0x20 1 4 0
  let known := s.bar g c q
  if fanout < 2 ∨ 16 < fanout ∨ !s.groupFits g ∨ (known.isNone ∧ 256 ≤ s.clock.bars.length) then s.endWith l 0x23
  else if s.membersPoisoned g then s.endWith l 0x50
  else
    let s := s.setPhase l.id .barrier
    let fresh : Bar := ⟨g, c, q, some l.id, fanout, opd d 0x24 4, [], false, none⟩
    match known with
    | none => s.barCheck fresh
    | some b =>
      match b.release with
      | some t => if t ≤ s.now then s.barDone b else s
      | none =>
        if b.live.isSome then s
        else
          let kids := childrenOf (s.barMembers b) fanout (s.barRank b)
          let ok := b.arrived.filter kids.contains
          (s.bump R.timeBarDrop (b.arrived.length - ok.length)).barCheck { fresh with arrived := ok }

/-- A barrier message discarded (R307). -/
def State.barDrop (s : State) : State := s.bump R.timeBarDrop

/-- BAR_ARRIVE (R307). Before the local BARRIER the FANOUT is not known: then its rank is checked when the
BARRIER is dispatched. -/
def barArrive (src : BitVec 20) (group : BitVec 12) (channel rank : BitVec 16) (seq : Word) (s : State) : State :=
  let (g, c, r) := (group.toNat, channel.toNat, rank.toNat)
  if !s.groupUsed g || decide (s.fld (grpBase g) Grp.nMembers ≤ r) ||
      decide (s.memberNode g r % 65536 ≠ src.toNat % 65536) then s.barDrop
  else match s.bar g c seq.toNat with
    | none =>
      if 256 ≤ s.clock.bars.length then s.barDrop
      else s.putBar ⟨g, c, seq.toNat, none, 0, 0, [r], false, none⟩
    | some b =>
      if b.live.isNone ∧ b.release.isNone then s.putBar { b with arrived := insertN r b.arrived }
      else if !(childrenOf (s.barMembers b) b.fanout (s.barRank b)).contains r then s.barDrop
      else match b.release with
        | some t => s.sendRelease b t r
        | none => s.barCheck { b with arrived := insertN r b.arrived }

/-- BAR_RELEASE (R307, R308). -/
def barReleaseAt (src : BitVec 20) (group : BitVec 12) (channel : BitVec 16) (seq : Word) (t : DWord) (s : State) :
    State :=
  match s.bar group.toNat channel.toNat seq.toNat with
  | none => s.barDrop
  | some b =>
    let r := s.barRank b
    if (b.live.isNone ∧ b.release.isNone) ∨ r = 0 ∨
        s.memberNode b.group (parentOf b.fanout r) % 65536 ≠ src.toNat % 65536 then s.barDrop
    else if b.release.isSome then s
    else
      let late := decide (t.toNat < s.now)
      let s := if late then (s.bump R.timeBarLate).raiseIrq 3 4 else s
      s.barRelease b t.toNat

/-- RELEASE_TIME_REACHED (R308). -/
def releaseTimeReached (group : BitVec 12) (channel : BitVec 16) (seq : Word) (s : State) : State :=
  match s.bar group.toNat channel.toNat seq.toNat with
  | some b =>
    match b.release with
    | some t => (s.reach t).barDone b
    | none => s
  | none => s

/-- BAR_RESEND (R307). -/
def barResend (group : BitVec 12) (channel : BitVec 16) (seq : Word) (s : State) : State :=
  match s.bar group.toNat channel.toNat seq.toNat with
  | some b => if b.sent ∧ b.release.isNone then s.sendArrive b else s
  | none => s

/-- BAR_KEEP_EXPIRY (R307): the record of a barrier whose release time has passed is freed. -/
def barKeepExpiry (group : BitVec 12) (channel : BitVec 16) (seq : Word) (s : State) : State :=
  match s.bar group.toNat channel.toNat seq.toNat with
  | some b =>
    match b.release with
    | some t =>
      if t ≤ s.now then
        { s with clock := { s.clock with
            bars := s.clock.bars.filter fun x => !x.is group.toNat channel.toNat seq.toNat } }
      else s
    | none => s
  | none => s

/-- Barriers whose release time the timebase has reached complete (R308). -/
def State.barriersDue (s : State) : State :=
  s.clock.bars.foldl (fun (s : State) b =>
    match b.release with
    | some t => if t ≤ s.now then s.barDone b else s
    | none => s) s

end Sys2Proof.Machine
end

