-- ==== Sys2Proof/Machine/Port.lean ====
section
/-! DEFINITION. The links (R279-R294): bring-up, checks, lane faults, what arrives on a link (R283-R286), the
Deck's handling of it (R295, R296, R303), and the registers of AK_PORT and AK_DECK that act. -/

namespace Sys2Proof.Machine

/-! ### The lanes of a link (R280, R281) -/

/-- The page of a half-port's port. -/
def portPage (h : Nat) : Nat := 0x40 + h / 2

/-- The port is split (R280). -/
def State.isSplit (s : State) (h : Nat) : Bool := s.regBit (R.portCfg (h / 2)) 0

/-- How many lanes a link has. -/
def State.laneCount (s : State) (h : Nat) : Nat := if s.isSplit h then 4 else 8

/-- The port's number of a link's lane 0. -/
def State.laneBase (s : State) (h : Nat) : Nat := if s.isSplit h then 4 * (h % 2) else 0

/-- A mask in the port's lane numbering taken into the link's own. -/
def State.ownMask (s : State) (h m : Nat) : Nat := (m >>> s.laneBase h) % 2 ^ s.laneCount h

/-- The half-port that a port's lane belongs to. -/
def State.halfOfLane (s : State) (port lane : Nat) : Nat :=
  if s.regBit (R.portCfg port) 0 then 2 * port + lane / 4 else 2 * port

/-- The lanes of a width chosen from a mask of usable lanes (R281); 0 when none serves. -/
def chooseLanes (n m : Nat) : Nat :=
  let has (x : Nat) : Bool := m &&& x == x
  let cands := if n = 8 then [0xFF, 0x0F, 0xF0, 0x03, 0x0C, 0x30, 0xC0] else [0xF, 0x3, 0xC]
  (cands.find? has).getD 0

/-- How many lanes a mask holds. -/
def laneTotal (m : Nat) : Nat := (setIdx m 8).length

/-- The lanes of a link that may be used: enabled, and with no mark (R287, R288, R292). -/
def State.usableLanes (s : State) (h : Nat) : Nat :=
  let f := s.reg (R.portLaneFault (h / 2))
  let bad := bits f 23 16 ||| bits f 15 8 ||| bits f 7 0
  s.ownMask h (s.regBits (R.portCfg (h / 2)) 31 24) &&& (s.ownMask h bad ^^^ (2 ^ s.laneCount h - 1))

/-- The link is reversed (R289): every lane that received a LANE_ID received the opposite number. -/
def State.linkReversed (s : State) (h : Nat) : Bool :=
  let l := (s.half h).laneIds
  !l.isEmpty && l.all fun (x : Nat × Nat × Bool) => x.1 + x.2.1 + 1 == s.laneCount h

/-- The lanes usable here, in this side's numbering (R289): the GOOD mask of CAP. -/
def State.goodLanes (s : State) (h : Nat) : Nat :=
  let rev := s.linkReversed h
  let fits := (s.half h).laneIds.filter fun (x : Nat × Nat × Bool) =>
    if rev then true else x.1 == x.2.1
  s.usableLanes h &&& maskOf (fits.map (·.1))

/-- The lanes usable at both ends, the neighbour's mapped through the reversal (R281, R289). -/
def State.bothGood (s : State) (h : Nat) (w : CapWord) : Nat :=
  let n := s.laneCount h
  let theirs := (List.range n).filter fun i =>
    w.good.getLsbD (if s.linkReversed h then n - 1 - i else i)
  s.goodLanes h &&& maskOf theirs

/-! ### Link state -/

/-- STATE of a link set (R309); a change raises STATE, and FAILED when the link fails. An eye scan under way on
its lanes is cut short (R397). -/
def State.setLink (s : State) (h st : Nat) : State :=
  if s.linkState h = st then s
  else
    let s := { s with deck := { s.deck with
      eyes := s.deck.eyes.filter fun (e : Nat × Nat) => !(decide (e.1 = h / 2) && s.halfOfLane e.1 e.2 == h) } }
    let s := (s.setRegBits (portStatOf h) 31 28 st).raiseIrq (portPage h) 1
    if st = 6 then s.raiseIrq (portPage h) 8 else s

/-- A link leaves UP (R293): what is queued for it is discarded and its pause state cleared. -/
def State.leaveUp (s : State) (h : Nat) : State :=
  if s.linkIsUp h then
    let n := (s.deck.out.filter fun f => f.h == h).length
    let s := { s with deck := { s.deck with out := s.deck.out.filter fun f => f.h != h } }
    (s.bump R.deckDownDrop n).setHalf h fun x => { x with paused := 0, xoff := 0 }
  else s

/-- A link forgets its training and goes to a state that carries nothing. -/
def State.clearLink (s : State) (h st : Nat) : State :=
  let s := (s.leaveUp h).setLink h st
  let s := s.setReg (portStatOf h) (st <<< 28)
  s.setHalf h fun x => { x with laneIds := [], cap := none, ident := false, trained := false }

/-- A link enters DETECT (R287); after it has once been UP the entry counts. -/
def State.toDetect (s : State) (h : Nat) : State :=
  if !s.halfExists h || s.linkState h == 1 then s
  else
    let s := if (s.half h).wasUp then s.bump (R.portRetrains (h / 2)) else s
    s.clearLink h 1

/-- A link fails (R287, R290). -/
def State.failLink (s : State) (h : Nat) : State := s.clearLink h 6

/-- A boundary-scan instruction owns the lanes (R393). -/
def State.scanOwns (s : State) : Bool :=
  match s.scan.mode with
  | .extest | .pulse | .train => true
  | .bypass | .sample => false

/-- A lane of the link is in test (R394): its fields take effect only while the link is DISABLED or FAILED. -/
def State.laneTested (s : State) (h : Nat) : Bool :=
  (s.linkState h == 0 || s.linkState h == 6) && (List.range (s.laneCount h)).any fun i =>
    let c := s.reg (R.portLaneCtrl (h / 2) (s.laneBase h + i))
    bits c 1 0 != 0 || bits c 5 4 != 0

/-- A link may train: its page is enabled, its island runs, its supply and clock are good, and neither boundary
scan nor a lane test has its lanes (R349, R355, R372, R393, R394). -/
def State.mayTrain (s : State) (h : Nat) : Bool :=
  let g := h / 8
  s.halfExists h && s.regBit (R.hdrCtrl (portPage h)) 0 && s.islandReady (37 + h / 2) && !s.underTest (37 + h / 2) && !s.scanOwns &&
  !s.laneTested h && !(s.pwr.vddaReset.any (·.1 == g)) && !s.pwr.portClock.contains g

/-- A duty of firmware in training (R294): held from a Keystone-only reset until the announcement. -/
def State.portDuty (s : State) (i : Instr) (f : State → State) : State :=
  if s.regBits R.kstnState 15 0 = 0 then f s else s.duty i f

/-! ### Bring-up (R287-R291) -/

/-- A link's number as IDENT and PORT_EXP spell it. -/
def identOf (h node : Nat) : Nat := (h / 2) * 2 ^ 21 + h % 2 * 2 ^ 20 + node

/-- LANE_ID sent on each usable lane (R287, R289). -/
def State.sendLaneIds (s : State) (h : Nat) : State :=
  s.putLink h ((setIdx (s.usableLanes h) 8).map fun i => linkWord 10 (toLE 1 i))

/-- CAP sent (R282): HOLD while the link is HELD, READY once step 4 has been reached. -/
def State.sendCap (s : State) (h : Nat) : State :=
  let rates := maskOf ((List.range 3).filter fun n => decide (s.regBits (R.portCfg (h / 2)) 9 8 ≤ n))
  let st := s.linkState h
  let ready := decide (st = 4 ∨ (st = 2 ∧ s.regBits (portStatOf h) 19 16 ≠ 0))
  s.putLink h [linkWord 5 (toLE 1 0x21 ++ toLE 1 rates ++
    toLE 1 (b2n (s.isSplit h) + 2 * b2n (st == 5) + 4 * b2n ready) ++ toLE 1 (s.goodLanes h))]

/-- CAP and IDENT sent (R287 step 2). -/
def State.sendOffer (s : State) (h : Nat) : State :=
  (s.sendCap h).putLink h [linkWord 6 (toLE 1 (h / 2 + h % 2 * 32) ++ toLE 3 s.node)]

/-- Step 1 (R287): detection marks open and short lanes; with a usable lane the link goes on to TRAIN. -/
def State.detect (s : State) (h openLanes shortLanes : Nat) : State :=
  let lanes := maskOf ((List.range (s.laneCount h)).map (s.laneBase h + ·))
  let a := R.portLaneFault (h / 2)
  let s := s.setReg a (s.reg a ||| (openLanes &&& lanes) <<< 16 ||| (shortLanes &&& lanes) <<< 8)
  if s.usableLanes h = 0 then s.failLink h
  else
    let s := (s.setLink h 2).setRegBits (portStatOf h) 27 26 2
    s.sendLaneIds h

/-- DETECT_RETRY (R287): a link in DETECT, or one that has failed, takes step 1. -/
def detectRetry (h : BitVec 6) (openLanes shortLanes : Byte) (s : State) : State :=
  s.portDuty (.detectRetry h openLanes shortLanes) fun s =>
    let n := h.toNat
    if s.mayTrain n && (s.linkState n == 1 || s.linkState n == 6) then
      (s.toDetect n).detect n openLanes.toNat shortLanes.toNat
    else s

/-- Training refuses the receive buffer's partition (R286). -/
def State.partitionBad (s : State) (port : Nat) : Bool :=
  let f (v hi lo : Nat) : Nat := s.regBits (R.portVl port v) hi lo
  decide (256 < ((List.range 8).map fun v => f v 31 24).sum) ||
  (List.range 6).any fun v => decide (f v 31 24 ≠ 0 ∧ ¬ (f v 15 8 < f v 23 16 ∧ f v 23 16 < f v 31 24))

/-- Step 5 (R287): the link is UP, and firmware sends DISCOVER to the neighbour (R313). -/
def State.toUp (s : State) (h : Nat) : State :=
  if s.partitionBad (h / 2) then (s.failLink h).errFirst (portPage h) 0x23
  else
    let s := (s.setLink h 4).setHalf h fun x => { x with wasUp := true, paused := 0, xoff := 0 }
    s.sendDiscover (s.regBits (R.portSeen (h / 2) (h % 2)) 19 0) false

/-- A link whose equalisation training has ended becomes UP once both sides have sent READY (R291). -/
def State.upCheck (s : State) (h : Nat) : State :=
  match (s.half h).cap with
  | some w => if (s.half h).trained && w.ready then s.toUp h else s
  | none => s

/-- Step 4 (R287): the lanes retrain with what has been agreed. -/
def State.goTrain (s : State) (h level rate lanes : Nat) : State :=
  let a := portStatOf h
  let s := s.setLink h 2
  let s := ((s.setRegBits a 27 26 rate).setRegBits a 23 20 level).setRegBits a 19 16 (laneTotal lanes)
  (s.setRegBits a 7 0 lanes).sendCap h

/-- The check of the cabling map (R291). -/
def State.cabled (s : State) (h : Nat) : Bool :=
  let e := s.reg (R.portExp (h / 2) (h % 2))
  let seen := s.reg (R.portSeen (h / 2) (h % 2))
  if e.testBit 30 then false
  else e.testBit 31 || (bits e 15 0 == bits seen 15 0 && bits e 25 20 == bits seen 25 20)

/-- The rate agreed (R290): the fastest that both masks carry and RATE_MAX permits. -/
def State.agreedRate (s : State) (h : Nat) (w : CapWord) : Option Nat :=
  (List.range 3).find? fun n => w.rates.getLsbD n && decide (s.regBits (R.portCfg (h / 2)) 9 8 ≤ n)

/-- Step 3 (R287, R290, R291), once CAP and IDENT have been received. A side that receives HOLD waits. -/
def State.agree (s : State) (h : Nat) : State :=
  match (s.half h).cap with
  | none => s
  | some w =>
    let fresh := s.linkState h == 2 && s.regBits (portStatOf h) 19 16 == 0
    if !(s.half h).ident || !(fresh || s.linkState h == 3) then s
    else
      let level := min 2 w.lvlMax.toNat
      if level < max 1 w.lvlMin.toNat then (s.failLink h).errFirst (portPage h) 0x70
      else if w.split != s.isSplit h then (s.failLink h).errFirst (portPage h) 0x23
      else
        let lanes := chooseLanes (s.laneCount h) (s.bothGood h w)
        match s.agreedRate h w with
        | none => s
        | some rate =>
          if lanes = 0 then s.failLink h
          else
            let s := s.setLink h 3
            if !s.cabled h then ((s.setLink h 5).raiseIrq (portPage h) 2).sendCap h
            else if w.hold then s
            else s.goTrain h level rate lanes

/-- LANE_ID (R289). -/
def laneId (h : BitVec 6) (lane : BitVec 3) (id : Byte) (inverted : Bool) (s : State) : State :=
  let n := h.toNat
  let i := lane.toNat
  if s.halfExists n && s.linkState n == 2 && decide (i < s.laneCount n) && s.regBits (portStatOf n) 19 16 == 0 then
    let s := s.setHalf n fun x =>
      { x with laneIds := (x.laneIds.filter fun (y : Nat × Nat × Bool) => y.1 != i) ++ [(i, id.toNat, inverted)] }
    let s := s.setRegBits (portStatOf n) (8 + i) (8 + i) (b2n inverted)
    let s := s.setRegBits (portStatOf n) 25 25 (b2n (s.linkReversed n))
    s.sendOffer n
  else s

/-- A side that trains receives HOLD (R291): it waits in CHECK. -/
def State.holdBack (s : State) (h : Nat) : State :=
  match (s.half h).cap with
  | some w =>
    if w.hold && s.linkState h == 2 && s.regBits (portStatOf h) 19 16 != 0 then
      ((s.setLink h 3).setHalf h fun x => { x with trained := false }).sendCap h
    else s
  | none => s

/-- A CAP looked at (R290, R291): step 3, a neighbour that is held, or a link whose training has ended. -/
def State.capCheck (s : State) (h : Nat) : State :=
  let s := (s.holdBack h).agree h
  if s.linkState h == 2 then s.upCheck h else s

/-- CAP (R290, R291). -/
def capAt (h : BitVec 6) (w : CapWord) (s : State) : State :=
  let n := h.toNat
  if s.halfExists n && [2, 3, 5].contains (s.linkState n) then
    let s := s.setHalf n fun x => { x with cap := some w }
    s.portDuty (.cap h w) fun s => s.capCheck n
  else s

/-- IDENT (R291): recorded, and checked once CAP has been received. -/
def identAt (h : BitVec 6) (port : BitVec 5) (half : Bool) (node : BitVec 20) (s : State) : State :=
  let n := h.toNat
  if s.halfExists n && [2, 3, 5].contains (s.linkState n) then
    let s := s.setReg (R.portSeen (n / 2) (n % 2)) (2 ^ 31 + identOf (2 * port.toNat + b2n half) node.toNat)
    let s := s.setHalf n fun x => { x with ident := true }
    s.portDuty (.ident h port half node) fun s => s.agree n
  else s

/-- A HELD link goes on when PORT_EXP passes against PORT_SEEN (R291). -/
def State.heldCheck (s : State) (h : Nat) : State :=
  if s.halfExists h && s.linkState h == 5 && s.cabled h then
    match (s.half h).cap with
    | some w =>
      match s.agreedRate h w with
      | some rate =>
        let lanes := chooseLanes (s.laneCount h) (s.bothGood h w)
        if lanes = 0 then s.failLink h
        else if w.hold then (s.setLink h 3).sendCap h
        else s.goTrain h (min 2 w.lvlMax.toNat) rate lanes
      | none => s
    | none => s
  else s

/-- PORT_EXP_WRITE (R291). -/
def portExpWrite (port : BitVec 5) (half : Bool) (v : Word) (s : State) : State :=
  let h := 2 * port.toNat + b2n half
  let s := s.writeFields (R.portExp port.toNat (b2n half)) v.toNat
  if s.linkState h == 5 then s.portDuty (.portExpWrite port half v) fun s => s.heldCheck h else s

/-- LINK_UP (R287 steps 4 and 5): equalisation training ends; a lane that failed is left out. -/
def linkUp (h : BitVec 6) (failedLanes : Byte) (s : State) : State :=
  s.portDuty (.linkUp h failedLanes) fun s =>
    let n := h.toNat
    if s.mayTrain n && s.linkState n == 2 && s.regBits (portStatOf n) 19 16 != 0 then
      match (s.half n).cap with
      | none => s
      | some w =>
        let left := s.bothGood n w &&& (failedLanes.toNat ^^^ 0xFF)
        let lanes := chooseLanes (s.laneCount n) left
        if lanes = 0 then s.failLink n
        else
          let a := portStatOf n
          let s := (s.setRegBits a 19 16 (laneTotal lanes)).setRegBits a 7 0 lanes
          (s.setHalf n fun x => { x with trained := true }).upCheck n
    else s

/-- LINK_SIGNAL_LOSS (R287, R293). -/
def linkSignalLoss (h : BitVec 6) (s : State) : State :=
  if [2, 3, 4, 5].contains (s.linkState h.toNat) then s.toDetect h.toNat else s

/-- TRAIN_TIMEOUT (R287): step 2 ends without agreement. -/
def trainTimeout (h : BitVec 6) (s : State) : State :=
  let n := h.toNat
  if s.linkState n == 2 && s.regBits (portStatOf n) 19 16 == 0 then s.toDetect n else s

/-- The marks of a link's lanes cleared (R288); a degraded mark only where LANE_EN is set (R292). -/
def State.clearMarks (s : State) (h : Nat) : State :=
  let lanes := maskOf ((List.range (s.laneCount h)).map (s.laneBase h + ·))
  let deg := lanes &&& s.regBits (R.portCfg (h / 2)) 31 24
  let a := R.portLaneFault (h / 2)
  s.setReg a (s.reg a &&& (0xFFFFFFFF ^^^ (lanes <<< 16 ||| lanes <<< 8 ||| deg)))

/-- RETRAIN of one half-port (R288, R309). -/
def State.retrain (s : State) (h : Nat) : State :=
  if !s.halfExists h then s
  else
    let s := s.clearMarks h
    if s.linkState h = 0 then s else s.toDetect h

/-- PORT_RETRAIN (R288, R309). -/
def portRetrain (port : BitVec 5) (v : Word) (s : State) : State :=
  let s := if v.getLsbD 0 then s.retrain (2 * port.toNat) else s
  if v.getLsbD 1 then s.retrain (2 * port.toNat + 1) else s

/-- The conditions of R394: the link that holds a lane is DISABLED or FAILED. -/
def State.laneInTest (s : State) (port lane : Nat) : Bool :=
  let st := s.linkState (s.halfOfLane port lane)
  st == 0 || st == 6

/-- LANE_DEGRADED (R292): the lane is marked, and firmware retrains the link without it when a width is left. A lane in test
is exempt (R394). -/
def laneDegraded (port : BitVec 5) (lane : BitVec 3) (s : State) : State :=
  let p := port.toNat
  let i := lane.toNat
  let h := s.halfOfLane p i
  if s.regBits (R.portDegrade p) 31 16 = 0 ∨ s.laneInTest p i then s
  else
    let a := R.portLaneFault p
    let s := if s.regBit a i then s else (s.setReg a (s.reg a ||| 1 <<< i)).raiseIrq (0x40 + p) 4
    s.portDuty (.laneDegraded port lane) fun s =>
      match (s.half h).cap with
      | some w =>
        if s.linkIsUp h && (s.regBits (portStatOf h) 7 0).testBit (i - s.laneBase h) &&
            chooseLanes (s.laneCount h) (s.bothGood h w) != 0 then s.toDetect h
        else s
      | none => s

/-- LANE_SHORT (R288, R393). -/
def laneShort (port : BitVec 5) (lane : BitVec 3) (s : State) : State :=
  let a := R.portLaneFault port.toNat
  s.setReg a (s.reg a ||| 1 <<< (8 + lane.toNat))

/-! ### MGMT at its destination (R303) -/

/-- A HEARTBEAT's payload (R332). -/
def heartbeatOf (b : Bytes) : Heartbeat :=
  { node := BitVec.ofNat 20 (leAt b 0 3), kstn := BitVec.ofNat 2 (leAt b 3 1), incarnation := BitVec.ofNat 16 (leAt b 4 2)
    hbSeq := BitVec.ofNat 32 (leAt b 8 4) }

/-- A DISCOVER's payload (R313). -/
def discoverOf (b : Bytes) : DiscoverMsg :=
  { answer := bit (leAt b 0 1) 0, lvlMax := BitVec.ofNat 4 (bits (leAt b 1 1) 7 4), lvlMin := BitVec.ofNat 4 (leAt b 1 1)
    node := BitVec.ofNat 20 (leAt b 2 3), incarnation := BitVec.ofNat 16 (leAt b 6 2)
    domain := BitVec.ofNat 32 (leAt b 8 4), reproId := BitVec.ofNat 64 (leAt b 0x10 8) }

/-- A MGMT packet at its destination (R303), from a port or from this chip. Firmware alone reads what a FIRMWARE
payload says. -/
def State.mgmtAt (s : State) (port : Option Nat) (p : Packet) : State :=
  let group : BitVec 12 := BitVec.ofNat 12 (bits p.g0.toNat 27 16)
  let channel : BitVec 16 := BitVec.ofNat 16 p.g1.toNat
  let drop : State := match port with
    | some n => s.bump (R.portDrop n)
    | none => s
  if p.version.toNat < 1 ∨ 2 < p.version.toNat then drop
  else match p.g0.toNat % 256 with
    | 1 => heartbeat p.src (heartbeatOf p.payload) s
    | 2 => discover p.src (discoverOf p.payload) s
    | 3 => barArrive p.src group channel (BitVec.ofNat 16 (p.g1.toNat / 65536)) p.g2 s
    | 4 => barReleaseAt p.src group channel p.g2 (BitVec.ofNat 64 (leAt p.payload 0 8)) s
    | 5 => firmwareAt p.src none s
    | _ => drop

/-- A packet for this chip (R296): to the MGMT handler or to the transport. -/
def State.deliver (s : State) (port : Option Nat) (p : Packet) : State :=
  if p.opcode = 0x30 then s.mgmtAt port p
  else if s.islandReady 4 then receive p s
  else s

/-! ### What arrives on a link -/

/-- A threshold of PORT_VLn in bytes (R285). -/
def State.vlBytes (s : State) (h v hi lo : Nat) : Nat :=
  let kib := s.regBits (R.portVl (h / 2) v) hi lo
  (if s.isSplit h then kib / 2 else kib) * 1024

/-- Bytes of a lane in a link's receive buffer. -/
def State.occupancy (s : State) (h v : Nat) : Nat :=
  (((s.half h).buffer.filter fun f => f.vl == v).map fun f => pktSize f.pkt).sum

/-- A PAUSE word sent (R282, R285). -/
def State.sendPause (s : State) (h : Nat) : State := s.putLink h [linkWord 4 (toLE 1 (s.half h).xoff)]

/-- The PAUSE state follows the receive buffer (R285). -/
def State.pauseCheck (s : State) (h : Nat) : State :=
  let was := (s.half h).xoff
  let now := (List.range 6).foldl (fun m v =>
    let o := s.occupancy h v
    if 0 < o ∧ s.vlBytes h v 23 16 ≤ o then m ||| 1 <<< v
    else if o ≤ s.vlBytes h v 15 8 then m &&& (0xFF ^^^ 1 <<< v)
    else m) was
  if now = was then s
  else
    let s := s.setHalf h fun x => { x with xoff := now }
    let s := if now &&& (was ^^^ 0xFF) != 0 then s.bump (R.portXoffTx (h / 2)) else s
    s.sendPause h

/-- A frame taken by the Deck from a half-port (R295, R296), and counted when it is forwarded (R310). -/
def State.takeFrom (s : State) (f : Frame) : State :=
  if f.pkt.dst.toNat % 65536 = s.node then (if f.stomp then s else s.deliver (some (f.h / 2)) f.pkt)
  else
    let out := s.chooseOut (s.candidates (some f.h) f.pkt.vl.toNat (f.pkt.dst.toNat % 65536))
    (if out.isSome then s.bump64 R.deckFwdLo else s).route (some f.h) (f.hops + 1) f.stomp f.pkt

/-- A frame in a link's receive buffer taken by the Deck once it has room, the oldest first. -/
def State.drainBuffer (s : State) (h : Nat) : State :=
  match (s.half h).buffer with
  | [] => s
  | f :: t => if s.deckRoom then ((s.setHalf h fun x => { x with buffer := t }).takeFrom f).pauseCheck h else s

/-- A frame that a link has carried here (R284, R286, R295): dropped for want of room or for its hops, taken, or
kept in the receive buffer until the Deck has room. A good one that the port does not drop is counted as accepted
(R309). -/
def State.arrive (s : State) (f : Frame) : State :=
  let p := f.h / 2
  if f.vl = 7 then s.bump (R.portDrop p)
  else if s.vlBytes f.h f.vl 31 24 < s.occupancy f.h f.vl + pktSize f.pkt then
    (if f.vl = 6 then s.bump (R.portDrop p) else s.bump (R.portOvf p))
  else
  let s := if f.stomp then s else s.bump64 (R.portFramesRxLo p)
  if f.hops = s.regBits R.deckHopLimit 7 0 then (s.bump R.deckHoplimit).raiseIrq 0x60 2
  else if s.deckRoom && (s.half f.h).buffer.isEmpty then s.takeFrom f
  else (s.setHalf f.h fun x => { x with buffer := x.buffer ++ [f] }).pauseCheck f.h

/-- A codeword could not be corrected (R398). -/
def codewordLost (c : Codeword) : Bool :=
  c.uncorrectable || decide (15 < (c.corrected.map fun (x : BitVec 3 × Nat) => x.2).sum)

/-- Codewords counted (R398). -/
def State.countFec (s : State) (port : Nat) (l : List Codeword) : State :=
  l.foldl (fun (s : State) (c : Codeword) =>
    let s := s.bumpSat64 (R.portFecCwLo port)
    let n : Nat := (c.corrected.map fun (x : BitVec 3 × Nat) => x.2).sum
    if codewordLost c then s.bump (R.portFecUncorr port)
    else
      let s := c.corrected.foldl (fun (s : State) (x : BitVec 3 × Nat) => s.bumpSat64 (R.portLaneFecSymLo port x.1.toNat) x.2) s
      if n = 0 then s else (s.bumpSat64 (R.portFecCorrLo port)).bump (R.portFecHist port (n - 1))) s

/-- The check of a link word (R282). -/
def wordGood (w : Bytes) : Bool := w.length == 16 && leAt w 12 4 == crc32c (sub w 0 12)

/-- How a frame ended (R283): whole, discarded with its counts, or cut off. -/
def State.frameEnd (s : State) (port : Nat) (body : Bytes) (eof : Option Bytes) : Bool × State :=
  match eof with
  | none => (false, s)
  | some e =>
    if !wordGood e then (false, (s.bump (R.portWordErr port)).bump (R.portLcrcErr port))
    else if leAt e 0 1 ≠ 2 ∨ leAt e 4 4 ≠ crc32c body then (false, s.bump (R.portLcrcErr port))
    else if bit (leAt e 1 1) 0 then (false, s.bump (R.portStompRx port))
    else (true, s)

/-- A frame's words on a link that is UP (R283, R295). A frame in transit is on its way before its end is seen; when that
is bad, or does not come, it goes on with STOMP (bytes that never came stand as zeros; DESIGN CHOICE, log entry 117). -/
def State.frameWordsAt (s : State) (h : Nat) (sof : Bytes) (rest : List Bytes) (cut : Bool) : State :=
  let port := h / 2
  let len := leAt sof 4 2
  let n := ceilDiv len 16
  if len < 32 ∨ 4144 < len then s.bump (R.portLcrcErr port)
  else
    let body := (rest.take n).flatten
    let (good, s) := s.frameEnd port body (if cut then none else rest[n]?)
    if body.length < 32 then s
    else match packetOf (sub (body ++ zeros (len - body.length)) 0 len) with
      | none => if good then (s.bump64 (R.portFramesRxLo port)).bump R.rmaBadHdr else s
      | some p =>
        if !good && p.dst.toNat % 65536 == s.node then s
        else s.arrive ⟨h, leAt sof 1 1 % 8, leAt sof 2 1, !good, p⟩

/-- A word on a link whose CAP and IDENT are being exchanged: checked as on any link (R283). -/
def State.trainingWord (s : State) (port : Nat) (w : Bytes) : State :=
  if !wordGood w || leAt w 0 1 == 0 || decide (10 < leAt w 0 1) then s.bump (R.portWordErr port) else s

/-- FRAME_RECEIVE (R283, R295, R398). A frame with a codeword that could not be corrected is dropped (R138). -/
def frameReceive (h : BitVec 6) (f : RxFrame) (s : State) : State :=
  let n := h.toNat
  let port := n / 2
  let s := s.countFec port f.fec
  if f.fec.any codewordLost then s
  else match f.words with
    | [] => s
    | sof :: rest =>
      let kind := leAt sof 0 1
      if s.halfExists n && [2, 3, 5].contains (s.linkState n) then s.trainingWord port sof
      else if !s.linkIsUp n || !s.islandReady 3 then s
      else if !wordGood sof then
        let s := s.bump (R.portWordErr port)
        if !rest.isEmpty || kind == 1 then s.bump (R.portLcrcErr port) else s
      else if kind = 0 ∨ 10 < kind then s.bump (R.portWordErr port)
      else if kind = 1 then s.frameWordsAt n sof rest f.cut
      else s

/-- PAUSE (R285). -/
def pauseAt (h : BitVec 6) (xoff : Byte) (s : State) : State :=
  if s.linkIsUp h.toNat then s.setHalf h.toNat fun x => { x with paused := xoff.toNat } else s

/-- PAUSE_REFRESH (R285). -/
def pauseRefresh (h : BitVec 6) (s : State) : State := if s.linkIsUp h.toNat then s.sendPause h.toNat else s

/-! ### Registers that act -/

/-- A write of DECK_CTRL (R298, R310): CLEAR, and EN, whose rise an invalid DOR configuration refuses. -/
def deckControl (v : Word) (s : State) : State :=
  let s := if v.getLsbD 0 then s.zeroRegs 0x60 0xE0 0xF4 else s
  if s.locked 0x60 then s
  else if v.getLsbD 1 && !s.regBit R.deckCtrl 1 && s.regBits R.deckMode 1 0 == 0 && !ringsOk s.rings then
    s.errFirst 0x60 0x23
  else s.setRegBits R.deckCtrl 1 1 (b2n (v.getLsbD 1))

/-- ROUTE_ENTRY_WRITE (R301, R380): the high word commits the entry with the low word staged for it. -/
def routeEntryWrite (dst : BitVec 16) (v : Word) (s : State) : State :=
  let b := routeBase dst.toNat
  let s := match s.x.routeStage with
    | some (n, w) => if n = dst.toNat then s.ctxWr b (toLE 4 w.toNat) else s
    | none => s
  { s.ctxWr (b + 4) (toLE 4 (v.toNat &&& 0x8003FFFF)) with x := { s.x with routeStage := none } }

end Sys2Proof.Machine
end

