-- ==== Sys2Proof/Machine/Sha384.lean ====
section
/-! DEFINITION. SHA-384 (FIPS 180-4), which the image check of Falsework uses (R359). PRESUMED: the
published standard, log entry 18. -/

namespace Sys2Proof.Machine

/-- Round constants of SHA-384, part 0. -/
def shaK0 : List DWord :=
  [0x428a2f98d728ae22#64, 0x7137449123ef65cd#64, 0xb5c0fbcfec4d3b2f#64,
   0xe9b5dba58189dbbc#64, 0x3956c25bf348b538#64, 0x59f111f1b605d019#64,
   0x923f82a4af194f9b#64, 0xab1c5ed5da6d8118#64, 0xd807aa98a3030242#64,
   0x12835b0145706fbe#64]

/-- Round constants of SHA-384, part 1. -/
def shaK1 : List DWord :=
  [0x243185be4ee4b28c#64, 0x550c7dc3d5ffb4e2#64, 0x72be5d74f27b896f#64,
   0x80deb1fe3b1696b1#64, 0x9bdc06a725c71235#64, 0xc19bf174cf692694#64,
   0xe49b69c19ef14ad2#64, 0xefbe4786384f25e3#64, 0x0fc19dc68b8cd5b5#64,
   0x240ca1cc77ac9c65#64]

/-- Round constants of SHA-384, part 2. -/
def shaK2 : List DWord :=
  [0x2de92c6f592b0275#64, 0x4a7484aa6ea6e483#64, 0x5cb0a9dcbd41fbd4#64,
   0x76f988da831153b5#64, 0x983e5152ee66dfab#64, 0xa831c66d2db43210#64,
   0xb00327c898fb213f#64, 0xbf597fc7beef0ee4#64, 0xc6e00bf33da88fc2#64,
   0xd5a79147930aa725#64]

/-- Round constants of SHA-384, part 3. -/
def shaK3 : List DWord :=
  [0x06ca6351e003826f#64, 0x142929670a0e6e70#64, 0x27b70a8546d22ffc#64,
   0x2e1b21385c26c926#64, 0x4d2c6dfc5ac42aed#64, 0x53380d139d95b3df#64,
   0x650a73548baf63de#64, 0x766a0abb3c77b2a8#64, 0x81c2c92e47edaee6#64,
   0x92722c851482353b#64]

/-- Round constants of SHA-384, part 4. -/
def shaK4 : List DWord :=
  [0xa2bfe8a14cf10364#64, 0xa81a664bbc423001#64, 0xc24b8b70d0f89791#64,
   0xc76c51a30654be30#64, 0xd192e819d6ef5218#64, 0xd69906245565a910#64,
   0xf40e35855771202a#64, 0x106aa07032bbd1b8#64, 0x19a4c116b8d2d0c8#64,
   0x1e376c085141ab53#64]

/-- Round constants of SHA-384, part 5. -/
def shaK5 : List DWord :=
  [0x2748774cdf8eeb99#64, 0x34b0bcb5e19b48a8#64, 0x391c0cb3c5c95a63#64,
   0x4ed8aa4ae3418acb#64, 0x5b9cca4f7763e373#64, 0x682e6ff3d6b2b8a3#64,
   0x748f82ee5defb2fc#64, 0x78a5636f43172f60#64, 0x84c87814a1f0ab72#64,
   0x8cc702081a6439ec#64]

/-- Round constants of SHA-384, part 6. -/
def shaK6 : List DWord :=
  [0x90befffa23631e28#64, 0xa4506cebde82bde9#64, 0xbef9a3f7b2c67915#64,
   0xc67178f2e372532b#64, 0xca273eceea26619c#64, 0xd186b8c721c0c207#64,
   0xeada7dd6cde0eb1e#64, 0xf57d4f7fee6ed178#64, 0x06f067aa72176fba#64,
   0x0a637dc5a2c898a6#64]

/-- Round constants of SHA-384, part 7. -/
def shaK7 : List DWord :=
  [0x113f9804bef90dae#64, 0x1b710b35131c471b#64, 0x28db77f523047d84#64,
   0x32caab7b40c72493#64, 0x3c9ebe0a15c9bebc#64, 0x431d67c49c100d4c#64,
   0x4cc5d4becb3e42b6#64, 0x597f299cfc657e2a#64, 0x5fcb6fab3ad6faec#64,
   0x6c44198c4a475817#64]

/-- The 80 round constants. -/
def shaK : List DWord := shaK0 ++ shaK1 ++ shaK2 ++ shaK3 ++ shaK4 ++ shaK5 ++ shaK6 ++ shaK7

/-- The eight working variables of SHA-384. -/
structure ShaReg where
  a : DWord
  b : DWord
  c : DWord
  d : DWord
  e : DWord
  f : DWord
  g : DWord
  h : DWord
  deriving DecidableEq, Repr

/-- The initial hash value of SHA-384. -/
def shaInit : ShaReg :=
  ⟨0xcbbb9d5dc1059ed8#64, 0x629a292a367cd507#64, 0x9159015a3070dd17#64, 0x152fecd8f70e5939#64,
   0x67332667ffc00b31#64, 0x8eb44a8768581511#64, 0xdb0c2e0d64f98fa7#64, 0x47b5481dbefa4fa4#64⟩

/-- One round. -/
def shaRound (r : ShaReg) (kw : DWord × DWord) : ShaReg :=
  let s1 := r.e.rotateRight 14 ^^^ r.e.rotateRight 18 ^^^ r.e.rotateRight 41
  let ch := (r.e &&& r.f) ^^^ (~~~r.e &&& r.g)
  let t1 := r.h + s1 + ch + kw.1 + kw.2
  let s0 := r.a.rotateRight 28 ^^^ r.a.rotateRight 34 ^^^ r.a.rotateRight 39
  let mj := (r.a &&& r.b) ^^^ (r.a &&& r.c) ^^^ (r.b &&& r.c)
  ⟨t1 + s0 + mj, r.a, r.b, r.c, r.d + t1, r.e, r.f, r.g⟩

/-- The message schedule, its newest word first; n more words are added. -/
def shaExtend : Nat → List DWord → List DWord
  | 0, w => w
  | n + 1, w =>
    let x2 := nth w 1 0
    let x15 := nth w 14 0
    let s1 := x2.rotateRight 19 ^^^ x2.rotateRight 61 ^^^ (x2 >>> 6)
    let s0 := x15.rotateRight 1 ^^^ x15.rotateRight 8 ^^^ (x15 >>> 7)
    shaExtend n ((s1 + nth w 6 0 + s0 + nth w 15 0) :: w)

/-- The schedule of one 128-byte block. -/
def shaSchedule (blk : Bytes) : List DWord :=
  (shaExtend 64 ((chunksOf 8 blk).map fun b => BitVec.ofNat 64 (beNat b)).reverse).reverse

/-- The word by word sum of two sets of working variables. -/
def shaAdd (h r : ShaReg) : ShaReg :=
  ⟨h.a + r.a, h.b + r.b, h.c + r.c, h.d + r.d, h.e + r.e, h.f + r.f, h.g + r.g, h.h + r.h⟩

/-- One 128-byte block. -/
def shaBlock (h : ShaReg) (blk : Bytes) : ShaReg := shaAdd h ((shaK.zip (shaSchedule blk)).foldl shaRound h)

/-- SHA-384 of a message. -/
def sha384 (m : Bytes) : Bytes :=
  let pad := zeros ((239 - m.length % 128) % 128)
  let msg := m ++ [0x80#8] ++ pad ++ toBE 16 (8 * m.length)
  let r := (chunksOf 128 msg).foldl shaBlock shaInit
  ([r.a, r.b, r.c, r.d, r.e, r.f].map fun x => toBE 8 x.toNat).flatten

end Sys2Proof.Machine
end

