-- ==== Sys2Proof/Machine/Power.lean ====
section
/-! DEFINITION. Supplies, islands and resets (R342-R355, R362-R366), start-up (R356-R361) and the Keystone's
announcement (R377). -/

namespace Sys2Proof.Machine

/-! ### The power log (R366) -/

/-- A power log entry. -/
def State.pwrLog (s : State) (kind : Nat) (vddh : Bool) (where_ value time : Nat) : State :=
  s.putLog16 R.pwrLogCnt R.pwrLogHead (R.pwrLog 0)
    [kind * 2 ^ 24 + b2n vddh * 128 + where_ % 128, value % 65536, time % 2 ^ 32, time / 2 ^ 32 % 2 ^ 32]

/-- A power log entry whose VALUE no rule gives: a free value. -/
def State.pwrLogFree (s : State) (kind where_ time : Nat) : State :=
  let (b, s) := s.freeBytes 2
  s.pwrLog kind false where_ (leNat b) time

/-! ### Islands -/

/-- An island's record. -/
def State.island (s : State) (i : Nat) : Island := nth s.pwr.islands i (Island.reset false)

/-- An island's record changed. -/
def State.setIsland (s : State) (i : Nat) (f : Island → Island) : State :=
  { s with pwr := { s.pwr with islands := modNth s.pwr.islands i f } }

/-- STATE of BOOT_STAT (R365). -/
def State.bootState (s : State) : Nat := s.regBits R.bootStat 31 28

/-- A trip or the loss of the island clock holds every island but the top in reset (R354, R355). -/
def State.heldDown (s : State) : Bool := s.pwr.tripAt.isSome || s.pwr.clockLost.isSome

/-- What is in force is more severe than an engine warm reset, a short, or the reset of an island (R364): a trip, the loss
of the island clock, or a cold reset that the supplies have not ended (R343). -/
def State.absorbed (s : State) : Bool := s.heldDown || s.bootState == 0

/-- The queue, Deck or transport island is out of service: the engine cannot run, and every island but the top is held in
reset (R350). -/
def State.engineGone (s : State) : Bool := (List.range 3).any fun k => (s.island (2 + k)).oos

/-- KSTN, as the page and the heartbeats show it (R332, R376). -/
def State.setKstn (s : State) (kstn : Nat) (announced : Bool) : State :=
  let s := (s.setRegBits R.kstnState 31 30 kstn).setRegBits R.kstnState 29 29 (b2n announced)
  s.setRegBits R.snapSelf 17 16 kstn

/-- The registers of a page at their reset values. -/
def State.resetPage (s : State) (page : Nat) : State :=
  { s with
    regs := s.regs.filter fun (r : Nat × Word) => r.1 / 4096 != page
    latch := s.latch.filter fun (r : Nat × Word) => r.1 / 4096 != page }

/-- The self-test on an island that is reset ends with INTERNAL (R403). -/
def State.cutTest (s : State) (island : Nat) : State :=
  if s.underTest island then
    let s := (s.setReg R.testStat (2 ^ 30 + 0x7F * 256)).raiseIrq 0x7C 1
    { (s.bump R.testRuns).bump R.testFails with test := none }
  else s

/-- The granules of an Abutment's stack that lines hold or that outstanding operations have touched. -/
def State.stackTouched (s : State) (n : Nat) : List Nat :=
  (s.cb.map (·.granule) ++ s.touched.map (·.2)).dedup.filter fun g => abutOf (g * 64) == n

/-- The lines of an Abutment are lost, dirty or not, and what outstanding operations touched in its stack is undefined
(R203). -/
def State.stackLost (s : State) (n : Nat) : State :=
  let gone := s.stackTouched n
  let s := { s with cb := s.cb.filter fun l => abutOf (l.granule * 64) != n }
  gone.foldl (fun (s : State) g =>
    let (b, s) := s.freeBytes 64
    s.wr (g * 64) b) s

/-- An Abutment is reset: its lines are lost, and every operation with work in it ends with INTERNAL, which the queue
island records (R19, R203). -/
def State.abutLost (s : State) (n : Nat) : State :=
  let users := (s.touched.filter fun p => abutOf (p.2 * 64) == n).map (·.1)
  let hit := s.q.live.any fun l => users.contains l.id
  let s := (s.stackLost n).endAll (fun _ l => users.contains l.id) fun s l => s.endWith l 0x7F
  if hit then s.errFirst 7 0x7F else s

/-- The links of a port go to a state that carries nothing (R293). -/
def State.portLost (s : State) (p st : Nat) : State :=
  [2 * p, 2 * p + 1].foldl (fun (s : State) h =>
    if s.halfExists h && s.linkState h != 0 then (if st = 1 then s.toDetect h else s.clearLink h st) else s) s

/-- A Pier's decoder copies as its reset leaves them: lost, and received again when it runs (R142, R362). -/
def State.pierLost (s : State) (p : Nat) : State :=
  let s := { s with piers := modNth s.piers p fun _ => [] }
  if s.islandReady (5 + p) then s.givePier p else s

/-- What an island of a Pier, a port or an Abutment loses when it is reset (R19, R203, R294, R362): its registers, what
stands in its joints, its copies, its lines, or its links and receive buffers. A port's links go to DETECT, its page stays
enabled, and the marks of its lanes stay (R288, R292). -/
def State.clearIsland (s : State) (i : Nat) : State :=
  let s := (s.cutTest i).dropJoints i
  if 61 ≤ i then (s.abutLost (i - 61)).resetPage (0x68 + (i - 61))
  else if 37 ≤ i then
    let p := i - 37
    let on := s.regBit (R.hdrCtrl (0x40 + p)) 0
    let marks := s.reg (R.portLaneFault p)
    let s := s.portLost p 1
    let st0 := s.linkState (2 * p)
    let st1 := s.linkState (2 * p + 1)
    let s := (s.resetPage (0x40 + p)).setReg (R.hdrCtrl (0x40 + p)) (b2n on)
    let s := ((s.setReg (R.portStat p 0) (st0 <<< 28)).setReg (R.portStat p 1) (st1 <<< 28)).setReg (R.portLaneFault p) marks
    [2 * p, 2 * p + 1].foldl (fun (s : State) h => s.setHalf h fun x => { x with buffer := [] }) s
  else (s.resetPage (0x10 + (i - 5))).pierLost (i - 5)

/-! ### Engine resets (R362) -/

/-- The image's part of Keystone SRAM, in granules. -/
def imageGranules : Nat := 3 * 2 ^ 20 / 16

/-- Every island but the top loses its state (R19, R203, R354, R355, R362). AK_PWR, AK_TIME and AK_TEST are kept, and so
are out-of-service marks, the image and the timebase with its barrier records. While the top island runs on through a trip
or the loss of the clock, AK_TOP and every page's lock, which it holds, are kept too (`held`); an engine warm reset returns
AK_TOP to its reset values and unlocks every page but those three (R373). -/
def State.clearEngine (s : State) (held : Bool := false) : State :=
  let keep (page : Nat) : Bool := page == 2 || page == 3 || page == 0x7C || (held && page == 0)
  let s := (List.range 69).foldl (fun (s : State) i => s.cutTest i) s
  let s := (List.range 8).foldl (fun (s : State) n => s.stackLost n) s
  { s with
    regs := s.regs.filter fun (r : Nat × Word) => keep (r.1 / 4096) || r.1 == R.topPart
    latch := s.latch.filter fun (r : Nat × Word) => keep (r.1 / 4096)
    locks := if held then s.locks else s.locks.filter fun (l : Nat × BitVec 31) => keep l.1
    ctx := [], ctxPoison := [], resPoison := [], clearRun := []
    upsets := s.upsets.filter fun u => decide (u.array = .keystone ∧ u.granule < imageGranules)
    cb := [], touched := [], piers := List.replicate 32 [], joints := [], q := QState.reset, x := Xport.reset
    deck := { Deck.reset with linkOut := s.deck.linkOut }
    clock := { s.clock with bars := s.clock.bars.map fun b => { b with live := none } }
    snap := Snap.reset, kstn := ⟨none, none, []⟩
    pwr := { s.pwr with
      started := false
      islands := s.pwr.islands.zipIdx.map fun (x : Island × Nat) =>
        { x.1 with ready := x.2 == 0 && x.1.ready, ramp := none } } }

/-- An engine warm reset (R362): then the self-test, VERIFY of the retained image and stages 5 to 9. A cold reset, a trip or
a clock loss under way is more severe (R364). -/
def State.warmReset (s : State) : State :=
  if s.absorbed then s else s.clearEngine.setReg R.bootStat (1 <<< 28)

/-- A cold reset (R343, R362): nothing of the engine is kept but what its fuses hold. Host memory, what the
engine has sent, the host's scan chain and the compute dies are no part of it; what operations touched is undefined
(R203). -/
def State.coldReset (s : State) : State :=
  let s := (List.range 8).foldl (fun (s : State) n => s.stackLost n) s
  let r : State := { State.reset with
    pending := s.pending, mem := s.mem, memPoison := s.memPoison, irqOut := s.irqOut, scan := s.scan, free := s.free
    regs := s.regs.filter fun (x : Nat × Word) => x.1 == R.topPart
    deck := { Deck.reset with linkOut := s.deck.linkOut }
    pwr := { Pwr.reset with fusedOff := s.pwr.fusedOff, digest := s.pwr.digest, dieFabric := s.pwr.dieFabric } }
  r.setRegBits R.bootSvn 31 16 (s.regBits R.bootSvn 31 16)

/-- SUPPLY_LOSS (R343): with VDDH or VDDA gone, no island keeps its state. -/
def supplyLost (_vdda : Bool) (s : State) : State := s.coldReset

/-- A Keystone-only reset (R362, R377): a mailbox command outstanding is cut off. A cold or an engine warm reset that has
not ended absorbs it (R364). -/
def State.kstnResets (s : State) : State :=
  if s.heldDown || s.bootState < 2 then s
  else
    let s := s.setKstn 1 false
    { s with
      kstn := { s.kstn with
        command := none
        cutOff := match s.kstn.command with
          | some c => some c
          | none => s.kstn.cutOff }
      pwr := { s.pwr with wdogAt := s.now } }

/-! ### Out of service (R350) -/

/-- An island is taken out of service, with the consequences of R350. -/
def State.takeOut (s : State) (i : Nat) : State :=
  let s := s.setIsland i fun x => { x with oos := true, ready := false, ramp := none }
  if i = 0 then
    let s := s.clearEngine true
    { s with pwr := { s.pwr with dead := true } }
  else if i = 1 then s.kstnResets
  else if i < 5 then s.clearEngine true
  else if 37 ≤ i ∧ i < 61 then (s.portLost (i - 37) 0).clearIsland i
  else s.clearIsland i

/-- SHORT (R350). During a cold reset, a trip or a clock loss, which hold the other islands, only its log entry and its
interrupt are made (R364). -/
def shortAt (island : BitVec 7) (s : State) : State :=
  let i := island.toNat
  if 68 < i then s
  else
    let s := if i ≠ 0 ∧ s.absorbed then s else s.takeOut i
    (s.pwrLogFree 3 i s.now).raiseIrq 2 4

/-! ### Operating points (R345, R351-R353) -/

/-- The points permitted for an island (R345). -/
def pointsOf (i : Nat) : Nat :=
  if i = 1 then 4 else if 5 ≤ i ∧ i < 37 then 4 else if 61 ≤ i then 3 else 1

/-- The VDDL setpoint of a point in mV (R351). -/
def setpointOf (p : Nat) : Nat := nth [750, 700, 650, 850] p 750

/-- The nominal clock of an island in units of 1/8 MHz (R17). -/
def nominalOf (i : Nat) : Nat :=
  if i = 0 then 8000 else if i = 1 ∨ i = 2 ∨ i = 4 then 20000 else if i = 3 then 25000
  else if i < 37 then 34000 else if i < 61 then 12500 else 19200

/-- The clock of an island at a point in units of 1/64 MHz (R17, R351). -/
def clockOf (i p : Nat) : Nat := nominalOf i * nth [8, 7, 6, 9] p 8

/-- The sensor that covers an island (R353). -/
def sensorOf (i : Nat) : Nat :=
  if i < 5 then 7 else if i < 37 then (i - 5) / 8 else if i < 61 then 4 + (i - 37) / 8 else 8 + (i - 61)

/-- A sensor's record. -/
def State.sensor (s : State) (n : Nat) : Sensor := nth s.pwr.sensors n ⟨false, 0, false, 0, 0⟩

/-- A throttle cap applies to an island (R353). -/
def State.capped (s : State) (i : Nat) : Bool := decide (1 < pointsOf i) && (s.sensor (sensorOf i)).hot

/-- The point an island ought to be at: the cap's, or the one asked for. -/
def State.goal (s : State) (i : Nat) : Nat := if s.capped i then 2 else (s.island i).asked

/-- A transition may begin on an island: it runs, and no cap acts on it while it is stretched, which is more severe
(R364). -/
def State.mayRamp (s : State) (i : Nat) : Bool :=
  (s.island i).ready && !(s.capped i && !(s.island i).dips.isEmpty)

/-- A transition begun toward the point an island ought to be at, unless one is under way (R352). -/
def State.ramp (s : State) (i : Nat) : State :=
  let x := s.island i
  if s.mayRamp i && x.ramp.isNone && decide (x.point ≠ s.goal i) then
    let g := s.goal i
    s.setIsland i fun x => { x with ramp := some g }
  else s

/-- PWR_ISL_OPP (R351, R352). -/
def pwrIslOpp (v : Word) (s : State) : State :=
  let i := s.regBits R.pwrIslSel 6 0
  let p := v.toNat % 4
  if 68 < i then s
  else if pointsOf i ≤ p then s.errFirst 2 0x23
  else (s.setIsland i fun x => { x with asked := p }).ramp i

/-- DVFS_DONE (R352). -/
def dvfsDone (island : BitVec 7) (s : State) : State :=
  let i := island.toNat
  match (s.island i).ramp with
  | some p => (s.setIsland i fun x => { x with point := p, ramp := none }).ramp i
  | none => s

/-! ### Supply dips (R342, R346-R349) -/

/-- The least VDDL setpoint in force: the lower of the old and the new during a transition (R346). -/
def Island.setpoint (x : Island) : Nat :=
  match x.ramp with
  | some p => min (setpointOf x.point) (setpointOf p)
  | none => setpointOf x.point

/-- The warning level of an island's monitor in mV (R342). -/
def Island.warnLevel (x : Island) (vddh : Bool) : Nat := if vddh then 1710 else x.setpoint - 70

/-- The reset level of an island's monitor in mV (R342). -/
def Island.resetLevel (x : Island) (vddh : Bool) : Nat := if vddh then 1620 else x.setpoint - 130

/-- An event of a monitor. -/
def eventOf (vddh : Bool) (l : List (Bool × Nat × Nat)) : Option (Bool × Nat × Nat) := l.find? fun d => d.1 == vddh

/-- An event of a monitor with its least supply taken from one more reading. -/
def lowered (vddh : Bool) (mv : Nat) (l : List (Bool × Nat × Nat)) : List (Bool × Nat × Nat) :=
  l.map fun d => if d.1 = vddh then (d.1, min d.2.1 mv, d.2.2) else d

/-- The events but those of a monitor. -/
def eventsBut (vddh : Bool) (l : List (Bool × Nat × Nat)) : List (Bool × Nat × Nat) := l.filter fun d => d.1 != vddh

/-- A stretch under way on an island and monitor ends: counted and logged (R347, R366); the cap that the stretch held back
acts (R364). -/
def State.endDip (s : State) (i : Nat) (vddh : Bool) (mv : Nat) : State :=
  match eventOf vddh (s.island i).dips with
  | none => s
  | some d =>
    let s := s.setIsland i fun x => { x with dips := eventsBut vddh x.dips, vdips := min (x.vdips + 1) 0xFFFFFFFF }
    (((s.bump R.pwrVdipCnt).pwrLog 1 vddh i (min d.2.1 mv) d.2.2).raiseIrq 2 1).ramp i

/-- A fall to the reset level under way on an island and monitor ends: it is logged (R366). -/
def State.endFall (s : State) (i : Nat) (vddh : Bool) : State :=
  match eventOf vddh (s.island i).falls with
  | none => s
  | some d => (s.setIsland i fun x => { x with falls := eventsBut vddh x.falls }).pwrLog 2 vddh i d.2.1 d.2.2

/-- A reset at an island's reset level, and what it becomes (R348). A cold reset, a trip or a clock loss is more severe
(R364). -/
def State.lowReset (s : State) (i : Nat) : State :=
  if i = 0 then s.coldReset
  else
    let s := s.setIsland i fun x => { x with low := true, ready := false, ramp := none }
    if s.absorbed then s
    else if i = 1 then s.kstnResets
    else if i < 5 then s.warmReset
    else if 3 ≤ (s.island i).resets.length then s.takeOut i
    else s.clearIsland i

/-- An island's supply falls to its reset level: a stretch under way ends with it (R348, R364). -/
def State.fallAt (s : State) (i : Nat) (vddh : Bool) (mv : Nat) : State :=
  let s := s.endDip i vddh mv
  let t := s.now
  let s := s.setIsland i fun x =>
    { x with vrsts := min (x.vrsts + 1) 0xFFFFFFFF, falls := x.falls ++ [(vddh, mv, t)]
             resets := (x.resets.filter fun u => decide (t < u + 1000000000)) ++ [t] }
  ((s.bump R.pwrVrstCnt).raiseIrq 2 2).lowReset i

/-- An island's supply falls (R342, R347, R348): to its reset level, to its warning level, which stretches the island's
clock, or to neither. While an event of the monitor is under way a reading only makes it deeper. -/
def State.supplyFalls (s : State) (i : Nat) (vddh : Bool) (mv : Nat) : State :=
  let x := s.island i
  if 68 < i then s
  else if (eventOf vddh x.falls).isSome then s.setIsland i fun x => { x with falls := lowered vddh mv x.falls }
  else if mv ≤ x.resetLevel vddh then s.fallAt i vddh mv
  else if (eventOf vddh x.dips).isSome then s.setIsland i fun x => { x with dips := lowered vddh mv x.dips }
  else if mv ≤ x.warnLevel vddh then s.setIsland i fun x => { x with dips := x.dips ++ [(vddh, mv, s.now)] }
  else s

/-- VDIP (R347). -/
def vdip (island : BitVec 7) (vddh : Bool) (mv : BitVec 16) (s : State) : State :=
  s.supplyFalls island.toNat vddh mv.toNat

/-- VRESET (R348). -/
def vreset (island : BitVec 7) (vddh : Bool) (mv : BitVec 16) (s : State) : State :=
  s.supplyFalls island.toNat vddh mv.toNat

/-- VDIP_RECOVER (R342, R347): from 10 mV above the warning level the clock returns, and what was under way is logged; a
lower reading is no recovery. -/
def vdipRecover (island : BitVec 7) (vddh : Bool) (mv : BitVec 16) (s : State) : State :=
  let i := island.toNat
  if (s.island i).warnLevel vddh + 10 ≤ mv.toNat then (s.endDip i vddh mv.toNat).endFall i vddh
  else s.supplyFalls i vddh mv.toNat

/-- Start-up has brought an island so far that it runs when its supply is good (R356). -/
def State.mayRun (s : State) (i : Nat) : Bool :=
  let x := s.island i
  !x.oos && !x.low && !s.heldDown &&
  (if i = 0 then true
   else if s.engineGone then false
   else if i < 5 then decide (2 ≤ s.bootState)
   else if i < 37 then s.pwr.started && !s.pwr.fusedOff.getLsbD (i - 5)
   else if i < 61 then s.pwr.started
   else s.pwr.started && s.pwr.dieFabric)

/-- An island starts when it may. The point asked for while it was off, or the cap's (R353), is taken at once, and a Pier
receives its table copies (R142). -/
def State.startIsland (s : State) (i : Nat) : State :=
  if s.mayRun i && !(s.island i).ready then
    let g := s.goal i
    let s := s.setIsland i fun x => { x with ready := true, point := g }
    if 5 ≤ i ∧ i < 37 then s.givePier (i - 5) else s
  else s

/-- ISLAND_RESET_RELEASE (R348): the supply has stood recovered, so a fall under way ends (DEDUCED, log entry 121). -/
def islandResetRelease (island : BitVec 7) (s : State) : State :=
  let i := island.toNat
  let s := (s.endFall i false).endFall i true
  (s.setIsland i fun x => { x with low := false }).startIsland i

/-- An event of a VDDA group with its least supply taken from one more reading. -/
def groupLowered (n mv : Nat) (l : List (Nat × Nat × Nat)) : List (Nat × Nat × Nat) :=
  l.map fun w => if w.1 = n then (n, min w.2.1 mv, w.2.2) else w

/-- A dip of a VDDA group under way ends: it is logged (R349, R366). -/
def State.endVddaDip (s : State) (n mv : Nat) : State :=
  match s.pwr.vddaWarn.find? fun (w : Nat × Nat × Nat) => w.1 == n with
  | none => s
  | some w =>
    { s.pwrLog 4 false n (min w.2.1 mv) w.2.2 with
      pwr := { s.pwr with vddaWarn := s.pwr.vddaWarn.filter fun (w : Nat × Nat × Nat) => w.1 != n } }

/-- The links of a group of four ports leave UP and read DETECT (R349, R355). -/
def State.groupDown (s : State) (g : Nat) : State :=
  (List.range 4).foldl (fun (s : State) k => if 4 * g + k < 24 then s.portLost (4 * g + k) 1 else s) s

/-- The supply of a VDDA group falls (R342, R349): to its reset level, which takes its links down, to its warning level, or
to neither. While an event is under way a reading only makes it deeper. -/
def State.vddaFalls (s : State) (n mv : Nat) : State :=
  let has (l : List (Nat × Nat × Nat)) : Bool := l.any fun w => w.1 == n
  if has s.pwr.vddaReset then { s with pwr := { s.pwr with vddaReset := groupLowered n mv s.pwr.vddaReset } }
  else if mv ≤ 810 then
    let s := s.endVddaDip n mv
    ({ s with pwr := { s.pwr with vddaReset := s.pwr.vddaReset ++ [(n, mv, s.now)] } }).groupDown n
  else if has s.pwr.vddaWarn then { s with pwr := { s.pwr with vddaWarn := groupLowered n mv s.pwr.vddaWarn } }
  else if mv ≤ 855 then
    { s.bump R.pwrVddaDipCnt with pwr := { s.pwr with vddaWarn := s.pwr.vddaWarn ++ [(n, mv, s.now)] } }
  else s

/-- VDDA_DIP (R349). -/
def vddaDip (g : BitVec 3) (mv : BitVec 16) (s : State) : State := s.vddaFalls g.toNat mv.toNat

/-- VDDA_RESET (R349). -/
def vddaReset (g : BitVec 3) (mv : BitVec 16) (s : State) : State := s.vddaFalls g.toNat mv.toNat

/-- VDDA_RECOVER (R349): the events under way end and are logged, and training may begin again. -/
def vddaRecover (g : BitVec 3) (s : State) : State :=
  let n := g.toNat
  let s := s.endVddaDip n 0xFFFF
  match s.pwr.vddaReset.find? fun (w : Nat × Nat × Nat) => w.1 == n with
  | none => s
  | some w =>
    { s.pwrLog 5 false n w.2.1 w.2.2 with
      pwr := { s.pwr with vddaReset := s.pwr.vddaReset.filter fun (w : Nat × Nat × Nat) => w.1 != n } }

/-! ### Temperature (R353, R354) -/

/-- A limit of PWR_THERM_LIMITS in 1/16 degree C. -/
def State.limit (s : State) (lo : Nat) : Int := 16 * (s.regBits R.pwrThermLimits (lo + 7) lo : Nat)

/-- A sensor's reading. -/
def State.readTemp (s : State) (n : Nat) (temp : BitVec 16) : State :=
  { s with pwr := { s.pwr with sensors := modNth s.pwr.sensors n fun x =>
      { x with valid := true, temp := temp
               hottest := if x.hot && decide (x.hottest.toInt < temp.toInt) then temp else x.hottest } } }

/-- The islands a sensor covers that have operating points. -/
def dvfsOf (n : Nat) : List Nat := (List.range 69).filter fun i => decide (1 < pointsOf i) && sensorOf i == n

/-- Every island of a sensor moves toward the point it ought to be at. -/
def State.rampAll (s : State) (n : Nat) : State := (dvfsOf n).foldl (fun (s : State) i => s.ramp i) s

/-- Whole degrees of a reading, as a log entry holds them. -/
def degrees (temp : BitVec 16) : Nat := ((temp.toInt / 16) % 65536).toNat

/-- THROTTLE (R353). -/
def throttle (sensor : BitVec 4) (temp : BitVec 16) (s : State) : State :=
  let n := sensor.toNat
  let s := s.readTemp n temp
  if temp.toInt < s.limit 8 ∨ (s.sensor n).hot ∨ dvfsOf n = [] then s
  else
    let t := s.now
    let s := { s with pwr := { s.pwr with sensors := modNth s.pwr.sensors n fun x =>
      { x with hot := true, hottest := temp, onset := t } } }
    ((s.bump R.pwrThrottleCnt).raiseIrq 2 8).rampAll n

/-- THROTTLE_LIFT (R353): below THROTTLE_CLR the cap is lifted and logged. -/
def throttleLift (sensor : BitVec 4) (temp : BitVec 16) (s : State) : State :=
  let n := sensor.toNat
  let s := s.readTemp n temp
  let x := s.sensor n
  if x.hot && decide (temp.toInt ≤ s.limit 0) then
    let s := { s with pwr := { s.pwr with sensors := modNth s.pwr.sensors n fun x => { x with hot := false } } }
    (s.pwrLog 6 false n (degrees x.hottest) x.onset).rampAll n
  else s

/-- TRIP (R354). -/
def trip (sensor : BitVec 4) (temp : BitVec 16) (s : State) : State :=
  let n := sensor.toNat
  let s := s.readTemp n temp
  if temp.toInt < s.limit 24 then s
  else match s.pwr.tripAt with
    | some (t, m, hottest) =>
      { s with pwr := { s.pwr with
          tripAt := some (t, m, if hottest.toInt < temp.toInt then temp else hottest) } }
    | none =>
      let t := s.now
      let s := (s.clearEngine true).raiseIrq 2 16
      { s with pwr := { s.pwr with tripAt := some (t, n, temp) } }

/-- Every sensor reads TRIP_CLR or less (R354). -/
def State.cooled (s : State) : Bool :=
  s.pwr.sensors.all fun x => !x.valid || decide (x.temp.toInt ≤ s.limit 16)

/-- TRIP_CLEAR (R354): a trip whose sensors have cooled ends, and an engine warm reset follows. -/
def State.endTrip (s : State) : State :=
  match s.pwr.tripAt with
  | some (t, n, hottest) =>
    if s.cooled then
      let s := s.pwrLog 7 false n (degrees hottest) t
      ({ s with pwr := { s.pwr with tripAt := none } }).warmReset
    else s
  | none => s

/-- A write of PWR_CTRL (R354, R362, R364). -/
def pwrControl (v : Word) (s : State) : State :=
  let s := if v.getLsbD 2 then s.endTrip else s
  if v.getLsbD 1 then s.warmReset
  else if v.getLsbD 0 then s.kstnResets
  else s

/-! ### Clocks (R355) -/

/-- REFCLK (R355). -/
def refclk (s : State) : State :=
  if s.pwr.clockLost.isSome then s
  else
    let t := s.now
    let s := s.clearEngine true
    { s with pwr := { s.pwr with clockLost := some t } }

/-- REFCLK_RETURN (R355). -/
def refclkReturn (s : State) : State :=
  match s.pwr.clockLost with
  | some t =>
    let (b, s) := s.freeBytes 1
    let s := s.pwrLogFree 9 (leNat b) t
    ({ s with pwr := { s.pwr with clockLost := none } }).warmReset
  | none => s

/-- PORT_REFCLK_LOSS (R355). -/
def portRefclkLoss (g : BitVec 3) (s : State) : State :=
  ({ s with pwr := { s.pwr with portClock := insertN g.toNat s.pwr.portClock } }).groupDown g.toNat

/-- PORT_REFCLK_RETURN (R355). -/
def portRefclkReturn (g : BitVec 3) (s : State) : State :=
  { s with pwr := { s.pwr with portClock := s.pwr.portClock.filter (· != g.toNat) } }

/-! ### Start-up (R343, R356-R361) -/

/-- SUPPLIES_QUALIFIED (R343): the engine leaves cold reset for stage 2. -/
def suppliesQualified (s : State) : State :=
  if s.bootState = 0 then (s.setIsland 0 fun x => { x with ready := true }).setReg R.bootStat (1 <<< 28) else s

/-- BOOT_STAT shows FAILED (R358, R361). -/
def State.bootFail (s : State) (status array : Nat) : State :=
  (s.setReg R.bootStat (6 * 2 ^ 28 + status * 256 + array)).raiseIrq 2 64

/-- The image's bytes. -/
def State.imageBytes (s : State) (a n : Nat) : Bytes := s.pwr.image.readN a n

/-- A word of the image is poisoned (R31, R361). -/
def State.imagePoisoned (s : State) (n : Nat) : Bool :=
  s.upsets.any fun u => decide (u.array = .keystone ∧ u.granule * 16 < n)

/-- The words of the image that have flipped are checked as VERIFY reads them (R31-R33): one that can be corrected is
written back, and one that cannot stays flipped, and is poisoned. -/
def State.correctImage (s : State) : State :=
  let n := 256 + leAt (s.imageBytes 0 256) 0xC 4
  let hit := ((s.upsets.filter fun u => decide (u.array = .keystone ∧ u.granule * 16 < n)).map (·.granule)).dedup
  hit.foldl (fun (s : State) g =>
    let (r, t) := s.checkWord .keystone g (leNat (s.imageBytes (g * 16) 16))
    let t := { t with pwr := { t.pwr with image := t.pwr.image.writeN (g * 16) (toLE 16 r.1) } }
    if r.2 then { t with upsets := ⟨.keystone, g, 2 ^ 137⟩ :: t.upsets } else t) s

/-- VERIFY (R361): the status of the first check that fails. -/
def State.verify (s : State) : Option Nat :=
  let h := s.imageBytes 0 256
  let len := leAt h 0xC 4
  let entry := leAt h 0x10 4
  let key := sub h 0x20 96
  if leAt h 0 4 ≠ 0x46574B41 ∨ leAt h 4 1 ≠ 1 ∨ leAt h 5 1 ≠ 2 then some 0x70
  else if len = 0 ∨ len % 64 ≠ 0 ∨ 3 * 2 ^ 20 - 256 < len ∨ entry % 4 ≠ 0 ∨ len ≤ entry ∨
      s.reg R.bootLoadPtr < 256 + len then some 0x23
  else if s.imagePoisoned (256 + len) then some 0x50
  else if sha384 key ≠ s.pwr.digest then some 0x42
  else if !ecdsaVerify (beNat (sub key 0 48)) (beNat (sub key 48 48)) (beNat (sub h 0x80 48)) (beNat (sub h 0xB0 48))
      (sha384 (sub h 0 128 ++ s.imageBytes 256 len)) then some 0x42
  else if leAt h 6 2 < s.regBits R.bootSvn 31 16 then some 0x42
  else none

/-- Falsework records the image that runs (R361). -/
def State.runImage (s : State) : State :=
  let h := s.imageBytes 0 256
  let s := (s.setReg R.bootFwVersion (leAt h 8 4)).setRegBits R.bootSvn 15 0 (leAt h 6 2)
  ({ s with pwr := { s.pwr with verified := true, wdogAt := s.now } }).setKstn 2 false

/-- Stage 4 of a start (R356, R361): VERIFY is under way. -/
def State.verifyStage (s : State) : State := s.setReg R.bootStat (3 <<< 28)

/-- VERIFY ends (R361), when it is under way. -/
def State.verifyEnds (s : State) : State :=
  if s.bootState = 3 ∧ !s.heldDown ∧ s.islandReady 1 then
    let s := s.correctImage
    match s.verify with
    | some status => s.bootFail status 0
    | none => s.runImage.setReg R.bootStat (4 <<< 28)
  else s

/-- BOOT_SELFTEST_DONE (R358, R362): the end of stage 2, or of the self-test after a Keystone-only reset. -/
def bootSelftestDone (r : SelfTestReport) (s : State) : State :=
  if s.bootState = 1 ∧ !s.heldDown then
    match r.failedArray with
    | some a => s.bootFail 0x51 a.toNat
    | none =>
      let s := r.failedIslands.foldl (fun (s : State) i =>
        if 5 ≤ i.toNat ∧ i.toNat ≤ 68 then s.takeOut i.toNat else s) s
      let s := s.setReg R.bootStat (2 <<< 28)
      let s := [1, 2, 3, 4].foldl (fun (s : State) i => s.startIsland i) s
      if s.pwr.verified && s.islandReady 1 then s.verifyStage else s
  else if s.regBits R.kstnState 31 30 = 1 ∧ !(s.island 1).oos then
    let s := s.startIsland 1
    if s.pwr.verified then
      let s := s.correctImage
      match s.verify with
      | some status => s.bootFail status 0
      | none => s.runImage
    else s.setKstn 2 false
  else s

/-- A write of BOOT_CTRL (R360, R361, R365): LOAD, and then GO. -/
def bootControl (v : Word) (s : State) : State :=
  let s :=
    if v.getLsbD 0 && s.islandReady 1 && (s.bootState == 2 || s.bootState == 6) then
      { (s.setReg R.bootLoadPtr 0).setReg R.bootStat (2 <<< 28) with pwr := { s.pwr with verified := false } }
    else s
  if v.getLsbD 1 && s.islandReady 1 && s.bootState == 2 then
    ({ s with pwr := { s.pwr with goAt := s.clock.up } }).verifyStage
  else s

/-- BOOT_LOAD_DATA (R360). The write of a protected word's last bytes completes its rewriting: the word is written anew
(R31). -/
def bootLoadData (v : Word) (s : State) : State :=
  let p := s.reg R.bootLoadPtr
  if s.islandReady 1 && s.bootState == 2 && decide (p + 4 ≤ 3 * 2 ^ 20) then
    let s := if p % 16 = 12 then s.freshWord .keystone (p / 16) else s
    { s.setReg R.bootLoadPtr (p + 4) with
      pwr := { s.pwr with image := s.pwr.image.writeN p (toLE 4 v.toNat) } }
  else s

/-- ISLAND_START (R356 stage 5): firmware runs, so VERIFY has ended; the Abutments wait for the die-to-die fabric. -/
def islandStart (s : State) : State :=
  let s := s.verifyEnds
  if s.bootState = 4 ∨ s.bootState = 5 then
    let s := { s with pwr := { s.pwr with started := true } }
    (List.range 64).foldl (fun (s : State) i => s.startIsland (5 + i)) s
  else s

/-- DIE_TO_DIE_FABRIC_UP (R356). -/
def dieToDieFabricUp (s : State) : State :=
  let s := { s with pwr := { s.pwr with dieFabric := true } }
  (List.range 8).foldl (fun (s : State) i => s.startIsland (61 + i)) s

/-! ### The watchdog (R363) -/

/-- WDOG (R363): it runs once BOOT_STAT has reached START. -/
def wdog (s : State) : State :=
  if s.regBit R.pwrWdog 31 && (s.bootState == 4 || s.bootState == 5) then
    let s := s.reach ((s.pwr.wdogAt + s.regBits R.pwrWdog 15 0 * 1000000) % 2 ^ 64)
    let s := ((s.bump R.pwrWdogCnt).pwrLogFree 8 1 s.now).raiseIrq 2 32
    s.kstnResets
  else s

/-- WDOG_RESTART (R363). -/
def wdogRestart (s : State) : State := { s with pwr := { s.pwr with wdogAt := s.now } }

end Sys2Proof.Machine
end

