-- ==== Sys2Proof/Machine/Firmware.lean ====
section
/-! DEFINITION. Firmware's announcement and the mailbox (R376-R378). -/

namespace Sys2Proof.Machine

/-- A duty that waited for firmware, done (R26, R294, R334). -/
def runDuty (i : Instr) (s : State) : State :=
  match i with
  | .tableAck p => tableAckAt (tblNoteOf p.payload) s
  | .discover src m => discover src m s
  | .discoverRepeat e => discoverRepeat e s
  | .declareNodeLost n => declareNodeLost n s
  | .firmware src lost => firmwareAt src lost s
  | .detectRetry h o x => detectRetry h o x s
  | .cap h _ => s.capCheck h.toNat
  | .ident h _ _ _ => s.agree h.toNat
  | .portExpWrite p half _ => s.heldCheck (2 * p.toNat + b2n half)
  | .linkUp h failed => linkUp h failed s
  | .laneDegraded p lane => laneDegraded p lane s
  | _ => s

/-! ### The mailbox (R377, R378) -/

/-- A command answered: STATUS, SEQ and the data words given; BUSY cleared, DONE set (R377). -/
def State.mbAnswer (s : State) (cmd : Word) (status : Nat) (data : List Nat) : State :=
  let s := data.zipIdx.foldl (fun (s : State) (d : Nat × Nat) => s.setReg (R.kstnMbData d.2) d.1) s
  let s := s.setReg R.kstnMbStat (2 ^ 30 + bits cmd.toNat 31 24 * 65536 + status)
  s.raiseIrq 1 1

/-- ROUTE_CLEAR (R378): the entries that firmware wrote for a node, cleared. -/
def State.clearDetours (s : State) (node : Nat) : Nat × State :=
  let mine := s.snap.detours.filter fun (x : Nat × Nat) => x.1 == node % 65536
  let s := mine.foldl (fun (s : State) (x : Nat × Nat) => s.ctxWr (routeBase x.2) (zeros 8)) s
  (mine.length, { s with snap := { s.snap with
    detours := s.snap.detours.filter fun (x : Nat × Nat) => x.1 != node % 65536 } })

/-- Firmware serves a command (R378). -/
def State.serveMb (s : State) (cmd : Word) : State :=
  let a := s.reg (R.kstnMbArg 0)
  match cmd.toNat % 256 with
  | 1 => s.mbAnswer cmd 0 [a]
  | 2 => s.mbAnswer cmd 0 [s.reg R.bootFwVersion, s.reg R.bootSvn, s.regBits R.kstnState 15 0]
  | 3 =>
    if 2 ^ 20 ≤ a then s.mbAnswer cmd 0x23 []
    else (declareNodeLost (BitVec.ofNat 20 a) s).mbAnswer cmd 0 []
  | 4 =>
    if 2 ^ 20 ≤ a then s.mbAnswer cmd 0x23 []
    else
      let (n, s) := s.clearDetours a
      s.mbAnswer cmd 0 [n]
  | 5 => if 64 ≤ a ∨ !s.linkIsUp a then s.mbAnswer cmd 0x23 [] else (s.reparent a).mbAnswer cmd 0 []
  | _ => s.mbAnswer cmd 0x70 []

/-- A write of KSTN_MB_CMD (R377, R378): refused while a command is outstanding; served at once when firmware
has announced itself, and at its announcement otherwise. -/
def mailbox (v : Word) (s : State) : State :=
  if s.regBit R.kstnMbStat 31 then (s.bump R.kstnMbRefused).raiseIrq 1 4
  else
    let s := s.setRegBits R.kstnMbStat 31 31 1
    if s.announced then s.serveMb v else { s with kstn := { s.kstn with command := some v } }

/-! ### The announcement (R377) -/

/-- Firmware may announce itself: it runs, no reset of the Keystone is under way (R362), and on the way to READY stage 8
has ended (R356, R357). -/
def State.mayAnnounce (s : State) : Bool :=
  s.islandReady 1 && !s.announced && s.regBits R.kstnState 31 30 == 2 &&
  (s.bootState == 5 || (s.bootState == 4 && s.pwr.started && s.regBit R.timeStat 0))

/-- What waited for firmware: the answer to a command cut off by a reset, the command that waits, and the
duties in their order. -/
def State.resume (s : State) : State :=
  let s := match s.kstn.cutOff with
    | some c => ({ s with kstn := { s.kstn with cutOff := none } }).mbAnswer c 0x7F []
    | none => s
  let s := match s.kstn.command with
    | some c => ({ s with kstn := { s.kstn with command := none } }).serveMb c
    | none => s
  let todo := s.kstn.duties
  todo.foldl (fun (s : State) i => runDuty i s) { s with kstn := { s.kstn with duties := [] } }

/-- KEYSTONE_ANNOUNCE (R377, R361). -/
def keystoneAnnounce (s : State) : State :=
  if !s.mayAnnounce then s
  else
    let n := (s.regBits R.kstnState 15 0 + 1) % 65536
    let s := ((s.setKstn 0 true).setRegBits R.kstnState 15 0 n).setRegBits R.snapSelf 15 0 n
    let s := s.raiseIrq 1 2
    let s :=
      if s.bootState = 4 then
        ((s.setReg R.bootStat (5 <<< 28)).setReg R.bootTime ((s.clock.up - s.pwr.goAt) / 1000000)).raiseIrq 2 64
      else s
    s.resume

end Sys2Proof.Machine
end

