-- ==== Sys2Proof/Machine/Testing.lean ====
section
/-! DEFINITION. Boundary scan (R392, R393), lane test (R394-R399) and self-tests (R400-R404). -/

namespace Sys2Proof.Machine

/-! ### Boundary scan (R392, R393) -/

/-- The values of the 384 cells in either direction, two legs of one pair for each of the 192 lanes (R392). -/
def scanCells (l : List Bool) : List Bool := (l ++ List.replicate 384 false).take 384

/-- A boundary-scan instruction comes into force: what the cells drive and capture (R392). Under EXTEST they drive and
capture levels; under EXTEST_PULSE and EXTEST_TRAIN a driven leg carries pulses, and a captured one has seen edges. -/
def State.scanIn (s : State) (m : ScanMode) (drive capture : List Bool) : State :=
  { s with scan := ⟨m, scanCells drive, scanCells capture⟩ }

/-- The boundary cells take the lane transmitters: every link leaves UP and reads DETECT (R393). -/
def State.scanTakes (s : State) : State :=
  (List.range 24).foldl (fun (s : State) p => s.portLost p 1) s

/-- BYPASS (R392): no effect on the cells. -/
def scanBypass (s : State) : State := { s with scan := { s.scan with mode := .bypass } }

/-- SAMPLE/PRELOAD (R392). -/
def scanSample (pins : List Bool) (s : State) : State :=
  { s with scan := { s.scan with mode := .sample, capture := scanCells pins } }

/-- EXTEST, EXTEST_PULSE or EXTEST_TRAIN (R392, R393). -/
def scanTest (m : ScanMode) (drive pins : List Bool) (s : State) : State := (s.scanIn m drive pins).scanTakes

/-! ### Lane test (R394-R397) -/

/-- A lane is in ACTIVE of an UP link. -/
def State.laneActive (s : State) (port lane : Nat) : Bool :=
  let h := s.halfOfLane port lane
  s.linkIsUp h && (s.regBits (portStatOf h) 7 0).testBit (lane - s.laneBase h)

/-- What a locked checker has compared since it was last counted (R395): every bit is added to PRBS_BITS and every mismatch
to PRBS_ERR. How many bits have passed is a free value, and so is how many of them failed (DESIGN CHOICE, log entry
122). -/
def State.compare (s : State) (port lane : Nat) : State :=
  if s.laneInTest port lane && s.regBit (R.portLaneStat port lane) 31 then
    let (b, s) := s.freeBytes 8
    let n := leNat (b.take 4)
    (s.bumpSat64 (R.portLanePrbsBitsLo port lane) n).bumpSat64 (R.portLanePrbsErrLo port lane)
      (leNat (b.drop 4) % (n + 1))
  else s

/-- A checker loses its lock (R395), what it compared being counted. -/
def State.unlock (s : State) (port lane : Nat) : State :=
  if s.regBit (R.portLaneStat port lane) 31 then (s.compare port lane).setRegBits (R.portLaneStat port lane) 31 31 0
  else s

/-- A write of a lane's PATTERN, GEN_EN, CHK_EN and LOOP is taken (R394, R396): the lane is in test and LOOP is not 3, or
nothing changes. -/
def State.laneTakes (s : State) (port lane v : Nat) : Bool :=
  bits v 5 0 == s.regBits (R.portLaneCtrl port lane) 5 0 || (s.laneInTest port lane && bits v 5 4 != 3)

/-- PATTERN, GEN_EN, CHK_EN and LOOP of a lane written (R394, R396). A lane whose checker is off is not locked. -/
def State.laneFields (s : State) (port lane v : Nat) : State :=
  if bits v 5 0 = s.regBits (R.portLaneCtrl port lane) 5 0 then s
  else (if v.testBit 1 then s else s.unlock port lane).setReg (R.portLaneCtrl port lane) (bits v 5 0)

/-- INJECT (R395): one mismatch at this lane's own checker, when it is locked and hears its generator. -/
def State.injectBit (s : State) (port lane : Nat) : State :=
  let c := s.reg (R.portLaneCtrl port lane)
  if s.laneInTest port lane && c.testBit 0 && c.testBit 1 && bits c 5 4 == 1 && s.regBit (R.portLaneStat port lane) 31 then
    s.bumpSat64 (R.portLanePrbsErrLo port lane)
  else s

/-- EYE_START (R397). -/
def State.eyeBegin (s : State) (port lane : Nat) : State :=
  if s.laneActive port lane || s.laneInTest port lane then
    let s := s.setRegBits (R.portLaneStat port lane) 29 29 0
    if s.deck.eyes.contains (port, lane) then s
    else { s with deck := { s.deck with eyes := s.deck.eyes ++ [(port, lane)] } }
  else s

/-- A write of PORT_LANEl_CTRL (R394-R397, R399): one that is not taken records BOUNDS and has no other effect. -/
def laneControl (port : BitVec 5) (lane : BitVec 3) (v : Word) (s : State) : State :=
  let p := port.toNat
  let i := lane.toNat
  if !s.laneTakes p i v.toNat then s.errFirst (0x40 + p) 0x23
  else
    let s := s.laneFields p i v.toNat
    let s := if v.getLsbD 6 then s.injectBit p i else s
    if v.getLsbD 7 then s.eyeBegin p i else s

/-- PRBS_LOCK (R395). -/
def prbsLock (port : BitVec 5) (lane : BitVec 3) (s : State) : State :=
  let (p, i) := (port.toNat, lane.toNat)
  if s.laneInTest p i && s.regBit (R.portLaneCtrl p i) 1 then s.setRegBits (R.portLaneStat p i) 31 31 1 else s

/-- PRBS_UNLOCK (R395): what was compared while locked, since it was last counted, is added up. -/
def prbsUnlock (port : BitVec 5) (lane : BitVec 3) (nbits errs : DWord) (s : State) : State :=
  let (p, i) := (port.toNat, lane.toNat)
  if s.regBit (R.portLaneStat p i) 31 then
    let s := (s.bumpSat64 (R.portLanePrbsBitsLo p i) nbits.toNat).bumpSat64 (R.portLanePrbsErrLo p i) errs.toNat
    s.setRegBits (R.portLaneStat p i) 31 31 0
  else s

/-- EYE_DONE (R397): a scan that was not cut short writes EYE. -/
def eyeDone (port : BitVec 5) (lane : BitVec 3) (height width : BitVec 16) (s : State) : State :=
  let (p, i) := (port.toNat, lane.toNat)
  if s.deck.eyes.contains (p, i) then
    let s := { s with deck := { s.deck with eyes := s.deck.eyes.filter (· != (p, i)) } }
    (s.setRegBits (R.portLaneStat p i) 29 29 1).setReg (R.portLaneEye p i) (width.toNat * 65536 + height.toNat)
  else s

/-- PORT_TCLR (R399). -/
def portTclr (port : BitVec 5) (v : Word) (s : State) : State :=
  if v.getLsbD 0 then
    let s := (List.range 8).foldl (fun (s : State) i => s.zeroRegs (0x40 + port.toNat) (0x408 + 0x40 * i) (0x41C + 0x40 * i)) s
    s.zeroRegs (0x40 + port.toNat) 0x600 0x648
  else s

/-! ### Self-tests (R400-R404) -/

/-- An outstanding operation has work in an Abutment (R203, R225). -/
def State.abutLive (s : State) (n : Nat) : Option Live :=
  let users := (s.touched.filter fun p => abutOf (p.2 * 64) == n).map (·.1)
  s.q.live.find? fun l => users.contains l.id

/-- STAT.BUSY (R370): work is outstanding in the block. A self-test is no work: its target stays held (R400). -/
def State.blockBusy (s : State) (k : PageKind) : Bool :=
  match k with
  | .top => false | .pwr => false | .rng => false | .tbl => false | .stat => false | .sec => false
  | .reserved => false | .window => false | .pier _ => false
  | .kstn => s.regBit R.kstnMbStat 31
  | .time => !s.clock.bars.isEmpty
  | .snap => !s.snap.jobs.isEmpty
  | .qmgr => !s.q.live.isEmpty
  | .port n =>
    (s.deck.out.any fun f => f.h / 2 == n) || !(s.jointOf 3 (37 + n)).isEmpty ||
      !(s.half (2 * n)).buffer.isEmpty || !(s.half (2 * n + 1)).buffer.isEmpty
  | .deck => !s.deck.out.isEmpty
  | .abut n => (s.abutLive n).isSome
  | .rma => !s.x.kept.isEmpty || !s.x.out.isEmpty || !s.x.awaits.isEmpty
  | .test => s.test.isSome

/-- STAT.HELD (R370, R372): HOLD is in force, or ENABLE is 0, and the block is idle; a port's links are DISABLED too. -/
def State.blockHeld (s : State) (page : Nat) : Bool :=
  let off := !s.regBit (R.hdrCtrl page) 0
  let hold := s.regBit (R.hdrCtrl page) 2
  let idle := !s.blockBusy (pageKind page)
  match pageKind page with
  | .pier _ => (off || hold) && idle
  | .abut _ => hold && idle
  | .port n => off && idle && s.linkState (2 * n) == 0 && s.linkState (2 * n + 1) == 0
  | .qmgr => (off || hold) && idle
  | _ => false

/-- STAT.HELD of a target's page reads 1 (R400). -/
def State.targetHeld (s : State) (i : Nat) : Bool :=
  decide (5 ≤ i ∧ i ≤ 68) && s.islandReady i && s.blockHeld (islandPage i)

/-- A test ends: its result recorded and counted (R404). -/
def State.endTest (s : State) (pass : Bool) (status array vector : Nat) : State :=
  let s := { s with test := none }
  let s := s.setReg R.testStat (2 ^ 30 + b2n pass * 2 ^ 29 + status * 256 + array % 16 * 16 + vector % 16)
  let s := s.bump R.testRuns
  (if pass then s else s.bump R.testFails).raiseIrq 0x7C 1

/-- START (R400, R401, R403). -/
def State.startTest (s : State) : State :=
  let kind := s.regBits R.testCtrl 7 4
  let i := s.regBits R.testTarget 6 0
  if s.test.isSome then s.bump R.testRefused
  else if 2 ≤ kind then s.endTest false 0x70 0 0
  else if !s.targetHeld i || (kind == 1 && !decide (5 ≤ i ∧ i < 37)) then s.endTest false 0x23 0 0
  else { s with test := some ⟨kind, i, false⟩ }

/-- A write of TEST_CTRL (R401-R404): KIND, then ABORT, then START. -/
def testControl (v : Word) (s : State) : State :=
  let s := s.writeFields R.testCtrl v.toNat
  let s :=
    if v.getLsbD 1 then { s with test := s.test.map fun (t : Testing) => { t with abort := true } } else s
  if v.getLsbD 0 then s.startTest else s

/-- An SRAM self-test ends, whatever its outcome (R401, R403): an Abutment's buffer holds no lines, and a Pier receives its
table copies again. A port's links are DISABLED and its buffers empty before the test begins (R400). -/
def State.afterTest (s : State) (island : Nat) : State :=
  if 61 ≤ island then { s with cb := s.cb.filter fun l => abutOf (l.granule * 64) != island - 61 }
  else if 5 ≤ island ∧ island < 37 then s.givePier (island - 5)
  else s

/-- TEST_DONE (R401-R404): the test ends, or has been aborted. -/
def testDone (r : TestResult) (s : State) : State :=
  match s.test with
  | none => s
  | some t =>
    let s := if t.kind = 0 then s.afterTest t.island else s
    if t.abort then s.endTest false 0x7F 0 0
    else if r.pass then s.endTest true 0 0 0
    else if t.kind = 0 then
      let s := (s.setReg R.testFailAddr r.granule.toNat).endTest false 0x51 r.array.toNat 0
      s.takeOut t.island
    else (s.setReg R.testFailCrc r.crc.toNat).endTest false 0x7F 0 r.vector.toNat

end Sys2Proof.Machine
end

