-- ==== Sys2Proof/Machine/Access.lean ====
section
/-! DEFINITION. Reading the control window (R14-R16, R367-R381): which pages answer, what each register and each
context word reads as, the _HI latch, and the poison of a context granule. -/

namespace Sys2Proof.Machine

/-- A page answers (R344, R369): the engine is alive, and the page's island is powered, out of reset and in
service, and not a Pier that is fused off. -/
def State.pageReady (s : State) (page : Nat) : Bool :=
  !s.pwr.dead &&
  match pageIsland page with
  | none => true
  | some i => s.islandReady i && !(decide (5 ≤ i ∧ i < 37) && s.pwr.fusedOff.getLsbD (i - 5))

/-- What a command does at a page: nothing while the page does not answer (R344). -/
def State.atPage (s : State) (page : Nat) (f : State → State) : State := if s.pageReady page then f s else s

/-- What an event of an island does: nothing while the island is not ready (R344). -/
def State.atIsland (s : State) (i : Nat) (f : State → State) : State :=
  if !s.pwr.dead && s.islandReady i then f s else s

/-- What an event of a link does: nothing for a half-port that no port has, or while its island is not ready. -/
def State.atHalf (s : State) (h : Nat) (f : State → State) : State := if h < 48 then s.atIsland (37 + h / 2) f else s

/-! ### The context windows (R379) -/

/-- A table of the windows. -/
inductive Table where
  | conn | strm | region | ctr | grp | cq | srq | ring | route
  deriving DecidableEq, Repr

/-- A word of the context windows: its table, its entry and its index in the entry. -/
structure WinWord where
  table : Table
  entry : Nat
  word  : Nat
  deriving DecidableEq, Repr

/-- The word at a window address, under TOP_WIN_BANK (R379). -/
def State.winWord (s : State) (a : Nat) : Option WinWord :=
  let at_ (t : Table) (base size first : Nat) : Option WinWord :=
    some ⟨t, first + (a - base) / size, (a - base) % size / 4⟩
  if a < 0x100000 then none
  else if a < 0x500000 then at_ .conn 0x100000 256 (s.regBits R.topWinBank 0 0 * 16384)
  else if a < 0x900000 then at_ .strm 0x500000 256 0
  else if a < 0xD00000 then at_ .region 0x900000 64 0
  else if a < 0xE00000 then at_ .ctr 0xD00000 16 0
  else if a < 0xF00000 then at_ .grp 0xE00000 256 0
  else if a < 0xF40000 then at_ .cq 0xF00000 64 0
  else if a < 0xF50000 then at_ .srq 0xF40000 64 0
  else if a < 0xF60000 then at_ .ring 0xF50000 16 0
  else if a < 0xFE0000 then at_ .route 0xF60000 8 0
  else none

/-- Where an entry is kept. -/
def entryBase (t : Table) (n : Nat) : Nat :=
  match t with
  | .conn => connBase n
  | .strm => strmBase n
  | .region => regionBase n
  | .ctr => ctrBase n
  | .grp => grpBase n
  | .cq => cqBase n
  | .srq => srqBase n
  | .ring => ringBase n
  | .route => routeBase n

/-- Where a word is kept. -/
def WinWord.home (w : WinWord) : Nat := entryBase w.table w.entry + 4 * w.word

/-- The granule that holds a word is poisoned (R33, R35, R381). -/
def State.granPoison (s : State) (a : Nat) : Bool := s.ctxPoison.contains (a / 16) || s.resPoison.contains (a / 16)

/-- An access to a granule other than the next write of its run ends the run (R381). -/
def State.endRun (s : State) (a : Nat) : State :=
  let keep := s.clearRun.filter fun (r : Nat × Nat) => r.1 != a / 16
  { s with clearRun := keep }

/-- A software write of one context word, as the clearing of its granule's poison counts it (R381): the fourth of
four writes in ascending order clears it. -/
def State.noteWrite (s : State) (a : Nat) : State :=
  let g := a / 16
  let k := a % 16 / 4
  if !s.granPoison a then s
  else if k = 0 then { s.endRun a with clearRun := (s.endRun a).clearRun ++ [(g, 1)] }
  else if s.clearRun.contains (g, k) then
    if k = 3 then
      { (s.endRun a).freshWord (windowArray g) g with
        ctxPoison := s.ctxPoison.filter (· != g), resPoison := s.resPoison.filter (· != g) }
    else { s.endRun a with clearRun := (s.endRun a).clearRun ++ [(g, k + 1)] }
  else s.endRun a

/-- A software write of part of a context granule that holds flipped bits: the rest of the granule is read, checked and
corrected, and the word gets a new code (R31, R32). -/
def State.recode (s : State) (a : Nat) : State :=
  let g := a / 16
  if s.hasFlip (windowArray g) g && !s.ctxPoison.contains g then (s.ctxCheck g).2 else s

/-- The latch of a _HI word emptied. -/
def State.dropLatch (s : State) (a : Nat) : State :=
  let keep := s.latch.filter fun (p : Nat × Word) => p.1 != a
  { s with latch := keep }

/-- The latch of a _HI word filled (R15). -/
def State.setLatch (s : State) (a v : Nat) : State :=
  { s.dropLatch a with latch := (s.dropLatch a).latch ++ [(a, BitVec.ofNat 32 v)] }

/-- A context word read (R381): its data, its poison, and the count of R33. A word with flipped bits is corrected or
found poisoned first (R31-R34). The key bytes of a connection context read as zero (R249), and the low word of a
routing entry latches the high word (R380). -/
def State.readWin (s : State) (a : Nat) (w : WinWord) : Nat × Bool × State :=
  let h := w.home
  if w.table = .conn ∧ 32 ≤ w.word then (0, false, s.endRun h)
  else
    let (good, s) := s.ctxCheck (h / 16)
    let res := good && s.resPoison.contains (h / 16)
    let s := if res then s.countUe (windowArray (h / 16)) (h / 16) else s
    let s := s.endRun h
    let v := leNat (s.ctxRd h 4)
    match w.table with
    | .route =>
      if w.word = 0 then
        (v, !good || res, s.setLatch (a + 4) (leNat (s.ctxRd (h + 4) 4)))
      else
        match s.latch.find? fun (p : Nat × Word) => p.1 == a with
        | some p => (p.2.toNat, !good || res, s.dropLatch a)
        | none => (v, !good || res, s)
    | _ => (v, !good || res, s)

/-! ### Registers -/

/-- BLOCK, INSTANCE and CAP of a page (R371). -/
def identity : PageKind → Nat × Nat × Nat
  | .top => (0x001, 0, 0) | .kstn => (0x002, 0, 8) | .pwr => (0x003, 0, 69) | .time => (0x004, 0, 256)
  | .rng => (0x005, 0, 0) | .tbl => (0x006, 0, 16) | .snap => (0x007, 0, 2 + 64 * 256) | .qmgr => (0x008, 0, 4096)
  | .stat => (0x009, 0, 64) | .pier n => (0x010, n, 32 + 16 * 256) | .port n => (0x011, n, 8 + 7 * 256)
  | .deck => (0x012, 0, 48) | .abut n => (0x013, n, 8192) | .rma => (0x014, 0, 32) | .sec => (0x015, 0, 0)
  | .test => (0x016, 0, 0) | .reserved => (0, 0, 0) | .window => (0, 0, 0)

/-- STAT (R370). -/
def State.statWord (s : State) (page : Nat) : Nat :=
  let k := pageKind page
  let st := match k with
    | .port n => s.linkState (2 * n)
    | .pwr => s.bootState
    | _ => 0
  2 ^ 31 + b2n (s.blockBusy k) * 2 ^ 30 + b2n (s.blockHeld page) * 2 ^ 29 +
    b2n (s.regBit (R.hdrErrFirst page) 31) * 2 ^ 28 + st

/-- A number of bytes in KiB; the manual does not say how a part of a KiB shows, so that is a free value. -/
def State.kib (s : State) (n : Nat) : Nat × State :=
  if n % 1024 = 0 then (n / 1024, s)
  else
    let (b, s) := s.freeBytes 1
    (n / 1024 + leNat b % 2, s)

/-- A measured 16-bit quantity: a free value. -/
def State.measured (s : State) : Nat × State :=
  let (b, s) := s.freeBytes 2
  (leNat b, s)

/-- STATE of an island that is not ready (R365, R356; DEDUCED): RESET once its regulator has been started, OFF
before. -/
def State.stateDown (s : State) (i : Nat) : Nat :=
  if i < 5 then (if s.bootState = 0 then 0 else 4)
  else if s.pwr.verified && !s.pwr.started && !(decide (i < 37) && s.pwr.fusedOff.getLsbD (i - 5)) then 4
  else 0

/-- STATE of an island (R365): 0 OFF, 1 RAMP, 2 ON, 3 STRETCHED, 4 RESET, 5 OUT. -/
def State.islandState (s : State) (i : Nat) : Nat :=
  let x := s.island i
  if x.oos then 5
  else if x.low || s.heldDown && i != 0 then 4
  else if !x.ready then s.stateDown i
  else if x.ramp.isSome then 1
  else if !x.dips.isEmpty then 3
  else 2

/-- An island's clock in MHz (R347, R351, R365): that of its point, halved while it is stretched. While a transition is
under way, or the island does not run, no rule gives it: a free value; and so is how a part of a MHz shows. -/
def State.islandMhz (s : State) (i : Nat) : Nat × State :=
  let st := s.islandState i
  if st ≠ 2 ∧ st ≠ 3 then s.measured
  else
    let c := clockOf i (s.island i).point * (if st = 2 then 2 else 1)
    if c % 128 = 0 then (c / 128, s)
    else
      let (b, s) := s.freeBytes 1
      (c / 128 + leNat b % 2, s)

/-- A mask of the islands [first, first + n) that a test holds of. -/
def State.islandMask (s : State) (first n : Nat) (f : Island → Bool) : Nat :=
  maskOf ((List.range n).filter fun i => f (s.island (first + i)))

/-- The registers of AK_TOP that are computed (R374, R375). -/
def State.readTop (s : State) (off : Nat) : Option Nat :=
  match off with
  | 0x40 => some (s.reproId % 2 ^ 32)
  | 0x44 => some (s.reproId / 2 ^ 32)
  | 0x48 => some (setBits (s.reg R.topPart) 15 8 (32 - popCount s.pierDisabled 32))
  | 0x4C => some s.pwr.fusedOff.toNat
  | 0x50 => some s.pierDisabled
  | _ =>
    if 0x70 ≤ off ∧ off < 0x80 then
      let k := (off - 0x70) / 4
      some (maskOf ((List.range 32).filter fun n => s.pageIrq (32 * k + n)))
    else none

/-- The registers of AK_PWR that are computed or measured (R346, R353, R365). -/
def State.readPwr (s : State) (off : Nat) : Option (Nat × State) :=
  let sel := s.regBits R.pwrIslSel 6 0
  let x := s.island sel
  match off with
  | 0x40 =>
    let hot := s.pwr.sensors.any (·.hot)
    let vddh := s.pwr.islands.any fun i => i.dips.any (·.1) || i.falls.any (·.1)
    some (b2n s.pwr.tripAt.isSome * 2 ^ 31 + b2n hot * 2 ^ 30 + b2n vddh * 2 ^ 29 +
      b2n (!s.pwr.vddaWarn.isEmpty || !s.pwr.vddaReset.isEmpty) * 2 ^ 28, s)
  | 0x48 => some (s.islandMask 0 32 (·.oos), s)
  | 0x4C => some (s.islandMask 32 32 (·.oos), s)
  | 0x50 => some (s.islandMask 64 5 (·.oos), s)
  | 0x58 =>
    let (mv, s) := s.measured
    some (s.islandState sel * 2 ^ 28 + x.point % 4 * 2 ^ 26 + mv, s)
  | 0x5C => some (x.asked % 4, s)
  | 0x60 => some (s.islandMhz sel)
  | 0x64 => some (x.vdips, s)
  | 0x68 => some (x.vrsts, s)
  | 0x80 =>
    let t := s.sensor (s.regBits R.pwrThermSel 3 0)
    some (b2n t.valid * 2 ^ 31 + b2n (t.valid && decide (s.limit 8 ≤ t.temp.toInt)) * 2 ^ 30 + t.temp.toNat, s)
  | _ => none

/-- Bytes of the candidate share in use (R29, R226, R246): the 4,096 ring contexts, and the enabled rings that lie in the
share. -/
def State.usedCand (s : State) : Nat :=
  65536 + (((List.range 4096).filter fun r =>
    s.flag (ringBase r) Ring.enable && (s.fld (ringBase r) Ring.base).testBit 63).map fun r =>
      64 * 2 ^ s.fld (ringBase r) Ring.log2Size).sum

/-- The registers of AK_QMGR that are computed (R246). -/
def State.readQmgr (s : State) (off : Nat) : Option (Nat × State) :=
  match off with
  | 0x4C => some (s.kib s.usedOut)
  | 0x50 => some (s.kib s.usedIn)
  | 0x54 => some (s.kib s.usedRetain)
  | 0x58 => some (s.kib s.usedCand)
  | 0x64 => some (s.q.store.length, s)
  | 0x68 => some (s.q.live.length, s)
  | _ => none

/-- The registers of AK_TBL that are computed (R142, R143, R166). -/
def State.readTbl (s : State) (off : Nat) : Option Nat :=
  let slot := off % 0x40 / 4
  let t := s.tbl slot
  if off = 0x44 then some (maskOf ((List.range 16).filter fun n => (s.tbl n).state == .free))
  else if off < 0x80 then none
  else if off < 0xC0 then
    let st := match t.state with
      | .free => 0
      | .loaded => 1
      | .retiring => 2
    let alpha := match t.alphabet with
      | 18 => 1
      | 34 => 2
      | 258 => 3
      | _ => 0
    some (st * 2 ^ 30 + alpha * 2 ^ 16 + t.gen % 256)
  else if off < 0x100 then some (s.slotRefs slot)
  else if off < 0x140 then some t.id
  else if off < 0x180 then some t.crc
  else none

/-- The registers of AK_STAT that are computed (R117). -/
def State.readStat (s : State) (off : Nat) : Option Nat :=
  if off = 0x48 then some (maskOf ((List.range 32).filter s.statSat))
  else if off = 0x4C then some (maskOf ((List.range 32).filter fun n => s.statSat (32 + n)))
  else if 0x400 ≤ off ∧ off < 0x810 then some (nth s.q.statBuf ((off - 0x400) / 4) 0)
  else none

/-- The registers of an Abutment that are computed (R225). -/
def State.readAbut (s : State) (n off : Nat) : Option Nat :=
  match off with
  | 0x40 => some n
  | 0x48 => some (s.cbCount n)
  | 0x4C => some (s.cb.filter fun l => abutOf (l.granule * 64) == n && l.dirty).length
  | 0x8C => some (match s.abutLive n with
    | some l => 2 ^ 31 + l.op
    | none => 0)
  | _ => none

/-- The registers of AK_SEC that are computed (R278). -/
def State.readSec (s : State) (off : Nat) : Option Nat :=
  let c := s.regBits R.secKeySel 14 0
  let b := connBase c
  let has (rx phase : Bool) : Nat := b2n (s.keySlot c rx phase).isSome
  match off with
  | 0x68 => some (s.fld b Conn.rekeyDue * 32 + s.fld b Conn.txPhase * 16 + has false false + 2 * has false true +
      4 * has true false + 8 * has true true)
  | 0x6C => some (s.fld b Conn.phaseCnt)
  | 0x74 => some (s.enabledConns.filter fun c => s.flag (connBase c) Conn.rekeyDue).length
  | _ => none

/-- A register as stored; write-only bits read as zero (R16). -/
def State.readPlain (s : State) (a : Nat) : Nat :=
  match regRow a with
  | some r => s.reg a &&& (0xFFFFFFFF ^^^ r.wo)
  | none => 0

/-- A register of the common header (R370). -/
def State.readHeader (s : State) (page off : Nat) : Nat :=
  let (block, inst, cap) := identity (pageKind page)
  match off with
  | 0x00 => block * 2 ^ 20 + inst * 2 ^ 12 + 0x201
  | 0x04 => cap
  | 0x10 => s.statWord page
  | 0x30 => b2n (s.locked page)
  | _ => s.readPlain (regAddr page off)

/-- A register's value now (R365-R376): computed where the manual computes or measures it, else as stored. -/
def State.readLive (s : State) (a : Nat) : Nat × State :=
  let page := a / 4096
  let off := a % 4096
  let pure_ (o : Option Nat) : Nat × State := (o.getD (s.readPlain a), s)
  if off < 0x40 then (if pageKind page = .reserved then (0, s) else (s.readHeader page off, s))
  else match pageKind page with
    | .top => pure_ (s.readTop off)
    | .pwr => (s.readPwr off).getD (s.readPlain a, s)
    | .time =>
      pure_ (match off with
        | 0x40 => some (s.now % 2 ^ 32)
        | 0x44 => some (s.now / 2 ^ 32)
        | 0x8C => some s.clock.bars.length
        | _ => none)
    | .rng =>
      pure_ (if off = 0x4C then
        some (b2n (s.reg R.rngSeedLo != s.reg R.rngActiveLo || s.reg R.rngSeedHi != s.reg R.rngActiveHi)) else none)
    | .tbl => pure_ (s.readTbl off)
    | .qmgr => (s.readQmgr off).getD (s.readPlain a, s)
    | .stat => pure_ (s.readStat off)
    | .abut n => pure_ (s.readAbut n off)
    | .sec => pure_ (s.readSec off)
    | .port n =>
      let lane := (off - 0x400) / 0x40
      if 0x400 ≤ off ∧ off < 0x600 ∧ off % 0x40 = 4 then
        let test := s.laneInTest n lane
        (setBits (setBits (s.readPlain a) 30 30 (b2n test)) 31 31 (b2n (test && s.regBit a 31)), s)
      else (s.readPlain a, s)
    | .test => pure_ (if off = 0x48 then some (setBits (s.readPlain a) 31 31 (b2n s.test.isSome)) else none)
    | _ => (s.readPlain a, s)

/-- The _LO offsets of the 64-bit pairs of a page (R15). -/
def loOffsets : PageKind → List Nat
  | .top => [0x40, 0x80, 0x88]
  | .time => [0x40, 0x4C]
  | .rng => [0x40, 0x50, 0x60]
  | .snap => [0x50, 0x80]
  | .qmgr => [0x6C]
  | .stat => [0x48]
  | .pier _ => [0x40, 0x48, 0x80]
  | .port _ => [0x88, 0x90, 0x600, 0x608] ++
      ((List.range 8).map fun l => [0x408 + 0x40 * l, 0x410 + 0x40 * l, 0x418 + 0x40 * l]).flatten
  | .deck => 0xE0 :: ((List.range 6).map fun d => [0x80 + 16 * d, 0x88 + 16 * d]).flatten
  | .abut _ => [0x50, 0x58, 0x60, 0x68, 0x7C]
  | .rma => [0x70, 0x78]
  | _ => []

/-- What a locked checker has compared is counted before its counters are read (R395). -/
def State.compareAt (s : State) (a : Nat) : State :=
  let off := a % 4096
  match pageKind (a / 4096) with
  | .port n =>
    if 0x400 ≤ off ∧ off < 0x600 ∧ (off % 0x40 = 8 ∨ off % 0x40 = 16) then s.compare n ((off - 0x400) / 0x40) else s
  | _ => s

/-- A register read, with the latch of R15: a read of _LO latches _HI, and the next read of _HI returns it. -/
def State.readReg (s : State) (a : Nat) : Nat × State :=
  if (loOffsets (pageKind (a / 4096))).contains (a % 4096) then
    let s := s.compareAt a
    let (hi, s) := s.readLive (a + 4)
    let (lo, s) := s.readLive a
    (lo, s.setLatch (a + 4) hi)
  else
    match s.latch.find? fun (p : Nat × Word) => p.1 == a with
    | some p => (p.2.toNat, s.dropLatch a)
    | none => s.readLive a

/-- The bytes that a read asks for as a mask of its word (R369). -/
def byteMask (bytes : BitVec 4) : Word :=
  BitVec.ofNat 32 (((List.range 4).filter bytes.getLsbD).map fun i => 0xFF * 2 ^ (8 * i)).sum

/-- A control read of a window address (R368, R369): what it returned stands in lastRead. A read narrower than a word acts
on the whole word, with any side effect, and returns the bytes asked for. An engine whose top island is off answers
nothing, and the host sees all ones; a page that does not answer reads as zero. -/
def controlRead (addr : BitVec 24) (bytes : BitVec 4) (s : State) : State :=
  let a := addr.toNat / 4 * 4
  let m := byteMask bytes
  if s.pwr.dead then { s with lastRead := ⟨m, false⟩ }
  else if !s.pageReady (a / 4096) then { s with lastRead := ⟨0, false⟩ }
  else match s.winWord a with
    | some w =>
      let (v, poison, s) := s.readWin a w
      { s with lastRead := ⟨BitVec.ofNat 32 v &&& m, poison⟩ }
    | none =>
      let (v, s) := s.readReg a
      { s with lastRead := ⟨BitVec.ofNat 32 v &&& m, false⟩ }

end Sys2Proof.Machine
end

