-- ==== Sys2Proof/Machine/Window.lean ====
section
/-! DEFINITION. Writing the control window (R16, R367-R381): the common header, the lock, interrupts, the registers
that act, and the words of the context windows. -/

namespace Sys2Proof.Machine

/-! ### The lock (R373) -/

/-- A write of LOCK (R373). -/
def lockWrite (page : Nat) (v : Word) (s : State) : State :=
  let key := (v >>> 1).setWidth 31
  match s.locks.find? fun (l : Nat × BitVec 31) => l.1 == page with
  | none => if v.getLsbD 0 then { s with locks := s.locks ++ [(page, key)] } else s
  | some l =>
    if !v.getLsbD 0 && l.2 == key then { s with locks := s.locks.filter fun (l : Nat × BitVec 31) => l.1 != page }
    else (s.bump R.topLockFailCnt).raiseIrq 0 1

/-! ### CTRL (R370, R372) -/

/-- SOFT_RESET (R362): what it does for each island's pages. -/
def softReset (page : Nat) (s : State) : State :=
  match pageIsland page with
  | none => s
  | some i => if i = 0 then s else if i = 1 then s.kstnResets else if i < 5 then s.warmReset else s.clearIsland i

/-- A port's page enabled again: every lane leaves test, and training starts (R394, R287). -/
def State.portOn (s : State) (n : Nat) : State :=
  let s := (List.range 8).foldl (fun (s : State) l => (s.unlock n l).setReg (R.portLaneCtrl n l) 0) s
  [2 * n, 2 * n + 1].foldl (fun (s : State) h => if s.linkState h = 0 then s.toDetect h else s) s

/-- ENABLE and HOLD where R372 gives them an action. -/
def enableHold (page : Nat) (v : Word) (s : State) : State :=
  let a := R.hdrCtrl page
  let en := v.getLsbD 0
  let hold := v.getLsbD 2
  match pageKind page with
  | .pier _ => s.setReg a (b2n en + 4 * b2n hold)
  | .qmgr => s.setReg a (b2n en + 4 * b2n hold)
  | .abut _ => s.setReg a (1 + 4 * b2n hold)
  | .port n =>
    let was := s.regBit a 0
    let s := s.setReg a (b2n en)
    if en && !was then s.portOn n
    else if !en && was then s.portLost n 0
    else s
  | _ => s

/-- A write of CTRL (R370, R372): ENABLE and HOLD unless the page is locked, and then SOFT_RESET. -/
def ctrlWrite (page : Nat) (v : Word) (s : State) : State :=
  let s := if s.locked page then s else enableHold page v s
  if v.getLsbD 1 then softReset page s else s

/-! ### Interrupts and errors (R370, R374) -/

/-- The IRQ bits that each page assigns. -/
def irqMask : PageKind → Nat
  | .top => 0x3 | .kstn => 0x7 | .pwr => 0x7F | .time => 0x7 | .rng => 0 | .tbl => 0xF | .snap => 0x1F | .qmgr => 0x7
  | .stat => 0 | .pier _ => 0 | .port _ => 0xF | .deck => 0x3 | .abut _ => 0 | .rma => 0x1F | .sec => 0 | .test => 0x1
  | .reserved => 0 | .window => 0

/-- A message when a write to IRQ_STAT or IRQ_EN leaves the page's interrupt asserted (R374). -/
def State.msgIfLeft (s : State) (page : Nat) : State := if s.pageIrq page then s.pageMsg page else s

/-- A W1C write of IRQ_STAT (R374). -/
def irqStatClear (page : Nat) (v : Word) (s : State) : State :=
  (s.setReg (R.hdrIrqStat page) (s.reg (R.hdrIrqStat page) &&& (0xFFFFFFFF ^^^ v.toNat))).msgIfLeft page

/-- A write of IRQ_EN (R374). -/
def irqEnWrite (page : Nat) (v : Word) (s : State) : State :=
  (s.setReg (R.hdrIrqEn page) (v.toNat &&& irqMask (pageKind page))).msgIfLeft page

/-- A write of IRQ_SET (R370). -/
def irqSet (page : Nat) (v : Word) (s : State) : State := s.raiseIrq page (v.toNat &&& irqMask (pageKind page))

/-- A write of TOP_VEC_MASK_LO or _HI (R374): a pending vector that it unmasks sends its one message. -/
def vecMask (hi : Bool) (v : Word) (s : State) : State :=
  let s := s.setReg (if hi then R.topVecMaskHi else R.topVecMaskLo) v.toNat
  let a := if hi then R.topVecPendHi else R.topVecPendLo
  (List.range 32).foldl (fun (s : State) k =>
    if (s.reg a).testBit k && !v.getLsbD k then
      (s.setRegBits a k k 0).sendVec (k + (if hi then 32 else 0))
    else s) s

/-- A W1C write of ERR_FIRST (R370). -/
def errFirstClear (page : Nat) (v : Word) (s : State) : State :=
  if v.getLsbD 31 then (s.setReg (R.hdrErrFirst page) 0).setReg (R.hdrErrFirstInfo page) 0 else s

/-- A write of ERR_CNT_CE or _UE (R370): 0 clears, other values are ignored. -/
def errCntClear (page : Nat) (uncorrected : Bool) (v : Word) (s : State) : State :=
  if v = 0 then s.setReg (if uncorrected then R.hdrErrCntUe page else R.hdrErrCntCe page) 0 else s

/-- A refused access (R369): a narrow write, or a write to a reserved page. -/
def accessRefused (addr : BitVec 24) (s : State) : State :=
  if s.pwr.dead then s
  else
    let s := if s.regBit R.topAccessErr 31 then s else s.setReg R.topAccessErr (2 ^ 31 + addr.toNat)
    s.raiseIrq 0 2

/-! ### Registers that act -/

/-- RNG_CTRL (R61, R63). -/
def rngControl (v : Word) (s : State) : State :=
  if v.getLsbD 0 then (s.setReg R.rngActiveLo (s.reg R.rngSeedLo)).setReg R.rngActiveHi (s.reg R.rngSeedHi) else s

/-- RNG_TEST_INDEX_HI (R63): one evaluation of the Trestle with the active seed. -/
def rngTest (v : Word) (s : State) : State :=
  let s := s.setReg R.rngTestIndexHi (v.toNat % 256)
  let index := s.reg R.rngTestIndexLo + s.reg R.rngTestIndexHi * 2 ^ 32
  s.setReg R.rngTestOut (trestle s.seed (BitVec.ofNat 32 (s.reg R.rngTestStep))
    (BitVec.ofNat 24 (s.reg R.rngTestStream)) (BitVec.ofNat 40 index)).toNat

/-- CLEAR of a Pier's selection counters (R94). -/
def pierSelClear (n : Nat) (v : Word) (s : State) : State := if v.getLsbD 0 then s.zeroRegs (0x10 + n) 0x40 0x60 else s

/-- CLEAR of a Pier's compression counters (R120). -/
def pierCmpClear (n : Nat) (v : Word) (s : State) : State :=
  if v.getLsbD 0 then (s.zeroRegs (0x10 + n) 0x80 0x94).setReg (R.pierFlush n) 0 else s

/-- CLEAR of a Pier's coding and decoding counters (R167). -/
def pierTblClear (n : Nat) (v : Word) (s : State) : State := if v.getLsbD 0 then s.zeroRegs (0x10 + n) 0xC0 0xE8 else s

/-- PORT_CLR (R309). -/
def portClear (n : Nat) (v : Word) (s : State) : State := if v.getLsbD 0 then s.zeroRegs (0x40 + n) 0x88 0xB4 else s

/-- TIME_CLR (R311). -/
def timeClear (v : Word) (s : State) : State := if v.getLsbD 0 then s.zeroRegs 3 0x74 0x80 else s

/-- SNAP_CTRL (R341). -/
def snapClear (v : Word) (s : State) : State := if v.getLsbD 0 then s.zeroRegs 6 0xB4 0xC4 else s

/-- TEST_CLR (R404). -/
def testClear (v : Word) (s : State) : State := if v.getLsbD 0 then s.zeroRegs 0x7C 0x54 0x5C else s

/-- PWR_CLR (R365): CLEAR, and LOG_CLEAR. -/
def pwrClear (v : Word) (s : State) : State :=
  let s := if v.getLsbD 0 then
      let s := (s.zeroRegs 2 0x64 0x78).setReg R.pwrWdogCnt 0
      { s with pwr := { s.pwr with islands := s.pwr.islands.map fun (i : Island) => { i with vdips := 0, vrsts := 0 } } }
    else s
  if v.getLsbD 1 then ((s.zeroRegs 2 0x200 0x2FC).setReg R.pwrLogCnt 0).setReg R.pwrLogHead 0 else s

/-- PWR_THERM_LIMITS (R365): a TRIP or THROTTLE above its reset value is ignored. -/
def thermLimits (v : Word) (s : State) : State :=
  let was := s.reg R.pwrThermLimits
  let n := v.toNat
  let n := if 0x7D < bits n 31 24 then setBits n 31 24 (bits was 31 24) else n
  let n := if 0x69 < bits n 15 8 then setBits n 15 8 (bits was 15 8) else n
  s.writeFields R.pwrThermLimits n

/-- A staged key word (R278), which a lock of AK_SEC refuses (R373). -/
def keyWord (i : Nat) (v : Word) (s : State) : State := if s.locked 0x78 then s else s.setReg (R.secKey i) v.toNat

/-- A register with no action of its own (R16): its RW and RWL fields are replaced, and its W1C bits cleared. -/
def State.writePlain (s : State) (a : Nat) (v : Word) : State :=
  match regRow a with
  | some r =>
    let s := s.writeFields a v.toNat
    s.setReg a (s.reg a &&& (0xFFFFFFFF ^^^ (r.w1c &&& v.toNat)))
  | none => s

/-- A write within the common header (R370). -/
def headerWrite (page off : Nat) (v : Word) (s : State) : State :=
  match off with
  | 0x0C => ctrlWrite page v s
  | 0x14 => irqStatClear page v s
  | 0x18 => irqEnWrite page v s
  | 0x1C => irqSet page v s
  | 0x20 => errFirstClear page v s
  | 0x28 => errCntClear page false v s
  | 0x2C => errCntClear page true v s
  | 0x30 => lockWrite page v s
  | _ => s

/-- A field of a Caisson entry whose ARM is 1: writes to it are ignored (R314). -/
def State.armedField (s : State) (off : Nat) : Bool :=
  (decide (0x48 ≤ off ∧ off ≤ 0x58) && s.regBit (R.snapCNode 0) 31) ||
  (decide (0x78 ≤ off ∧ off ≤ 0x88) && s.regBit (R.snapCNode 1) 31)

/-- A write to a register of a page's own. -/
def pageWrite (page off : Nat) (v : Word) (s : State) : State :=
  let plain (s : State) : State := s.writePlain (regAddr page off) v
  match pageKind page with
  | .top => match off with
    | 0x80 => vecMask false v s
    | 0x84 => vecMask true v s
    | _ => plain s
  | .kstn => if off = 0x44 then mailbox v s else plain s
  | .pwr => match off with
    | 0x44 => pwrControl v s
    | 0x5C => pwrIslOpp v s
    | 0x84 => thermLimits v s
    | 0x98 => pwrClear v s
    | 0x104 => bootControl v s
    | 0x108 => bootLoadData v s
    | _ => plain s
  | .time => match off with
    | 0x48 => timeCtrlSet v s
    | 0x90 => timeClear v s
    | _ => plain s
  | .rng => match off with
    | 0x48 => rngControl v s
    | 0x64 => rngTest v s
    | _ => plain s
  | .tbl => if off = 0x40 then clearTblLog v s else plain s
  | .snap =>
    if off = 0x44 ∨ off = 0x74 then armControl (off == 0x74) v s
    else if off = 0xC8 then snapClear v s
    else if 0x100 ≤ off ∧ off < 0x200 then snapWatchWrite (BitVec.ofNat 6 ((off - 0x100) / 4)) v s
    else if s.armedField off then s
    else plain s
  | .qmgr => match off with
    | 0x40 => ringDoorbell v s
    | 0x44 => cqDoorbell v s
    | 0x48 => spanShare v s
    | 0x5C => ppCancel v s
    | 0x84 => qmgrClearCounters v s
    | _ => plain s
  | .stat => match off with
    | 0x40 => selectStat v s
    | 0x44 => clearStat v s
    | _ => plain s
  | .pier n => match off with
    | 0x70 => pierSelClear n v s
    | 0x98 => pierCmpClear n v s
    | 0xEC => pierTblClear n v s
    | _ => plain s
  | .port n =>
    if off = 0x44 then portRetrain (BitVec.ofNat 5 n) v s
    else if off = 0x54 ∨ off = 0x58 then portExpWrite (BitVec.ofNat 5 n) (off == 0x58) v s
    else if off = 0xB8 then portClear n v s
    else if off = 0x64C then portTclr (BitVec.ofNat 5 n) v s
    else if 0x400 ≤ off ∧ off < 0x600 ∧ off % 0x40 = 0 then
      laneControl (BitVec.ofNat 5 n) (BitVec.ofNat 3 ((off - 0x400) / 0x40)) v s
    else plain s
  | .deck => if off = 0xF8 then deckControl v s else plain s
  | .abut n => if off = 0x44 then abutControl (BitVec.ofNat 3 n) v s else plain s
  | .rma => match off with
    | 0x60 => rmaRevoke v s
    | 0x68 => srqDoorbell v s
    | 0xA4 => rmaControl v s
    | _ => plain s
  | .sec =>
    if off = 0x64 then keyControl v s
    else if 0x44 ≤ off ∧ off < 0x64 then keyWord ((off - 0x44) / 4) v s
    else plain s
  | .test => match off with
    | 0x40 => testControl v s
    | 0x60 => testClear v s
    | _ => plain s
  | .reserved => s
  | .window => s

/-! ### The context windows (R379-R381) -/

/-- The bits of an entry's word that software writes at once, by table and word (R95, R168, R226, R236, R241, R249,
R274); words with an action of their own, and words of the engine alone, have none. -/
def winMask (t : Table) (w : Nat) : Nat :=
  let all := 0xFFFFFFFF
  match t with
  | .conn => match w with
    | 1 => 0x7FFF000F
    | 2 => 0x0FFF03FF
    | 3 => all
    | 4 => 0xFFFF
    | _ => 0
  | .strm => match w with
    | 0 => 0x077FFFFF
    | 1 => 0x077F0FFF
    | 2 => 0x000FFFBF
    | 3 => 0xFFF
    | 5 => 0xFF
    | 6 => 0x1FFFFFF
    | 7 => 0x7FFF
    | 39 => 0xFFFF
    | _ => if w = 9 ∨ 63 ≤ w ∨ (26 ≤ w ∧ w ≤ 31) then 0 else all
  | .region => match w with
    | 1 => 0xFFFF
    | 5 => 0xFF
    | _ => if 2 ≤ w ∧ w ≤ 4 then all else 0
  | .ctr => 0
  | .grp => match w with
    | 0 => 0x1FFFF
    | 1 => 0xFFFF
    | 4 => 0x8FFF
    | 53 => 0x000FFFFF
    | 55 => 0x8000FFFF
    | _ => if (2 ≤ w ∧ w ≤ 3) ∨ (16 ≤ w ∧ w ≤ 47) then all else 0
  | .cq => match w with
    | 4 => 0xFFFFF
    | _ => if w ≤ 1 then all else 0
  | .srq => match w with
    | 0 => 0x0FFF0FDF
    | 4 => 0xFFFFF
    | _ => if 2 ≤ w ∧ w ≤ 3 then all else 0
  | .ring => if w ≤ 1 then all else 0
  | .route => 0

/-- The masked bits of a context word replaced. -/
def State.maskWord (s : State) (a mask v : Nat) : State :=
  s.ctxWr a (toLE 4 ((leNat (s.ctxRd a 4) &&& (0xFFFFFFFF ^^^ mask)) ||| (v &&& mask)))

/-- A write to words 51 and 52 of a group context: it may only clear the VALID bits of PEND (R146, R168). -/
def State.pendWrite (s : State) (a lanes v : Nat) : State :=
  (List.range lanes).foldl (fun (s : State) k =>
    let b := leNat (s.ctxRd (a + k) 1)
    s.ctxWr (a + k) (toLE 1 (if (v >>> (8 * k)).testBit 6 then b else setBits b 6 6 0))) s

/-- A region's word staged (R380). -/
def State.stageRegion (s : State) (n w : Nat) (v : Word) : State :=
  let old := match s.x.regionStage with
    | some (k, ws) => if k = n then ws else []
    | none => []
  let ws := old.filter (fun (p : Nat × Word) => p.1 != w) ++ [(w, v &&& BitVec.ofNat 32 (winMask .region w))]
  { s with x := { s.x with regionStage := some (n, ws) } }

/-- The words that a commit of a region entry writes, in ascending order (R380, R381). -/
def State.regionWords (s : State) (n : Nat) : List Nat :=
  match s.x.regionStage with
  | some (k, ws) => if k = n then (List.range 16).filter fun w => w == 0 || ws.any fun (p : Nat × Word) => p.1 == w else [0]
  | none => [0]

/-- Word 0 of a region entry (R257, R380): what it commits counts as written in ascending order (R381). -/
def regionCommit (region : BitVec 16) (v : Word) (s : State) : State :=
  let words := s.regionWords region.toNat
  let s := words.foldl (fun (s : State) w => s.recode (regionBase region.toNat + 4 * w)) s
  let s := regionRegister region v s
  words.foldl (fun (s : State) w => s.noteWrite (regionBase region.toNat + 4 * w)) s

/-- The high word of a routing entry (R301, R380): the low word staged for it counts as written first (R381). -/
def routeCommit (dst : BitVec 16) (v : Word) (s : State) : State :=
  let b := routeBase dst.toNat
  let s := s.recode b
  let low := match s.x.routeStage with
    | some (n, _) => n == dst.toNat
    | none => false
  let s := routeEntryWrite dst v s
  (if low then s.noteWrite b else s).noteWrite (b + 4)

/-- Word 0 of a connection context (R249, R251, R252). -/
def connControl (conn : BitVec 15) (v : Word) (s : State) : State :=
  let s := s.recode (connBase conn.toNat)
  let s := if v.getLsbD 7 then connEnable conn v s else connDisable conn v s
  s.noteWrite (connBase conn.toNat)

/-- A write to a ring context's control word (R226, R227). -/
def ringWord (ring : BitVec 12) (v : Word) (s : State) : State :=
  (ringControl ring.toNat v (s.recode (ringBase ring.toNat))).noteWrite (ringBase ring.toNat + 8)

/-- A write to a completion queue's control word (R241). -/
def cqWord (cq : BitVec 12) (v : Word) (s : State) : State :=
  (cqControl cq.toNat v (s.recode (cqBase cq.toNat))).noteWrite (cqBase cq.toNat + 8)

/-- A write of a trigger counter's VALUE (R237). -/
def counterWrite (ctr : BitVec 16) (v : Word) (s : State) : State :=
  ((s.recode (ctrBase ctr.toNat)).ctrEvent ctr.toNat v.toNat).noteWrite (ctrBase ctr.toNat)

/-- A write to a word of the context windows that has no row of its own (R380). -/
def State.putWindow (s : State) (w : WinWord) (v : Word) : State :=
  let a := w.home
  let m := winMask w.table w.word
  let n := v.toNat
  let s := if w.table = .region ∨ w.table = .route then s else s.recode a
  match w.table with
  | .conn =>
    if s.flag (connBase w.entry) Conn.enable then s.noteWrite a else (s.maskWord a m n).noteWrite a
  | .grp =>
    if w.word = 51 then (s.pendWrite a 4 n).noteWrite a
    else if w.word = 52 then (s.pendWrite a 1 n).noteWrite a
    else if 56 ≤ w.word ∧ w.word ≤ 62 then (if n = 0 then s.ctxWr a (zeros 4) else s).noteWrite a
    else (s.maskWord a m n).noteWrite a
  | .ring =>
    if w.word = 3 then
      (if s.flag (ringBase w.entry) Ring.enable then s else s.ctxWr a (toLE 4 n)).noteWrite a
    else (s.maskWord a m n).noteWrite a
  | .region => s.stageRegion w.entry w.word v
  | .route => { s with x := { s.x with routeStage := some (w.entry, v) } }
  | _ => (s.maskWord a m n).noteWrite a

/-- A write to a word of the context windows, by its table and word. -/
def State.writeWindow (s : State) (w : WinWord) (v : Word) : State :=
  match w.table, w.word with
  | .conn, 0 => connControl (BitVec.ofNat 15 w.entry) v s
  | .region, 0 => regionCommit (BitVec.ofNat 16 w.entry) v s
  | .ctr, 0 => counterWrite (BitVec.ofNat 16 w.entry) v s
  | .cq, 2 => cqWord (BitVec.ofNat 12 w.entry) v s
  | .ring, 2 => ringWord (BitVec.ofNat 12 w.entry) v s
  | .route, 1 => routeCommit (BitVec.ofNat 16 w.entry) v s
  | _, _ => s.putWindow w v

/-! ### A control write (R368, R369) -/

/-- A whole-word write to a window address: to a register, a context word, an RSV offset (ignored), or a reserved
page (refused). -/
def controlWrite (addr : BitVec 24) (v : Word) (s : State) : State :=
  let a := addr.toNat / 4 * 4
  let page := a / 4096
  if pageKind page = .reserved then accessRefused addr s
  else s.atPage page fun s =>
    match s.winWord a with
    | some w => s.writeWindow w v
    | none => if a % 4096 < 0x40 then headerWrite page (a % 4096) v s else pageWrite page (a % 4096) v s

/-- A write to an offset of a register page, which acts there as given; on a page that is reserved, or that has no
registers, it is the control write it amounts to (R369). -/
def State.atRegPage (s : State) (page off : Nat) (v : Word) (f : State → State) : State :=
  match pageKind page with
  | .reserved => controlWrite (BitVec.ofNat 24 (regAddr page off)) v s
  | .window => controlWrite (BitVec.ofNat 24 (regAddr page off)) v s
  | _ => s.atPage page f

end Sys2Proof.Machine
end

