-- ==== Sys2Proof/Machine/Tick.lean ====
section
/-! DEFINITION. What the engine does of its own accord between commands: its clock advances by one nanosecond, and
work that nothing holds any longer goes on (DESIGN CHOICE, log entry 15). -/

namespace Sys2Proof.Machine

/-- The start of each opcode (R231). Opcode 0x100 stands for a stored descriptor that cannot be read (R244). -/
def startBy (op : Nat) : Live → State → State :=
  match op with
  | 0x00 => startNop
  | 0x01 => startCompress
  | 0x02 => startStats
  | 0x03 => startSelect
  | 0x04 => startExpand
  | 0x05 => startMerge
  | 0x06 => startActSave
  | 0x07 => startActLoad
  | 0x10 => startWrite
  | 0x11 => startRead
  | 0x12 => startSend
  | 0x13 => startAccum
  | 0x14 => startAccumSparse
  | 0x15 => startFlush
  | 0x16 => startMax
  | 0x20 => startFunc
  | 0x21 => startUpdate
  | 0x22 => startResidualReturn
  | 0x30 => startSnapshot
  | 0x31 => startRestore
  | 0x32 => startLogAppend
  | 0x33 => startExport
  | 0x40 => startBarrier
  | 0x41 => startTableInstall
  | 0x42 => startFence
  | 0x43 => startCounterAdd
  | 0x44 => startRelay
  | 0x100 => fun l s => s.endWith l 0x51
  | _ => fun l s => s.endWith l 0x70

/-- An outstanding descriptor looked at again: one that has not started starts when it can, a receive role opens when
its sequence is reached, an UPDATE that waits for its Abutments goes on, and so does an open instance. -/
def State.lookAt (s : State) (id : Nat) : State :=
  match s.q.live.find? fun l => l.id == id with
  | none => s
  | some l =>
    match l.phase with
    | .start => startBy l.op l s
    | .seq ref => s.seqCheck l ref
    | .update _ => startUpdate l s
    | .inst _ => s.serve id
    | _ => s

/-- One descriptor dispatched, when one may be, and the waits for a credit counted (R242). -/
def State.dispatchNext (s : State) : State :=
  let s := (s.q.waiting.filter fun w => !s.heldHead w && s.noCredit w).foldl (fun (s : State) w => s.countWait w) s
  match s.nextHead with
  | none => s
  | some w =>
    let (l, s) := s.dispatch w
    startBy l.op l s

/-- The oldest frame for this chip, VL 6 first, put into the joint to the transport, which hands it to that or to the MGMT
handler (R18, R296). -/
def State.localFrame (s : State) : State :=
  let put (r : Option (Frame × List Frame)) : State :=
    match r with
    | some (f, rest) => ({ s with deck := { s.deck with out := rest } }).intoJoint 3 4 f
    | none => s
  match takeFrame localPort 6 s.deck.out, s.deck.out.find? fun f => f.h == localPort with
  | some r, _ => put (some r)
  | none, some f => put (takeFrame localPort f.vl s.deck.out)
  | none, none => s

/-- The packet opcodes whose payload may arrive poisoned (R266). -/
def mayPoison (op : Nat) : Bool := [0x01, 0x03, 0x04, 0x05].contains op

/-- The first frame in the joint to the transport handed over (R296). One whose header, or whose sealed payload, holds a
poisoned word cannot be used, and is not acknowledged; a poisoned word of a plain payload poisons that (R33, R266). -/
def State.localOut (s : State) : State :=
  match s.outOfJoint 3 4 with
  | none => s
  | some (none, _, s) => s
  | some (some f, bad, s) =>
    if f.stomp then s
    else if bad.isEmpty then s.deliver none f.pkt
    else if bad.any (fun i => decide (i < 2)) || !f.pkt.tag.isEmpty || !mayPoison f.pkt.opcode.toNat then s
    else s.deliver none { f.pkt with poison := true }

/-- What stands in the Expansion joints delivered at their far sides (R18): one frame of each. -/
def State.jointsOut (s : State) : State :=
  ((List.range 24).filter fun p => !(s.jointOf 3 (37 + p)).isEmpty).foldl (fun (s : State) p => s.portOut p) s.localOut

/-- One nanosecond of the engine's own work: words that flipped are checked; the clock and what is due by it; frames
waiting in a receive buffer, in the Expansion joints and for this chip; outstanding descriptors, the highest priority first
(R197); one dispatch; one frame towards a link; and bits may flip. -/
def State.tick (s : State) : State :=
  if s.pwr.dead then s
  else
    let s := s.checkUpsets.tickClock.verifyEnds.barriersDue
    let s := ((List.range 48).filter fun h => !(s.half h).buffer.isEmpty).foldl (fun (s : State) h => s.drainBuffer h) s
    let s := s.jointsOut.localFrame
    let s := s.inTurn.foldl (fun (s : State) id => s.lookAt id) s
    let s := (retryRetained s).retryMaxes.snapResume
    let s := s.dispatchNext
    let s := match s.sendable with
      | some h => s.transmit h
      | none => s
    s.flip

end Sys2Proof.Machine
end

