-- ==== Sys2Proof/Machine/Connections.lean ====
section
/-! DEFINITION. The transport's timers, connections, regions, receive queues and keys. -/

namespace Sys2Proof.Machine

/-- STAGING_ROOM (R267). -/
def execStagingRoom (conn : BitVec 15) (s : State) : Host.Outcome State Fault Refusal :=
  .next (s.atIsland 4 (Machine.stagingRoom conn))

/-- RETX_TIMER (R267). -/
def execRetxTimer (conn : BitVec 15) (control : Bool) (s : State) : Host.Outcome State Fault Refusal :=
  .next (s.atIsland 4 (Machine.retxTimer conn control))

/-- REORDER_TIMER (R267). -/
def execReorderTimer (conn : BitVec 15) (control : Bool) (s : State) : Host.Outcome State Fault Refusal :=
  .next (s.atIsland 4 (Machine.reorderTimer conn control))

/-- ACK_DELAY (R267). -/
def execAckDelay (conn : BitVec 15) (control : Bool) (s : State) : Host.Outcome State Fault Refusal :=
  .next (s.atIsland 4 (Machine.ackDelay conn control))

/-- RNR_TIMER (R267). -/
def execRnrTimer (conn : BitVec 15) (control : Bool) (s : State) : Host.Outcome State Fault Refusal :=
  .next (s.atIsland 4 (Machine.rnrTimer conn control))

/-- HELLO_PERIOD (R251). -/
def execHelloPeriod (conn : BitVec 15) (s : State) : Host.Outcome State Fault Refusal :=
  .next (s.atIsland 4 (Machine.helloPeriod conn))

/-- TOLL_PERIOD (R269). -/
def execTollPeriod (s : State) : Host.Outcome State Fault Refusal :=
  .next (s.atIsland 4 Machine.tollPeriod)

/-- REKEY_DUE (R273). -/
def execRekeyDue (conn : BitVec 15) (s : State) : Host.Outcome State Fault Refusal :=
  .next (s.atIsland 4 (Machine.rekeyDue conn))

/-- CONN_ENABLE (R251). -/
def execConnEnable (conn : BitVec 15) (v : Word) (s : State) : Host.Outcome State Fault Refusal :=
  .next (s.atPage 0x100 (connControl conn v))

/-- CONN_DISABLE (R252). -/
def execConnDisable (conn : BitVec 15) (v : Word) (s : State) : Host.Outcome State Fault Refusal :=
  .next (s.atPage 0x100 (connControl conn v))

/-- REGION_REGISTER (R257). -/
def execRegionRegister (region : BitVec 16) (v : Word) (s : State) : Host.Outcome State Fault Refusal :=
  .next (s.atPage 0x900 (regionCommit region v))

/-- RMA_REVOKE (R258). -/
def execRmaRevoke (v : Word) (s : State) : Host.Outcome State Fault Refusal :=
  .next (s.atPage 0x70 (Machine.rmaRevoke v))

/-- REVOKE_DONE (R258). -/
def execRevokeDone (region : BitVec 16) (s : State) : Host.Outcome State Fault Refusal :=
  .next (s.atIsland 4 (Machine.revokeDone region))

/-- RMA_SRQ_DB (R274). -/
def execRmaSrqDb (v : Word) (s : State) : Host.Outcome State Fault Refusal :=
  .next (s.atPage 0x70 (srqDoorbell v))

/-- SEC_KEY_COMMIT (R278). -/
def execSecKeyCommit (v : Word) (s : State) : Host.Outcome State Fault Refusal :=
  .next (s.atPage 0x78 (keyControl v))

/-- SEC_KEY_ERASE (R278). -/
def execSecKeyErase (v : Word) (s : State) : Host.Outcome State Fault Refusal :=
  .next (s.atPage 0x78 (keyControl v))

/-- TX_SWITCH (R273). -/
def execTxSwitch (v : Word) (s : State) : Host.Outcome State Fault Refusal :=
  .next (s.atPage 0x78 (keyControl v))

/-- RMA_CLEAR (R276). -/
def execRmaClear (v : Word) (s : State) : Host.Outcome State Fault Refusal :=
  .next (s.atPage 0x70 (rmaControl v))

/-- RMA_LOG_CLEAR (R276). -/
def execRmaLogClear (v : Word) (s : State) : Host.Outcome State Fault Refusal :=
  .next (s.atPage 0x70 (rmaControl v))

end Sys2Proof.Machine
end

