-- ==== Sys2Proof/Machine/Descriptors.lean ====
section
/-! DEFINITION. The descriptors' opcodes (R231): each is dispatched when nothing holds it and then runs. -/

namespace Sys2Proof.Machine

/-- NOP (R232). -/
def execNop (d : Desc) (s : State) : Host.Outcome State Fault Refusal :=
  .next (s.atIsland 2 (runDesc 0x00 startNop d))

/-- COMPRESS (R108). -/
def execCompress (d : Desc) (s : State) : Host.Outcome State Fault Refusal :=
  .next (s.atIsland 2 (runDesc 0x01 startCompress d))

/-- STATS (R106). -/
def execStats (d : Desc) (s : State) : Host.Outcome State Fault Refusal :=
  .next (s.atIsland 2 (runDesc 0x02 startStats d))

/-- SELECT (R86). -/
def execSelect (d : Desc) (s : State) : Host.Outcome State Fault Refusal :=
  .next (s.atIsland 2 (runDesc 0x03 startSelect d))

/-- MERGE (R92). -/
def execMerge (d : Desc) (s : State) : Host.Outcome State Fault Refusal :=
  .next (s.atIsland 2 (runDesc 0x05 startMerge d))

/-- EXPAND (R159). -/
def execExpand (d : Desc) (s : State) : Host.Outcome State Fault Refusal :=
  .next (s.atIsland 2 (runDesc 0x04 startExpand d))

/-- ACT_SAVE (R163). -/
def execActSave (d : Desc) (s : State) : Host.Outcome State Fault Refusal :=
  .next (s.atIsland 2 (runDesc 0x06 startActSave d))

/-- ACT_LOAD (R159). -/
def execActLoad (d : Desc) (s : State) : Host.Outcome State Fault Refusal :=
  .next (s.atIsland 2 (runDesc 0x07 startActLoad d))

/-- WRITE (R263). -/
def execWrite (d : Desc) (s : State) : Host.Outcome State Fault Refusal :=
  .next (s.atIsland 2 (runDesc 0x10 startWrite d))

/-- READ (R263). -/
def execRead (d : Desc) (s : State) : Host.Outcome State Fault Refusal :=
  .next (s.atIsland 2 (runDesc 0x11 startRead d))

/-- SEND (R263). -/
def execSend (d : Desc) (s : State) : Host.Outcome State Fault Refusal :=
  .next (s.atIsland 2 (runDesc 0x12 startSend d))

/-- ACCUM (R177). -/
def execAccum (d : Desc) (s : State) : Host.Outcome State Fault Refusal :=
  .next (s.atIsland 2 (runDesc 0x13 startAccum d))

/-- ACCUM_SPARSE (R177). -/
def execAccumSparse (d : Desc) (s : State) : Host.Outcome State Fault Refusal :=
  .next (s.atIsland 2 (runDesc 0x14 startAccumSparse d))

/-- FLUSH (R264). -/
def execFlush (d : Desc) (s : State) : Host.Outcome State Fault Refusal :=
  .next (s.atIsland 2 (runDesc 0x15 startFlush d))

/-- ATOMIC_MAX (R207). -/
def execAtomicMax (d : Desc) (s : State) : Host.Outcome State Fault Refusal :=
  .next (s.atIsland 2 (runDesc 0x16 startMax d))

/-- RESCALE (R210). -/
def execRescale (d : Desc) (s : State) : Host.Outcome State Fault Refusal :=
  .next (s.atIsland 2 (runDesc 0x20 startFunc d))

/-- DOT (R212). -/
def execDot (d : Desc) (s : State) : Host.Outcome State Fault Refusal :=
  .next (s.atIsland 2 (runDesc 0x20 startFunc d))

/-- UPDATE (R221). -/
def execUpdate (d : Desc) (s : State) : Host.Outcome State Fault Refusal :=
  .next (s.atIsland 2 (runDesc 0x21 startUpdate d))

/-- RESIDUAL_RETURN (R190). -/
def execResidualReturn (d : Desc) (s : State) : Host.Outcome State Fault Refusal :=
  .next (s.atIsland 2 (runDesc 0x22 startResidualReturn d))

/-- SNAPSHOT (R320). -/
def execSnapshot (d : Desc) (s : State) : Host.Outcome State Fault Refusal :=
  .next (s.atIsland 2 (runDesc 0x30 startSnapshot d))

/-- RESTORE (R328). -/
def execRestore (d : Desc) (s : State) : Host.Outcome State Fault Refusal :=
  .next (s.atIsland 2 (runDesc 0x31 startRestore d))

/-- LOG_APPEND (R323). -/
def execLogAppend (d : Desc) (s : State) : Host.Outcome State Fault Refusal :=
  .next (s.atIsland 2 (runDesc 0x32 startLogAppend d))

/-- SNAPSHOT_EXPORT (R330). -/
def execSnapshotExport (d : Desc) (s : State) : Host.Outcome State Fault Refusal :=
  .next (s.atIsland 2 (runDesc 0x33 startExport d))

/-- BARRIER (R307). -/
def execBarrier (d : Desc) (s : State) : Host.Outcome State Fault Refusal :=
  .next (s.atIsland 2 (runDesc 0x40 startBarrier d))

/-- TABLE_INSTALL (R149). -/
def execTableInstall (d : Desc) (s : State) : Host.Outcome State Fault Refusal :=
  .next (s.atIsland 2 (runDesc 0x41 startTableInstall d))

/-- FENCE (R235). -/
def execFence (d : Desc) (s : State) : Host.Outcome State Fault Refusal :=
  .next (s.atIsland 2 (runDesc 0x42 startFence d))

/-- COUNTER_ADD (R240). -/
def execCounterAdd (d : Desc) (s : State) : Host.Outcome State Fault Refusal :=
  .next (s.atIsland 2 (runDesc 0x43 startCounterAdd d))

/-- RELAY (R195). -/
def execRelay (d : Desc) (s : State) : Host.Outcome State Fault Refusal :=
  .next (s.atIsland 2 (runDesc 0x44 startRelay d))

end Sys2Proof.Machine
end

