-- ==== Sys2Proof/Machine/Diagnostics.lean ====
section
/-! DEFINITION. Self-tests, lane tests and boundary scan. -/

namespace Sys2Proof.Machine

/-- PORT_TCLEAR (R399). -/
def execPortTclear (port : BitVec 5) (v : Word) (s : State) : Host.Outcome State Fault Refusal :=
  .next (s.atRegPage (0x40 + port.toNat) 0x64C v (portTclr port v))

/-- TEST_CLEAR (R404). -/
def execTestClear (v : Word) (s : State) : Host.Outcome State Fault Refusal :=
  .next (s.atPage 0x7C (Machine.testClear v))

/-- SRAM_SELF_TEST (R401). -/
def execSramSelfTest (v : Word) (s : State) : Host.Outcome State Fault Refusal :=
  .next (s.atPage 0x7C (testControl v))

/-- KNOWN_ANSWER_TEST (R402). -/
def execKnownAnswerTest (v : Word) (s : State) : Host.Outcome State Fault Refusal :=
  .next (s.atPage 0x7C (testControl v))

/-- TEST_ABORT (R403). -/
def execTestAbort (v : Word) (s : State) : Host.Outcome State Fault Refusal :=
  .next (s.atPage 0x7C (testControl v))

/-- TEST_DONE (R404). -/
def execTestDone (r : TestResult) (s : State) : Host.Outcome State Fault Refusal :=
  .next (s.atIsland 0 (Machine.testDone r))

/-- LANE_TEST_CONFIG (R394). -/
def execLaneTestConfig (port : BitVec 5) (lane : BitVec 3) (v : Word) (s : State) :
    Host.Outcome State Fault Refusal :=
  .next (s.atRegPage (0x40 + port.toNat) (0x400 + 0x40 * lane.toNat) v (laneControl port lane v))

/-- INJECT (R395). -/
def execInject (port : BitVec 5) (lane : BitVec 3) (v : Word) (s : State) : Host.Outcome State Fault Refusal :=
  .next (s.atRegPage (0x40 + port.toNat) (0x400 + 0x40 * lane.toNat) v (laneControl port lane v))

/-- PRBS_LOCK (R395). -/
def execPrbsLock (port : BitVec 5) (lane : BitVec 3) (s : State) : Host.Outcome State Fault Refusal :=
  .next (s.atHalf (2 * port.toNat) (Machine.prbsLock port lane))

/-- PRBS_UNLOCK (R395). -/
def execPrbsUnlock (port : BitVec 5) (lane : BitVec 3) (bits errs : DWord) (s : State) :
    Host.Outcome State Fault Refusal :=
  .next (s.atHalf (2 * port.toNat) (Machine.prbsUnlock port lane bits errs))

/-- EYE_START (R397). -/
def execEyeStart (port : BitVec 5) (lane : BitVec 3) (v : Word) (s : State) : Host.Outcome State Fault Refusal :=
  .next (s.atRegPage (0x40 + port.toNat) (0x400 + 0x40 * lane.toNat) v (laneControl port lane v))

/-- EYE_DONE (R397). -/
def execEyeDone (port : BitVec 5) (lane : BitVec 3) (height width : BitVec 16) (s : State) :
    Host.Outcome State Fault Refusal :=
  .next (s.atHalf (2 * port.toNat) (Machine.eyeDone port lane height width))

/-- BYPASS (R392). -/
def execBypass (s : State) : Host.Outcome State Fault Refusal :=
  .next (scanBypass s)

/-- SAMPLE_PRELOAD (R392). -/
def execSamplePreload (pins : List Bool) (s : State) : Host.Outcome State Fault Refusal :=
  .next (scanSample pins s)

/-- EXTEST (R393). -/
def execExtest (drive pins : List Bool) (s : State) : Host.Outcome State Fault Refusal :=
  .next (scanTest .extest drive pins s)

/-- EXTEST_PULSE (R393). -/
def execExtestPulse (drive pins : List Bool) (s : State) : Host.Outcome State Fault Refusal :=
  .next (scanTest .pulse drive pins s)

/-- EXTEST_TRAIN (R393). -/
def execExtestTrain (drive pins : List Bool) (s : State) : Host.Outcome State Fault Refusal :=
  .next (scanTest .train drive pins s)

end Sys2Proof.Machine
end

