-- ==== Sys2Proof/Machine/Links.lean ====
section
/-! DEFINITION. Frames and link words, bring-up, and the Deck's registers. -/

namespace Sys2Proof.Machine

/-- FRAME_RECEIVE (R295). -/
def execFrameReceive (h : BitVec 6) (frame : RxFrame) (s : State) : Host.Outcome State Fault Refusal :=
  .next (s.atHalf h.toNat (Machine.frameReceive h frame))

/-- PAUSE (R285). -/
def execPause (h : BitVec 6) (xoff : Byte) (s : State) : Host.Outcome State Fault Refusal :=
  .next (s.atHalf h.toNat (pauseAt h xoff))

/-- PAUSE_REFRESH (R285). -/
def execPauseRefresh (h : BitVec 6) (s : State) : Host.Outcome State Fault Refusal :=
  .next (s.atHalf h.toNat (Machine.pauseRefresh h))

/-- LANE_ID (R289). -/
def execLaneId (h : BitVec 6) (lane : BitVec 3) (id : Byte) (inverted : Bool) (s : State) :
    Host.Outcome State Fault Refusal :=
  .next (s.atHalf h.toNat (Machine.laneId h lane id inverted))

/-- CAP (R290). -/
def execCap (h : BitVec 6) (w : CapWord) (s : State) : Host.Outcome State Fault Refusal :=
  .next (s.atHalf h.toNat (capAt h w))

/-- IDENT (R291). -/
def execIdent (h : BitVec 6) (port : BitVec 5) (half : Bool) (node : BitVec 20) (s : State) :
    Host.Outcome State Fault Refusal :=
  .next (s.atHalf h.toNat (identAt h port half node))

/-- LINK_SIGNAL_LOSS (R287). -/
def execLinkSignalLoss (h : BitVec 6) (s : State) : Host.Outcome State Fault Refusal :=
  .next (s.atHalf h.toNat (Machine.linkSignalLoss h))

/-- TRAIN_TIMEOUT (R287). -/
def execTrainTimeout (h : BitVec 6) (s : State) : Host.Outcome State Fault Refusal :=
  .next (s.atHalf h.toNat (Machine.trainTimeout h))

/-- DETECT_RETRY (R287). -/
def execDetectRetry (h : BitVec 6) (openLanes shortLanes : Byte) (s : State) : Host.Outcome State Fault Refusal :=
  .next (s.atHalf h.toNat (Machine.detectRetry h openLanes shortLanes))

/-- LINK_UP (R287). -/
def execLinkUp (h : BitVec 6) (failedLanes : Byte) (s : State) : Host.Outcome State Fault Refusal :=
  .next (s.atHalf h.toNat (Machine.linkUp h failedLanes))

/-- LANE_DEGRADED (R292). -/
def execLaneDegraded (port : BitVec 5) (lane : BitVec 3) (s : State) : Host.Outcome State Fault Refusal :=
  .next (s.atHalf (2 * port.toNat) (Machine.laneDegraded port lane))

/-- PORT_RETRAIN (R288). -/
def execPortRetrain (port : BitVec 5) (v : Word) (s : State) : Host.Outcome State Fault Refusal :=
  .next (s.atRegPage (0x40 + port.toNat) 0x44 v (Machine.portRetrain port v))

/-- PORT_EXP_WRITE (R291). -/
def execPortExpWrite (port : BitVec 5) (half : Bool) (v : Word) (s : State) : Host.Outcome State Fault Refusal :=
  .next (s.atRegPage (0x40 + port.toNat) (0x54 + 4 * b2n half) v (Machine.portExpWrite port half v))

/-- DECK_CTRL_EN (R298). -/
def execDeckCtrlEn (v : Word) (s : State) : Host.Outcome State Fault Refusal :=
  .next (s.atPage 0x60 (deckControl v))

/-- ROUTE_ENTRY_WRITE (R380). -/
def execRouteEntryWrite (dst : BitVec 16) (v : Word) (s : State) : Host.Outcome State Fault Refusal :=
  .next (s.atPage 0xF60 (routeCommit dst v))

/-- PORT_CLEAR (R309). -/
def execPortClear (port : BitVec 5) (v : Word) (s : State) : Host.Outcome State Fault Refusal :=
  .next (s.atRegPage (0x40 + port.toNat) 0xB8 v (Machine.portClear port.toNat v))

/-- DECK_CLEAR (R310). -/
def execDeckClear (v : Word) (s : State) : Host.Outcome State Fault Refusal :=
  .next (s.atPage 0x60 (deckControl v))

/-- LANE_SHORT (R393). -/
def execLaneShort (port : BitVec 5) (lane : BitVec 3) (s : State) : Host.Outcome State Fault Refusal :=
  .next (s.atHalf (2 * port.toNat) (Machine.laneShort port lane))

end Sys2Proof.Machine
end

