-- ==== Sys2Proof/Machine/Packets.lean ====
section
/-! DEFINITION. The packets that reach the transport (R255, R259) and the notices they carry (R186, R150). -/

namespace Sys2Proof.Machine

/-- WRITE_PACKET (R259). -/
def execWritePacket (p : Packet) (s : State) : Host.Outcome State Fault Refusal :=
  .next (s.atIsland 4 (receiveAs 0x01 p))

/-- READ_REQ (R259). -/
def execReadReq (p : Packet) (s : State) : Host.Outcome State Fault Refusal :=
  .next (s.atIsland 4 (receiveAs 0x02 p))

/-- READ_RESP (R263). -/
def execReadResp (p : Packet) (s : State) : Host.Outcome State Fault Refusal :=
  .next (s.atIsland 4 (receiveAs 0x03 p))

/-- SEND_PACKET (R195). -/
def execSendPacket (p : Packet) (s : State) : Host.Outcome State Fault Refusal :=
  .next (s.atIsland 4 (receiveAs 0x04 p))

/-- CONTRIB (R181). -/
def execContrib (p : Packet) (s : State) : Host.Outcome State Fault Refusal :=
  .next (s.atIsland 4 (receiveAs 0x05 p))

/-- ATOMIC_MAX_REQ (R207). -/
def execAtomicMaxReq (p : Packet) (s : State) : Host.Outcome State Fault Refusal :=
  .next (s.atIsland 4 (receiveAs 0x06 p))

/-- COUNTER_ADD_REQ (R240). -/
def execCounterAddReq (p : Packet) (s : State) : Host.Outcome State Fault Refusal :=
  .next (s.atIsland 4 (receiveAs 0x07 p))

/-- FLUSH_REQ (R264). -/
def execFlushReq (p : Packet) (s : State) : Host.Outcome State Fault Refusal :=
  .next (s.atIsland 4 (receiveAs 0x08 p))

/-- CTRL (R275). -/
def execCtrl (p : Packet) (s : State) : Host.Outcome State Fault Refusal :=
  .next (s.atIsland 4 (receiveAs 0x11 p))

/-- RESP (R260). -/
def execResp (p : Packet) (s : State) : Host.Outcome State Fault Refusal :=
  .next (s.atIsland 4 (receiveAs 0x12 p))

/-- ACK (R267). -/
def execAck (p : Packet) (s : State) : Host.Outcome State Fault Refusal :=
  .next (s.atIsland 4 (receiveAs 0x20 p))

/-- NAK (R267). -/
def execNak (p : Packet) (s : State) : Host.Outcome State Fault Refusal :=
  .next (s.atIsland 4 (receiveAs 0x21 p))

/-- HELLO (R251). -/
def execHello (p : Packet) (s : State) : Host.Outcome State Fault Refusal :=
  .next (s.atIsland 4 (receiveAs 0x22 p))

/-- RECEIPT (R188). -/
def execReceipt (p : Packet) (s : State) : Host.Outcome State Fault Refusal :=
  .next (s.atIsland 4 (receiveAs 0x10 p))

/-- LATE (R188). -/
def execLate (p : Packet) (s : State) : Host.Outcome State Fault Refusal :=
  .next (s.atIsland 4 (receiveAs 0x10 p))

/-- REJECT_SPAN (R188). -/
def execRejectSpan (p : Packet) (s : State) : Host.Outcome State Fault Refusal :=
  .next (s.atIsland 4 (receiveAs 0x10 p))

/-- REJECT_BLOCK (R188). -/
def execRejectBlock (p : Packet) (s : State) : Host.Outcome State Fault Refusal :=
  .next (s.atIsland 4 (receiveAs 0x10 p))

/-- SKIP (R185). -/
def execSkip (p : Packet) (s : State) : Host.Outcome State Fault Refusal :=
  .next (s.atIsland 4 (receiveAs 0x10 p))

/-- TABLE_ACK (R151). -/
def execTableAck (p : Packet) (s : State) : Host.Outcome State Fault Refusal :=
  .next (s.atIsland 4 (receiveAs 0x10 p))

/-- TABLE_EPOCH (R152). -/
def execTableEpoch (p : Packet) (s : State) : Host.Outcome State Fault Refusal :=
  .next (s.atIsland 4 (receiveAs 0x10 p))

end Sys2Proof.Machine
end

