-- ==== Sys2Proof/Machine/Pages.lean ====
section
/-! DEFINITION. The common header, the Pier and Abutment controls, and any other access to the control window. -/

namespace Sys2Proof.Machine

/-- PIER_SEL_CLEAR (R94). -/
def execPierSelClear (pier : BitVec 5) (v : Word) (s : State) : Host.Outcome State Fault Refusal :=
  .next (s.atPage (0x10 + pier.toNat) (Machine.pierSelClear pier.toNat v))

/-- PIER_CMP_CLEAR (R120). -/
def execPierCmpClear (pier : BitVec 5) (v : Word) (s : State) : Host.Outcome State Fault Refusal :=
  .next (s.atPage (0x10 + pier.toNat) (Machine.pierCmpClear pier.toNat v))

/-- PIER_TBL_CLEAR (R167). -/
def execPierTblClear (pier : BitVec 5) (v : Word) (s : State) : Host.Outcome State Fault Refusal :=
  .next (s.atPage (0x10 + pier.toNat) (Machine.pierTblClear pier.toNat v))

/-- ABUT_CB_FLUSH (R202). -/
def execAbutCbFlush (abut : BitVec 3) (v : Word) (s : State) : Host.Outcome State Fault Refusal :=
  .next (s.atPage (0x68 + abut.toNat) (abutControl abut v))

/-- ABUT_CLEAR (R225). -/
def execAbutClear (abut : BitVec 3) (v : Word) (s : State) : Host.Outcome State Fault Refusal :=
  .next (s.atPage (0x68 + abut.toNat) (abutControl abut v))

/-- LOCK (R373). -/
def execLock (page : BitVec 12) (v : Word) (s : State) : Host.Outcome State Fault Refusal :=
  .next (s.atRegPage page.toNat 0x30 v (lockWrite page.toNat v))

/-- SOFT_RESET (R362). -/
def execSoftReset (page : BitVec 12) (v : Word) (s : State) : Host.Outcome State Fault Refusal :=
  .next (s.atRegPage page.toNat 0x0C v (ctrlWrite page.toNat v))

/-- ENABLE (R372). -/
def execEnable (page : BitVec 12) (v : Word) (s : State) : Host.Outcome State Fault Refusal :=
  .next (s.atRegPage page.toNat 0x0C v (ctrlWrite page.toNat v))

/-- HOLD (R372). -/
def execHold (page : BitVec 12) (v : Word) (s : State) : Host.Outcome State Fault Refusal :=
  .next (s.atRegPage page.toNat 0x0C v (ctrlWrite page.toNat v))

/-- IRQ_STAT_CLEAR (R374). -/
def execIrqStatClear (page : BitVec 12) (v : Word) (s : State) : Host.Outcome State Fault Refusal :=
  .next (s.atRegPage page.toNat 0x14 v (Machine.irqStatClear page.toNat v))

/-- IRQ_EN_WRITE (R374). -/
def execIrqEnWrite (page : BitVec 12) (v : Word) (s : State) : Host.Outcome State Fault Refusal :=
  .next (s.atRegPage page.toNat 0x18 v (Machine.irqEnWrite page.toNat v))

/-- IRQ_SET (R370). -/
def execIrqSet (page : BitVec 12) (v : Word) (s : State) : Host.Outcome State Fault Refusal :=
  .next (s.atRegPage page.toNat 0x1C v (Machine.irqSet page.toNat v))

/-- TOP_VEC_MASK (R374). -/
def execTopVecMask (hi : Bool) (v : Word) (s : State) : Host.Outcome State Fault Refusal :=
  .next (s.atPage 0 (vecMask hi v))

/-- ERR_FIRST_CLEAR (R370). -/
def execErrFirstClear (page : BitVec 12) (v : Word) (s : State) : Host.Outcome State Fault Refusal :=
  .next (s.atRegPage page.toNat 0x20 v (Machine.errFirstClear page.toNat v))

/-- ERR_CNT_CLEAR (R370). -/
def execErrCntClear (page : BitVec 12) (uncorrected : Bool) (v : Word) (s : State) :
    Host.Outcome State Fault Refusal :=
  .next (s.atRegPage page.toNat (0x28 + 4 * b2n uncorrected) v (Machine.errCntClear page.toNat uncorrected v))

/-- LO_READ (R15). -/
def execLoRead (r : ReadAccess) (s : State) : Host.Outcome State Fault Refusal :=
  .next (controlRead r.addr r.bytes s)

/-- ACCESS_REFUSED (R369). -/
def execAccessRefused (addr : BitVec 24) (s : State) : Host.Outcome State Fault Refusal :=
  .next (s.atPage 0 (Machine.accessRefused addr))

/-- POISONED_WINDOW_READ (R381). -/
def execPoisonedWindowRead (r : ReadAccess) (s : State) : Host.Outcome State Fault Refusal :=
  .next (controlRead r.addr r.bytes s)

/-- WINDOW_WRITE (R380). -/
def execWindowWrite (addr : BitVec 24) (v : Word) (s : State) : Host.Outcome State Fault Refusal :=
  .next (controlWrite addr v s)

/-- REGISTER_WRITE (R16). -/
def execRegisterWrite (addr : BitVec 24) (v : Word) (s : State) : Host.Outcome State Fault Refusal :=
  .next (controlWrite addr v s)

end Sys2Proof.Machine
end

