-- ==== Sys2Proof/Machine/Queues.lean ====
section
/-! DEFINITION. The queue manager, the table slots, the statistics and the seeds. -/

namespace Sys2Proof.Machine

/-- INSTANCE_OPEN (R172). -/
def execInstanceOpen (group : BitVec 12) (channel : BitVec 16) (seq : Word) (s : State) :
    Host.Outcome State Fault Refusal :=
  .next (s.atIsland 2 (Machine.instanceOpen group channel seq))

/-- DESCRIPTOR_READ (R230). -/
def execDescriptorRead (ring : BitVec 12) (s : State) : Host.Outcome State Fault Refusal :=
  .next (s.atIsland 2 (readDescriptor ring))

/-- QMGR_RING_DB (R227). -/
def execQmgrRingDb (v : Word) (s : State) : Host.Outcome State Fault Refusal :=
  .next (s.atPage 7 (ringDoorbell v))

/-- QMGR_CQ_DB (R242). -/
def execQmgrCqDb (v : Word) (s : State) : Host.Outcome State Fault Refusal :=
  .next (s.atPage 7 (cqDoorbell v))

/-- QMGR_SPAN_SHARE (R247). -/
def execQmgrSpanShare (v : Word) (s : State) : Host.Outcome State Fault Refusal :=
  .next (s.atPage 7 (spanShare v))

/-- QMGR_PP_CANCEL (R239). -/
def execQmgrPpCancel (v : Word) (s : State) : Host.Outcome State Fault Refusal :=
  .next (s.atPage 7 (ppCancel v))

/-- RETAINED_ROOM (R29). -/
def execRetainedRoom (s : State) : Host.Outcome State Fault Refusal :=
  .next (s.atIsland 2 retryRetained)

/-- DEADLINE (R185). -/
def execDeadline (group : BitVec 12) (channel : BitVec 16) (seq : Word) (s : State) :
    Host.Outcome State Fault Refusal :=
  .next (s.atIsland 2 (deadlineReached group channel seq))

/-- SLOT_FREED (R144). -/
def execSlotFreed (slot : BitVec 4) (s : State) : Host.Outcome State Fault Refusal :=
  .next (s.atIsland 2 (freeSlot slot))

/-- RNG_CTRL_COMMIT (R61). -/
def execRngCtrlCommit (v : Word) (s : State) : Host.Outcome State Fault Refusal :=
  .next (s.atPage 4 (rngControl v))

/-- RNG_TEST (R63). -/
def execRngTest (v : Word) (s : State) : Host.Outcome State Fault Refusal :=
  .next (s.atPage 4 (Machine.rngTest v))

/-- STAT_SEL (R117). -/
def execStatSel (v : Word) (s : State) : Host.Outcome State Fault Refusal :=
  .next (s.atPage 8 (selectStat v))

/-- STAT_CLEAR_SLOT (R117). -/
def execStatClearSlot (v : Word) (s : State) : Host.Outcome State Fault Refusal :=
  .next (s.atPage 8 (clearStat v))

/-- STAT_CLEAR_ALL (R117). -/
def execStatClearAll (v : Word) (s : State) : Host.Outcome State Fault Refusal :=
  .next (s.atPage 8 (clearStat v))

/-- TBL_LOG_CLEAR (R166). -/
def execTblLogClear (v : Word) (s : State) : Host.Outcome State Fault Refusal :=
  .next (s.atPage 5 (clearTblLog v))

/-- QMGR_CLEAR (R246). -/
def execQmgrClear (v : Word) (s : State) : Host.Outcome State Fault Refusal :=
  .next (s.atPage 7 (qmgrClearCounters v))

/-- RING_ENABLE (R227). -/
def execRingEnable (ring : BitVec 12) (v : Word) (s : State) : Host.Outcome State Fault Refusal :=
  .next (s.atPage 0xF50 (ringWord ring v))

/-- RING_DISABLE (R227). -/
def execRingDisable (ring : BitVec 12) (v : Word) (s : State) : Host.Outcome State Fault Refusal :=
  .next (s.atPage 0xF50 (ringWord ring v))

/-- CQ_ENABLE (R241). -/
def execCqEnable (cq : BitVec 12) (v : Word) (s : State) : Host.Outcome State Fault Refusal :=
  .next (s.atPage 0xF00 (cqWord cq v))

/-- COUNTER_VALUE_WRITE (R237). -/
def execCounterValueWrite (ctr : BitVec 16) (v : Word) (s : State) : Host.Outcome State Fault Refusal :=
  .next (s.atPage 0xD00 (counterWrite ctr v))

end Sys2Proof.Machine
end

