-- ==== Sys2Proof/Machine/Recovery.lean ====
section
/-! DEFINITION. Heartbeats, discovery, Caisson arming, the announcement and the mailbox. -/

namespace Sys2Proof.Machine

/-- HEARTBEAT (R333). -/
def execHeartbeat (src : BitVec 20) (hb : Heartbeat) (s : State) : Host.Outcome State Fault Refusal :=
  .next (s.atIsland 2 (Machine.heartbeat src hb))

/-- HEARTBEAT_PERIOD (R332). -/
def execHeartbeatPeriod (s : State) : Host.Outcome State Fault Refusal :=
  .next (s.atIsland 2 Machine.heartbeatPeriod)

/-- HEARTBEAT_MISS (R333). -/
def execHeartbeatMiss (entry : BitVec 6) (s : State) : Host.Outcome State Fault Refusal :=
  .next (s.atIsland 2 (Machine.heartbeatMiss entry))

/-- GRACE_EXPIRY (R333). -/
def execGraceExpiry (entry : BitVec 6) (s : State) : Host.Outcome State Fault Refusal :=
  .next (s.atIsland 2 (Machine.graceExpiry entry))

/-- SNAP_WATCH_WRITE (R333). -/
def execSnapWatchWrite (entry : BitVec 6) (v : Word) (s : State) : Host.Outcome State Fault Refusal :=
  .next (s.atPage 6 (Machine.snapWatchWrite entry v))

/-- DECLARE_NODE_LOST (R334). -/
def execDeclareNodeLost (node : BitVec 20) (s : State) : Host.Outcome State Fault Refusal :=
  .next (s.atIsland 2 (declareLostRow node))

/-- FIRMWARE (R334). -/
def execFirmware (src : BitVec 20) (lost : Option (BitVec 20)) (s : State) : Host.Outcome State Fault Refusal :=
  .next (s.atIsland 2 (firmwareAt src lost))

/-- DISCOVER (R313). -/
def execDiscover (src : BitVec 20) (m : DiscoverMsg) (s : State) : Host.Outcome State Fault Refusal :=
  .next (s.atIsland 2 (Machine.discover src m))

/-- DISCOVER_REPEAT (R314). -/
def execDiscoverRepeat (entry : Bool) (s : State) : Host.Outcome State Fault Refusal :=
  .next (s.atIsland 2 fun s => s.duty (.discoverRepeat entry) (Machine.discoverRepeat entry))

/-- CAISSON_ARM (R314). -/
def execCaissonArm (entry : Bool) (v : Word) (s : State) : Host.Outcome State Fault Refusal :=
  .next (s.atPage 6 (armControl entry v))

/-- CAISSON_DISARM (R314). -/
def execCaissonDisarm (entry : Bool) (v : Word) (s : State) : Host.Outcome State Fault Refusal :=
  .next (s.atPage 6 (armControl entry v))

/-- KEYSTONE_ANNOUNCE (R377). -/
def execKeystoneAnnounce (s : State) : Host.Outcome State Fault Refusal :=
  .next (s.atIsland 1 Machine.keystoneAnnounce)

/-- PING (R378). -/
def execPing (v : Word) (s : State) : Host.Outcome State Fault Refusal :=
  .next (s.atPage 1 (mailbox v))

/-- VERSION (R378). -/
def execVersion (v : Word) (s : State) : Host.Outcome State Fault Refusal :=
  .next (s.atPage 1 (mailbox v))

/-- DECLARE_LOST (R378). -/
def execDeclareLost (v : Word) (s : State) : Host.Outcome State Fault Refusal :=
  .next (s.atPage 1 (mailbox v))

/-- ROUTE_CLEAR (R378). -/
def execRouteClear (v : Word) (s : State) : Host.Outcome State Fault Refusal :=
  .next (s.atPage 1 (mailbox v))

/-- TIME_REPARENT (R378). -/
def execTimeReparent (v : Word) (s : State) : Host.Outcome State Fault Refusal :=
  .next (s.atPage 1 (mailbox v))

/-- SNAP_CLEAR (R341). -/
def execSnapClear (v : Word) (s : State) : Host.Outcome State Fault Refusal :=
  .next (s.atPage 6 (Machine.snapClear v))

end Sys2Proof.Machine
end

