-- ==== Sys2Proof/Machine/Supplies.lean ====
section
/-! DEFINITION. Power, clocks, temperature, resets and start-up. -/

namespace Sys2Proof.Machine

/-- PWR_CLEAR (R365). -/
def execPwrClear (v : Word) (s : State) : Host.Outcome State Fault Refusal :=
  .next (s.atPage 2 (Machine.pwrClear v))

/-- PWR_LOG_CLEAR (R365). -/
def execPwrLogClear (v : Word) (s : State) : Host.Outcome State Fault Refusal :=
  .next (s.atPage 2 (Machine.pwrClear v))

/-- TRIP_CLEAR (R354). -/
def execTripClear (v : Word) (s : State) : Host.Outcome State Fault Refusal :=
  .next (s.atPage 2 (pwrControl v))

/-- WARM_RESET (R362). -/
def execWarmReset (v : Word) (s : State) : Host.Outcome State Fault Refusal :=
  .next (s.atPage 2 (pwrControl v))

/-- KSTN_RESET (R362). -/
def execKstnReset (v : Word) (s : State) : Host.Outcome State Fault Refusal :=
  .next (s.atPage 2 (pwrControl v))

/-- PWR_ISL_OPP (R351). -/
def execPwrIslOpp (v : Word) (s : State) : Host.Outcome State Fault Refusal :=
  .next (s.atPage 2 (Machine.pwrIslOpp v))

/-- DVFS_DONE (R352). -/
def execDvfsDone (island : BitVec 7) (s : State) : Host.Outcome State Fault Refusal :=
  .next (s.atIsland 0 (Machine.dvfsDone island))

/-- BOOT_LOAD (R360). -/
def execBootLoad (v : Word) (s : State) : Host.Outcome State Fault Refusal :=
  .next (s.atPage 2 (bootControl v))

/-- BOOT_LOAD_DATA (R360). -/
def execBootLoadData (v : Word) (s : State) : Host.Outcome State Fault Refusal :=
  .next (s.atPage 2 (Machine.bootLoadData v))

/-- BOOT_GO (R361). -/
def execBootGo (v : Word) (s : State) : Host.Outcome State Fault Refusal :=
  .next (s.atPage 2 (bootControl v))

/-- BOOT_SELFTEST_DONE (R358). -/
def execBootSelftestDone (r : SelfTestReport) (s : State) : Host.Outcome State Fault Refusal :=
  .next (s.atIsland 0 (Machine.bootSelftestDone r))

/-- ISLAND_START (R356). -/
def execIslandStart (s : State) : Host.Outcome State Fault Refusal :=
  .next (s.atIsland 0 Machine.islandStart)

/-- COLD_RESET (R343). -/
def execColdReset (s : State) : Host.Outcome State Fault Refusal :=
  .next (s.coldReset)

/-- SUPPLY_LOSS (R343). -/
def execSupplyLoss (vdda : Bool) (s : State) : Host.Outcome State Fault Refusal :=
  .next (supplyLost vdda s)

/-- VDIP (R347). -/
def execVdip (island : BitVec 7) (vddh : Bool) (mv : BitVec 16) (s : State) : Host.Outcome State Fault Refusal :=
  .next (s.atIsland 0 (Machine.vdip island vddh mv))

/-- VDIP_RECOVER (R347). -/
def execVdipRecover (island : BitVec 7) (vddh : Bool) (mv : BitVec 16) (s : State) :
    Host.Outcome State Fault Refusal :=
  .next (s.atIsland 0 (Machine.vdipRecover island vddh mv))

/-- VRESET (R348). -/
def execVreset (island : BitVec 7) (vddh : Bool) (mv : BitVec 16) (s : State) : Host.Outcome State Fault Refusal :=
  .next (s.atIsland 0 (Machine.vreset island vddh mv))

/-- ISLAND_RESET_RELEASE (R348). -/
def execIslandResetRelease (island : BitVec 7) (s : State) : Host.Outcome State Fault Refusal :=
  .next (s.atIsland 0 (Machine.islandResetRelease island))

/-- VDDA_DIP (R349). -/
def execVddaDip (g : BitVec 3) (mv : BitVec 16) (s : State) : Host.Outcome State Fault Refusal :=
  .next (s.atIsland 0 (Machine.vddaDip g mv))

/-- VDDA_RESET (R349). -/
def execVddaReset (g : BitVec 3) (mv : BitVec 16) (s : State) : Host.Outcome State Fault Refusal :=
  .next (s.atIsland 0 (Machine.vddaReset g mv))

/-- VDDA_RECOVER (R349). -/
def execVddaRecover (g : BitVec 3) (s : State) : Host.Outcome State Fault Refusal :=
  .next (s.atIsland 0 (Machine.vddaRecover g))

/-- SHORT (R350). -/
def execShort (island : BitVec 7) (s : State) : Host.Outcome State Fault Refusal :=
  .next (s.atIsland 0 (shortAt island))

/-- THROTTLE (R353). -/
def execThrottle (sensor : BitVec 4) (temp : BitVec 16) (s : State) : Host.Outcome State Fault Refusal :=
  .next (s.atIsland 0 (Machine.throttle sensor temp))

/-- THROTTLE_LIFT (R353). -/
def execThrottleLift (sensor : BitVec 4) (temp : BitVec 16) (s : State) : Host.Outcome State Fault Refusal :=
  .next (s.atIsland 0 (Machine.throttleLift sensor temp))

/-- TRIP (R354). -/
def execTrip (sensor : BitVec 4) (temp : BitVec 16) (s : State) : Host.Outcome State Fault Refusal :=
  .next (s.atIsland 0 (Machine.trip sensor temp))

/-- REFCLK (R355). -/
def execRefclk (s : State) : Host.Outcome State Fault Refusal :=
  .next (s.atIsland 0 Machine.refclk)

/-- REFCLK_RETURN (R355). -/
def execRefclkReturn (s : State) : Host.Outcome State Fault Refusal :=
  .next (s.atIsland 0 Machine.refclkReturn)

/-- PORT_REFCLK_LOSS (R355). -/
def execPortRefclkLoss (g : BitVec 3) (s : State) : Host.Outcome State Fault Refusal :=
  .next (s.atIsland 0 (Machine.portRefclkLoss g))

/-- PORT_REFCLK_RETURN (R355). -/
def execPortRefclkReturn (g : BitVec 3) (s : State) : Host.Outcome State Fault Refusal :=
  .next (s.atIsland 0 (Machine.portRefclkReturn g))

/-- WDOG (R363). -/
def execWdog (s : State) : Host.Outcome State Fault Refusal :=
  .next (s.atIsland 0 Machine.wdog)

/-- WDOG_RESTART (R363). -/
def execWdogRestart (s : State) : Host.Outcome State Fault Refusal :=
  .next (s.atIsland 1 Machine.wdogRestart)

/-- SUPPLIES_QUALIFIED (R343). -/
def execSuppliesQualified (s : State) : Host.Outcome State Fault Refusal :=
  .next (s.atIsland 0 Machine.suppliesQualified)

/-- DIE_TO_DIE_FABRIC_UP (R356). -/
def execDieToDieFabricUp (s : State) : Host.Outcome State Fault Refusal :=
  .next (s.atIsland 0 Machine.dieToDieFabricUp)

end Sys2Proof.Machine
end

