-- ==== Sys2Proof/Machine/Timebase.lean ====
section
/-! DEFINITION. The timebase and the barriers. -/

namespace Sys2Proof.Machine

/-- TSYNC_REQ (R304). -/
def execTsyncReq (h : BitVec 6) (seq : BitVec 16) (t1 t2 t3 : DWord) (s : State) : Host.Outcome State Fault Refusal :=
  .next (s.atIsland 0 (Machine.tsyncReq h seq t1 t2 t3))

/-- TSYNC_T2 (R304). -/
def execTsyncT2 (h : BitVec 6) (locked : Bool) (seq : BitVec 16) (t2 : DWord) (s : State) :
    Host.Outcome State Fault Refusal :=
  .next (s.atIsland 0 (Machine.tsyncT2 h locked seq t2))

/-- TSYNC_T3 (R305). -/
def execTsyncT3 (h : BitVec 6) (seq : BitVec 16) (t3 t4 : DWord) (s : State) : Host.Outcome State Fault Refusal :=
  .next (s.atIsland 0 (Machine.tsyncT3 h seq t3 t4))

/-- TIME_INTERVAL_EXPIRY (R304). -/
def execTimeIntervalExpiry (t1 : DWord) (s : State) : Host.Outcome State Fault Refusal :=
  .next (s.atIsland 0 (Machine.timeIntervalExpiry t1))

/-- HOLDOVER (R305). -/
def execHoldover (s : State) : Host.Outcome State Fault Refusal :=
  .next (s.atIsland 0 Machine.holdover)

/-- TIME_CTRL_SET (R305). -/
def execTimeCtrlSet (v : Word) (s : State) : Host.Outcome State Fault Refusal :=
  .next (s.atPage 3 (Machine.timeCtrlSet v))

/-- BAR_ARRIVE (R307). -/
def execBarArrive (src : BitVec 20) (group : BitVec 12) (channel : BitVec 16) (rank : BitVec 16) (seq : Word) (s : State) :
    Host.Outcome State Fault Refusal :=
  .next (s.atIsland 2 (Machine.barArrive src group channel rank seq))

/-- BAR_RELEASE (R307). -/
def execBarRelease (src : BitVec 20) (group : BitVec 12) (channel : BitVec 16) (seq : Word) (t : DWord) (s : State) :
    Host.Outcome State Fault Refusal :=
  .next (s.atIsland 2 (barReleaseAt src group channel seq t))

/-- RELEASE_TIME_REACHED (R308). -/
def execReleaseTimeReached (group : BitVec 12) (channel : BitVec 16) (seq : Word) (s : State) :
    Host.Outcome State Fault Refusal :=
  .next (s.atIsland 2 (Machine.releaseTimeReached group channel seq))

/-- BAR_RESEND (R307). -/
def execBarResend (group : BitVec 12) (channel : BitVec 16) (seq : Word) (s : State) :
    Host.Outcome State Fault Refusal :=
  .next (s.atIsland 2 (Machine.barResend group channel seq))

/-- BAR_KEEP_EXPIRY (R307). -/
def execBarKeepExpiry (group : BitVec 12) (channel : BitVec 16) (seq : Word) (s : State) :
    Host.Outcome State Fault Refusal :=
  .next (s.atIsland 2 (Machine.barKeepExpiry group channel seq))

/-- TIME_CLEAR (R311). -/
def execTimeClear (v : Word) (s : State) : Host.Outcome State Fault Refusal :=
  .next (s.atPage 3 (Machine.timeClear v))

end Sys2Proof.Machine
end

