-- ==== Sys2Proof/Machine/Dispatch.lean ====
section
/-! DEFINITION. The meaning of each command: one arm for each constructor of Instr. -/

namespace Sys2Proof.Machine

/-- The effect of a command on everything but the queue. -/
def exec (i : Instr) (s : State) : Host.Outcome State Fault Refusal :=
  match i with
  | .nop d => Sys2Proof.Machine.execNop d s
  | .compress d => Sys2Proof.Machine.execCompress d s
  | .stats d => Sys2Proof.Machine.execStats d s
  | .select d => Sys2Proof.Machine.execSelect d s
  | .merge d => Sys2Proof.Machine.execMerge d s
  | .expand d => Sys2Proof.Machine.execExpand d s
  | .actSave d => Sys2Proof.Machine.execActSave d s
  | .actLoad d => Sys2Proof.Machine.execActLoad d s
  | .write d => Sys2Proof.Machine.execWrite d s
  | .read d => Sys2Proof.Machine.execRead d s
  | .send d => Sys2Proof.Machine.execSend d s
  | .accum d => Sys2Proof.Machine.execAccum d s
  | .accumSparse d => Sys2Proof.Machine.execAccumSparse d s
  | .instanceOpen group channel seq => Sys2Proof.Machine.execInstanceOpen group channel seq s
  | .flush d => Sys2Proof.Machine.execFlush d s
  | .atomicMax d => Sys2Proof.Machine.execAtomicMax d s
  | .rescale d => Sys2Proof.Machine.execRescale d s
  | .dot d => Sys2Proof.Machine.execDot d s
  | .update d => Sys2Proof.Machine.execUpdate d s
  | .residualReturn d => Sys2Proof.Machine.execResidualReturn d s
  | .snapshot d => Sys2Proof.Machine.execSnapshot d s
  | .restore d => Sys2Proof.Machine.execRestore d s
  | .logAppend d => Sys2Proof.Machine.execLogAppend d s
  | .snapshotExport d => Sys2Proof.Machine.execSnapshotExport d s
  | .barrier d => Sys2Proof.Machine.execBarrier d s
  | .tableInstall d => Sys2Proof.Machine.execTableInstall d s
  | .fence d => Sys2Proof.Machine.execFence d s
  | .counterAdd d => Sys2Proof.Machine.execCounterAdd d s
  | .relay d => Sys2Proof.Machine.execRelay d s
  | .descriptorRead ring => Sys2Proof.Machine.execDescriptorRead ring s
  | .qmgrRingDb v => Sys2Proof.Machine.execQmgrRingDb v s
  | .qmgrCqDb v => Sys2Proof.Machine.execQmgrCqDb v s
  | .qmgrSpanShare v => Sys2Proof.Machine.execQmgrSpanShare v s
  | .qmgrPpCancel v => Sys2Proof.Machine.execQmgrPpCancel v s
  | .retainedRoom => Sys2Proof.Machine.execRetainedRoom s
  | .stagingRoom conn => Sys2Proof.Machine.execStagingRoom conn s
  | .writePacket p => Sys2Proof.Machine.execWritePacket p s
  | .readReq p => Sys2Proof.Machine.execReadReq p s
  | .readResp p => Sys2Proof.Machine.execReadResp p s
  | .sendPacket p => Sys2Proof.Machine.execSendPacket p s
  | .contrib p => Sys2Proof.Machine.execContrib p s
  | .atomicMaxReq p => Sys2Proof.Machine.execAtomicMaxReq p s
  | .counterAddReq p => Sys2Proof.Machine.execCounterAddReq p s
  | .flushReq p => Sys2Proof.Machine.execFlushReq p s
  | .ctrl p => Sys2Proof.Machine.execCtrl p s
  | .resp p => Sys2Proof.Machine.execResp p s
  | .ack p => Sys2Proof.Machine.execAck p s
  | .nak p => Sys2Proof.Machine.execNak p s
  | .hello p => Sys2Proof.Machine.execHello p s
  | .receipt p => Sys2Proof.Machine.execReceipt p s
  | .late p => Sys2Proof.Machine.execLate p s
  | .rejectSpan p => Sys2Proof.Machine.execRejectSpan p s
  | .rejectBlock p => Sys2Proof.Machine.execRejectBlock p s
  | .skip p => Sys2Proof.Machine.execSkip p s
  | .tableAck p => Sys2Proof.Machine.execTableAck p s
  | .tableEpoch p => Sys2Proof.Machine.execTableEpoch p s
  | .retxTimer conn control => Sys2Proof.Machine.execRetxTimer conn control s
  | .reorderTimer conn control => Sys2Proof.Machine.execReorderTimer conn control s
  | .ackDelay conn control => Sys2Proof.Machine.execAckDelay conn control s
  | .rnrTimer conn control => Sys2Proof.Machine.execRnrTimer conn control s
  | .helloPeriod conn => Sys2Proof.Machine.execHelloPeriod conn s
  | .tollPeriod => Sys2Proof.Machine.execTollPeriod s
  | .rekeyDue conn => Sys2Proof.Machine.execRekeyDue conn s
  | .connEnable conn v => Sys2Proof.Machine.execConnEnable conn v s
  | .connDisable conn v => Sys2Proof.Machine.execConnDisable conn v s
  | .regionRegister region v => Sys2Proof.Machine.execRegionRegister region v s
  | .rmaRevoke v => Sys2Proof.Machine.execRmaRevoke v s
  | .revokeDone region => Sys2Proof.Machine.execRevokeDone region s
  | .rmaSrqDb v => Sys2Proof.Machine.execRmaSrqDb v s
  | .secKeyCommit v => Sys2Proof.Machine.execSecKeyCommit v s
  | .secKeyErase v => Sys2Proof.Machine.execSecKeyErase v s
  | .txSwitch v => Sys2Proof.Machine.execTxSwitch v s
  | .frameReceive h frame => Sys2Proof.Machine.execFrameReceive h frame s
  | .pause h xoff => Sys2Proof.Machine.execPause h xoff s
  | .pauseRefresh h => Sys2Proof.Machine.execPauseRefresh h s
  | .laneId h lane id inverted => Sys2Proof.Machine.execLaneId h lane id inverted s
  | .cap h w => Sys2Proof.Machine.execCap h w s
  | .ident h port half node => Sys2Proof.Machine.execIdent h port half node s
  | .tsyncReq h seq t1 t2 t3 => Sys2Proof.Machine.execTsyncReq h seq t1 t2 t3 s
  | .tsyncT2 h locked seq t2 => Sys2Proof.Machine.execTsyncT2 h locked seq t2 s
  | .tsyncT3 h seq t3 t4 => Sys2Proof.Machine.execTsyncT3 h seq t3 t4 s
  | .timeIntervalExpiry t1 => Sys2Proof.Machine.execTimeIntervalExpiry t1 s
  | .holdover => Sys2Proof.Machine.execHoldover s
  | .timeCtrlSet v => Sys2Proof.Machine.execTimeCtrlSet v s
  | .linkSignalLoss h => Sys2Proof.Machine.execLinkSignalLoss h s
  | .trainTimeout h => Sys2Proof.Machine.execTrainTimeout h s
  | .detectRetry h openLanes shortLanes => Sys2Proof.Machine.execDetectRetry h openLanes shortLanes s
  | .linkUp h failedLanes => Sys2Proof.Machine.execLinkUp h failedLanes s
  | .laneDegraded port lane => Sys2Proof.Machine.execLaneDegraded port lane s
  | .portRetrain port v => Sys2Proof.Machine.execPortRetrain port v s
  | .portExpWrite port half v => Sys2Proof.Machine.execPortExpWrite port half v s
  | .deckCtrlEn v => Sys2Proof.Machine.execDeckCtrlEn v s
  | .routeEntryWrite dst v => Sys2Proof.Machine.execRouteEntryWrite dst v s
  | .heartbeat src hb => Sys2Proof.Machine.execHeartbeat src hb s
  | .heartbeatPeriod => Sys2Proof.Machine.execHeartbeatPeriod s
  | .heartbeatMiss entry => Sys2Proof.Machine.execHeartbeatMiss entry s
  | .graceExpiry entry => Sys2Proof.Machine.execGraceExpiry entry s
  | .snapWatchWrite entry v => Sys2Proof.Machine.execSnapWatchWrite entry v s
  | .declareNodeLost node => Sys2Proof.Machine.execDeclareNodeLost node s
  | .firmware src lost => Sys2Proof.Machine.execFirmware src lost s
  | .discover src m => Sys2Proof.Machine.execDiscover src m s
  | .discoverRepeat entry => Sys2Proof.Machine.execDiscoverRepeat entry s
  | .caissonArm entry v => Sys2Proof.Machine.execCaissonArm entry v s
  | .caissonDisarm entry v => Sys2Proof.Machine.execCaissonDisarm entry v s
  | .barArrive src group channel rank seq => Sys2Proof.Machine.execBarArrive src group channel rank seq s
  | .barRelease src group channel seq t => Sys2Proof.Machine.execBarRelease src group channel seq t s
  | .releaseTimeReached group channel seq => Sys2Proof.Machine.execReleaseTimeReached group channel seq s
  | .barResend group channel seq => Sys2Proof.Machine.execBarResend group channel seq s
  | .barKeepExpiry group channel seq => Sys2Proof.Machine.execBarKeepExpiry group channel seq s
  | .deadline group channel seq => Sys2Proof.Machine.execDeadline group channel seq s
  | .slotFreed slot => Sys2Proof.Machine.execSlotFreed slot s
  | .keystoneAnnounce => Sys2Proof.Machine.execKeystoneAnnounce s
  | .ping v => Sys2Proof.Machine.execPing v s
  | .version v => Sys2Proof.Machine.execVersion v s
  | .declareLost v => Sys2Proof.Machine.execDeclareLost v s
  | .routeClear v => Sys2Proof.Machine.execRouteClear v s
  | .timeReparent v => Sys2Proof.Machine.execTimeReparent v s
  | .rngCtrlCommit v => Sys2Proof.Machine.execRngCtrlCommit v s
  | .rngTest v => Sys2Proof.Machine.execRngTest v s
  | .statSel v => Sys2Proof.Machine.execStatSel v s
  | .statClearSlot v => Sys2Proof.Machine.execStatClearSlot v s
  | .statClearAll v => Sys2Proof.Machine.execStatClearAll v s
  | .pierSelClear pier v => Sys2Proof.Machine.execPierSelClear pier v s
  | .pierCmpClear pier v => Sys2Proof.Machine.execPierCmpClear pier v s
  | .pierTblClear pier v => Sys2Proof.Machine.execPierTblClear pier v s
  | .tblLogClear v => Sys2Proof.Machine.execTblLogClear v s
  | .qmgrClear v => Sys2Proof.Machine.execQmgrClear v s
  | .abutCbFlush abut v => Sys2Proof.Machine.execAbutCbFlush abut v s
  | .abutClear abut v => Sys2Proof.Machine.execAbutClear abut v s
  | .rmaClear v => Sys2Proof.Machine.execRmaClear v s
  | .rmaLogClear v => Sys2Proof.Machine.execRmaLogClear v s
  | .portClear port v => Sys2Proof.Machine.execPortClear port v s
  | .portTclear port v => Sys2Proof.Machine.execPortTclear port v s
  | .deckClear v => Sys2Proof.Machine.execDeckClear v s
  | .timeClear v => Sys2Proof.Machine.execTimeClear v s
  | .snapClear v => Sys2Proof.Machine.execSnapClear v s
  | .pwrClear v => Sys2Proof.Machine.execPwrClear v s
  | .pwrLogClear v => Sys2Proof.Machine.execPwrLogClear v s
  | .testClear v => Sys2Proof.Machine.execTestClear v s
  | .tripClear v => Sys2Proof.Machine.execTripClear v s
  | .warmReset v => Sys2Proof.Machine.execWarmReset v s
  | .kstnReset v => Sys2Proof.Machine.execKstnReset v s
  | .pwrIslOpp v => Sys2Proof.Machine.execPwrIslOpp v s
  | .dvfsDone island => Sys2Proof.Machine.execDvfsDone island s
  | .bootLoad v => Sys2Proof.Machine.execBootLoad v s
  | .bootLoadData v => Sys2Proof.Machine.execBootLoadData v s
  | .bootGo v => Sys2Proof.Machine.execBootGo v s
  | .bootSelftestDone r => Sys2Proof.Machine.execBootSelftestDone r s
  | .islandStart => Sys2Proof.Machine.execIslandStart s
  | .sramSelfTest v => Sys2Proof.Machine.execSramSelfTest v s
  | .knownAnswerTest v => Sys2Proof.Machine.execKnownAnswerTest v s
  | .testAbort v => Sys2Proof.Machine.execTestAbort v s
  | .testDone r => Sys2Proof.Machine.execTestDone r s
  | .laneTestConfig port lane v => Sys2Proof.Machine.execLaneTestConfig port lane v s
  | .inject port lane v => Sys2Proof.Machine.execInject port lane v s
  | .prbsLock port lane => Sys2Proof.Machine.execPrbsLock port lane s
  | .prbsUnlock port lane bits errs => Sys2Proof.Machine.execPrbsUnlock port lane bits errs s
  | .eyeStart port lane v => Sys2Proof.Machine.execEyeStart port lane v s
  | .eyeDone port lane height width => Sys2Proof.Machine.execEyeDone port lane height width s
  | .bypass => Sys2Proof.Machine.execBypass s
  | .samplePreload pins => Sys2Proof.Machine.execSamplePreload pins s
  | .extest drive pins => Sys2Proof.Machine.execExtest drive pins s
  | .extestPulse drive pins => Sys2Proof.Machine.execExtestPulse drive pins s
  | .extestTrain drive pins => Sys2Proof.Machine.execExtestTrain drive pins s
  | .lock page v => Sys2Proof.Machine.execLock page v s
  | .softReset page v => Sys2Proof.Machine.execSoftReset page v s
  | .enable page v => Sys2Proof.Machine.execEnable page v s
  | .hold page v => Sys2Proof.Machine.execHold page v s
  | .irqStatClear page v => Sys2Proof.Machine.execIrqStatClear page v s
  | .irqEnWrite page v => Sys2Proof.Machine.execIrqEnWrite page v s
  | .irqSet page v => Sys2Proof.Machine.execIrqSet page v s
  | .topVecMask hi v => Sys2Proof.Machine.execTopVecMask hi v s
  | .errFirstClear page v => Sys2Proof.Machine.execErrFirstClear page v s
  | .errCntClear page uncorrected v => Sys2Proof.Machine.execErrCntClear page uncorrected v s
  | .loRead addr => Sys2Proof.Machine.execLoRead addr s
  | .accessRefused addr => Sys2Proof.Machine.execAccessRefused addr s
  | .ringEnable ring v => Sys2Proof.Machine.execRingEnable ring v s
  | .ringDisable ring v => Sys2Proof.Machine.execRingDisable ring v s
  | .cqEnable cq v => Sys2Proof.Machine.execCqEnable cq v s
  | .counterValueWrite ctr v => Sys2Proof.Machine.execCounterValueWrite ctr v s
  | .poisonedWindowRead addr => Sys2Proof.Machine.execPoisonedWindowRead addr s
  | .windowWrite addr v => Sys2Proof.Machine.execWindowWrite addr v s
  | .registerWrite addr v => Sys2Proof.Machine.execRegisterWrite addr v s
  | .coldReset => Sys2Proof.Machine.execColdReset s
  | .supplyLoss vdda => Sys2Proof.Machine.execSupplyLoss vdda s
  | .vdip island vddh mv => Sys2Proof.Machine.execVdip island vddh mv s
  | .vdipRecover island vddh mv => Sys2Proof.Machine.execVdipRecover island vddh mv s
  | .vreset island vddh mv => Sys2Proof.Machine.execVreset island vddh mv s
  | .islandResetRelease island => Sys2Proof.Machine.execIslandResetRelease island s
  | .vddaDip g mv => Sys2Proof.Machine.execVddaDip g mv s
  | .vddaReset g mv => Sys2Proof.Machine.execVddaReset g mv s
  | .vddaRecover g => Sys2Proof.Machine.execVddaRecover g s
  | .short island => Sys2Proof.Machine.execShort island s
  | .throttle sensor temp => Sys2Proof.Machine.execThrottle sensor temp s
  | .throttleLift sensor temp => Sys2Proof.Machine.execThrottleLift sensor temp s
  | .trip sensor temp => Sys2Proof.Machine.execTrip sensor temp s
  | .refclk => Sys2Proof.Machine.execRefclk s
  | .refclkReturn => Sys2Proof.Machine.execRefclkReturn s
  | .portRefclkLoss g => Sys2Proof.Machine.execPortRefclkLoss g s
  | .portRefclkReturn g => Sys2Proof.Machine.execPortRefclkReturn g s
  | .wdog => Sys2Proof.Machine.execWdog s
  | .wdogRestart => Sys2Proof.Machine.execWdogRestart s
  | .suppliesQualified => Sys2Proof.Machine.execSuppliesQualified s
  | .dieToDieFabricUp => Sys2Proof.Machine.execDieToDieFabricUp s
  | .laneShort port lane => Sys2Proof.Machine.execLaneShort port lane s

end Sys2Proof.Machine
end

