-- ==== Sys2Proof/WellFormed.lean ====
section
/-! DEFINITION. Which commands are well formed: what the rows and layouts of the manual require of the operands
beyond the widths that their types already give. The meanings are total and do not need it. -/

namespace Sys2Proof

/-- The little-endian value of a byte of an operand block; 0 beyond its end. -/
def byteAt (bs : Bytes) (i : Nat) : Nat := (bs[i]?.getD 0).toNat

/-- A descriptor's header is one that R230 passes, as far as the header alone says, and its source agrees with
TRIG_EN (R229, R233): a slot of the store for a pre-posted descriptor, else a ring. Its operands are 32 bytes. -/
def Desc.wf (d : Desc) : Bool :=
  d.ops.length == 32 && decide (d.channel.toNat ≤ 31) && !(d.trigEn && d.fencePrev) &&
  match d.src with
  | .ring _ => !d.trigEn
  | .slot p => d.trigEn && p == d.ppSlot && decide (p.toNat ≤ 81919)

/-- A descriptor of opcode 0x20 whose FUNC (bits [7:6] of byte 0x3F) is n (R209, R211). FUNC 1 is DOT; every other value
is RESCALE's row, which ends 2 and 3 with FORMAT_VERSION. -/
def Desc.func (d : Desc) (n : Nat) : Bool := d.wf && byteAt d.ops 0x1F / 64 == n

/-- A packet as its header can spell it (R254), with the opcode of its row. -/
def Packet.wf (p : Packet) (op : Byte) : Bool := p.opcode == op && decide (p.payload.length ≤ 4096)

/-- A notice (R186, R150): 32 bytes of its kind. -/
def Packet.notice (p : Packet) (kind : Nat) : Bool :=
  p.wf 0x10 && p.payload.length == 32 && byteAt p.payload 0 == kind

/-- A half-port of the 24 ports (R280). -/
def halfOk (h : BitVec 6) : Bool := decide (h.toNat < 48)

/-- One of the 24 ports (R279). -/
def portOk (p : BitVec 5) : Bool := decide (p.toNat < 24)

/-- One of the 69 islands (R345). -/
def islandOk (i : BitVec 7) : Bool := decide (i.toNat < 69)

/-- One of the six groups of four ports that share a VDDA supply and a port clock (R342, R355). -/
def groupOk (g : BitVec 3) : Bool := decide (g.toNat < 6)

/-- A register page (R367). -/
def regPage (n : Nat) : Bool :=
  decide (n ≤ 8 ∨ (0x10 ≤ n ∧ n ≤ 0x2F) ∨ (0x40 ≤ n ∧ n ≤ 0x57) ∨ n = 0x60 ∨ (0x68 ≤ n ∧ n ≤ 0x6F) ∨ n = 0x70 ∨
    n = 0x78 ∨ n = 0x7C)

/-- A context window's page (R367, R379). -/
def winPage (n : Nat) : Bool := decide (0x100 ≤ n ∧ n < 0xFE0)

/-- The register words that have a row of their own: offsets of the common header, and the offsets of each page
(R370; R63, R94, R117, R120, R166, R167, R225, R246, R276, R278, R309-R311, R341, R365, R376, R399, R404). -/
def ownRow (page off : Nat) : Bool :=
  if off < 0x40 then [0x0C, 0x14, 0x18, 0x1C, 0x20, 0x28, 0x2C, 0x30].contains off
  else if page = 0 then [0x80, 0x84].contains off
  else if page = 1 then off == 0x44
  else if page = 2 then [0x44, 0x5C, 0x98, 0x104, 0x108].contains off
  else if page = 3 then [0x48, 0x90].contains off
  else if page = 4 then [0x48, 0x64].contains off
  else if page = 5 then off == 0x40
  else if page = 6 then [0x44, 0x74, 0xC8].contains off || decide (0x100 ≤ off ∧ off < 0x200)
  else if page = 7 then [0x40, 0x44, 0x48, 0x5C, 0x84].contains off
  else if page = 8 then [0x40, 0x44].contains off
  else if 0x10 ≤ page ∧ page ≤ 0x2F then [0x70, 0x98, 0xEC].contains off
  else if 0x40 ≤ page ∧ page ≤ 0x57 then
    [0x44, 0x54, 0x58, 0xB8, 0x64C].contains off || decide (0x400 ≤ off ∧ off < 0x600 ∧ off % 0x40 = 0)
  else if page = 0x60 then off == 0xF8
  else if 0x68 ≤ page ∧ page ≤ 0x6F then off == 0x44
  else if page = 0x70 then [0x60, 0x68, 0xA4].contains off
  else if page = 0x78 then off == 0x64
  else if page = 0x7C then [0x40, 0x60].contains off
  else false

/-- The context words that have a row of their own (R380): word 0 of a connection, a region and a counter, the control
words of a queue and a ring, and the high word of a routing entry. -/
def ownWinRow (a : Nat) : Bool :=
  (decide (0x100000 ≤ a ∧ a < 0x500000) && a % 256 == 0) || (decide (0x900000 ≤ a ∧ a < 0xD00000) && a % 64 == 0) ||
  (decide (0xD00000 ≤ a ∧ a < 0xE00000) && a % 16 == 0) || (decide (0xF00000 ≤ a ∧ a < 0xF40000) && a % 64 == 8) ||
  (decide (0xF50000 ≤ a ∧ a < 0xF60000) && a % 16 == 8) || (decide (0xF60000 ≤ a ∧ a < 0xFE0000) && a % 8 == 4)

/-- A word written with a bit set, as a row that names the bit requires. -/
def hasBit (v : Word) (k : Nat) : Bool := v.getLsbD k

/-- A mailbox command's word carries its CMD (R378). -/
def isCmd (v : Word) (cmd : Nat) : Bool := v.toNat % 256 == cmd

/-- The command is well formed. -/
def Instr.wf : Instr → Bool
  | .nop d => d.wf
  | .compress d => d.wf
  | .stats d => d.wf
  | .select d => d.wf
  | .merge d => d.wf
  | .expand d => d.wf
  | .actSave d => d.wf
  | .actLoad d => d.wf
  | .write d => d.wf
  | .read d => d.wf
  | .send d => d.wf
  | .accum d => d.wf
  | .accumSparse d => d.wf
  | .instanceOpen _ channel _ => decide (channel.toNat ≤ 31)
  | .flush d => d.wf
  | .atomicMax d => d.wf
  | .rescale d => d.wf && !d.func 1
  | .dot d => d.func 1
  | .update d => d.wf
  | .residualReturn d => d.wf
  | .snapshot d => d.wf
  | .restore d => d.wf
  | .logAppend d => d.wf
  | .snapshotExport d => d.wf
  | .barrier d => d.wf
  | .tableInstall d => d.wf
  | .fence d => d.wf
  | .counterAdd d => d.wf
  | .relay d => d.wf
  | .writePacket p => p.wf 0x01
  | .readReq p => p.wf 0x02
  | .readResp p => p.wf 0x03
  | .sendPacket p => p.wf 0x04
  | .contrib p => p.wf 0x05
  | .atomicMaxReq p => p.wf 0x06
  | .counterAddReq p => p.wf 0x07
  | .flushReq p => p.wf 0x08
  | .ctrl p => p.wf 0x11
  | .resp p => p.wf 0x12
  | .ack p => p.wf 0x20
  | .nak p => p.wf 0x21
  | .hello p => p.wf 0x22
  | .receipt p => p.notice 1
  | .late p => p.notice 2
  | .rejectSpan p => p.notice 3
  | .rejectBlock p => p.notice 4
  | .skip p => p.notice 5
  | .tableAck p => p.notice 6
  | .tableEpoch p => p.notice 7
  | .connEnable _ v => hasBit v 7
  | .connDisable _ v => !hasBit v 7
  | .secKeyCommit v => hasBit v 0
  | .secKeyErase v => hasBit v 1
  | .txSwitch v => hasBit v 2
  | .frameReceive h f => halfOk h && f.words.all (fun w => w.length == 16)
  | .pause h _ => halfOk h
  | .pauseRefresh h => halfOk h
  | .laneId h _ _ _ => halfOk h
  | .cap h _ => halfOk h
  | .ident h _ _ _ => halfOk h
  | .tsyncReq h _ _ _ _ => halfOk h
  | .tsyncT2 h _ _ _ => halfOk h
  | .tsyncT3 h _ _ _ => halfOk h
  | .timeCtrlSet v => hasBit v 2
  | .linkSignalLoss h => halfOk h
  | .trainTimeout h => halfOk h
  | .detectRetry h _ _ => halfOk h
  | .linkUp h _ => halfOk h
  | .laneDegraded p _ => portOk p
  | .portRetrain p _ => portOk p
  | .portExpWrite p _ _ => portOk p
  | .caissonArm _ v => hasBit v 31
  | .caissonDisarm _ v => !hasBit v 31
  | .ping v => isCmd v 1
  | .version v => isCmd v 2
  | .declareLost v => isCmd v 3
  | .routeClear v => isCmd v 4
  | .timeReparent v => isCmd v 5
  | .rngCtrlCommit v => hasBit v 0
  | .statClearAll v => hasBit v 31
  | .statClearSlot v => !hasBit v 31
  | .pierSelClear _ v => hasBit v 0
  | .pierCmpClear _ v => hasBit v 0
  | .pierTblClear _ v => hasBit v 0
  | .tblLogClear v => hasBit v 0
  | .qmgrClear v => hasBit v 0
  | .abutCbFlush _ v => hasBit v 1
  | .abutClear _ v => hasBit v 0
  | .rmaClear v => hasBit v 0
  | .rmaLogClear v => hasBit v 1
  | .portClear p v => portOk p && hasBit v 0
  | .portTclear p v => portOk p && hasBit v 0
  | .deckClear v => hasBit v 0
  | .timeClear v => hasBit v 0
  | .snapClear v => hasBit v 0
  | .pwrClear v => hasBit v 0
  | .pwrLogClear v => hasBit v 1
  | .testClear v => hasBit v 0
  | .tripClear v => hasBit v 2
  | .warmReset v => hasBit v 1
  | .kstnReset v => hasBit v 0
  | .dvfsDone i => islandOk i
  | .bootLoad v => hasBit v 0
  | .bootGo v => hasBit v 1
  | .bootSelftestDone r => r.failedIslands.all islandOk
  | .sramSelfTest v => hasBit v 0 && v.toNat / 16 % 16 == 0
  | .knownAnswerTest v => hasBit v 0 && v.toNat / 16 % 16 == 1
  | .testAbort v => hasBit v 1
  | .laneTestConfig p _ _ => portOk p
  | .inject p _ v => portOk p && hasBit v 6
  | .prbsLock p _ => portOk p
  | .prbsUnlock p _ _ _ => portOk p
  | .eyeStart p _ v => portOk p && hasBit v 7
  | .eyeDone p _ _ _ => portOk p
  | .lock page _ => regPage page.toNat
  | .softReset page v => regPage page.toNat && hasBit v 1
  | .enable page _ => regPage page.toNat
  | .hold page _ => regPage page.toNat
  | .irqStatClear page _ => regPage page.toNat
  | .irqEnWrite page _ => regPage page.toNat
  | .irqSet page _ => regPage page.toNat
  | .errFirstClear page v => regPage page.toNat && hasBit v 31
  | .errCntClear page _ v => regPage page.toNat && v == 0
  | .loRead _ => true
  | .accessRefused _ => true
  | .ringEnable _ v => hasBit v 7
  | .ringDisable _ v => !hasBit v 7
  | .cqEnable _ v => hasBit v 7
  | .counterValueWrite _ _ => true
  | .poisonedWindowRead r => winPage (r.addr.toNat / 4096)
  | .windowWrite a _ => a.toNat % 4 == 0 && winPage (a.toNat / 4096) && !ownWinRow a.toNat
  | .registerWrite a _ =>
    a.toNat % 4 == 0 && regPage (a.toNat / 4096) && !ownRow (a.toNat / 4096) (a.toNat % 4096)
  | .vdip i _ _ => islandOk i
  | .vdipRecover i _ _ => islandOk i
  | .vreset i _ _ => islandOk i
  | .islandResetRelease i => islandOk i
  | .vddaDip g _ => groupOk g
  | .vddaReset g _ => groupOk g
  | .vddaRecover g => groupOk g
  | .short i => islandOk i
  | .portRefclkLoss g => groupOk g
  | .portRefclkReturn g => groupOk g
  | .laneShort p _ => portOk p
  | .descriptorRead _ => true
  | .qmgrRingDb _ => true
  | .qmgrCqDb _ => true
  | .qmgrSpanShare _ => true
  | .qmgrPpCancel _ => true
  | .retainedRoom => true
  | .stagingRoom _ => true
  | .retxTimer _ _ => true
  | .reorderTimer _ _ => true
  | .ackDelay _ _ => true
  | .rnrTimer _ _ => true
  | .helloPeriod _ => true
  | .tollPeriod => true
  | .rekeyDue _ => true
  | .regionRegister _ _ => true
  | .rmaRevoke _ => true
  | .revokeDone _ => true
  | .rmaSrqDb _ => true
  | .timeIntervalExpiry _ => true
  | .holdover => true
  | .deckCtrlEn _ => true
  | .routeEntryWrite _ _ => true
  | .heartbeat _ _ => true
  | .heartbeatPeriod => true
  | .heartbeatMiss _ => true
  | .graceExpiry _ => true
  | .snapWatchWrite _ _ => true
  | .declareNodeLost _ => true
  | .firmware _ _ => true
  | .discover _ _ => true
  | .discoverRepeat _ => true
  | .barArrive _ _ _ _ _ => true
  | .barRelease _ _ _ _ _ => true
  | .releaseTimeReached _ _ _ => true
  | .barResend _ _ _ => true
  | .barKeepExpiry _ _ _ => true
  | .deadline _ _ _ => true
  | .slotFreed _ => true
  | .keystoneAnnounce => true
  | .rngTest _ => true
  | .statSel _ => true
  | .pwrIslOpp _ => true
  | .bootLoadData _ => true
  | .islandStart => true
  | .testDone _ => true
  | .bypass => true
  | .samplePreload _ => true
  | .extest _ _ => true
  | .extestPulse _ _ => true
  | .extestTrain _ _ => true
  | .topVecMask _ _ => true
  | .coldReset => true
  | .supplyLoss _ => true
  | .throttle _ _ => true
  | .throttleLift _ _ => true
  | .trip _ _ => true
  | .refclk => true
  | .refclkReturn => true
  | .wdog => true
  | .wdogRestart => true
  | .suppliesQualified => true
  | .dieToDieFabricUp => true

end Sys2Proof
end

