-- ==== Sys2Proof/Safety.lean ====
section
/-! DEFINITION. What a safe state and a safe step are, and the other terms that statements use: which island answers,
what a command may have changed, and when nothing holds a descriptor or a packet. -/

namespace Sys2Proof.Machine

/-- Every memory stands in its canonical form: host memory, the context tables, the candidate share and the image. -/
def State.memOk (s : State) : Bool := s.mem.wf && s.ctx.wf && s.q.cand.wf && s.pwr.image.wf

/-- The fixed numbers of things: 69 islands, 16 sensors, 32 Piers, 16 table slots, two Caisson entries and 48 half-ports
(R142, R280, R314, R345, R353). -/
def State.shaped (s : State) : Bool :=
  decide (s.pwr.islands.length = 69 ∧ s.pwr.sensors.length = 16 ∧ s.piers.length = 32 ∧ s.q.tables.length = 16 ∧
    s.snap.caissons.length = 2 ∧ s.deck.ports.length = 48)

/-- Every command that waits is well formed. -/
def State.queueOk (s : State) : Bool := s.pending.all Instr.wf

/-- The step goes on: it neither faults nor is refused. -/
def goesOn (o : Host.Outcome State Fault Refusal) : Prop := ∃ s, o = .next s

/-- The engine is alive, and an island is powered, out of reset and in service (R344). -/
def State.up (s : State) (i : Nat) : Bool := !s.pwr.dead && s.islandReady i

/-! ### Frames -/

/-- Only register words differ. -/
def State.onlyRegs (s t : State) : Prop := t = { s with regs := t.regs }

/-- Only register words and the interrupt messages sent differ. -/
def State.onlyIrq (s t : State) : Prop := t = { s with regs := t.regs, irqOut := t.irqOut }

/-- Only bytes of the context tables differ. -/
def State.onlyCtx (s t : State) : Prop := t = { s with ctx := t.ctx }

/-- Only the islands' power state differs, beside register words and messages. -/
def State.onlyPwr (s t : State) : Prop := t = { s with regs := t.regs, irqOut := t.irqOut, pwr := t.pwr }

/-- Register words that no listed address names read as before. -/
def State.regsBut (s t : State) (l : List Nat) : Prop := ∀ a, a ∉ l → t.reg a = s.reg a

/-- Bytes of the context tables outside [a, a + n) read as before. -/
def State.ctxBut (s t : State) (a n : Nat) : Prop := ∀ b, b < a ∨ a + n ≤ b → t.ctx.read b = s.ctx.read b

/-- Bytes of host memory outside [a, a + n) read as before. -/
def State.memBut (s t : State) (a n : Nat) : Prop := ∀ b, b < a ∨ a + n ≤ b → t.mem.read b = s.mem.read b

/-- The register words that a test picks are zero and every other register, and all else, is as before. -/
def State.cleared (s t : State) (p : Nat → Bool) : Prop :=
  s.onlyRegs t ∧ ∀ a, t.reg a = if p a then 0 else s.reg a

/-- The words of a page from one offset to another. -/
def inRegs (page first last a : Nat) : Bool :=
  decide (regAddr page first ≤ a ∧ a ≤ regAddr page last ∧ a % 4 = 0)

/-- The registers that raising an interrupt of a page may change (R374). -/
def irqRegs (page : Nat) : List Nat := [R.hdrIrqStat page, R.topVecPendLo, R.topVecPendHi]

/-! ### Descriptors -/

/-- The opcode and the descriptor that a command of a descriptor brings (R231). -/
def descOp : Instr → Option (Nat × Desc)
  | .nop d => some (0x00, d)
  | .compress d => some (0x01, d)
  | .stats d => some (0x02, d)
  | .select d => some (0x03, d)
  | .expand d => some (0x04, d)
  | .merge d => some (0x05, d)
  | .actSave d => some (0x06, d)
  | .actLoad d => some (0x07, d)
  | .write d => some (0x10, d)
  | .read d => some (0x11, d)
  | .send d => some (0x12, d)
  | .accum d => some (0x13, d)
  | .accumSparse d => some (0x14, d)
  | .flush d => some (0x15, d)
  | .atomicMax d => some (0x16, d)
  | .rescale d => some (0x20, d)
  | .dot d => some (0x20, d)
  | .update d => some (0x21, d)
  | .residualReturn d => some (0x22, d)
  | .snapshot d => some (0x30, d)
  | .restore d => some (0x31, d)
  | .logAppend d => some (0x32, d)
  | .snapshotExport d => some (0x33, d)
  | .barrier d => some (0x40, d)
  | .tableInstall d => some (0x41, d)
  | .fence d => some (0x42, d)
  | .counterAdd d => some (0x43, d)
  | .relay d => some (0x44, d)
  | _ => none

/-- Register words of pages outside a set read as before. -/
def State.regsIn (s t : State) (p : Nat → Bool) : Prop := ∀ a, p (a / 4096) = false → t.reg a = s.reg a

/-- The page of a Pier. -/
def pierPage (n : Nat) : Bool := decide (0x10 ≤ n ∧ n < 0x30)

/-- The page of an Abutment. -/
def abutPage (n : Nat) : Bool := decide (0x68 ≤ n ∧ n < 0x70)

/-- Ranges (address, bytes) no two of which meet. -/
def apart (l : List (Nat × Nat)) : Prop := l.Pairwise fun x y => x.1 + x.2 ≤ y.1 ∨ y.1 + y.2 ≤ x.1

/-- The descriptor is neither outstanding and not begun, nor stored and waiting for its counter. -/
def State.fresh (s : State) (op : Nat) (d : Desc) : Bool :=
  !(s.q.live.any fun l => decide (l.op = op ∧ l.desc = d ∧ l.phase = .start)) && !s.notEnabled op d

/-- The queue island works, nothing holds a descriptor that it reads, and no other has its turn first (R233, R234,
R242). -/
def State.goes (s : State) (op : Nat) (d : Desc) : Bool :=
  s.up 2 && s.fresh op d && !(s.enter op d).2.heldHead (s.enter op d).1 &&
  !(s.enter op d).2.noCredit (s.enter op d).1 && !(s.enter op d).2.outranked (s.enter op d).1

/-- The outstanding descriptor that a descriptor becomes at its dispatch, and the state it begins in. -/
def State.begun (s : State) (op : Nat) (d : Desc) : Live × State := (s.enter op d).2.dispatch (s.enter op d).1

/-- Between two states only host memory, the coalescing buffer, the granules touched in it, register words, the messages
sent, table copies that a Pier received again and the free values drawn differ, and flipped words that were checked are no
longer flipped: what a computation in memory may change. -/
def State.computes (s t : State) : Prop :=
  t = { s with
    mem := t.mem, memPoison := t.memPoison, regs := t.regs, irqOut := t.irqOut, cb := t.cb, touched := t.touched
    piers := t.piers, upsets := t.upsets, free := t.free } ∧ ∀ u ∈ t.upsets, u ∈ s.upsets

/-- Between two states whose context tables have no flipped word, only result words of the tables and what packing
leaves differ as well. -/
def State.streams (s t : State) : Prop :=
  t = { s with
    mem := t.mem, memPoison := t.memPoison, regs := t.regs, irqOut := t.irqOut, cb := t.cb, touched := t.touched
    free := t.free, ctx := t.ctx, resPoison := t.resPoison
    q := { s.q with stats := t.q.stats, packs := t.q.packs, held := t.q.held } }

/-- The outstanding descriptors are numbered, each once, below the next number. -/
def State.idsOk (s : State) : Prop := (s.q.live.map fun l => l.id).Nodup ∧ ∀ l ∈ s.q.live, l.id < s.q.nextId

/-- No word of a context table is poisoned or has flipped. -/
def State.cleanTables (s : State) : Bool := s.ctxPoison.isEmpty && s.upsets.isEmpty

/-- Host memory holds no poison, no Abutment holds a line, and no stored word has flipped. -/
def State.calm (s : State) : Bool := s.memPoison.isEmpty && s.cb.isEmpty && s.upsets.isEmpty

/-- The words of element j that an UPDATE with a dense gradient reads, none poisoned (R217). -/
def State.updIn (s : State) (u : UpdRec) (j : Nat) : UpdIn :=
  let word (used : Bool) (a w : Nat) : Nat × Bool := (if used then s.rdN (a + w * j) w else 0, false)
  ⟨j, word true u.wAddr u.wWidth, word (u.wFmt == 0) u.wLo 2, word u.usesM u.mAddr (fmtBytes u.mFmt),
    word u.usesV u.vAddr (fmtBytes u.vFmt), word true u.gAddr u.gWidth, []⟩

/-- What an UPDATE whose record lies at a writes: the engine's words of the record, the weights, the moments and the tile
records (R214, R216). -/
def UpdRec.outputs (u : UpdRec) (a : Nat) : List (Nat × Nat) :=
  [(a + 0x80, 0x2C), (u.wAddr, u.wWidth * u.length)] ++ (if u.wFmt = 0 then [(u.wLo, 2 * u.length)] else []) ++
  (if u.usesM then [(u.mAddr, fmtBytes u.mFmt * u.length)] else []) ++
  (if u.usesV then [(u.vAddr, fmtBytes u.vFmt * u.length)] else []) ++
  (if u.tile = 0 then [] else [(u.tile, 8 * ceilDiv u.length 4096)])

/-- An entry has been put into the power log: its word 0, VALUE and TIME (R366). -/
def State.pwrLogged (s t : State) (head value time : Nat) : Prop :=
  let k := s.reg R.pwrLogHead % 16
  let a := R.pwrLog 0 + 16 * k
  t.reg a = head ∧ t.reg (a + 4) = value ∧ t.reg (a + 8) = time % 2 ^ 32 ∧ t.reg (a + 12) = time / 2 ^ 32 % 2 ^ 32 ∧
  t.reg R.pwrLogHead = (k + 1) % 16 ∧ t.reg R.pwrLogCnt = min (s.reg R.pwrLogCnt + 1) 0xFFFFFFFF

/-- A 64-bit counter held as a pair of registers. -/
def State.reg64 (s : State) (lo : Nat) : Nat := s.reg lo + s.reg (lo + 4) * 2 ^ 32

/-! ### Packets -/

/-- Every row of a packet with the opcode that it carries (R255). -/
def packetRows (p : Packet) : List (Instr × Byte) :=
  [(.writePacket p, 0x01), (.readReq p, 0x02), (.readResp p, 0x03), (.sendPacket p, 0x04), (.contrib p, 0x05),
   (.atomicMaxReq p, 0x06), (.counterAddReq p, 0x07), (.flushReq p, 0x08), (.receipt p, 0x10), (.late p, 0x10),
   (.rejectSpan p, 0x10), (.rejectBlock p, 0x10), (.skip p, 0x10), (.tableAck p, 0x10), (.tableEpoch p, 0x10),
   (.ctrl p, 0x11), (.resp p, 0x12), (.ack p, 0x20), (.nak p, 0x21), (.hello p, 0x22)]

/-- The extended number of a packet of a stream (R250). -/
def State.esnOf (s : State) (p : Packet) : Int :=
  extend (s.fld (connBase p.conn.toNat) (rxExp p.stream)) p.psn.toNat

/-- The extended number of a packet of the acknowledgement space (R250). -/
def State.spaceNo (s : State) (p : Packet) : Int :=
  extend (s.fld (connBase p.conn.toNat) Conn.ackRxSeq) p.psn.toNat

/-- The transport works, and a packet passes orders 1 and 2 of R259 on a connection without a cipher. -/
def State.hears (s : State) (op : Byte) (p : Packet) : Bool :=
  s.up 4 && !s.badHeader { p with opcode := op } && !s.flag (connBase p.conn.toNat) Conn.cipher && !p.ce

/-- A message of one good packet is the next of its stream, and nothing else arrives or waits to be sent. -/
def State.inOrder (s : State) (op : Byte) (p : Packet) : Bool :=
  s.hears op p && (streamOf op.toNat).isSome && !p.poison && p.first && p.last &&
  decide (s.esnOf p = s.fld (connBase p.conn.toNat) (rxExp p.stream)) &&
  decide (s.fld (connBase p.conn.toNat) (rxExp p.stream) + 1 < 2 ^ 48) &&
  s.fld (connBase p.conn.toNat) (rxMap p.stream) == 0 && s.x.rx.isEmpty && s.x.out.isEmpty && s.x.maxes.isEmpty &&
  s.x.flushes.isEmpty && s.cleanTables

/-- The next packet of a stream has been taken. -/
def State.taken (s t : State) (p : Packet) : Prop :=
  t.fld (connBase p.conn.toNat) (rxExp p.stream) = s.fld (connBase p.conn.toNat) (rxExp p.stream) + 1

/-- An answer with an opcode to a packet number has been given to a connection: it waits to be sent, or its last packet
has gone and is kept. -/
def State.replied (t : State) (c : Nat) (op : Byte) (psn : Nat) : Prop :=
  (∃ m ∈ t.x.out, m.conn = c ∧ m.op = op.toNat ∧ m.reqPsn = psn) ∨
  (∃ k ∈ t.x.kept, k.conn = c ∧ k.pkt.opcode = op ∧ k.pkt.g0.toNat = psn)

end Sys2Proof.Machine
end

