-- ==== Sys2Proof/Certificates/Slice0/Obligations.lean ====
section
/-! DEFINITION. The statements about the model, for its provers. -/

section

open Sys2Proof Sys2Proof.Machine

/-! ## The block as a whole -/

/-- A step takes the command at the front of the queue and is its meaning on the state with the queue's rest. The
queue is the model's own (log entry 1). -/
def Obligations.StepRunsTheFrontCommand : Prop :=
  ∀ (s : State) (c : Instr) (rest : List Instr), s.pending = c :: rest →
    step s = exec c { s with pending := rest }

/-- Right after reset every register reads its reset value, every context table and the candidate share read zero, no
memory is listed, no descriptor is outstanding, waits or is stored, no message or barrier is under way and no command
waits, the 16 table slots are FREE at generation 0 and no Pier holds a copy, every connection is DOWN, both Caisson
entries are OFF, the top island alone is ready, the thermal limits are 125, 115, 105 and 100 degrees, and the span
shares are 24, 32, 24 and 16 MiB (R226, R241, R142, R246, R247, R314). Where the manual gives no value it is the
model's choice (log entries 3, 5, 9 and 33). -/
def Obligations.ResetHoldsResetValues : Prop :=
  State.reset.memOk = true ∧ State.reset.idsOk ∧ State.reset.shaped = true ∧ State.reset.pending = [] ∧
  State.reset.mem = [] ∧
  State.reset.q.live = [] ∧ State.reset.q.waiting = [] ∧ State.reset.q.store = [] ∧ State.reset.x.out = [] ∧
  State.reset.x.kept = [] ∧ State.reset.clock.bars = [] ∧ State.reset.joints = [] ∧ State.reset.upsets = [] ∧
  State.reset.reg R.pwrThermLimits = 0x7D736964 ∧ State.reset.reg R.qmgrSpanShare = 0x10182018 ∧
  (∀ e, e < 2 → State.reset.entryState e = 0) ∧ (∀ p, p < 32 → nth State.reset.piers p [] = []) ∧
  (∀ a, State.reset.reg a = regReset a) ∧
  (∀ a, State.reset.ctx.read a = 0) ∧ (∀ a, State.reset.q.cand.read a = 0) ∧
  (∀ n, n < 16 → (State.reset.tbl n).state = .free ∧ (State.reset.tbl n).gen = 0) ∧
  (∀ c, State.reset.connState c = 0) ∧ State.reset.bootState = 0 ∧
  (∀ i, State.reset.islandReady i = true ↔ i = 0) ∧
  State.reset.share 0 = 24 * 2 ^ 20 ∧ State.reset.share 8 = 32 * 2 ^ 20 ∧
  State.reset.share 16 = 24 * 2 ^ 20 ∧ State.reset.share 24 = 16 * 2 ^ 20

/-- What every step keeps: each memory its canonical form, strictly rising addresses and no listed zero, so that equal
contents are equal data; the outstanding descriptors numbers of their own below the next number; the numbers of islands,
sensors, Piers, table slots, Caisson entries and half-ports; and the queue of commands, of which it takes the first and
leaves the rest as it stands. The form, the numbers of descriptors and the queue are the model's own (log entries 1 and
9). -/
def Obligations.StepKeepsMemoriesNumbersAndQueue : Prop :=
  ∀ s t : State, step s = .next t →
    (s.memOk = true → t.memOk = true) ∧ (s.idsOk → t.idsOk) ∧ (s.shaped = true → t.shaped = true) ∧
    t.pending = s.pending.tail

/-- No command faults and none is refused: every command of the table, in every state, answers a next state, and so
does every step. That none stops, and the step on an empty queue, are the model's reading (log entries 15 and 101). -/
def Obligations.EveryStepGoesOn : Prop :=
  (∀ (i : Instr) (s : State), ∃ t, exec i s = .next t) ∧ ∀ s : State, ∃ t, step s = .next t

/-- Host memory as the engine writes it (R21, R36): the bytes written read back, every other byte reads as before, the
canonical form stays, and a poisoned write marks every granule that it touches. That a granule's poison goes exactly
when a good write covers it whole is the model's choice (log entry 125). -/
def Obligations.HostMemoryWriteReadsBack : Prop :=
  ∀ (s : State) (a : Nat) (bs : Bytes), s.mem.wf = true →
    (s.wr a bs).mem.wf = true ∧ (s.wr a bs).rd a bs.length = bs ∧ s.memBut (s.wr a bs) a bs.length ∧
    (∀ g, g ∈ (s.wr a bs).memPoison ↔ g ∈ s.memPoison ∧ ¬ (a ≤ g * 64 ∧ (g + 1) * 64 ≤ a + bs.length)) ∧
    (∀ g, g ∈ (s.wrPoison a bs).memPoison ↔
      (g ∈ s.memPoison ∧ ¬ (a ≤ g * 64 ∧ (g + 1) * 64 ≤ a + bs.length)) ∨
      (bs ≠ [] ∧ a < (g + 1) * 64 ∧ g * 64 < a + bs.length))

/-! ## Register pages -/

/-- A write of 1 to CLEAR of a page zeroes exactly that page's counters (R94, R120, R167, R309, R399, R311, R341,
R404, R246): every other register and all other state stay as they were, and a write without the bit changes nothing.
CLEAR and LOG_CLEAR of the transport, the table page and the power controller (R276, R166, R365): the log's words, its
count and its head, and the counters, are zeroed as the two bits say, and nothing else changes but the power
controller's two counters of every island. An Abutment writes its dirty lines back when CB_FLUSH is written and keeps
them valid, and CLEAR zeroes its counters (R202, R225). -/
def Obligations.ClearsZeroExactlyTheirCountersAndLogs : Prop :=
  (∀ (s : State) (v : Word),
    (∀ n : BitVec 5, s.pageReady (0x10 + n.toNat) = true →
      (∃ t, exec (.pierSelClear n v) s = .next t ∧
        s.cleared t fun a => v.getLsbD 0 && inRegs (0x10 + n.toNat) 0x40 0x60 a) ∧
      (∃ t, exec (.pierCmpClear n v) s = .next t ∧
        s.cleared t fun a => v.getLsbD 0 && (inRegs (0x10 + n.toNat) 0x80 0x94 a || a == R.pierFlush n.toNat)) ∧
      (∃ t, exec (.pierTblClear n v) s = .next t ∧
        s.cleared t fun a => v.getLsbD 0 && inRegs (0x10 + n.toNat) 0xC0 0xE8 a)) ∧
    (∀ p : BitVec 5, p.toNat < 24 → s.pageReady (0x40 + p.toNat) = true →
      (∃ t, exec (.portClear p v) s = .next t ∧
        s.cleared t fun a => v.getLsbD 0 && inRegs (0x40 + p.toNat) 0x88 0xB4 a) ∧
      (∃ t, exec (.portTclear p v) s = .next t ∧
        s.cleared t fun a => v.getLsbD 0 && (inRegs (0x40 + p.toNat) 0x600 0x648 a ||
          (List.range 8).any fun l => inRegs (0x40 + p.toNat) (0x408 + 0x40 * l) (0x41C + 0x40 * l) a))) ∧
    (s.pageReady 3 = true → ∃ t, exec (.timeClear v) s = .next t ∧
      s.cleared t fun a => v.getLsbD 0 && inRegs 3 0x74 0x80 a) ∧
    (s.pageReady 6 = true → ∃ t, exec (.snapClear v) s = .next t ∧
      s.cleared t fun a => v.getLsbD 0 && inRegs 6 0xB4 0xC4 a) ∧
    (s.pageReady 0x7C = true → ∃ t, exec (.testClear v) s = .next t ∧
      s.cleared t fun a => v.getLsbD 0 && inRegs 0x7C 0x54 0x5C a) ∧
    (s.pageReady 7 = true → ∃ t, exec (.qmgrClear v) s = .next t ∧
      s.cleared t fun a => v.getLsbD 0 && (inRegs 7 0x6C 0x80 a || a == R.qmgrOrphanCnt))) ∧
  (∀ (s : State) (v : Word),
    (s.pageReady 0x70 = true → ∀ c ∈ [Instr.rmaClear v, Instr.rmaLogClear v], ∃ t, exec c s = .next t ∧
      s.cleared t fun a => (v.getLsbD 0 && inRegs 0x70 0x70 0xA0 a) ||
        (v.getLsbD 1 && (inRegs 0x70 0x200 0x3FC a || a == R.rmaLogCnt || a == R.rmaLogHead))) ∧
    (s.pageReady 5 = true → ∃ t, exec (.tblLogClear v) s = .next t ∧
      s.cleared t fun a => v.getLsbD 0 && (inRegs 5 0x200 0x3FC a || a == R.tblLogCnt || a == R.tblLogHead)) ∧
    (s.pageReady 2 = true → ∀ c ∈ [Instr.pwrClear v, Instr.pwrLogClear v], ∃ t, exec c s = .next t ∧
      s.onlyPwr t ∧ t.irqOut = s.irqOut ∧
      t.pwr = { s.pwr with islands := if v.getLsbD 0 then
        (s.pwr.islands.map fun (i : Island) => { i with vdips := 0, vrsts := 0 }) else s.pwr.islands } ∧
      ∀ a, t.reg a = if (v.getLsbD 0 && (inRegs 2 0x64 0x78 a || a == R.pwrWdogCnt)) ||
        (v.getLsbD 1 && (inRegs 2 0x200 0x2FC a || a == R.pwrLogCnt || a == R.pwrLogHead)) then 0 else s.reg a)) ∧
  (∀ (s : State) (k : BitVec 3) (v : Word), s.pageReady (0x68 + k.toNat) = true →
    ∀ c ∈ [Instr.abutClear k v, Instr.abutCbFlush k v],
    let mine (l : CbLine) := abutOf (l.granule * 64) == k.toNat
    (v.getLsbD 1 = false → ∃ t, exec c s = .next t ∧ s.cleared t fun a =>
      v.getLsbD 0 && (inRegs (0x68 + k.toNat) 0x50 0x88 a || a == R.abutFlush k.toNat)) ∧
    (v.getLsbD 1 = true → v.getLsbD 0 = false → s.mem.wf = true → ∃ t, exec c s = .next t ∧
      t = { s with mem := t.mem, memPoison := t.memPoison, regs := t.regs, cb := t.cb, free := t.free } ∧
      t.cb = (s.cb.map fun l => if mine l then { l with dirty := false } else l) ∧
      t.reg64 (R.abutCbWbLo k.toNat) =
        (s.reg64 (R.abutCbWbLo k.toNat) + (s.cb.filter fun l => mine l && l.dirty).length) % 2 ^ 64 ∧
      ((s.cb.map fun l => l.granule).Nodup → (∀ l ∈ s.cb, l.data.length = 64) →
        ∀ l ∈ s.cb, mine l = true → l.dirty = true → l.poison = false → t.rd (l.granule * 64) 64 = l.data)))

/-- DECK_CTRL (R298, R310): CLEAR zeroes the Deck's counters; EN follows the bit written, except that a lock keeps it
and an invalid dimension-order configuration refuses its rise with BOUNDS in ERR_FIRST. -/
def Obligations.DeckControlClearsAndEnables : Prop :=
  ∀ (s : State) (v : Word), s.pageReady 0x60 = true → ∀ c ∈ [Instr.deckClear v, Instr.deckCtrlEn v],
    ∃ t, exec c s = .next t ∧ s.onlyRegs t ∧
      (∀ a, inRegs 0x60 0xE0 0xF4 a = true → t.reg a = if v.getLsbD 0 then 0 else s.reg a) ∧
      (let refused := !s.locked 0x60 && v.getLsbD 1 && !s.regBit R.deckCtrl 1 &&
          s.regBits R.deckMode 1 0 == 0 && !ringsOk s.rings
       (t.regBit R.deckCtrl 1 = if s.locked 0x60 || refused then s.regBit R.deckCtrl 1 else v.getLsbD 1) ∧
       (refused = true → s.regBit (R.hdrErrFirst 0x60) 31 = false → t.reg (R.hdrErrFirst 0x60) = 2 ^ 31 + 0x23) ∧
       (∀ a, inRegs 0x60 0xE0 0xF4 a = false → a ≠ R.deckCtrl →
         (refused = true → a ≠ R.hdrErrFirst 0x60 ∧ a ≠ R.hdrErrFirstInfo 0x60) → t.reg a = s.reg a))

/-- STAT_SEL copies a slot's 260 counters into the read buffer in one step; STAT_CLEAR zeroes the slot named, or with
ALL every slot; nothing else changes (R117). -/
def Obligations.StatisticsSlotsCopyAndClear : Prop :=
  ∀ (s : State) (v : Word), s.pageReady 8 = true →
    (∃ t, exec (.statSel v) s = .next t ∧ t.q = { s.q with statBuf := s.statBins (v.toNat % 64) } ∧
      t = { s with regs := t.regs, q := t.q } ∧ t.reg R.statSel = v.toNat % 64 ∧ s.regsBut t [R.statSel]) ∧
    (∀ c ∈ [Instr.statClearSlot v, Instr.statClearAll v], ∃ t, exec c s = .next t ∧
      t = { s with q := { s.q with stats := t.q.stats } } ∧
      ∀ n, t.statBins n = if v.getLsbD 31 || n == v.toNat % 64 then zeroBins else s.statBins n)

/-- LOCK (R373): on an unlocked page bit 0 locks it with the key in bits [31:1]; on a locked page the stored key with
bit 0 clear unlocks it, and any other write is ignored, counted in TOP_LOCK_FAIL_CNT and raises LOCK_FAIL. No other
page's lock changes. -/
def Obligations.LockTakesAndChecksItsKey : Prop :=
  ∀ (s : State) (page : BitVec 12) (v : Word), regPage page.toNat = true → s.pageReady page.toNat = true →
    ∃ t, exec (.lock page v) s = .next t ∧
      (∀ n, n ≠ page.toNat → t.locked n = s.locked n) ∧
      t = { s with locks := t.locks, regs := t.regs, irqOut := t.irqOut } ∧
      match s.locks.find? fun (l : Nat × BitVec 31) => l.1 == page.toNat with
      | none =>
        t.regs = s.regs ∧ t.irqOut = s.irqOut ∧
        t.locks = if v.getLsbD 0 then s.locks ++ [(page.toNat, (v >>> 1).setWidth 31)] else s.locks
      | some l =>
        if v.getLsbD 0 = false ∧ l.2 = (v >>> 1).setWidth 31 then
          t.locked page.toNat = false ∧ t.regs = s.regs ∧ t.irqOut = s.irqOut
        else
          t.locks = s.locks ∧ t.reg R.topLockFailCnt = min (s.reg R.topLockFailCnt + 1) 0xFFFFFFFF ∧
          t.regBit (R.hdrIrqStat 0) 0 = true ∧ s.regsBut t (R.topLockFailCnt :: irqRegs 0)

/-- IRQ_STAT is written to clear, IRQ_EN is written whole, and IRQ_SET sets events; a page whose interrupt a write to
IRQ_STAT or IRQ_EN leaves asserted, or that IRQ_SET makes rise, sends one message on its routed vector, or marks that
vector pending while it is masked (R370, R374). TOP_VEC_MASK is written whole; each pending vector that the write
leaves unmasked sends its one message, in rising order, and its pending bit is cleared; the pending marks of vectors
still masked stay (R374). Reading: log entry 29. -/
def Obligations.InterruptsFollowTheirRegistersAndMasks : Prop :=
  (∀ (s : State) (page : BitVec 12) (v : Word), regPage page.toNat = true → s.pageReady page.toNat = true →
    let n := page.toNat
    let route := s.routeByte n
    let sends (t : State) : Prop :=
      if route.testBit 7 then
        if s.vecMasked (route % 64) then
          t.irqOut = s.irqOut ∧
          (t.reg (if route % 64 < 32 then R.topVecPendLo else R.topVecPendHi)).testBit (route % 32) = true
        else t.irqOut = s.irqOut ++ [BitVec.ofNat 6 route] ∧
          t.reg R.topVecPendLo = s.reg R.topVecPendLo ∧ t.reg R.topVecPendHi = s.reg R.topVecPendHi
      else t.irqOut = s.irqOut ∧ t.reg R.topVecPendLo = s.reg R.topVecPendLo ∧ t.reg R.topVecPendHi = s.reg R.topVecPendHi
    let quiet (t : State) : Prop :=
      t.irqOut = s.irqOut ∧ t.reg R.topVecPendLo = s.reg R.topVecPendLo ∧ t.reg R.topVecPendHi = s.reg R.topVecPendHi
    (∃ t, exec (.irqStatClear page v) s = .next t ∧ s.onlyIrq t ∧
      (∀ k, (t.reg (R.hdrIrqStat n)).testBit k = ((s.reg (R.hdrIrqStat n)).testBit k && !v.getLsbD k)) ∧
      (if t.pageIrq n then sends t else quiet t) ∧ s.regsBut t (irqRegs n)) ∧
    (∃ t, exec (.irqEnWrite page v) s = .next t ∧ s.onlyIrq t ∧
      t.reg (R.hdrIrqEn n) = v.toNat &&& irqMask (pageKind n) ∧
      (if t.pageIrq n then sends t else quiet t) ∧
      s.regsBut t [R.hdrIrqEn n, R.topVecPendLo, R.topVecPendHi]) ∧
    (∃ t, exec (.irqSet page v) s = .next t ∧ s.onlyIrq t ∧
      t.reg (R.hdrIrqStat n) = s.reg (R.hdrIrqStat n) ||| (v.toNat &&& irqMask (pageKind n)) ∧
      (if !s.pageIrq n && t.pageIrq n then sends t else quiet t) ∧ s.regsBut t (irqRegs n))) ∧
  (∀ (s : State) (hi : Bool) (v : Word), s.pageReady 0 = true →
    let pend := if hi then R.topVecPendHi else R.topVecPendLo
    let go := (List.range 32).filter fun k => (s.reg pend).testBit k && !v.getLsbD k
    ∃ t, exec (.topVecMask hi v) s = .next t ∧ s.onlyIrq t ∧
      t.reg (if hi then R.topVecMaskHi else R.topVecMaskLo) = v.toNat ∧
      t.irqOut = s.irqOut ++ go.map (fun k => BitVec.ofNat 6 (k + if hi then 32 else 0)) ∧
      (∀ k, k < 32 → (t.reg pend).testBit k = ((s.reg pend).testBit k && v.getLsbD k)) ∧
      s.regsBut t [if hi then R.topVecMaskHi else R.topVecMaskLo, pend])

/-- Writing 1 to ERR_FIRST.VALID clears ERR_FIRST and ERR_FIRST_INFO; a write of 0 to ERR_CNT_CE or ERR_CNT_UE clears
it, and any other write to any of the three changes nothing (R370). -/
def Obligations.ErrorRegistersClearAsWritten : Prop :=
  ∀ (s : State) (page : BitVec 12) (v : Word), regPage page.toNat = true → s.pageReady page.toNat = true →
    (∃ t, exec (.errFirstClear page v) s = .next t ∧
      s.cleared t fun a => v.getLsbD 31 && (a == R.hdrErrFirst page.toNat || a == R.hdrErrFirstInfo page.toNat)) ∧
    (∀ ue : Bool, ∃ t, exec (.errCntClear page ue v) s = .next t ∧
      s.cleared t fun a => v == 0 && a == (if ue then R.hdrErrCntUe page.toNat else R.hdrErrCntCe page.toNat))

/-- CTRL of a Pier, an Abutment and the queue manager (R370, R372): ENABLE and HOLD take the bits written, an
Abutment's ENABLE reads 1 always, and a locked page ignores the write. On the top, timebase, power, test, statistics
and other pages for which R372 gives no action the write changes nothing. SOFT_RESET is the next statement's. Reading:
log entry 30. -/
def Obligations.EnableAndHoldFollowTheWrite : Prop :=
  ∀ (s : State) (page : BitVec 12) (v : Word), regPage page.toNat = true → s.pageReady page.toNat = true →
    v.getLsbD 1 = false → (∀ n, pageKind page.toNat ≠ .port n) →
    ∀ c ∈ [Instr.enable page v, Instr.hold page v], ∃ t, exec c s = .next t ∧ s.onlyRegs t ∧
      s.regsBut t [R.hdrCtrl page.toNat] ∧
      t.reg (R.hdrCtrl page.toNat) =
        if s.locked page.toNat then s.reg (R.hdrCtrl page.toNat)
        else match pageKind page.toNat with
          | .pier _ | .qmgr => b2n (v.getLsbD 0) + 4 * b2n (v.getLsbD 2)
          | .abut _ => 1 + 4 * b2n (v.getLsbD 2)
          | _ => s.reg (R.hdrCtrl page.toNat)

/-- SOFT_RESET (R19, R142, R288, R362, R364, R370), with no trip, clock loss, cold reset or self-test under way: on a
Pier's page it leaves that page's registers, locked or not, at their reset values, discards the Pier's table copies and
what stands in its joints, and touches nothing else; on a port's page whose ENABLE the write does not change, each link
that is not DISABLED goes to DETECT, its receive buffer is emptied and the marks of its lanes stay; on an Abutment's
page its lines are lost; on the Keystone's page it is a Keystone-only reset, which leaves KSTN RESETTING and not
announced; on a page of the queue, Deck or transport island it is an engine warm reset, which leaves every context zero
and BOOT_STAT in SELF-TEST, and host memory as it was where no operation touched it in an Abutment; on a page of the top
island it changes nothing. Readings: log entries 30 and 65. -/
def Obligations.SoftResetResetsThePagesIsland : Prop :=
  ∀ (s : State) (page : BitVec 12) (v : Word), regPage page.toNat = true → s.pageReady page.toNat = true →
    v.getLsbD 1 = true → s.absorbed = false → s.test = none →
    ∃ t, exec (.softReset page v) s = .next t ∧
      match pageIsland page.toNat with
      | none => True
      | some i =>
        if i = 0 then t = s
        else if i = 1 then
          2 ≤ s.bootState → t.regBits R.kstnState 31 30 = 1 ∧ t.regBit R.kstnState 29 = false ∧ t.mem = s.mem ∧
            t.ctx = s.ctx ∧ t.q = s.q
        else if i < 5 then t.ctx = [] ∧ t.q = QState.reset ∧ t.x = Xport.reset ∧ t.bootState = 1 ∧ t.joints = [] ∧
          (s.cb = [] → s.touched = [] → t.mem = s.mem)
        else if i < 37 then
          t = { s with regs := t.regs, latch := t.latch, joints := t.joints, piers := t.piers } ∧
          (∀ a, a / 4096 = page.toNat → t.reg a = regReset a) ∧
          (∀ a, a / 4096 ≠ page.toNat → a ≠ R.hdrErrFirst 0x60 → a ≠ R.hdrErrFirstInfo 0x60 → t.reg a = s.reg a) ∧
          t.joints = (s.joints.filter fun j => !decide (j.src = i ∨ j.dst = i)) ∧
          (∀ p, p ≠ i - 5 → nth t.piers p [] = nth s.piers p [])
        else if i < 61 then
          (s.locked page.toNat = true ∨ v.getLsbD 0 = s.regBit (R.hdrCtrl page.toNat) 0) →
            t.mem = s.mem ∧ t.reg (R.portLaneFault (i - 37)) = s.reg (R.portLaneFault (i - 37)) ∧
            ∀ k, k < 2 → (t.half (2 * (i - 37) + k)).buffer = [] ∧ (s.halfExists (2 * (i - 37) + k) = true →
              t.linkState (2 * (i - 37) + k) = if s.linkState (2 * (i - 37) + k) = 0 then 0 else 1)
        else (∀ l ∈ t.cb, abutOf (l.granule * 64) ≠ i - 61) ∧
          ∀ a, a / 4096 = page.toNat → t.reg a = regReset a

/-! ## Reading and writing the window -/

/-- Reading the _LO register of a 64-bit pair returns its lower half and latches the upper half of the same instant:
however the state has changed since, the next read of _HI returns the latched half. Reading a register with nothing
latched for it returns its live value (R15). Each returns the bytes asked for (R369), and a counter of a lane's checker
first counts what the checker has compared (R395). Which pairs have a _LO is the model's reading for TOP_VEC_MASK,
TOP_VEC_PEND and SNAP_Cn_ADDR (log entry 28); what a locked checker has compared is free (log entry 122). -/
def Obligations.LowReadLatchesTheHighWord : Prop :=
  ∀ (s : State) (addr : BitVec 24) (bytes : BitVec 4), addr.toNat % 4 = 0 → s.pageReady (addr.toNat / 4096) = true →
    regPage (addr.toNat / 4096) = true →
    ((loOffsets (pageKind (addr.toNat / 4096))).contains (addr.toNat % 4096) = true →
      let c := s.compareAt addr.toNat
      ∃ t, exec (.loRead ⟨addr, bytes⟩) s = .next t ∧
        t.lastRead = ⟨BitVec.ofNat 32 (c.readLive addr.toNat).1 &&& byteMask bytes, false⟩ ∧
        ∀ u : State, u.latch = t.latch → u.pageReady (addr.toNat / 4096) = true →
          ∃ w, exec (.loRead ⟨addr + 4, bytes⟩) u = .next w ∧
            w.lastRead = ⟨BitVec.ofNat 32 (c.readLive (addr.toNat + 4)).1 &&& byteMask bytes, false⟩) ∧
    ((loOffsets (pageKind (addr.toNat / 4096))).contains (addr.toNat % 4096) = false →
      (∀ p ∈ s.latch, p.1 ≠ addr.toNat) →
      ∃ t, exec (.loRead ⟨addr, bytes⟩) s = .next t ∧
        t.lastRead = ⟨BitVec.ofNat 32 (s.readLive addr.toNat).1 &&& byteMask bytes, false⟩)

/-- A control read of a page that does not answer returns zero and changes nothing else; the host reads all ones in the
bytes it asks for of an engine whose top island is out of service (R344, R369, R350). A window read of a word in a
poisoned granule returns the stored data with the poison indication, and the engine counts it in ERR_CNT_UE of the page
of its array and records UNCORRECTABLE in that page's ERR_FIRST when it holds no earlier error (R381, R33); the key bytes
of a connection, which read as zero, are not meant. Readings: log entries 21, 23 and 103. -/
def Obligations.UnansweredAndPoisonedReadsAreMarked : Prop :=
  (∀ (s : State) (addr : BitVec 24) (bytes : BitVec 4),
    ∀ c ∈ [Instr.loRead ⟨addr, bytes⟩, Instr.poisonedWindowRead ⟨addr, bytes⟩],
    (s.pwr.dead = true → exec c s = .next { s with lastRead := ⟨byteMask bytes, false⟩ }) ∧
    (s.pwr.dead = false → s.pageReady (addr.toNat / 4096) = false →
      exec c s = .next { s with lastRead := ⟨0, false⟩ })) ∧
  (∀ (s : State) (addr : BitVec 24) (bytes : BitVec 4) (w : WinWord), addr.toNat % 4 = 0 → s.winWord addr.toNat = some w →
    s.pageReady (addr.toNat / 4096) = true → ¬ (w.table = .conn ∧ 32 ≤ w.word) → ¬ (w.table = .route ∧ w.word = 1) →
    s.ctxPoison.contains (w.home / 16) = true →
    let page := (windowArray (w.home / 16)).page
    ∃ t, exec (.poisonedWindowRead ⟨addr, bytes⟩) s = .next t ∧
      t.lastRead = ⟨BitVec.ofNat 32 (leNat (s.ctxRd w.home 4)) &&& byteMask bytes, true⟩ ∧ t.ctx = s.ctx ∧
      t.ctxPoison = s.ctxPoison ∧
      t.reg (R.hdrErrCntUe page) = min (s.reg (R.hdrErrCntUe page) + 1) 0xFFFFFFFF ∧
      (s.regBit (R.hdrErrFirst page) 31 = false → t.reg (R.hdrErrFirst page) = 2 ^ 31 + 0x51) ∧
      (s.regBit (R.hdrErrFirst page) 31 = true → t.reg (R.hdrErrFirst page) = s.reg (R.hdrErrFirst page)) ∧
      s.regsBut t [R.hdrErrCntUe page, R.hdrErrFirst page, R.hdrErrFirstInfo page] ∧ t.mem = s.mem)

/-- A window write of a stream context's word is applied to the bits that software writes, and touches no other byte
of the tables. A poisoned granule stays poisoned until its four words have been written in ascending order with no
other access between: a run is marked by exactly its last write, a read of the granule or a write out of order ends it,
and only a write of the last word, as the fourth of a run, clears the poison (R380, R381, R95). Of the other tables, a
word of a connection that is enabled ignores the write, a word of a region or the low word of a route is staged and
changes no table, and any other word without a row of its own changes only itself. No word of the granule written has
flipped (R31). Reading: log entry 22. -/
def Obligations.WindowWriteAppliesAndClearsPoisonInOrder : Prop :=
  (∀ (s : State) (addr : BitVec 24) (v : Word), addr.toNat % 4 = 0 → 0x500000 ≤ addr.toNat → addr.toNat < 0x900000 →
    s.pageReady (addr.toNat / 4096) = true → s.ctx.wf = true → s.hasFlip .context (addr.toNat / 16) = false →
    let a := addr.toNat
    let m := winMask .strm (a % 256 / 4)
    let run := a % 16 = 12 ∧ (a / 16, 3) ∈ s.clearRun
    ∃ t, exec (.windowWrite addr v) s = .next t ∧
      t = { s with ctx := t.ctx, ctxPoison := t.ctxPoison, resPoison := t.resPoison, clearRun := t.clearRun } ∧
      leNat (t.ctxRd a 4) = (leNat (s.ctxRd a 4) &&& (0xFFFFFFFF ^^^ m)) ||| (v.toNat &&& m) ∧ s.ctxBut t a 4 ∧
      (s.granPoison a = true → ¬ run → t.granPoison a = true) ∧ (s.granPoison a = true → run → t.granPoison a = false) ∧
      (∀ g k, (g, k) ∈ t.clearRun ↔
        if s.granPoison a = true ∧ g = a / 16 then
          k = a % 16 / 4 + 1 ∧ k < 4 ∧ (a % 16 = 0 ∨ (g, k - 1) ∈ s.clearRun)
        else (g, k) ∈ s.clearRun) ∧
      (∀ g, g ≠ a / 16 → (g ∈ t.ctxPoison ↔ g ∈ s.ctxPoison) ∧ (g ∈ t.resPoison ↔ g ∈ s.resPoison)) ∧
      ∀ bytes, ∀ c ∈ [Instr.loRead ⟨addr, bytes⟩, Instr.poisonedWindowRead ⟨addr, bytes⟩], ∃ u, exec c s = .next u ∧
        ∀ g k, (g, k) ∈ u.clearRun ↔ (g, k) ∈ s.clearRun ∧ g ≠ a / 16) ∧
  (∀ (s : State) (addr : BitVec 24) (v : Word) (w : WinWord), addr.toNat % 4 = 0 → s.winWord addr.toNat = some w →
    s.pageReady (addr.toNat / 4096) = true → s.ctx.wf = true →
    s.hasFlip (windowArray (w.home / 16)) (w.home / 16) = false →
    (w.table, w.word) ∉ [(.conn, 0), (.region, 0), (.ctr, 0), (.cq, 2), (.ring, 2), (.route, 1)] →
    let shut := w.table = .conn ∧ s.flag (connBase w.entry) Conn.enable = true
    let staged := w.table = .region ∨ w.table = .route
    ∃ t, exec (.windowWrite addr v) s = .next t ∧
      t = { s with ctx := t.ctx, ctxPoison := t.ctxPoison, resPoison := t.resPoison, clearRun := t.clearRun
                   x := { s.x with regionStage := t.x.regionStage, routeStage := t.x.routeStage } } ∧
      s.ctxBut t w.home 4 ∧ (shut ∨ staged → t.ctx = s.ctx) ∧ (¬ staged → t.x = s.x) ∧
      (w.table = .route → t.x.routeStage = some (w.entry, v)) ∧
      (w.table = .region → ∃ l, t.x.regionStage = some (w.entry, l) ∧
        (w.word, v &&& BitVec.ofNat 32 (winMask .region w.word)) ∈ l) ∧
      (¬ shut → ¬ staged → w.table ≠ .grp → (w.table, w.word) ≠ (.ring, 3) →
        leNat (t.ctxRd w.home 4) = (leNat (s.ctxRd w.home 4) &&& (0xFFFFFFFF ^^^ winMask w.table w.word)) |||
          (v.toNat &&& winMask w.table w.word)))

/-- A write to a register with no action of its own replaces the fields that software writes, RWL ones only while the
page is not locked, clears the W1C bits written as 1, and leaves the rest of the register, every other register and
all other state as they were; an offset with no register ignores it (R16, R373), and so do the other fields of a
Caisson entry while its ARM is 1 (R314). PWR_THERM_LIMITS ignores a TRIP above 125 and a THROTTLE above 105; a staged
key word is taken unless AK_SEC is locked (R365, R278). -/
def Obligations.RegisterWriteReplacesItsFields : Prop :=
  (∀ (s : State) (addr : BitVec 24) (v : Word),
    let a := addr.toNat
    a % 4 = 0 → regPage (a / 4096) = true → 0x40 ≤ a % 4096 → ownRow (a / 4096) (a % 4096) = false →
    a ≠ R.pwrThermLimits → (∀ i, i < 8 → a ≠ R.secKey i) → s.pageReady (a / 4096) = true →
    (a / 4096 = 6 → s.armedField (a % 4096) = true → exec (.registerWrite addr v) s = .next s) ∧
    ((a / 4096 = 6 → s.armedField (a % 4096) = false) → ∃ t, exec (.registerWrite addr v) s = .next t ∧
      s.onlyRegs t ∧ s.regsBut t [a] ∧ ∀ r, regRow a = some r →
        let m := r.rw ||| (if s.locked (a / 4096) then 0 else r.rwl)
        t.reg a = ((s.reg a &&& (0xFFFFFFFF ^^^ m)) ||| (v.toNat &&& m)) &&& (0xFFFFFFFF ^^^ (r.w1c &&& v.toNat)))) ∧
  (∀ (s : State) (v : Word),
    (s.pageReady 2 = true → s.locked 2 = false →
      ∃ t, exec (.registerWrite (BitVec.ofNat 24 R.pwrThermLimits) v) s = .next t ∧ s.onlyRegs t ∧
        s.regsBut t [R.pwrThermLimits] ∧
        t.regBits R.pwrThermLimits 31 24 =
          (if 0x7D < bits v.toNat 31 24 then s.regBits R.pwrThermLimits 31 24 else bits v.toNat 31 24) ∧
        t.regBits R.pwrThermLimits 15 8 =
          (if 0x69 < bits v.toNat 15 8 then s.regBits R.pwrThermLimits 15 8 else bits v.toNat 15 8)) ∧
    (∀ i, i < 8 → s.pageReady 0x78 = true →
      ∃ t, exec (.registerWrite (BitVec.ofNat 24 (R.secKey i)) v) s = .next t ∧ s.onlyRegs t ∧
        s.regsBut t [R.secKey i] ∧ t.reg (R.secKey i) = if s.locked 0x78 then s.reg (R.secKey i) else v.toNat))

/-- A refused access, a narrow write or a write to a reserved page, changes nothing but TOP_ACCESS_ERR, which holds
the first such address, and ACCESS_ERR of the top page (R369, R375). Readings: log entries 31 and 32. -/
def Obligations.RefusedAccessIsRecorded : Prop :=
  ∀ (s : State) (addr : BitVec 24), s.pageReady 0 = true →
    ∃ t, exec (.accessRefused addr) s = .next t ∧ s.onlyIrq t ∧
      t.reg R.topAccessErr = (if s.regBit R.topAccessErr 31 then s.reg R.topAccessErr else 2 ^ 31 + addr.toNat) ∧
      t.regBit (R.hdrIrqStat 0) 1 = true ∧ s.regsBut t (R.topAccessErr :: irqRegs 0)

/-- A write to RNG_SEED_LO or RNG_SEED_HI only stages the seed and reads back; COMMIT makes the staged seed active in
one step; a descriptor already dispatched keeps the seed that was active at its dispatch, and one dispatched later
takes the new one (R61). A write to RNG_TEST_INDEX_HI evaluates the Trestle once, with the active seed and the step,
stream and index of the test registers, into RNG_TEST_OUT (R63, R60). -/
def Obligations.SeedCommitTakesTheStagedSeed : Prop :=
  (∀ (s : State) (v : Word), s.pageReady 4 = true →
    (∀ a ∈ [R.rngSeedLo, R.rngSeedHi], ∃ t, exec (.registerWrite (BitVec.ofNat 24 a) v) s = .next t ∧
      t.seed = s.seed ∧ (s.locked 4 = false → t.reg a = v.toNat) ∧ t.q = s.q ∧
      (t.latch = [] → ∃ u, exec (.loRead ⟨BitVec.ofNat 24 a, 0xF⟩) t = .next u ∧
        u.lastRead.data = BitVec.ofNat 32 (t.reg a))) ∧
    (∃ t, exec (.rngCtrlCommit v) s = .next t ∧ s.onlyRegs t ∧ s.regsBut t [R.rngActiveLo, R.rngActiveHi] ∧
      t.seed = (if v.getLsbD 0 then BitVec.ofNat 64 (s.reg R.rngSeedLo + s.reg R.rngSeedHi * 2 ^ 32) else s.seed) ∧
      t.q.live = s.q.live ∧ ∀ w, (t.dispatch w).1.seed = t.seed)) ∧
  (∀ (s : State) (v : Word), s.pageReady 4 = true →
    ∃ t, exec (.rngTest v) s = .next t ∧ s.onlyRegs t ∧ s.regsBut t [R.rngTestIndexHi, R.rngTestOut] ∧
      t.reg R.rngTestIndexHi = v.toNat % 256 ∧
      t.reg R.rngTestOut = (trestle s.seed (BitVec.ofNat 32 (s.reg R.rngTestStep))
        (BitVec.ofNat 24 (s.reg R.rngTestStream))
        (BitVec.ofNat 40 (s.reg R.rngTestIndexLo + v.toNat % 256 * 2 ^ 32))).toNat)

/-! ## Rings, completion queues, counters and the pre-posted store -/

/-- The doorbells (R227, R242, R274). A ring takes its new producer index only while it is enabled and not stopped and
(PI - CI) mod 2^20 does not exceed its size; any other doorbell is ignored and records BOUNDS. A completion queue
takes its consumer index; a receive queue takes its producer index within its size. Nothing else changes.
QMGR_PP_CANCEL (R239): a waiting descriptor is taken from its slot with no record written, and its counter's waiters
fall by one; an empty slot answers empty; one that is enabled answers so and stays. -/
def Obligations.DoorbellsMoveIndicesAndCancelFreesASlot : Prop :=
  (∀ (s : State) (v : Word), s.ctx.wf = true →
    (s.pageReady 7 = true →
      (let r := bits v.toNat 31 20
       let b := ringBase r
       let takes := s.flag b Ring.enable && !s.flag b Ring.stopped &&
         decide ((bits v.toNat 19 0 + 2 ^ 20 - s.fld b Ring.ci) % 2 ^ 20 ≤ 2 ^ s.fld b Ring.log2Size)
       ∃ t, exec (.qmgrRingDb v) s = .next t ∧
         (takes = true → s.onlyCtx t ∧ s.ctxBut t (b + 0xB) 5 ∧ t.fld b Ring.pi = bits v.toNat 19 0 ∧
           t.fld b Ring.ci = s.fld b Ring.ci) ∧
         (takes = false → s.onlyRegs t ∧ s.regsBut t [R.hdrErrFirst 7, R.hdrErrFirstInfo 7] ∧
           t.reg (R.hdrErrFirst 7) = if s.regBit (R.hdrErrFirst 7) 31 then s.reg (R.hdrErrFirst 7) else 2 ^ 31 + 0x23)) ∧
      (let b := cqBase (bits v.toNat 31 20)
       ∃ t, exec (.qmgrCqDb v) s = .next t ∧ s.onlyCtx t ∧ s.ctxBut t (b + 0x10) 4 ∧
         t.fld b Cq.ci = bits v.toNat 19 0)) ∧
    (s.pageReady 0x70 = true →
      let b := srqBase (bits v.toNat 31 22)
      ∃ t, exec (.rmaSrqDb v) s = .next t ∧ s.onlyCtx t ∧ s.ctxBut t (b + 0x10) 4 ∧
        t.fld b Srq.pi = if (bits v.toNat 19 0 + 2 ^ 20 - s.fld b Srq.ci) % 2 ^ 20 ≤ 2 ^ s.fld b Srq.log2Slots
          then bits v.toNat 19 0 else s.fld b Srq.pi)) ∧
  (∀ (s : State) (v : Word), s.pageReady 7 = true → s.ctx.wf = true →
    let p := bits v.toNat 16 0
    ∃ t, exec (.qmgrPpCancel v) s = .next t ∧ s.regsBut t [R.qmgrPpCancelRes] ∧
      t = { s with regs := t.regs, ctx := t.ctx, q := { s.q with store := t.q.store } } ∧
      match s.q.store.find? fun x => x.slot == p with
      | none => t.reg R.qmgrPpCancelRes = 2 ^ 31 + 1 ∧ t.q = s.q ∧ t.ctx = s.ctx
      | some x =>
        let b := ctrBase x.desc.trigCtr.toNat
        if x.enabled then t.reg R.qmgrPpCancelRes = 2 ^ 31 + 2 ∧ t.q = s.q ∧ t.ctx = s.ctx
        else t.reg R.qmgrPpCancelRes = 2 ^ 31 ∧ t.q.store = s.q.store.filter (fun y => y.slot != p) ∧
          s.ctxBut t (b + 4) 4 ∧ t.fld b Ctr.waiters = s.fld b Ctr.waiters - 1)

/-- A write to QMGR_SPAN_SHARE takes effect only when the four shares sum to 96, CAND and RETAIN are each at least 4,
STAGE_IN and STAGE_OUT each at least 1 and together at least 4, no ring is enabled, and the outbound, inbound and
retained shares are empty; any other write records BOUNDS in ERR_FIRST of AK_QMGR unless an earlier error is held, and
changes nothing else; the reset shares are 24, 32, 24 and 16 MiB (R247). What takes room in a share is log entry 43.
-/
def Obligations.SpanShareTakesOnlyAValidPartition : Prop :=
  State.reset.share 0 = 24 * 2 ^ 20 ∧ State.reset.share 8 = 32 * 2 ^ 20 ∧
  State.reset.share 16 = 24 * 2 ^ 20 ∧ State.reset.share 24 = 16 * 2 ^ 20 ∧
  ∀ (s : State) (v : Word), s.pageReady 7 = true → s.locked 7 = false →
    let f (hi lo : Nat) := bits v.toNat hi lo
    let valid := f 31 24 + f 23 16 + f 15 8 + f 7 0 = 96 ∧ 4 ≤ f 31 24 ∧ 4 ≤ f 23 16 ∧ 1 ≤ f 15 8 ∧ 1 ≤ f 7 0 ∧
      4 ≤ f 15 8 + f 7 0 ∧ (∀ r, r < 4096 → s.flag (ringBase r) Ring.enable = false) ∧
      s.usedOut = 0 ∧ s.usedIn = 0 ∧ s.usedRetain = 0
    ∃ t, exec (.qmgrSpanShare v) s = .next t ∧ s.onlyRegs t ∧
      (valid → t.reg R.qmgrSpanShare = v.toNat ∧ s.regsBut t [R.qmgrSpanShare]) ∧
      (¬ valid → s.regsBut t [R.hdrErrFirst 7, R.hdrErrFirstInfo 7] ∧
        t.reg (R.hdrErrFirst 7) = if s.regBit (R.hdrErrFirst 7) 31 then s.reg (R.hdrErrFirst 7) else 2 ^ 31 + 0x23)

/-- The control word of a ring (R226, R227): LOG2_SIZE and ERR_CQ follow the write; a rise of ENABLE is refused while
BASE names a span-buffer offset outside the candidate share, and else sets STOPPED to 0 and keeps CI; while ENABLE was
1 the producer index is kept too. Nothing beyond the ring's 16 bytes and the poison bookkeeping of its granule
changes. The control word of a completion queue (R241, R242): its fields follow the write; a rise of ENABLE sets PI,
CI, RESV and SINCE_IRQ to 0; a fall takes the credit from every outstanding descriptor that names the queue and lets
those that wait run without one. (The first 16 bytes of the entry hold no flipped word.) -/
def Obligations.RingAndCompletionQueueControlFollowTheWrite : Prop :=
  (∀ (s : State) (ring : BitVec 12) (v : Word), s.pageReady 0xF50 = true → s.ctx.wf = true →
    s.hasFlip .span (ringBase ring.toNat / 16) = false →
    ∀ c ∈ [Instr.ringEnable ring v, Instr.ringDisable ring v],
    let b := ringBase ring.toNat
    let was := s.flag b Ring.enable
    let outside := (s.fld b Ring.base).testBit 63 &&
      decide (s.regBits R.qmgrSpanShare 31 24 * 2 ^ 20 ≤ bits (s.fld b Ring.base) 26 0)
    let on := v.getLsbD 7 && (was || !outside)
    ∃ t, exec c s = .next t ∧
      t = { s with ctx := t.ctx, ctxPoison := t.ctxPoison, resPoison := t.resPoison, clearRun := t.clearRun } ∧
      s.ctxBut t (b + 8) 4 ∧
      t.flag b Ring.enable = on ∧ t.fld b Ring.log2Size = bits v.toNat 4 0 ∧ t.fld b Ring.errCq = bits v.toNat 19 8 ∧
      t.flag b Ring.stopped = (s.flag b Ring.stopped && !(!was && on)) ∧ t.fld b Ring.ci = s.fld b Ring.ci ∧
      (was = true → t.fld b Ring.pi = s.fld b Ring.pi) ∧
      (was = false → t.fld b Ring.pi = setBits (s.fld b Ring.pi) 7 0 (bits v.toNat 31 24))) ∧
  (∀ (s : State) (cq : BitVec 12) (v : Word), s.pageReady 0xF00 = true → s.ctx.wf = true →
    s.hasFlip .context (cqBase cq.toNat / 16) = false →
    let b := cqBase cq.toNat
    let was := s.flag b Cq.enable
    let on := v.getLsbD 7
    ∃ t, exec (.cqEnable cq v) s = .next t ∧
      t.flag b Cq.enable = on ∧ t.fld b Cq.log2Size = bits v.toNat 4 0 ∧ t.fld b Cq.irqMode = bits v.toNat 15 14 ∧
      t.fld b Cq.vec = bits v.toNat 13 8 ∧ t.fld b Cq.coalesce = bits v.toNat 31 16 ∧
      (was = false → on = true → t.fld b Cq.pi = 0 ∧ t.fld b Cq.ci = 0 ∧ t.fld b Cq.resv = 0 ∧ t.fld b Cq.sinceIrq = 0) ∧
      (was = true ∨ on = false → s.ctxBut t (b + 8) 4) ∧
      (was = true → on = false → t.q.live = s.q.live.map fun l => if l.desc.cq = cq then { l with credit := false } else l) ∧
      (was = false ∨ on = true → t.q = s.q) ∧ s.ctxBut t b 0x40 ∧ t.mem = s.mem ∧ t.regs = s.regs ∧ t.x = s.x)

/-- A software write of a trigger counter (R237, R238): VALUE becomes the value written, and exactly the waiting
descriptors of that counter for which (VALUE - T) mod 2^32 is below 2^31 become enabled; one that was enabled stays
so, and no other counter's descriptor changes. The counter's first 16 bytes hold no flipped word. -/
def Obligations.CounterWriteEnablesPassedThresholds : Prop :=
  ∀ (s : State) (ctr : BitVec 16) (v : Word), s.pageReady 0xD00 = true → s.ctx.wf = true →
    s.hasFlip .context (ctrBase ctr.toNat / 16) = false →
    ∃ t, exec (.counterValueWrite ctr v) s = .next t ∧
      t.fld (ctrBase ctr.toNat) Ctr.value = v.toNat ∧
      t.fld (ctrBase ctr.toNat) Ctr.raises = (s.fld (ctrBase ctr.toNat) Ctr.raises + 1) % 2 ^ 32 ∧
      (∀ y, y ∈ t.q.store ↔ ∃ x ∈ s.q.store, y = if x.desc.trigCtr = ctr ∧
        (v - x.desc.trigThresh).toNat < 2 ^ 31 then { x with enabled := true } else x) ∧
      t = { s with ctx := t.ctx, ctxPoison := t.ctxPoison, resPoison := t.resPoison, clearRun := t.clearRun
                   q := { s.q with store := t.q.store } } ∧
      s.ctxBut t (ctrBase ctr.toNat) 12

/-! ## Descriptors -/

/-- A descriptor's command (R197, R233, R234, R242, R246): while something holds it, it stands among the heads and nothing
else happens; while its queue has no credit it waits, and a ring's head that does is counted once; while another that
may be dispatched has its turn first it waits too; otherwise it is dispatched, out of the heads and the store, taking a
credit of its enabled queue, the active seed and the next place among the outstanding, and its opcode's work begins. One
that is outstanding and has not begun, or that is stored and not enabled, is not dispatched again. -/
def Obligations.DescriptorsRunWhenNothingHoldsThem : Prop :=
  ∀ (c : Instr) (op : Nat) (d : Desc) (s : State), descOp c = some (op, d) → s.up 2 = true →
    (s.fresh op d = false → exec c s = .next s) ∧
    (s.fresh op d = true →
    let w := (s.enter op d).1
    let e := (s.enter op d).2
    let l := (s.begun op d).1
    let u := (s.begun op d).2
    (e.heldHead w = true → exec c s = .next e ∧
      e = { s with q := { s.q with waiting := e.q.waiting, nextRead := e.q.nextRead } }) ∧
    (e.heldHead w = false → e.noCredit w = true → exec c s = .next (e.countWait w) ∧
      (e.countWait w).reg R.qmgrCqWaitCnt = (if w.counted = true ∨ isPrepost d = true then s.reg R.qmgrCqWaitCnt
        else min (s.reg R.qmgrCqWaitCnt + 1) 0xFFFFFFFF)) ∧
    (e.heldHead w = false → e.noCredit w = false → e.outranked w = true → exec c s = .next e) ∧
    (e.heldHead w = false → e.noCredit w = false → e.outranked w = false → exec c s = .next (startBy op l u) ∧
      l.id = s.q.nextId ∧ l.op = op ∧ l.desc = d ∧ l.seed = s.seed ∧ l.phase = .start ∧
      (l.credit = true → s.cqOn d.cq.toNat = true) ∧ u.q.live = s.q.live ++ [l] ∧ u.q.nextId = s.q.nextId + 1 ∧
      u.q.waiting = (e.q.waiting.filter fun x => x.order != w.order) ∧
      u.q.store = (s.q.store.filter fun x => x.order != w.order) ∧
      u = { s with regs := u.regs, ctx := u.ctx, q := { s.q with
        waiting := u.q.waiting, store := u.q.store, live := u.q.live, nextId := u.q.nextId, nextRead := e.q.nextRead
        lastChans := u.q.lastChans } } ∧
      u.reg64 R.qmgrDispatchLo = (s.reg64 R.qmgrDispatchLo + 1) % 2 ^ 64 ∧
      s.regsBut u [R.qmgrDispatchLo, R.qmgrDispatchLo + 4] ∧
      (s.ctx.wf = true → s.ctxBut u (cqBase d.cq.toNat) 64 ∧ u.fld (cqBase d.cq.toNat) Cq.resv =
        (s.fld (cqBase d.cq.toNat) Cq.resv + b2n l.credit) % 2 ^ 20)))

/-- The completion of a descriptor (R22, R237, R242, R243): it is no longer outstanding. With a credit and no ERR_ONLY
suppression its 16-byte record stands at BASE + 16 (PI mod 2^LOG2_SIZE) and no other byte of host memory changes; PI
moves on; the credit returns. ERR_ONLY writes nothing for a status below 0x10; without a credit the record is dropped
and counted. DONE_CTR rises by one on a status below 0x10, or on any status with DONE_ANY, and stays as it was when its
entry is known to be uncorrectable (R244). -/
def Obligations.CompletionWritesItsRecordAndRaisesItsCounter : Prop :=
  ∀ (s : State) (l : Live) (r : Result), s.ctx.wf = true → s.mem.wf = true → s.cb = [] →
    let t := s.completeOne l r
    let b := cqBase l.desc.cq.toNat
    let n := s.fld b Cq.pi
    let a := s.fld b Cq.base + 16 * (n % 2 ^ s.fld b Cq.log2Size)
    let quiet := l.desc.errOnly && decide (r.status < 0x10)
    let c := ctrBase l.desc.doneCtr.toNat
    t.q.live = s.q.live.filter (fun x => x.id != l.id) ∧
    (quiet = false → l.credit = true → r.status < 256 → r.count < 2 ^ 40 →
      t.rd a 16 = toLE 1 r.status ++ toLE 1 l.op ++ toLE 1 (min r.passes 255) ++
        toLE 1 (b2n (decide (n / 2 ^ s.fld b Cq.log2Size % 2 = 0)) * 128 + b2n r.nf.isSome * 64 +
          b2n (isPrepost l.desc) * 32) ++
        toLE 2 l.desc.tag.toNat ++ toLE 5 r.count ++ toLE 5 (r.nf.getD 0) ∧
      s.memBut t a 16 ∧ t.fld b Cq.pi = (n + 1) % 2 ^ 20) ∧
    (quiet = true ∨ l.credit = false → t.mem = s.mem ∧ t.fld b Cq.pi = n) ∧
    (quiet = false → l.credit = false →
      t.reg R.qmgrCqDropCnt = min (s.reg R.qmgrCqDropCnt + 1) 0xFFFFFFFF ∧ t.regBit (R.hdrIrqStat 7) 2 = true) ∧
    t.fld b Cq.resv = s.fld b Cq.resv - b2n l.credit ∧
    t = { s with
      mem := t.mem, memPoison := t.memPoison, regs := t.regs, irqOut := t.irqOut, ctx := t.ctx, ctxPoison := t.ctxPoison
      upsets := t.upsets, touched := s.touched.filter fun p => p.1 != l.id
      q := { s.q with live := t.q.live, store := t.q.store } } ∧
    (s.ctxPoison.contains (c / 16) = true → t.fld c Ctr.value = s.fld c Ctr.value) ∧
    (s.cleanTables = true →
     let up := l.desc.doneEn && (l.desc.doneAny || decide (r.status < 0x10))
     t.fld c Ctr.value = (s.fld c Ctr.value + b2n up) % 2 ^ 32 ∧
     t.fld c Ctr.raises = (s.fld c Ctr.raises + b2n up) % 2 ^ 32)

/-- NOP completes with OK and COUNT 0 as soon as it is dispatched, whatever its operand bytes hold (R232). -/
def Obligations.NopCompletesAtDispatch : Prop :=
  ∀ (s : State) (d : Desc), s.goes 0x00 d = true →
    exec (.nop d) s = .next ((s.begun 0x00 d).2.finish (s.begun 0x00 d).1 ⟨0, 0, 0, none⟩)

/-- FENCE and local COUNTER_ADD (R235, R240). A FENCE of SCOPE 0 or 1 completes with OK when nothing that it waits for
is outstanding, and otherwise waits for exactly those: the earlier ones of its ring, or every one; SCOPE 2 and 3 give
FORMAT_VERSION. COUNTER_ADD sets its counter's VALUE, or adds to it, before it completes with OK, and ends with
UNCORRECTABLE, the counter as it was, when its entry is known to be uncorrectable (R244). -/
def Obligations.FenceWaitsAndCounterAddApplies : Prop :=
  ∀ (s : State) (d : Desc),
    (s.goes 0x42 d = true →
      let l := (s.begun 0x42 d).1
      let u := (s.begun 0x42 d).2
      let scope := opBits d 0x20 1 1 0
      let waits := (s.q.live.filter fun x => scope == 1 || decide (x.ring = l.ring ∧ x.order < l.order))
      (∀ x ∈ s.q.live, x.id < s.q.nextId) →
      (2 ≤ scope → exec (.fence d) s = .next (u.finish l ⟨0x70, 0, 0, none⟩)) ∧
      (scope < 2 → waits = [] → exec (.fence d) s = .next (u.finish l ⟨0, 0, 0, none⟩)) ∧
      (scope < 2 → waits ≠ [] →
        exec (.fence d) s = .next { u with q := { u.q with
          live := s.q.live ++ [{ l with phase := .fence (waits.map fun x => x.id) }] } })) ∧
    (s.goes 0x43 d = true → opBit d 0x22 0 = false → s.ctx.wf = true →
      let c := ctrBase (opd d 0x20 2)
      let b := (s.begun 0x43 d).2
      (s.cleanTables = true →
        ∃ (u : State), exec (.counterAdd d) s = .next (u.finish (s.begun 0x43 d).1 ⟨0, 0, 0, none⟩) ∧
          u = { b with ctx := u.ctx, q := { b.q with store := u.q.store } } ∧
          u.fld c Ctr.value = (if opBit d 0x22 1 then opd d 0x24 4 else s.fld c Ctr.value + opd d 0x24 4) % 2 ^ 32 ∧
          u.fld c Ctr.raises = (s.fld c Ctr.raises + 1) % 2 ^ 32) ∧
      (s.ctxPoison.contains (c / 16) = true →
        ∃ (u : State), exec (.counterAdd d) s = .next (u.finish (s.begun 0x43 d).1 ⟨0x51, 0, 0, none⟩) ∧
          u.ctx = b.ctx ∧ u.q = b.q ∧ u.mem = b.mem))

/-- SELECT and MERGE (R73, R86-R93). A failed check ends either with its status; with no Pier that may work either waits.
SELECT of good values, all finite or with non-finite ones excluded, completes with OK, or PARTIAL when a chunk held
fewer than its share, and COUNT the entries it wrote, at most K; its list's summary states that number; memory outside
the summary and entries is untouched; a non-finite value that is not excluded ends it with NONFINITE_INPUT and nothing
written. MERGE of lists in order whose union fits completes with OK and writes within its capacity. Of the registers
only those of Piers change. -/
def Obligations.SelectAndMergeWriteTheirLists : Prop :=
  ∀ (s : State) (d : Desc), s.memPoison = [] → s.mem.wf = true →
    (s.goes 0x03 d = true →
      let l := (s.begun 0x03 d).1
      let u := (s.begun 0x03 d).2
      let dst := opd d 0x28 8
      let finite := ∀ c ∈ chunksOfRange 0 (opd d 0x30 5) (opd d 0x36 2 * 1024), ∀ e ∈ u.selRead d c, e.nf = false
      (∀ st, selectCheck d = some st → exec (.select d) s = .next (u.finish l ⟨st, 0, 0, none⟩)) ∧
      (selectCheck d = none → u.freePiers = [] → exec (.select d) s = .next u) ∧
      (selectCheck d = none → u.freePiers ≠ [] → finite ∨ opBit d 0x35 6 = true →
        ∃ (v : State) (n passes st : Nat) (nf : Option Nat), exec (.select d) s = .next (v.finish l ⟨st, n, passes, nf⟩) ∧
          u.computes v ∧ u.regsIn v pierPage ∧ v.cb = u.cb ∧ (nf = none ↔ finite) ∧ n ≤ opd d 0x38 4 ∧
          (st = 0 ∨ st = 1) ∧ (st = 0 → n = opd d 0x38 4) ∧ leNat (v.rd dst 5) = n ∧ s.memBut v dst (64 + 16 * n)) ∧
      (selectCheck d = none → u.freePiers ≠ [] → ¬ finite → opBit d 0x35 6 = false →
        ∃ (v : State) (nf : Nat), exec (.select d) s = .next (v.finish l ⟨0x10, 0, 1, some nf⟩) ∧ u.computes v ∧
          u.regsIn v pierPage ∧ v.mem = s.mem)) ∧
    (s.goes 0x05 d = true →
      let l := (s.begun 0x05 d).1
      let u := (s.begun 0x05 d).2
      let table := opd d 0x20 8
      let dst := opd d 0x28 8
      let n := opBits d 0x30 1 6 0
      let list (i : Nat) := s.mergeList i (s.rdN (table + 16 * i) 8) (leNat (s.rd (table + 16 * i + 8) 5))
      let right := 1 ≤ n ∧ n ≤ 64 ∧ table % 64 = 0 ∧ dst % 64 = 0 ∧ ∀ i, i < n → s.rdN (table + 16 * i) 8 % 16 = 0
      (¬ right → exec (.merge d) s = .next (u.finish l ⟨0x23, 0, 0, none⟩)) ∧
      (right → u.freePiers = [] → exec (.merge d) s = .next u) ∧
      (right → u.freePiers ≠ [] →
        ∃ (v : State) (st : Nat) (nf : Option Nat), exec (.merge d) s = .next (v.finish l ⟨st, 0, 0, nf⟩) ∧ u.computes v ∧
          u.regsIn v pierPage ∧ v.cb = u.cb ∧ v.memPoison = [] ∧ (st = 0 ∨ st = 0x23) ∧
          leNat (v.rd dst 5) ≤ opd d 0x34 4 ∧ s.memBut v dst (64 + 16 * opd d 0x34 4) ∧
          ((∀ i, i < n → (list i).Pairwise fun a b => a.idx < b.idx) →
            ((List.range n).map fun i => (list i).length).sum ≤ opd d 0x34 4 → st = 0)))

/-- STATS and COMPRESS (R96, R106, R114, R119, R177). With clean tables, each waits while its stream is held or no Pier
may work. A failed check ends either with its status, COMPRESS leaving COMPRESS_STATUS and a pack that will be skipped;
otherwise STATS completes with STATS_STEP and STATS_STATUS written, and COMPRESS with COMPRESS_STEP, COMPRESS_STATUS and
a pack of the step that a send role may take. Of the registers only those of Piers change. Readings: log entries 76 to
78. -/
def Obligations.StatsAndCompressKeepTheirStream : Prop :=
  ∀ (s : State) (d : Desc), s.cleanTables = true → s.ctx.wf = true →
    let ctx := opBits d 0x20 2 13 0
    let b := strmBase ctx
    let step := opd d 0x24 4
    let record := opBit d 0x28 0
    let c := s.stream ctx
    let listed := s.rowsInForce c (if c.outAuto then 0 else c.outN) true
    (s.goes 0x02 d = true →
      let l := (s.begun 0x02 d).1
      let u := (s.begun 0x02 d).2
      (u.streamHeld l = true → exec (.stats d) s = .next u) ∧
      (u.streamHeld l = false →
        (∀ st, s.streamCheck c false record = .error st → exec (.stats d) s = .next (u.finish l ⟨st, 0, 0, none⟩)) ∧
        (∀ r st, s.streamCheck c false record = .ok r → listed = .error st →
          exec (.stats d) s = .next (u.finish l ⟨st, 0, 0, none⟩)) ∧
        (∀ r rows, s.streamCheck c false record = .ok r → listed = .ok rows → u.freePiers = [] →
          exec (.stats d) s = .next u) ∧
        (∀ r rows, s.streamCheck c false record = .ok r → listed = .ok rows → u.freePiers ≠ [] →
          ∃ (v : State) (st : Nat) (nf : Option Nat), exec (.stats d) s = .next (v.finish l ⟨st, 0, 1, nf⟩) ∧
            u.streams v ∧ u.regsIn v pierPage ∧ v.cb = u.cb ∧
            v.fld b Strm.statsStep = step ∧ v.fld b Strm.statsStatus = st ∧ v.fld b Strm.nf = b2n nf.isSome ∧
            u.ctxBut v b 256 ∧ (s.memPoison = [] → nf = none → st = 0)))) ∧
    (s.goes 0x01 d = true →
      let l := (s.begun 0x01 d).1
      let u := (s.begun 0x01 d).2
      let ready := s.statsDone c step && s.rowsStep c step
      let rowsNow := s.rowsInForce c (if c.outN = 0 then 0 else if c.outAuto then s.fld b Strm.outCount else c.outN)
        (!c.outAuto)
      let fails (st : Nat) : Prop := s.streamCheck c true record = .error st ∨
        ∃ r, s.streamCheck c true record = .ok r ∧
          (ready = false ∧ st = 0x23 ∨ ready = true ∧ (l.stale = true ∧ st = 0x32 ∨ l.stale = false ∧
            (rowsNow = .error st ∨ ∃ rows, rowsNow = .ok rows ∧ (s.takeScale c).1 = .error st)))
      (u.streamHeld l = true ∨ u.freePiers = [] → exec (.compress d) s = .next u) ∧
      (u.streamHeld l = false → u.freePiers ≠ [] →
        (∀ st, fails st →
          ∃ (v : State), exec (.compress d) s = .next (v.finish l ⟨st, 0, 0, none⟩) ∧ u.streams v ∧ v.mem = u.mem ∧
            v.regs = u.regs ∧ u.ctxBut v b 256 ∧ v.fld b Strm.compressStep = step ∧ v.fld b Strm.compressStatus = st ∧
            (⟨ctx, step, d.channel.toNat, d.seq.toNat, false, true, []⟩ : Pack) ∈ v.q.packs) ∧
        (∀ r rows sc, s.streamCheck c true record = .ok r → ready = true → l.stale = false →
          (s.takeScale c).1 = .ok sc → rowsNow = .ok rows →
          ∃ (v : State) (st passes : Nat) (nf : Option Nat),
            exec (.compress d) s = .next (v.finish l ⟨st, 0, passes, nf⟩) ∧ u.streams v ∧ u.regsIn v pierPage ∧
            v.cb = u.cb ∧ u.ctxBut v b 256 ∧
            v.fld b Strm.compressStep = step ∧ v.fld b Strm.compressStatus = st ∧
            (∃ p ∈ v.q.packs, p.ctx = ctx ∧ p.step = step ∧ p.channel = d.channel.toNat ∧ p.seq = d.seq.toNat ∧
              p.taken = false ∧ p.skip = false ∧ ∀ x ∈ p.spans, x.ctx = ctx ∧ x.step = step) ∧
            (c.scaleSrc = 0 → v.fld b Strm.scale = sc) ∧
            (c.resFmt = 0 → c.outN = 0 → c.int32 = false → v.mem = u.mem))))

/-- EXPAND, ACT_LOAD and ACT_SAVE (R73, R158-R163). Over a span whose header passes its checks, EXPAND and ACT_LOAD
complete and write within CAP elements of the output; a misaligned address, an output format that is none, a header or a
shape that fails ends them with its status, a failed header logged; with no Pier that may work they wait. ACT_SAVE of
good values completes with OK and COUNT the bytes it wrote, within its capacity, and writes no others; a failed check
ends it with its status. Of the registers only those of Piers and of the table page, and pending vectors, change. -/
def Obligations.ExpandLoadAndSaveStayWithinTheirOutput : Prop :=
  ∀ (s : State) (d : Desc) (load : Bool),
    (let op := if load then 0x07 else 0x04
     let i : Instr := if load then .actLoad d else .expand d
     s.goes op d = true →
      let l := (s.begun op d).1
      let u := (s.begun op d).2
      let dst := opd d 0x28 8
      let out := opBits d 0x35 1 7 4
      let level1 := opBit d 0x35 3
      let x := s.hostSpan (opd d 0x20 8)
      let header := checkSpanHdr (s.accept (if level1 then 1 else 2)) x
      let shape := expandShape (parseSpanHdr x.raw) load level1 (opBit d 0x35 2) out (opd d 0x30 5)
      let placed := opd d 0x20 8 % 64 = 0 ∧ dst % 64 = 0
      (¬ placed → exec i s = .next (u.finish l ⟨0x23, 0, 0, none⟩)) ∧
      (placed → out ∉ [0, 6, 8] → exec i s = .next (u.finish l ⟨0x70, 0, 0, none⟩)) ∧
      (placed → out ∈ [0, 6, 8] → u.freePiers = [] → exec i s = .next u) ∧
      (placed → out ∈ [0, 6, 8] → u.freePiers ≠ [] →
        (∀ st, header = some st →
          exec i s = .next ((u.logReject l.op st x 0 0).finish l ⟨st, 0, 0, none⟩)) ∧
        (∀ st, header = none → shape = some st → exec i s = .next (u.finish l ⟨st, 0, 0, none⟩)) ∧
        (header = none → shape = none →
          ∃ (v : State) (st n : Nat) (nf : Option Nat), exec i s = .next (v.finish l ⟨st, n, 0, nf⟩) ∧ u.computes v ∧
            u.regsIn v (fun n => pierPage n || n == 5 || n == 0) ∧ v.cb = u.cb ∧ s.memBut v dst (4 * opd d 0x30 5)))) ∧
    (s.goes 0x06 d = true →
      let l := (s.begun 0x06 d).1
      let u := (s.begun 0x06 d).2
      (∀ st, u.saveCheck l = some st → exec (.actSave d) s = .next (u.finish l ⟨st, 0, 0, none⟩)) ∧
      (u.saveCheck l = none → u.freePiers = [] → exec (.actSave d) s = .next u) ∧
      (u.saveCheck l = none → u.freePiers ≠ [] → s.memPoison = [] →
        ∃ (v : State) (n : Nat), exec (.actSave d) s = .next (v.finish l ⟨0, n, 0, none⟩) ∧ u.computes v ∧
          u.regsIn v pierPage ∧ v.cb = u.cb ∧ n ≤ opd d 0x3C 4 ∧ s.memBut v (opd d 0x28 8) n))

/-- The operations of the Abutments (R207-R213, R215-R224), over good memory and an empty coalescing buffer, with every
Abutment at work. A failed check ends each with its status. ATOMIC_MAX completes with OK and leaves in every cell the
larger of cell and operand; RESCALE completes with OK and leaves the codes of its inputs, packed; DOT completes with OK
and leaves its record; UPDATE records AMAX_STEP on pass 1 and, where what it writes is apart, leaves on passes 0 and 2
the weights and moments of each element, and its scales and amaxes; with a sparse gradient it completes when its spans
are good. Memory outside what an operation writes, seen before its lines are written back, is as it was, and of the
registers only those of Abutments, with Piers and the table page where spans are read, change. -/
def Obligations.AbutmentsComputeInPlace : Prop :=
  ∀ (s : State) (d : Desc), s.calm = true → s.mem.wf = true → (∀ n, n < 8 → s.abutFree n = true) →
    (∀ n, n < 8 → s.abutGone n = false) →
    (s.goes 0x16 d = true → opBit d 0x35 7 = false →
      let l := (s.begun 0x16 d).1
      let b := (s.begun 0x16 d).2
      let dst := opd d 0x28 8
      let n := opBits d 0x36 2 12 0
      let old (j : Nat) := s.rdN (dst + 4 * j) 4
      let arg (j : Nat) := if opBit d 0x38 0 then opd d 0x20 4 else s.rdN (opd d 0x20 8 + 4 * j) 4
      (maxBad d = true → exec (.atomicMax d) s = .next (b.finish l ⟨0x23, 0, 0, none⟩)) ∧
      (maxBad d = false →
        ∃ (v : State) (nf : Option Nat), exec (.atomicMax d) s = .next (v.finish l ⟨0, n, 0, nf⟩) ∧
          b.computes v ∧ b.regsIn v abutPage ∧ v.memPoison = [] ∧
          (∀ j, j < n → leNat (v.seen (dst + 4 * j) 4).1 = (maxCell (old j) (arg j)).1) ∧
          (nf = none ↔ ∀ j, j < n → (maxCell (old j) (arg j)).2.2 = false) ∧ s.memBut v dst (4 * n))) ∧
    (s.goes 0x20 d = true → opBits d 0x3F 1 7 6 = 0 →
      let l := (s.begun 0x20 d).1
      let b := (s.begun 0x20 d).2
      let src := opd d 0x20 8
      let dst := opd d 0x28 8
      let sin := opd d 0x30 4
      let sout := opd d 0x34 4
      let n := opd d 0x38 5
      let out := opBits d 0x3D 1 7 4
      let w := (VFmt.ofCode out).width
      let placed := src % 64 = 0 ∧ dst % 64 = 0 ∧ n ≠ 0
      let finite := scaleBad sin = false ∧ (out < 6 → scaleBad sout = false)
      (out ∉ [1, 2, 6, 8] → exec (.rescale d) s = .next (b.finish l ⟨0x70, 0, 0, none⟩)) ∧
      (out ∈ [1, 2, 6, 8] → ¬ placed → exec (.rescale d) s = .next (b.finish l ⟨0x23, 0, 0, none⟩)) ∧
      (out ∈ [1, 2, 6, 8] → placed → ¬ finite → exec (.rescale d) s = .next (b.finish l ⟨0x10, 0, 0, none⟩)) ∧
      (out ∈ [1, 2, 6, 8] → placed → finite →
        ∃ (v : State), exec (.rescale d) s = .next (v.finish l ⟨0, 0, 0, none⟩) ∧
          b.computes v ∧ b.regsIn v abutPage ∧ v.memPoison = [] ∧
          (v.seen dst (ceilDiv (n * w) 8)).1 = packCodes w
            ((List.range n).map fun j => (rescaleOut out sin sout (int32Of (s.rdN (src + 4 * j) 4))).1) ∧
          s.memBut v dst (ceilDiv (n * w) 8))) ∧
    (s.goes 0x20 d = true → opBits d 0x3F 1 7 6 = 1 →
      let l := (s.begun 0x20 d).1
      let u := (s.begun 0x20 d).2
      let a := opd d 0x20 8
      let b := opd d 0x28 8
      let dst := opd d 0x30 8
      let n := opd d 0x38 4
      let fa := opBits d 0x3E 1 7 4
      let fb := opBits d 0x3E 1 3 0
      let ints := dotInt fa && dotInt fb
      let wa := (VFmt.ofCode fa).width / 8
      let wb := (VFmt.ofCode fb).width / 8
      let formats := dotFmt fa = true ∧ dotFmt fb = true ∧ opBits d 0x3F 1 5 4 < (if ints then 2 else 1)
      let placed := a % 64 = 0 ∧ b % 64 = 0 ∧ dst % 64 = 0 ∧ n ≠ 0 ∧ (ints = true → n ≤ 2 ^ 28)
      (¬ formats → exec (.dot d) s = .next (u.finish l ⟨0x70, 0, 0, none⟩)) ∧
      (formats → ¬ placed → exec (.dot d) s = .next (u.finish l ⟨0x23, 0, 0, none⟩)) ∧
      (formats → placed →
        ∃ (v : State) (nf : Option Nat), exec (.dot d) s = .next (v.finish l ⟨0, 0, 0, nf⟩) ∧
          u.computes v ∧ u.regsIn v abutPage ∧ v.memPoison = [] ∧ s.memBut v dst 64 ∧
          (v.seen dst 64).1 = dotRecord
            (dotSums ints (opBits d 0x3F 1 3 3) fa fb (if fa = 10 then opd d 0x3C 1 else 0)
              (if fb = 10 then opd d 0x3D 1 else 0)
              ((List.range n).map fun j => (s.rdN (a + wa * j) wa, s.rdN (b + wb * j) wb))) n ints nf)) ∧
    (s.goes 0x21 d = true →
      let l := (s.begun 0x21 d).1
      let b := (s.begun 0x21 d).2
      let a := opd d 0x20 8
      let step := opd d 0x28 4
      let pass := opBits d 0x2C 1 1 0
      let u := parseUpd (s.rd a 256)
      let order3 := pass = 2 → u.amaxStep = step
      let spans := ((List.range u.nSpans).map fun i => b.rdN (u.gAddr + 8 * i) 8).map b.hostSpan
      let read := ((State.readSpans spans b).1.map fun r => r.blocks.map fun k => (r.span, k.1, k.2)).flatten
      let good := u.gSrc = 2 → b.freePiers ≠ [] ∧ spanFail (b.accept 2) u step spans = none ∧
        rejectOf (uptoReject read) = none
      let pages (n : Nat) : Bool := abutPage n || u.gSrc == 2 && (pierPage n || n == 5 || n == 0)
      let mS := if pass = 2 ∧ u.narrowM then momentScale u.mAmax 127 else u.mScale
      let vS := if pass = 2 ∧ u.narrowV then momentScale u.vAmax (255 - u.vZp) else u.vScale
      let out (j : Nat) := updElem u pass l.seed.toNat step mS vS (s.updIn u j)
      let amax (f : UpdOut → FV) := amaxOf ((List.range u.length).map fun j => f (out j))
      (u.formatBad pass = true → exec (.update d) s = .next (b.finish l ⟨0x70, 0, 0, none⟩)) ∧
      (u.formatBad pass = false → u.boundsBad a pass = true ∨ ¬ order3 →
        exec (.update d) s = .next (b.finish l ⟨0x23, 0, 0, none⟩)) ∧
      (u.formatBad pass = false → u.boundsBad a pass = false → order3 → u.nonfinite pass = true →
        exec (.update d) s = .next (b.finish l ⟨0x10, 0, 0, none⟩)) ∧
      (u.formatBad pass = false → u.boundsBad a pass = false → order3 → u.nonfinite pass = false → good →
        ∃ (v : State) (st : Nat) (nf : Option Nat), exec (.update d) s = .next (v.finish l ⟨st, 0, 0, nf⟩) ∧
          b.computes v ∧ b.regsIn v pages ∧ (u.gSrc ≠ 2 → st = 0 ∧ v.memPoison = []) ∧
          leNat (v.seen (a + 0x90) 4).1 = (if pass = 1 then step else u.amaxStep) ∧
          (∀ x, (∀ r ∈ u.outputs a, x < r.1 ∨ r.1 + r.2 ≤ x) → v.mem.read x = s.mem.read x) ∧
          (pass = 1 → s.memBut v (a + 0x80) 0x2C) ∧
          (u.gSrc ≠ 2 → (v.seen (a + 0x80) 20).1 = recordTail u pass step mS vS (amax (·.mAbs)) (amax (·.vAbs))) ∧
          (u.gSrc ≠ 2 → pass ≠ 1 → apart (u.outputs a) → ∀ j, j < u.length →
            (v.seen (u.wAddr + u.wWidth * j) u.wWidth).1 = toLE u.wWidth (out j).w.1 ∧
            (u.wFmt = 0 → (v.seen (u.wLo + 2 * j) 2).1 = toLE 2 (out j).wLo.1) ∧
            (u.usesM = true → (v.seen (u.mAddr + fmtBytes u.mFmt * j) (fmtBytes u.mFmt)).1 =
              toLE (fmtBytes u.mFmt) (out j).m.1) ∧
            (u.usesV = true → (v.seen (u.vAddr + fmtBytes u.vFmt * j) (fmtBytes u.vFmt)).1 =
              toLE (fmtBytes u.vFmt) (out j).v.1))))

/-- WRITE, READ, SEND, FLUSH and the remote forms of COUNTER_ADD and ATOMIC_MAX (R206, R240, R263, R264): a failed
check at dispatch ends them with its status; on a connection that is UP, the descriptor waits for its operation and one
message is given to the connection, with the opcode, addresses, key, length and counter that its operands name; on one
not yet UP nothing is sent. No word of the tables has flipped; a connection context with a poisoned word ends them with
UNCORRECTABLE, which is counted at the transport (R31, R244), before the other checks but a misaligned or oversized
ATOMIC_MAX and an absolute remote COUNTER_ADD: that order is the model's choice (log entry 126). -/
def Obligations.TransportDescriptorsPostTheirMessages : Prop :=
  ∀ (s : State) (d : Desc), s.ctx.wf = true → s.upsets = [] →
    let bad (c : Nat) := touches 16 (connBase c) 256 s.ctxPoison
    let spoilt (l : Live) (u : State) (i : Instr) := ∃ v, exec i s = .next (v.finish l ⟨0x51, 0, 0, none⟩) ∧ u.onlyRegs v ∧
      u.regsBut v [R.hdrErrCntUe 0x70, R.hdrErrFirst 0x70, R.hdrErrFirstInfo 0x70]
    (∀ p ∈ [(Instr.write d, 0x10), (Instr.read d, 0x11), (Instr.send d, 0x12), (Instr.flush d, 0x15)],
      s.goes p.2 d = true →
      let l := (s.begun p.2 d).1
      let u := (s.begun p.2 d).2
      let c := opBits d 0x38 2 14 0
      let ctrl := opBit d 0x39 7
      let op := if p.2 = 0x10 then 0x01 else if p.2 = 0x11 then 0x02 else if p.2 = 0x15 then 0x08
        else if ctrl then 0x11 else 0x04
      let m : OutMsg :=
        { live := some l.id, conn := c, control := ctrl, op := op, vl := if ctrl then 2 else 0, prio := d.prio.toNat
          key := opd d 0x30 4, addr := opd d 0x28 6, channel := d.channel.toNat, seq := d.seq.toNat, reqPsn := 0
          counter := 0, add := if p.2 = 0x11 then opd d 0x34 4 else 0, remCtr := opd d 0x3A 2
          ctrEn := opBit d 0x3C 7, len := if p.2 = 0x10 ∨ p.2 = 0x12 then opd d 0x34 4 else 0
          load := .host (opd d 0x20 8), sent := 0, begun := false, poison := false }
      (bad c = true → spoilt l u p.1) ∧
      (∀ st, bad c = false → s.moveCheck p.2 (moveOps d) = some st → exec p.1 s = .next (u.finish l ⟨st, 0, 0, none⟩)) ∧
      (bad c = false → s.moveCheck p.2 (moveOps d) = none → s.connState c = 2 →
        exec p.1 s = .next ((u.setPhase l.id .remote).post m)) ∧
      (bad c = false → s.moveCheck p.2 (moveOps d) = none → s.connState c ≠ 2 → exec p.1 s = .next u)) ∧
    (s.goes 0x43 d = true → opBit d 0x22 0 = true →
      let l := (s.begun 0x43 d).1
      let u := (s.begun 0x43 d).2
      let c := opBits d 0x28 2 14 0
      (opBit d 0x22 1 = true → exec (.counterAdd d) s = .next (u.finish l ⟨0x70, 0, 0, none⟩)) ∧
      (opBit d 0x22 1 = false → bad c = true → spoilt l u (.counterAdd d)) ∧
      (∀ st, opBit d 0x22 1 = false → bad c = false → s.connCheck c 0x07 = some st →
        exec (.counterAdd d) s = .next (u.finish l ⟨st, 0, 0, none⟩)) ∧
      (opBit d 0x22 1 = false → bad c = false → s.connCheck c 0x07 = none → s.connState c ≠ 2 →
        exec (.counterAdd d) s = .next u) ∧
      (opBit d 0x22 1 = false → bad c = false → s.connCheck c 0x07 = none → s.connState c = 2 →
        exec (.counterAdd d) s = .next ((u.setPhase l.id .remote).post
          { newMsg c false 0x07 0 (.data [] []) with
            live := some l.id, prio := d.prio.toNat, counter := opd d 0x20 2, add := opd d 0x24 4
            channel := d.channel.toNat }))) ∧
    (s.goes 0x16 d = true → opBit d 0x35 7 = true →
      let l := (s.begun 0x16 d).1
      let u := (s.begun 0x16 d).2
      let c := opBits d 0x34 2 14 0
      (maxBad d = true → bad c = false → exec (.atomicMax d) s = .next (u.finish l ⟨0x23, 0, 0, none⟩)) ∧
      (maxBad d = false → bad c = true → spoilt l u (.atomicMax d)) ∧
      (∀ st, maxBad d = false → bad c = false → s.connCheck c 0x06 = some st →
        exec (.atomicMax d) s = .next (u.finish l ⟨st, 0, 0, none⟩)) ∧
      (maxBad d = false → bad c = false → s.connCheck c 0x06 = none → s.connState c ≠ 2 →
        exec (.atomicMax d) s = .next u) ∧
      (maxBad d = false → bad c = false → s.connCheck c 0x06 = none → s.connState c = 2 →
        exec (.atomicMax d) s = .next ((u.setPhase l.id .remote).post
          { newMsg c false 0x06 (4 * opBits d 0x36 2 12 0) (s.maxLoad d) with
            live := some l.id, prio := d.prio.toNat, key := opd d 0x30 4, addr := opd d 0x28 6
            channel := d.channel.toNat })))

/-- RELAY (R194, R195), with no word of the tables flipped or poisoned: a misaligned destination gives BOUNDS and an
ended connection its END_STATUS; with no message of its connection, channel and sequence at hand it waits for one. A
one-packet message already held that is longer than CAP ends it with BOUNDS; one no longer than CAP and not to be
forwarded is placed at DST_ADDR and the RELAY completes with OK, or POISONED when the packet was. -/
def Obligations.RelayWaitsOrPlacesItsMessage : Prop :=
  ∀ (s : State) (d : Desc), s.goes 0x44 d = true → s.ctx.wf = true → s.idsOk → s.cleanTables = true →
    let l := (s.begun 0x44 d).1
    let u := (s.begun 0x44 d).2
    let o := relayOps d
    let held := s.q.msgs.find? fun h => decide (h.conn = o.inConn ∧ h.channel = d.channel.toNat ∧ h.seq = d.seq.toNat)
    (o.dst % 64 ≠ 0 → exec (.relay d) s = .next (u.finish l ⟨0x23, 0, 0, none⟩)) ∧
    (o.dst % 64 = 0 → s.connState o.inConn = 3 →
      exec (.relay d) s = .next (u.finish l ⟨s.fld (connBase o.inConn) Conn.endStatus, 0, 0, none⟩)) ∧
    (o.dst % 64 = 0 → s.connState o.inConn ≠ 3 → (o.fwd = true → s.connState o.outConn ≠ 3) →
      held = none → s.waitingPkts o.inConn d.channel.toNat d.seq.toNat = [] →
      exec (.relay d) s = .next (u.setPhase l.id (.relay ⟨false, false, false⟩))) ∧
    (o.dst % 64 = 0 → s.connState o.inConn ≠ 3 → o.fwd = true → s.connState o.outConn = 3 →
      exec (.relay d) s = .next (u.finish l ⟨s.fld (connBase o.outConn) Conn.endStatus, 0, 0, none⟩)) ∧
    (∀ (h : HeldMsg) (p : Packet), o.dst % 64 = 0 → s.connState o.inConn ≠ 3 →
      (o.fwd = true → s.connState o.outConn ≠ 3) → held = some h → h.pkts = [p] → o.cap < msgLen p →
      ∃ (v : State), exec (.relay d) s = .next (v.finish l ⟨0x23, 0, 0, none⟩) ∧
        v.q.msgs = s.q.msgs.erase h ∧ v.mem = s.mem) ∧
    (∀ (h : HeldMsg) (p : Packet), o.dst % 64 = 0 → s.connState o.inConn ≠ 3 → o.fwd = false → held = some h →
      h.pkts = [p] → msgLen p ≤ o.cap → p.ctrEn = false → s.mem.wf = true →
      (∀ m ∈ s.x.out, m.live ≠ some l.id) →
      ∃ (v : State) (k : Live), exec (.relay d) s = .next (v.finish k ⟨if p.poison then 0x50 else 0, 0, 0, none⟩) ∧
        k.id = l.id ∧ k.desc = d ∧ s.regsIn v (fun n => n == 7) ∧
        v.rd (o.dst + offOf p) p.payload.length = p.payload ∧ s.memBut v (o.dst + offOf p) p.payload.length ∧
        v.q.msgs = s.q.msgs.erase h)

/-- The receive role of ACCUM and ACCUM_SPARSE and INSTANCE_OPEN (R96, R172, R178-R180). A descriptor that fails order 1
ends with FORMAT_VERSION and one that fails order 2 with BOUNDS. One that passes both ends with BOUNDS when its sequence
lies behind, waits while it lies ahead, with its reference context as read at dispatch, and else opens its instance:
over this chip's shard, with the rows and reference scale read then, and under CLEAR with every accumulator word +0. One
that waits ends, goes on waiting or opens in the same way at INSTANCE_OPEN, which does nothing where none waits. The
Abutments may work and no contribution waits yet. -/
def Obligations.ReceiveRolesOpenInSequence : Prop :=
  ∀ (s : State) (d : Desc), s.cleanTables = true → s.ctx.wf = true → s.idsOk → s.q.inbound = [] →
    let o := recvOps d
    let c := s.stream o.ctx
    let g := d.group.toNat
    let ref := s.ctxRd (strmBase o.ctx) 256
    let open_ := o.deadline = 0 ∨ s.now < o.deadline
    let works := ∀ n, n < 8 → s.abutFree n = true ∧ s.abutGone n = false
    let opened (i : Inst) (c : Stream) (rows : List Nat) (sRef : Nat) : Prop :=
      let shard := (s.shardHere g c.length).getD (0, 0)
      i.lo = shard.1 ∧ i.hi = shard.2 ∧ i.accAddr = o.accAddr ∧ i.accKind = o.accKind ∧ i.sRef = sRef ∧
      i.outList = rows ∧ i.mode = c.mode ∧ i.fmt = c.code ∧ i.length = c.length ∧ i.step = o.step ∧ i.answers = [] ∧
      i.deadline = o.deadline
    (∀ p ∈ [(Instr.accum d, 0x13), (Instr.accumSparse d, 0x14)], s.goes p.2 d = true → opBit d 0x22 0 = true →
      let l := (s.begun p.2 d).1
      let u := (s.begun p.2 d).2
      (recvFormatOk p.2 o c = false → exec p.1 s = .next (u.finish l ⟨0x70, 0, 0, none⟩)) ∧
      (recvFormatOk p.2 o c = true → s.recvBoundsOk d o c = false →
        exec p.1 s = .next (u.finish l ⟨0x23, 0, 0, none⟩)) ∧
      (recvFormatOk p.2 o c = true → s.recvBoundsOk d o c = true → s.membersPoisoned g = false →
        s.levelOneMember g = false →
        (2 ^ 31 ≤ s.seqGap d → exec p.1 s = .next (u.finish l ⟨0x23, 0, 0, none⟩)) ∧
        (s.seqGap d ≠ 0 → s.seqGap d < 2 ^ 31 → exec p.1 s = .next (u.setPhase l.id (.seq ref))) ∧
        (∀ rows sRef, s.seqGap d = 0 → s.instOf g d.channel.toNat d.seq.toNat = none →
          s.recvReads o c = .ok (rows, sRef) → works → open_ → s.calm = true → s.mem.wf = true →
          ∃ (v : State) (i : Inst), exec p.1 s = .next v ∧ v.q = (u.setPhase l.id (.inst i)).q ∧
            u.computes { v with q := u.q } ∧ u.regsIn v abutPage ∧ opened i c rows sRef ∧
            (o.clear = true → ∀ r ∈ i.ranges, (v.seen r.1 r.2).1 = zeros r.2) ∧
            (o.clear = false → v.cb = u.cb ∧ v.mem = u.mem)))) ∧
    (s.up 2 = true →
      let waits (x : Live) : Prop := (x.desc.group, x.desc.channel, x.desc.seq) = (d.group, d.channel, d.seq) ∧
        ∃ r, x.phase = .seq r
      ((∀ x ∈ s.q.live, ¬ waits x) → exec (.instanceOpen d.group d.channel d.seq) s = .next s) ∧
      (∀ l was, l ∈ s.q.live → l.phase = .seq was → l.desc = d → (∀ x ∈ s.q.live, waits x → x = l) →
        let k := (s.asRead o.ctx was).stream o.ctx
        (2 ^ 31 ≤ s.seqGap d →
          exec (.instanceOpen d.group d.channel d.seq) s = .next (s.finish l ⟨0x23, 0, 0, none⟩)) ∧
        (s.seqGap d ≠ 0 → s.seqGap d < 2 ^ 31 → exec (.instanceOpen d.group d.channel d.seq) s = .next s) ∧
        (∀ rows sRef, s.seqGap d = 0 → s.instOf g d.channel.toNat d.seq.toNat = none →
          (s.asRead o.ctx was).recvReads o k = .ok (rows, sRef) → works → open_ → s.calm = true → s.mem.wf = true →
          1 ≤ s.fld (grpBase g) Grp.nMembers →
          ∃ (v : State) (i : Inst), exec (.instanceOpen d.group d.channel d.seq) s = .next v ∧
            v.q = (s.setPhase l.id (.inst i)).q ∧ s.computes { v with q := s.q } ∧ s.regsIn v abutPage ∧
            opened i k rows sRef ∧ (o.clear = true → ∀ r ∈ i.ranges, (v.seen r.1 r.2).1 = zeros r.2) ∧
            (o.clear = false → v.cb = s.cb ∧ v.mem = s.mem))))

/-- The send role, RESIDUAL_RETURN and room in the retained share (R29, R177, R190). A send role takes the pack that
its step's COMPRESS left, once; a step that is not the context's ends it with BOUNDS. RESIDUAL_RETURN takes the named
owner's, or under ALL every owner's, retained spans or held-back blocks out and leaves the others, ends with BOUNDS
where there are none, and completes with the count of their entries; under DISCARD, and for a stream without a
residual, it completes with OK and the entries count in DROP_CNT with nothing written; with no Pier that may work a
return that is no DISCARD waits. A held span goes on when the share has room. Readings: log entries 37 and 39. -/
def Obligations.SendRolesTakeAndReturnTheirSpans : Prop :=
  ∀ (s : State) (d : Desc), s.ctx.wf = true →
    let ctx := opBits d 0x20 2 13 0
    let b := strmBase ctx
    let g := s.fld b Strm.group
    let drops := s.fld (grpBase g) Grp.dropCnt
    (s.cleanTables = true → ∀ p ∈ [(Instr.accum d, 0x13), (Instr.accumSparse d, 0x14)], s.goes p.2 d = true →
      opBit d 0x22 0 = false → (s.begun p.2 d).2.streamHeld (s.begun p.2 d).1 = false →
      modeFits p.2 (s.fld b Strm.mode) = true →
      (s.fld b Strm.compressStep ≠ opd d 0x24 4 →
        exec p.1 s = .next ((s.begun p.2 d).2.finish (s.begun p.2 d).1 ⟨0x23, 0, 0, none⟩)) ∧
      (∀ k ∈ s.q.packs, s.fld b Strm.compressStep = opd d 0x24 4 → s.groupFits g = true → s.membersOk g = true →
        s.membersPoisoned g = false → s.levelOneMember g = false → k.ctx = ctx → k.step = opd d 0x24 4 →
        k.taken = false → (k.skip = true ∨ k.spans ≠ []) → (∀ x ∈ s.q.packs, x.ctx = ctx → x = k) →
        s.endedOwners g = [] →
        ∃ t, exec p.1 s = .next t ∧ ∀ x ∈ t.q.packs, x.ctx = ctx → x.taken = true)) ∧
    (s.cleanTables = true → s.goes 0x22 d = true →
      (s.begun 0x22 d).2.streamHeld (s.begun 0x22 d).1 = false →
      let l := (s.begun 0x22 d).1
      let u := (s.begun 0x22 d).2
      let entries (bs : List Bytes) : Nat := (bs.map fun k => (parseBlkHdr k).count).sum
      let all := opBit d 0x2B 7
      let owner := opBits d 0x28 4 16 0
      let works := opBit d 0x22 1 = true ∨ s.freePiers ≠ []
      let frees := opBit d 0x22 1 = true ∨ (s.stream ctx).resFmt = 0
      let returns (n : Nat) (q : QState) : Prop := ∃ (v : State) (st : Nat),
        exec (.residualReturn d) s = .next (v.finish l ⟨st, n, 0, none⟩) ∧ v.q = q ∧
        v = { u with mem := v.mem, memPoison := v.memPoison, regs := v.regs, irqOut := v.irqOut, piers := v.piers
                     free := v.free, ctx := v.ctx, q := v.q } ∧
        (frees → st = 0 ∧ v = { u with ctx := v.ctx, q := v.q } ∧
          v.fld (grpBase g) Grp.dropCnt = min (drops + n) 0xFFFFFFFF)
      (¬ works → exec (.residualReturn d) s = .next u) ∧
      (works → opBit d 0x22 0 = false →
        let mine (x : Span) := decide (x.ctx = ctx ∧ x.channel = d.channel.toNat ∧ x.seq = d.seq.toNat) &&
          (all || x.rank == owner)
        (s.q.retained.filter mine = [] → exec (.residualReturn d) s = .next (u.finish l ⟨0x23, 0, 0, none⟩)) ∧
        (s.q.retained.filter mine ≠ [] → returns ((s.q.retained.filter mine).map fun x => entries x.blocks).sum
          { u.q with retained := s.q.retained.filter fun x => !mine x })) ∧
      (works → opBit d 0x22 0 = true →
        let mine (h : Held) := decide (h.ctx = ctx ∧ h.step = opd d 0x24 4)
        let hs := (s.q.held.filter mine).map fun h => h.part all owner
        ((∀ x ∈ hs, x.1 = []) → exec (.residualReturn d) s = .next (u.finish l ⟨0x23, 0, 0, none⟩)) ∧
        ((∃ x ∈ hs, x.1 ≠ []) → returns (hs.map fun x => entries x.1).sum
          { u.q with held := (s.q.held.filter fun h => !mine h) ++
              (hs.map fun x => x.2).filter fun h => !h.blocks.isEmpty }))) ∧
    (∀ l r o x, s.up 2 = true → s.q.live = [l] → l.phase = .send r → r.owners = [o] → o.held = true →
      s.packedFor r.ctx o.rank = some x → s.retainRoom x = true →
      let v := (s.retain r x).setPhase l.id
        (.send { r with owners := [{ o with sent := o.answer.isNone, held := false }] })
      exec .retainedRoom s = .next (if o.answer.isSome then v else v.giveSpan l r x))

/-- An open instance whose deadline is reached closes (R172, R185): its descriptor completes and LAST_SEQ of its
channel becomes its sequence; a deadline of 0 never closes one. -/
def Obligations.DeadlineClosesItsInstance : Prop :=
  ∀ (s : State) (group : BitVec 12) (channel : BitVec 16) (seq : Word), s.up 2 = true → s.ctx.wf = true → s.idsOk →
    (s.instOf group.toNat channel.toNat seq.toNat = none → exec (.deadline group channel seq) s = .next s) ∧
    (∀ l i, s.instOf group.toNat channel.toNat seq.toNat = some (l, i) →
      (i.deadline = 0 → exec (.deadline group channel seq) s = .next s) ∧
      (i.deadline ≠ 0 → i.deadline ≤ (s.reach i.deadline).now → s.instFree i = true → channel.toNat < 32 →
        s.q.inbound = [] → i.pend = [] →
        ∃ t, exec (.deadline group channel seq) s = .next t ∧ (∀ x ∈ t.q.live, x.id ≠ l.id) ∧
          t.fld (grpBase group.toNat) (Grp.lastSeq channel.toNat) = seq.toNat ∧
          t.clock.tb = max s.clock.tb (i.deadline * 65536)))

/-- SNAPSHOT, LOG_APPEND, RESTORE and SNAPSHOT_EXPORT (R320, R323, R327, R330). Once the checks pass, a BEGIN opens
the slot of every entry that it names, for its step; the directory of another part whose source words are good grows by
its segments; LOG_APPEND gives every entry the next log number; RESTORE and SNAPSHOT_EXPORT put one job to work, which
reads the Caisson's first 192 bytes. No word of the tables has flipped or is poisoned. Reading: log entry 95. -/
def Obligations.SnapshotDescriptorsBecomeJobs : Prop :=
  ∀ (s : State) (d : Desc), s.ctx.wf = true → s.cleanTables = true → s.shaped = true →
    (∀ j ∈ s.snap.jobs, j.id < s.snap.nextJob) →
    (s.goes 0x30 d = true →
      let o := snapOps d
      let segs := s.segTable o.table o.nSegs
      s.snapBusy o.entries = false → o.entries ≠ [] → o.table % 64 = 0 → o.posAddr % 64 = 0 → o.nSegs ≤ 2040 →
      (o.nSegs = 0 → o.isCommit = true) → s.entriesCheck o.entries = none → o.entries.any (s.openBad o) = false →
      o.entries.any (s.segsBad o segs) = false → s.entriesConn o.entries = none →
      s.poisoned o.table (16 * o.nSegs) = false →
      ∃ t, exec (.snapshot d) s = .next t ∧ ∀ e ∈ o.entries,
        (o.isBegin = true → ∃ x, (t.caisson e).openAt = some x ∧ (t.caisson e).step = o.step ∧
          ∃ j ∈ t.snap.jobs, j.entry = e ∧ j.live = some s.q.nextId ∧ j.slot = x) ∧
        (o.isBegin = false → (∀ x ∈ segs, s.poisoned x.addr x.len = false) →
          (o.isCommit = true → s.poisoned o.posAddr 64 = false) → (t.caisson e).dir.length = (s.caisson e).dir.length + o.nSegs ∧
          (t.caisson e).openAt = (s.caisson e).openAt)) ∧
    (s.goes 0x32 d = true →
      let o := logOps d
      let x := s.hostSpan o.addr
      o.entries ≠ [] → o.addr % 64 = 0 → checkSpanHdr (s.accept 2) x = none → (parseSpanHdr x.raw).step = o.step →
      s.entriesCheck o.entries = none → (∀ e ∈ o.entries, s.logReady o e = true) →
      (∀ e ∈ o.entries, (s.caisson e).place (s.logBytes e) (64 + alignUp x.raw.length 64) ≠ none) →
      s.entriesConn o.entries = none →
      ∃ t, exec (.logAppend d) s = .next t ∧ ∀ e ∈ o.entries,
        (t.caisson e).next = ((s.caisson e).next + 1) % 2 ^ 32 ∧
        ∃ k, (t.caisson e).entries = (s.caisson e).entries ++ [k] ∧ k.entry = (s.caisson e).next ∧ k.step = o.step) ∧
    (s.goes 0x31 d = true →
      let o := restOps d
      o.table % 64 = 0 → o.report % 64 = 0 → o.log % 64 = 0 → o.nSegs ≠ 0 → o.nSegs ≤ 2040 → s.slotMib o.entry ≠ 0 →
      s.poisoned o.table (16 * o.nSegs) = false →
      s.connCheck (s.entryConn o.entry) 0x02 = none →
      let p := ((s.begun 0x31 d).2.setPhase s.q.nextId .job).addJob (some s.q.nextId) o.entry (s.entryConn o.entry)
        .resHead id
      exec (.restore d) s = .next (p.2.getEntry p.1 (s.entryAddr o.entry) 192)) ∧
    (s.goes 0x33 d = true →
      let o := expOps d
      o.addr % 4096 = 0 → s.slotMib o.entry ≠ 0 → s.connCheck (s.entryConn o.entry) 0x02 = none →
      s.connCheck o.conn 0x01 = none →
      let p := ((s.begun 0x33 d).2.setPhase s.q.nextId .job).addJob (some s.q.nextId) o.entry (s.entryConn o.entry)
        .expHead fun j => { j with slot := 2 }
      exec (.snapshotExport d) s = .next (p.2.getEntry p.1 (s.entryAddr o.entry) 192))

/-- BARRIER (R306-R308): a FANOUT outside 2 to 16, a group not in use or no free record gives BOUNDS, and a member table
that is poisoned POISONED (log entry 55); with no record of its identity it opens one and waits; a rank other than 0
that has no children at once notes its arrival as sent, and rank 0 of a group of one sets the release time. Readings:
log entries 53 and 55. -/
def Obligations.BarrierOpensItsRecord : Prop :=
  ∀ (s : State) (d : Desc), s.goes 0x40 d = true → s.ctx.wf = true →
    let l := (s.begun 0x40 d).1
    let u := (s.begun 0x40 d).2
    let g := d.group.toNat
    let fanout := opBits d 0x20 1 4 0
    let delay := opd d 0x24 4
    let n := s.fld (grpBase g) Grp.nMembers
    let me := s.fld (grpBase g) Grp.myRank
    let known := s.bar g d.channel.toNat d.seq.toNat
    let opened (sent : Bool) (release : Option Nat) : Bar :=
      ⟨g, d.channel.toNat, d.seq.toNat, some l.id, fanout, delay, [], sent, release⟩
    let bad := fanout < 2 ∨ 16 < fanout ∨ s.groupFits g = false ∨ (known = none ∧ 256 ≤ s.clock.bars.length)
    (bad → exec (.barrier d) s = .next (u.finish l ⟨0x23, 0, 0, none⟩)) ∧
    (¬ bad → s.membersPoisoned g = true → exec (.barrier d) s = .next (u.finish l ⟨0x50, 0, 0, none⟩)) ∧
    (¬ bad → s.membersPoisoned g = false → known = none →
      (childrenOf n fanout me ≠ [] →
        exec (.barrier d) s = .next ((u.setPhase l.id .barrier).putBar (opened false none))) ∧
      (childrenOf n fanout me = [] → me ≠ 0 → ∃ t, exec (.barrier d) s = .next t ∧
        t.bar g d.channel.toNat d.seq.toNat = some (opened true none) ∧ t.mem = s.mem ∧
        t.q = (u.setPhase l.id .barrier).q) ∧
      (childrenOf n fanout me = [] → me = 0 → ∃ t, exec (.barrier d) s = .next t ∧
        t.bar g d.channel.toNat d.seq.toNat = some (opened false (some ((s.now + delay) % 2 ^ 64))) ∧
        (s.now < (s.now + delay) % 2 ^ 64 → t.mem = s.mem ∧ t.q = (u.setPhase l.id .barrier).q)))

/-- TABLE_INSTALL and SLOT_FREED (R142-R144, R147-R149). An install that fails a check ends with its status and changes no
slot. Action 0 or 1 leaves its slot LOADED at its GEN with the file's ID, alphabet, CRC and lengths, and gives it to
every active Pier that is ready; action 1 or 2 sets PEND and PEND_EPOCH and, on a connection still in HELLO, leaves the
acknowledgement to be sent, where another chip is TBL_ROOT; action 3 leaves its slot RETIRING and nothing else changed;
every other slot is as before and each install completes with OK. A RETIRING slot that nothing refers to becomes FREE,
keeps its generation and sets SLOT_FREED; any other SLOT_FREED changes nothing. Readings: log entries 38 and 41. -/
def Obligations.TableInstallAndSlotsFollowTheirStates : Prop :=
  ∀ (s : State), s.ctx.wf = true → s.shaped = true →
    (∀ (d : Desc), s.goes 0x41 d = true →
      let o := installOps d
      let g := d.group.toNat
      let b := grpBase g
      let l := (s.begun 0x41 d).1
      let u := (s.begun 0x41 d).2
      let root := s.rankOfNode g (s.fld b Grp.tblRoot)
      let slot := if o.action = 1 then o.slot else 0
      (∀ st, s.installFields g o = some st → exec (.tableInstall d) s = .next (u.finish l ⟨st, 0, 0, none⟩)) ∧
      (∀ st, s.installFields g o = none → o.action < 2 → s.installFile o = some st →
        exec (.tableInstall d) s = .next (u.finish l ⟨st, 0, 0, none⟩)) ∧
      (s.installFields g o = none → (o.action < 2 → s.installFile o = none) →
        ∃ (v : State), exec (.tableInstall d) s = .next (v.finish l ⟨0, 0, 0, none⟩) ∧
          (∀ k, k ≠ o.slot → v.tbl k = s.tbl k) ∧
          (o.action < 2 → v.tbl o.slot = slotOf (s.rd o.addr 0xA0) o.gen ∧
            ∀ p, p < s.piers.length → s.pwr.fusedOff.getLsbD p = false → s.islandReady (5 + p) = true →
              o.slot < (nth s.piers p []).length →
              nth (nth v.piers p []) o.slot (s.tbl 0) = slotOf (s.rd o.addr 0xA0) o.gen) ∧
          (o.action = 0 → v = { u with q := { u.q with tables := v.q.tables }, piers := v.piers }) ∧
          (o.action = 2 → v.q.tables = s.q.tables) ∧
          (o.action = 3 → v = { u with q := { u.q with tables := v.q.tables } } ∧
            v.tbl o.slot = { s.tbl o.slot with state := .retiring }) ∧
          (o.action = 1 ∨ o.action = 2 → root ≠ some (s.fld b Grp.myRank) →
            v.pend g o.fmt = (if o.action = 1 then 128 else 0) + 64 + slot ∧ v.fld b Grp.pendEpoch = o.epoch ∧
            ∀ r c, root = some r → s.memberConn g r = some c → s.connState c = 1 →
              ∃ m, v.x.out = s.x.out ++ [m] ∧ m.conn = c ∧ m.control = true ∧ m.op = 0x10 ∧
                m.load = .data (tblNoteBytes 6
                  { group := g, epoch := o.epoch, coded := o.action == 1, fmt := o.fmt, slot := slot
                    gen := if o.action = 1 then o.gen else 0
                    crc := if o.action = 1 then (slotOf (s.rd o.addr 0xA0) o.gen).crc else 0, node := s.node }) []))) ∧
    (∀ (slot : BitVec 4), s.up 2 = true →
      let n := slot.toNat
      ((s.tbl n).state = .retiring → s.slotRefs n = 0 → ∃ t, exec (.slotFreed slot) s = .next t ∧
        t.tbl n = ⟨.free, (s.tbl n).gen, 0, 0, 0, [], [], false⟩ ∧ t.regBit (R.hdrIrqStat 5) 3 = true ∧
        (∀ k, k ≠ n → t.tbl k = s.tbl k) ∧ s.regsBut t (irqRegs 5) ∧
        t = { s with regs := t.regs, irqOut := t.irqOut, q := { s.q with tables := t.q.tables } }) ∧
      (¬ ((s.tbl n).state = .retiring ∧ s.slotRefs n = 0) → exec (.slotFreed slot) s = .next s))

/-- DESCRIPTOR_READ (R227, R228, R230, R233, R238, R239, R242). The descriptor at CI of a ring that is ready is read: a
good one enters the heads, or with TRIG_EN its slot of the pre-posted store, enabled when its counter has passed, and
CI advances. One whose header fails waits, counted once, while the queue its record goes to has no credit; else its
record is written, or discarded where no queue takes it, and CI advances. One whose bytes or whose ring context cannot
be used stops the ring, with CI left where it is. A ring that is not ready is not read. -/
def Obligations.DescriptorReadTakesTheDescriptorAtCi : Prop :=
  ∀ (s : State) (ring : BitVec 12), s.up 2 = true → s.ctx.wf = true → s.mem.wf = true → s.upsets = [] →
    let r := ring.toNat
    let b := ringBase r
    let ci := s.fld b Ring.ci
    let p := descOf (.ring ring) (s.ringBytes r).1
    let usable := !s.ctxPoison.contains (b / 16)
    let good := usable && (s.ringBytes r).2
    let cq := if s.cqOn p.2.cq.toNat then p.2.cq.toNat else s.fld b Ring.errCq
    (s.ringReady r = false → exec (.descriptorRead ring) s = .next s) ∧
    (s.ringReady r = true → good = true → s.headerCheck p.1 p.2 = none → p.2.trigEn = false →
      ∃ t, exec (.descriptorRead ring) s = .next t ∧ t.fld b Ring.ci = (ci + 1) % 2 ^ 20 ∧ s.ctxBut t (b + 0xB) 5 ∧
        t = { s with ctx := t.ctx, q := { s.q with
          waiting := s.q.waiting ++ [⟨r, s.q.nextRead, p.1, p.2, false, false⟩], nextRead := s.q.nextRead + 1 } }) ∧
    (s.ringReady r = true → good = true → s.headerCheck p.1 p.2 = none → p.2.trigEn = true →
      let c := ctrBase p.2.trigCtr.toNat
      let on := decide ((s.fld c Ctr.value + 2 ^ 32 - p.2.trigThresh.toNat) % 2 ^ 32 < 2 ^ 31)
      ∃ t, exec (.descriptorRead ring) s = .next t ∧ t.fld b Ring.ci = (ci + 1) % 2 ^ 20 ∧
        t.fld c Ctr.waiters = (if on then s.fld c Ctr.waiters else (s.fld c Ctr.waiters + 1) % 2 ^ 17) ∧
        (∀ a, (a < b + 0xB ∨ b + 0x10 ≤ a) → (a < c + 4 ∨ c + 8 ≤ a) → t.ctx.read a = s.ctx.read a) ∧
        t = { s with ctx := t.ctx, q := { s.q with
          store := s.q.store ++ [⟨p.2.ppSlot.toNat, r, s.q.nextRead, p.1, { p.2 with src := .slot p.2.ppSlot }, on, false⟩]
          nextRead := s.q.nextRead + 1 } }) ∧
    (∀ st, s.ringReady r = true → good = true → s.headerCheck p.1 p.2 = some st →
      (s.refusalWaits r p.2 = true →
        (s.q.headWaits.contains r = true → exec (.descriptorRead ring) s = .next s) ∧
        (s.q.headWaits.contains r = false → ∃ t, exec (.descriptorRead ring) s = .next t ∧ s.regsBut t [R.qmgrCqWaitCnt] ∧
          t.reg R.qmgrCqWaitCnt = min (s.reg R.qmgrCqWaitCnt + 1) 0xFFFFFFFF ∧
          t = { s with regs := t.regs, q := { s.q with headWaits := s.q.headWaits ++ [r] } })) ∧
      (s.refusalWaits r p.2 = false →
        let k := cqBase cq
        let at_ := s.fld k Cq.base + 16 * (s.fld k Cq.pi % 2 ^ s.fld k Cq.log2Size)
        let phase := decide (s.fld k Cq.pi / 2 ^ s.fld k Cq.log2Size % 2 = 0)
        ∃ t, exec (.descriptorRead ring) s = .next t ∧ t.fld b Ring.ci = (ci + 1) % 2 ^ 20 ∧
          t.q = { s.q with headWaits := s.q.headWaits.filter (· != r) } ∧
          (s.ppFull p.1 p.2 = true → t.reg R.qmgrPpFullCnt = min (s.reg R.qmgrPpFullCnt + 1) 0xFFFFFFFF ∧
            t.regBit (R.hdrIrqStat 7) 1 = true) ∧
          (s.cqOn cq = true → t.rd at_ 16 = recordBytes ⟨st, 0, 0, none⟩ p.1 p.2.tag.toNat phase false ∧
            s.memBut t at_ 16 ∧ t.fld k Cq.pi = (s.fld k Cq.pi + 1) % 2 ^ 20 ∧
            t.reg R.qmgrCqDropCnt = s.reg R.qmgrCqDropCnt) ∧
          (s.cqOn cq = false → t.mem = s.mem ∧ t.reg R.qmgrCqDropCnt = min (s.reg R.qmgrCqDropCnt + 1) 0xFFFFFFFF ∧
            t.regBit (R.hdrIrqStat 7) 2 = true))) ∧
    (s.ringReady r = true → good = false → ∃ t, exec (.descriptorRead ring) s = .next t ∧ t.fld b Ring.ci = ci ∧
      t.flag b Ring.stopped = true ∧ t.q = s.q ∧ t.regBit (R.hdrIrqStat 7) 0 = true ∧
      (s.regBit R.qmgrRingErr 31 = false → t.reg R.qmgrRingErr = 2 ^ 31 + r ∧
        t.reg R.qmgrRingErrInfo = (if usable then 0x50 else 0x51) * 2 ^ 24 + ci % 2 ^ s.fld b Ring.log2Size) ∧
      (usable = false → t.reg (R.hdrErrCntUe 7) = min (s.reg (R.hdrErrCntUe 7) + 1) 0xFFFFFFFF))

/-! ## Packets -/

/-- The first checks of every arriving packet (R259, R250, R267, R271): one with a bad header is counted and dropped;
a sequenced one already passed is acknowledged again and counted as a duplicate, one beyond the window is counted and
dropped, and neither is placed; one of the acknowledgement space not newer than the last taken is ignored. No word of
the tables has flipped or is poisoned, and an acknowledgement goes out while the key is not worn (R273). -/
def Obligations.ArrivingPacketsAreCheckedInOrder : Prop :=
  ∀ (s : State) (p : Packet), ∀ r ∈ packetRows p, s.up 4 = true → s.ctx.wf = true → s.cleanTables = true →
    let b := connBase p.conn.toNat
    (s.badHeader { p with opcode := r.2 } = true → exec r.1 s = .next (s.bump R.rmaBadHdr)) ∧
    (s.hears r.2 p = true → streamOf r.2.toNat = some p.stream → s.esnOf p < s.fld b (rxExp p.stream) →
      ∃ t, exec r.1 s = .next t ∧ t.reg R.rmaDup = min (s.reg R.rmaDup + 1) 0xFFFFFFFF ∧
        t.fld b Conn.ackTxSeq = (if s.worn p.conn.toNat then s.fld b Conn.ackTxSeq else (s.fld b Conn.ackTxSeq + 1) % 2 ^ 48) ∧
        t.mem = s.mem ∧ t.q = s.q ∧ t.x.rx = s.x.rx ∧ t.fld b (rxExp p.stream) = s.fld b (rxExp p.stream)) ∧
    (s.hears r.2 p = true → streamOf r.2.toNat = some p.stream →
      (s.fld b (rxExp p.stream) : Int) + windowOf p.stream ≤ s.esnOf p →
      ∃ t, exec r.1 s = .next t ∧ t = { s with regs := t.regs, x := { s.x with conns := t.x.conns } } ∧
        t.reg R.rmaOutWin = min (s.reg R.rmaOutWin + 1) 0xFFFFFFFF ∧ s.regsBut t [R.rmaOutWin]) ∧
    (s.hears r.2 p = true → streamOf r.2.toNat = none → s.spaceNo p ≤ s.fld b Conn.ackRxSeq → exec r.1 s = .next s)

/-- Requests and messages taken in order, one packet each (R174, R207, R240, R257, R260-R265, R275): WRITE places its
payload in its region; READ_REQ is answered; SEND and CONTRIB are kept for their RELAY or instance; ATOMIC_MAX_REQ
leaves the larger value in each cell; COUNTER_ADD_REQ adds within the window and is refused outside it; FLUSH_REQ is
answered; CTRL fills its slot, is answered where its slot cannot hold it, and without a free slot draws a NAK and is
counted at its queue. A request whose region refuses it is counted there and answered. RX_EXP moves on for each but the
CTRL without a slot. WRITE and CTRL here raise no counter. Readings: log entries 80, 81 and 84. -/
def Obligations.RequestsInOrderHaveTheirEffect : Prop :=
  ∀ (s : State) (p : Packet), s.ctx.wf = true → s.mem.wf = true →
    let c := p.conn.toNat
    let n := p.payload.length
    let region := regionBase (keyOfPkt p / 65536)
    let cell := s.fld region Region.base + addrOfPkt p
    let exp := s.fld (connBase c) (rxExp p.stream)
    (s.inOrder 0x01 p = true → s.accessCheck c { p with opcode := 0x01 } = none → p.ctrEn = false →
      ∃ t, exec (.writePacket p) s = .next t ∧ s.taken t p ∧ t.rd (cell + offOf p) n = p.payload ∧
        s.memBut t (cell + offOf p) n ∧ t.q = s.q) ∧
    (s.inOrder 0x02 p = true → s.accessCheck c { p with opcode := 0x02 } = none →
      ∃ t, exec (.readReq p) s = .next t ∧ s.taken t p ∧ t.replied c 0x03 p.psn.toNat ∧ t.mem = s.mem ∧ t.q = s.q) ∧
    (∀ r ∈ [(Instr.writePacket p, (0x01 : Byte)), (.readReq p, 0x02), (.atomicMaxReq p, 0x06)],
      ∀ st, s.inOrder r.2 p = true → s.accessCheck c { p with opcode := r.2 } = some st →
      ∃ t, exec r.1 s = .next t ∧ s.taken t p ∧ t.replied c 0x12 p.psn.toNat ∧
        t.reg R.rmaViol = min (s.reg R.rmaViol + 1) 0xFFFFFFFF ∧
        t.fld region Region.violCnt = min (s.fld region Region.violCnt + 1) 0xFFFFFFFF) ∧
    (s.inOrder 0x04 p = true → s.relayFor c (chanSeq p).1 (chanSeq p).2 = none →
      s.x.dropped.contains (c, (chanSeq p).1, (chanSeq p).2) = false → s.roomFor c exp { p with opcode := 0x04 } = true →
      ∃ t, exec (.sendPacket p) s = .next t ∧ s.taken t p ∧ t.mem = s.mem ∧
        t.q = { s.q with msgs := s.q.msgs ++ [⟨c, (chanSeq p).1, (chanSeq p).2, [{ p with opcode := 0x04 }]⟩] }) ∧
    (s.inOrder 0x05 p = true → s.roomFor c exp { p with opcode := 0x05 } = true → offOf p = 0 →
      let h := parseSpanHdr p.payload
      s.groupUsed h.group = true → h.channel ≤ 31 → s.seqPast h.group h.channel h.seq = false →
      s.instOf h.group h.channel h.seq = none → (∀ y ∈ s.q.inbound, y.placed ≤ s.now) →
      ∃ t x, exec (.contrib p) s = .next t ∧ s.taken t p ∧ t.q = { s.q with inbound := s.q.inbound ++ [x] } ∧
        x.conn = some c ∧ x.skip = false ∧ x.data = p.payload ∧ x.poison = [] ∧ x.placed = s.now ∧
        (x.group, x.channel, x.seq) = (h.group, h.channel, h.seq)) ∧
    (s.inOrder 0x06 p = true → s.accessCheck c { p with opcode := 0x06 } = none → s.calm = true →
      (∀ k, k < 8 → s.abutFree k = true ∧ s.abutGone k = false) → cell % 4 = 0 → n % 4 = 0 →
      ∃ t, exec (.atomicMaxReq p) s = .next t ∧ s.taken t p ∧ t.replied c 0x12 p.psn.toNat ∧ s.memBut t cell n ∧
        ∀ j, j < n / 4 → t.rdN (cell + 4 * j) 4 =
          (maxCell (s.rdN (cell + 4 * j) 4) (leNat (sub p.payload (4 * j) 4))).1) ∧
    (s.inOrder 0x07 p = true →
      let ctr := p.g1.toNat % 65536
      ∃ t, exec (.counterAddReq p) s = .next t ∧ s.taken t p ∧ t.replied c 0x12 p.psn.toNat ∧
        (s.ctrAllowed c ctr = true →
          t.fld (ctrBase ctr) Ctr.value = (s.fld (ctrBase ctr) Ctr.value + p.g2.toNat) % 2 ^ 32) ∧
        (s.ctrAllowed c ctr = false → t.fld (ctrBase ctr) Ctr.value = s.fld (ctrBase ctr) Ctr.value ∧
          t.reg R.rmaViol = min (s.reg R.rmaViol + 1) 0xFFFFFFFF)) ∧
    (s.inOrder 0x08 p = true →
      ∃ t, exec (.flushReq p) s = .next t ∧ s.taken t p ∧ t.replied c 0x12 p.psn.toNat ∧ t.mem = s.mem) ∧
    (s.inOrder 0x11 p = true → s.ctrlTooBig c p = false → s.slotFree c = true → p.ctrEn = false →
      let q := srqBase (s.srqOf c)
      let a := s.fld q Srq.base + s.fld q Srq.ci % 2 ^ s.fld q Srq.log2Slots * 2 ^ s.fld q Srq.log2Slot
      s.flag q Srq.owner = true →
      ∃ t, exec (.ctrl p) s = .next t ∧ s.taken t p ∧ t.rd (a + 32) n = p.payload ∧ s.memBut t a (32 + n) ∧
        t.fld q Srq.ci = (s.fld q Srq.ci + 1) % 2 ^ 20) ∧
    (s.inOrder 0x11 p = true → s.ctrlTooBig c p = true → s.slotFree c = true →
      ∃ t, exec (.ctrl p) s = .next t ∧ s.taken t p ∧ t.replied c 0x12 p.psn.toNat ∧ t.mem = s.mem ∧ t.q = s.q) ∧
    (s.inOrder 0x11 p = true → s.slotFree c = false →
      let q := srqBase (s.srqOf c)
      ∃ t, exec (.ctrl p) s = .next t ∧ t.fld (connBase c) (rxExp p.stream) = exp ∧ t.mem = s.mem ∧ t.q = s.q ∧
        t.fld q Srq.emptyCnt = min (s.fld q Srq.emptyCnt + 1) 0xFFFFFFFF ∧ t.regBit (R.hdrIrqStat 0x70) 3 = true ∧
        (s.worn c = false → t.reg R.rmaRnrTx = min (s.reg R.rmaRnrTx + 1) 0xFFFFFFFF))

/-- Answers (R251, R262-R264, R267). READ_RESP places its payload and completes its READ when all of it has come; RESP
completes what it answers, but a CTRL SEND only when it says BOUNDS; ACK frees what it covers and completes the CTRL
SENDs among it; NAK counts a round and resends, or ends the connection with
RETRY_EXHAUSTED in the round after seven, or holds it for want of room; HELLO brings the connection UP at the level
that both permit, or ends it with FORMAT_VERSION. No word of the tables has flipped or is poisoned. Readings: log
entries 82, 83 and 105. -/
def Obligations.AnswersCompleteAndAcknowledge : Prop :=
  ∀ (s : State) (p : Packet), s.ctx.wf = true → s.mem.wf = true → s.cleanTables = true →
    let c := p.conn.toNat
    let b := connBase c
    (∀ a d, s.inOrder 0x03 p = true → s.x.awaits = [a] → a.op = 0x02 → a.answers c (p.g0.toNat % 2 ^ 24) = true →
      a.job = none → a.dest = some d →
      (a.got + p.payload.length < a.len → ∃ t, exec (.readResp p) s = .next t ∧ s.taken t p ∧
        t.rd (d + offOf p) p.payload.length = p.payload ∧ s.memBut t (d + offOf p) p.payload.length ∧
        t.x.awaits = [{ a with got := a.got + p.payload.length }] ∧ t.q = s.q) ∧
      (a.len ≤ a.got + p.payload.length → ∃ t, exec (.readResp p) s = .next t ∧ s.taken t p ∧ t.x.awaits = [] ∧
        ∀ x ∈ t.q.live, a.live ≠ some x.id)) ∧
    (∀ a, s.inOrder 0x12 p = true → s.x.awaits = [a] → a.op = leAt p.payload 1 1 →
      a.answers c (p.g0.toNat % 2 ^ 24) = true → a.job = none →
      (a.op ≠ 0x11 ∨ leAt p.payload 0 1 = 0x23 →
        ∃ t, exec (.resp p) s = .next t ∧ s.taken t p ∧ t.x.awaits = [] ∧ ∀ x ∈ t.q.live, a.live ≠ some x.id) ∧
      (a.op = 0x11 → leAt p.payload 0 1 ≠ 0x23 →
        ∃ t, exec (.resp p) s = .next t ∧ s.taken t p ∧ t.x.awaits = [a])) ∧
    (s.hears 0x20 p = true → s.fld b Conn.ackRxSeq < s.spaceNo p → s.spaceNo p < 2 ^ 48 → s.x.out = [] →
      let una := s.fld b (txUna p.stream)
      let cum := (extend una (p.g0.toNat % 2 ^ 24)).toNat
      ∃ t, exec (.ack p) s = .next t ∧ t.fld b Conn.ackRxSeq = (s.spaceNo p).toNat ∧
        ((∀ a ∈ s.x.awaits, a.op ≠ 0x11) → t.q = s.q ∧ t.mem = s.mem ∧ t.x.awaits = s.x.awaits) ∧
        (una < cum → cum ≤ s.fld b (txNxt p.stream) → p.stream = true →
          ∀ a ∈ s.x.awaits, a.conn = c → a.op = 0x11 → a.esn < cum → ∀ x ∈ t.q.live, a.live ≠ some x.id) ∧
        (una < cum → cum ≤ s.fld b (txNxt p.stream) →
          t.fld b (txUna p.stream) = cum ∧ t.fld b (retryOf p.stream) = 0 ∧
          t.x.kept = s.x.kept.filter fun k => !decide (k.conn = c ∧ k.control = p.stream ∧ k.esn < cum)) ∧
        (¬ (una < cum ∧ cum ≤ s.fld b (txNxt p.stream)) → t.fld b (txUna p.stream) = una ∧ t.x.kept = s.x.kept)) ∧
    (s.hears 0x21 p = true → s.fld b Conn.ackRxSeq < s.spaceNo p → s.spaceNo p < 2 ^ 48 →
      (p.g0.toNat < 2 ^ 31 ∨ p.stream = true) →
      let r := s.fld b (retryOf p.stream)
      let m := (extend (s.fld b (txUna p.stream)) (p.g1.toNat % 2 ^ 24)).toNat
      let again := s.x.kept.filter fun k => decide (k.conn = c ∧ k.control = p.stream ∧ m ≤ k.esn)
      ∃ t, exec (.nak p) s = .next t ∧
        (p.g1.toNat / 2 ^ 24 = 0 → r < 7 → t.fld b (retryOf p.stream) = r + 1 ∧ t.x.kept = s.x.kept ∧
          t.reg R.rmaResent = min (s.reg R.rmaResent + again.length) 0xFFFFFFFF) ∧
        (p.g1.toNat / 2 ^ 24 = 0 → r = 7 → t.connState c = 3 ∧ t.fld b Conn.endStatus = 0x40) ∧
        (p.g1.toNat / 2 ^ 24 = 1 → t.flag b (rnrOf p.stream) = true)) ∧
    (s.hears 0x22 p = true → s.fld b Conn.ackRxSeq < s.spaceNo p → s.spaceNo p < 2 ^ 48 → s.connState c = 1 →
      p.g2.toNat / 65536 % 32768 = s.fld b Conn.remoteConn → s.x.out = [] →
      let lo := max (p.g2.toNat % 16) (s.fld b Conn.lvlMin)
      let level := min (min (p.g2.toNat / 16 % 16) (s.fld b Conn.lvlMax)) 2
      ∃ t, exec (.hello p) s = .next t ∧
        (1 ≤ level → lo ≤ level → t.connState c = 2 ∧ t.fld b Conn.level = level) ∧
        (¬ (1 ≤ level ∧ lo ≤ level) → t.connState c = 3 ∧ t.fld b Conn.endStatus = 0x70))

/-- Notices (R150-R152, R185-R188), taken in order by their KIND. One about a contribution that no send role waits for
changes no queue and no counter of its group; RECEIPT, LATE and REJECT_SPAN take the owner's retained spans and
complete a role that waited for that owner alone; LATE counts; REJECT_BLOCK is remembered; SKIP waits for its
instance behind what was placed before it; TABLE_ACK goes to firmware, or waits for it; TABLE_EPOCH that matches PEND_EPOCH advances the epoch and
empties PEND. Readings: log entries 34 and 90. -/
def Obligations.NoticesReachTheirRoles : Prop :=
  ∀ (s : State) (p : Packet), s.ctx.wf = true → s.idsOk → s.inOrder 0x10 p = true →
    let kind := leAt p.payload 0 1
    let status := leAt p.payload 1 1
    let group := bits (leAt p.payload 2 2) 11 0
    let channel := leAt p.payload 4 2
    let seq := leAt p.payload 8 4
    let node := bits (leAt p.payload 0x10 3) 19 0
    let g := grpBase group
    let note := tblNoteOf p.payload
    let tg := grpBase note.group
    ∀ i ∈ [Instr.receipt p, .late p, .rejectSpan p, .rejectBlock p, .skip p, .tableAck p, .tableEpoch p],
    ∃ t, exec i s = .next t ∧ s.taken t p ∧
      (1 ≤ kind → kind ≤ 4 → s.sendFor group channel seq node = none → t.q = s.q ∧ t.mem = s.mem ∧
        t.fld g Grp.lateCnt = s.fld g Grp.lateCnt ∧ t.fld g Grp.nondetCnt = s.fld g Grp.nondetCnt) ∧
      (∀ l r rank, s.sendFor group channel seq node = some (l, r, rank) →
        (1 ≤ kind → kind ≤ 3 → (∃ o, r.owners = [o]) → ∀ x ∈ t.q.live, x.id ≠ l.id) ∧
        (1 ≤ kind → kind ≤ 3 → t.q.retained = s.q.retained.filter fun x => !ofOwner r rank x) ∧
        (kind = 2 → t.fld g Grp.lateCnt = min (s.fld g Grp.lateCnt + 1) 0xFFFFFFFF ∧
          t.fld g Grp.nondetCnt = min (s.fld g Grp.nondetCnt + 1) 0xFFFFFFFF) ∧
        (kind = 4 → t.q.live = s.q.live.map fun x =>
          if x.id = l.id then { x with phase := .send { r with firstRej := some (r.firstRej.getD status) } } else x)) ∧
      (kind = 5 → s.groupUsed group = true → channel ≤ 31 → s.seqPast group channel seq = false →
        s.instOf group channel seq = none → (∀ y ∈ s.q.inbound, y.placed ≤ s.now) →
        t.q = { s.q with inbound := s.q.inbound ++
          [⟨some p.conn.toNat, true, node, group, channel, seq, [], [], s.now, []⟩] }) ∧
      (kind = 6 → s.firmwareRuns = false →
        t.kstn.duties = s.kstn.duties ++ [.tableAck { blankPkt with payload := tblNoteBytes 6 note }]) ∧
      (kind = 6 → s.firmwareRuns = true → s.fld tg Grp.tblRoot % 65536 ≠ s.node →
        t.q = s.q ∧ t.regBit (R.hdrIrqStat 5) 1 = true) ∧
      (kind = 7 → s.pendAny note.group = true → s.fld tg Grp.pendEpoch = note.epoch →
        t.fld tg Grp.tableEpoch = note.epoch ∧ t.pendAny note.group = false ∧ t.regBit (R.hdrIrqStat 5) 2 = true) ∧
      (kind = 7 → (s.pendAny note.group = false ∨ s.fld tg Grp.pendEpoch ≠ note.epoch) →
        t.fld tg Grp.tableEpoch = s.fld tg Grp.tableEpoch ∧ t.regBit (R.hdrIrqStat 5) 1 = true)

/-! ## Timers, connections, regions and keys -/

/-- The transport's timers (R251, R267, R269, R273) on a connection without a cipher. The retransmit timer starts a
round of resending, or ends the connection with RETRY_EXHAUSTED in the round after seven; the reorder timer sends a
NAK for the first gap; the acknowledgement delay sends the ACK owed; the wait for room ends and resends with no round
counted; HELLO goes out in HELLO, and in UP until the peer is known to have seen one; the period of the Toll raises
RATE of each enabled connection without a mark and clears the marks; a threshold of PHASE_CNT sets REKEY_DUE; room in
the staging share sends what waited. Where a timer has nothing to do, or would send a new packet under a worn key,
nothing changes. Readings: log entries 82, 83 and 97. -/
def Obligations.TransportTimersKeepStreamsMoving : Prop :=
  ∀ (s : State) (conn : BitVec 15) (control : Bool), s.up 4 = true → s.ctx.wf = true →
    let c := conn.toNat
    let b := connBase c
    let plain := s.flag b Conn.cipher = false
    let since (n : Nat) := s.x.kept.filter fun k => decide (k.conn = c ∧ k.control = control ∧ n ≤ k.esn)
    let resent (t : State) (n : Nat) := t.x.kept = s.x.kept ∧
      t.reg R.rmaResent = min (s.reg R.rmaResent + (since n).length) 0xFFFFFFFF ∧ t.mem = s.mem ∧ t.q = s.q
    let spoke (t : State) := t.fld b Conn.ackTxSeq = (s.fld b Conn.ackTxSeq + 1) % 2 ^ 48 ∧ t.mem = s.mem ∧ t.q = s.q ∧
      t.fld b (rxExp control) = s.fld b (rxExp control)
    (let una := s.fld b (txUna control)
     let r := s.fld b (retryOf control)
     let due := s.connState c = 2 ∧ una ≠ s.fld b (txNxt control) ∧ s.flag b (rnrOf control) = false
     (due → r < 7 → ∃ t, exec (.retxTimer conn control) s = .next t ∧ resent t una ∧ t.fld b (retryOf control) = r + 1) ∧
     (due → r = 7 → ∃ t, exec (.retxTimer conn control) s = .next t ∧ t.connState c = 3 ∧ t.fld b Conn.endStatus = 0x40) ∧
     (¬ due → exec (.retxTimer conn control) s = .next s)) ∧
    (let gap := s.connState c = 2 ∧ (if control then (s.connX c).gapC else (s.connX c).gapD) = true ∧
       s.fld b (rxMap control) ≠ 0
     (gap → s.worn c = true → exec (.reorderTimer conn control) s = .next s) ∧
     (gap → plain → s.worn c = false → ∃ t, exec (.reorderTimer conn control) s = .next t ∧ spoke t ∧
       t.reg R.rmaNakTx = min (s.reg R.rmaNakTx + 1) 0xFFFFFFFF) ∧
     (¬ gap → exec (.reorderTimer conn control) s = .next s)) ∧
    (let owed := s.connState c = 2 ∧ 0 < (s.connX c).adv control
     (owed → s.worn c = true → exec (.ackDelay conn control) s = .next s) ∧
     (owed → plain → s.worn c = false → ∃ t, exec (.ackDelay conn control) s = .next t ∧ spoke t ∧ (t.connX c).adv control = 0) ∧
     (¬ owed → exec (.ackDelay conn control) s = .next s)) ∧
    (let held := s.connState c = 2 ∧ s.flag b (rnrOf control) = true
     (held → s.x.out = [] → ∃ t, exec (.rnrTimer conn control) s = .next t ∧
       resent t (if control then (s.connX c).rnrC else (s.connX c).rnrD) ∧ t.flag b (rnrOf control) = false ∧
       t.fld b (retryOf control) = s.fld b (retryOf control)) ∧
     (¬ held → exec (.rnrTimer conn control) s = .next s)) ∧
    (let speaks := s.connState c = 1 ∨ s.connState c = 2 ∧ (s.connX c).seen = false
     (speaks → s.worn c = true → exec (.helloPeriod conn) s = .next s) ∧
     (speaks → plain → s.worn c = false → ∃ t, exec (.helloPeriod conn) s = .next t ∧ spoke t) ∧
     (¬ speaks → exec (.helloPeriod conn) s = .next s)) ∧
    (∃ t, exec .tollPeriod s = .next t ∧ s.onlyCtx t ∧ t.flag b Conn.enable = s.flag b Conn.enable ∧
      (s.flag b Conn.enable = true → t.flag b Conn.marked = false ∧ t.fld b Conn.rate =
        if s.flag b Conn.marked then s.fld b Conn.rate
        else min (s.fld b Conn.rate + s.regBits R.rmaTollStep 31 16) (s.regBits R.rmaTollMax 15 0)) ∧
      (s.flag b Conn.enable = false → ∀ f ∈ [Conn.rate, Conn.marked], t.fld b f = s.fld b f)) ∧
    (s.connState c = 2 → ∃ t, exec (.rekeyDue conn) s = .next t ∧ t.flag b Conn.rekeyDue = true ∧
      t.fld b Conn.phaseCnt = (if s.fld b Conn.phaseCnt < 2 ^ 30 then 2 ^ 30 else max (s.fld b Conn.phaseCnt) (2 ^ 31)) ∧
      (s.flag b Conn.rekeyDue = false → t.regBit (R.hdrIrqStat 0x70) 4 = true) ∧ s.ctxBut t (b + 0x20) 0x60) ∧
    (s.connState c ≠ 2 → exec (.rekeyDue conn) s = .next s) ∧
    (s.x.out = [] → exec (.stagingRoom conn) s = .next s) ∧
    (∀ m bs, s.x.out = [m] → m.conn = c → m.load = .data bs [] → bs.length = m.len → m.len ≤ 4096 → m.sent = 0 →
      m.begun = false → m.live = none → m.op = 0x10 →
      (s.maySend c m.control (48 + m.len) = true → plain → ∃ t, exec (.stagingRoom conn) s = .next t ∧ t.x.out = [] ∧
        t.fld b (txNxt m.control) = (s.fld b (txNxt m.control) + 1) % 2 ^ 48 ∧ ∃ p : Packet, p.payload = bs ∧
          t.x.kept = s.x.kept ++ [⟨c, m.control, s.fld b (txNxt m.control), p⟩]) ∧
      (s.maySend c m.control (48 + m.len) = false → exec (.stagingRoom conn) s = .next s))

/-- The first word of a connection (R251, R252). A write with ENABLE = 1 is ignored while ENABLE is 1; it is refused
for this chip's own node, for a range with no level in 1 to 2, or for a cipher whose keys are absent, and then applies
its other fields, leaves ENABLE 0 and records BOUNDS; else STATE becomes HELLO and RATE the initial one. Clearing
ENABLE puts the connection DOWN, discards its stream state, its kept packets, the ATOMIC_MAXes that wait on it and all
four keys, and, where no descriptor is outstanding and no packet waits, changes no other field of the word; while
ENABLE is 0 the other fields are written. The word's granule holds no flipped bit. -/
def Obligations.ConnectionEnableFollowsItsChecks : Prop :=
  ∀ (s : State) (conn : BitVec 15) (v : Word), s.pageReady 0x100 = true → s.ctx.wf = true →
    s.hasFlip .context (connBase conn.toNat / 16) = false →
    ∀ i ∈ [Instr.connEnable conn v, Instr.connDisable conn v],
    let c := conn.toNat
    let b := connBase c
    let key (rx phase : Bool) := (s.keySlot c rx phase).isSome
    let lo := bits v.toNat 11 8
    let hi := bits v.toNat 15 12
    let bad := bits v.toNat 31 16 = s.node % 65536 ∨ hi < lo ∨ 2 < lo ∨ hi < 1 ∨
      v.getLsbD 6 = true ∧ ¬ (key false false = true ∧ key true false = true ∧ key true true = true)
    ∃ t, exec i s = .next t ∧
      (v.getLsbD 7 = true → s.flag b Conn.enable = true → t.ctx = s.ctx ∧ t.regs = s.regs ∧ t.x = s.x ∧ t.q = s.q) ∧
      (v.getLsbD 7 = true → s.flag b Conn.enable = false → bad →
        leNat (t.ctxRd b 4) = v.toNat &&& 0xFFFFFF40 ∧ t.connState c = s.connState c ∧ s.ctxBut t b 4 ∧
        t.reg (R.hdrErrFirst 0x70) =
          (if s.regBit (R.hdrErrFirst 0x70) 31 then s.reg (R.hdrErrFirst 0x70) else 2 ^ 31 + 0x23) ∧
        t.x = s.x ∧ t.q = s.q) ∧
      (v.getLsbD 7 = true → s.flag b Conn.enable = false → ¬ bad →
        leNat (t.ctxRd b 4) = v.toNat &&& 0xFFFFFFC0 ∧ t.connState c = 1 ∧ t.fld b Conn.rate = s.regBits R.rmaTollInit 15 0 ∧
        (∀ a, (b + 4 ≤ a → a ≠ b + 0x20 → a ≠ b + 0x24 → a ≠ b + 0x25 → t.ctx.read a = s.ctx.read a) ∧
          (a < b → t.ctx.read a = s.ctx.read a)) ∧ t.regs = s.regs ∧ t.x = s.x ∧ t.q = s.q) ∧
      (v.getLsbD 7 = false → s.flag b Conn.enable = true →
        t.connState c = 0 ∧ leNat (t.ctxRd (b + 0x20) 0x60) = 0 ∧ (∀ rx phase, t.keySlot c rx phase = none) ∧
        (∀ k ∈ t.x.kept, k.conn ≠ c) ∧ (∀ a ∈ t.x.rx, a.conn ≠ c) ∧ (∀ m ∈ t.x.out, m.conn ≠ c) ∧
        (∀ a ∈ t.x.awaits, a.conn ≠ c) ∧ (∀ m ∈ t.x.maxes, m.conn ≠ c) ∧ (∀ f ∈ t.x.flushes, f.conn ≠ c) ∧
        (s.q.live = [] → s.x.rx = [] →
          leNat (t.ctxRd b 4) = setBits (leNat (s.ctxRd b 4)) 7 7 0 ∧ t.q = s.q ∧ t.mem = s.mem)) ∧
      (v.getLsbD 7 = false → s.flag b Conn.enable = false →
        leNat (t.ctxRd b 4) = v.toNat &&& 0xFFFFFF40 ∧ s.ctxBut t b 4 ∧ t.regs = s.regs ∧ t.x = s.x ∧ t.q = s.q)

/-- The write of word 0 of a region's entry commits the whole entry, the words staged for it with word 0, when STATE
is 1 and the entry is FREE, or is REVOKED and the new TAG differs from the TAG held. Any other such write changes no
entry and records BOUNDS in ERR_FIRST of AK_RMA unless an earlier error is held. A region registered again from
REVOKED therefore has another key than before (R257). That the words before word 0 are staged is the model's reading
(log entry 98). No word of the entry has flipped. -/
def Obligations.RegionIsRegisteredOnlyWhenFree : Prop :=
  ∀ (s : State) (region : BitVec 16) (v : Word) (ws : List (Nat × Word)), s.pageReady 0x900 = true → s.ctx.wf = true →
    (∀ g, g < 4 → s.hasFlip .context (regionBase region.toNat / 16 + g) = false) →
    s.x.regionStage = some (region.toNat, ws) → (∀ p ∈ ws, 1 ≤ p.1 ∧ p.1 < 16) → (ws.map fun p => p.1).Nodup →
    let b := regionBase region.toNat
    let ok := bits v.toNat 7 6 = 1 ∧ (s.fld b Region.state = 0 ∨
      s.fld b Region.state = 3 ∧ bits v.toNat 31 16 ≠ s.fld b Region.tag)
    ∃ t, exec (.regionRegister region v) s = .next t ∧ t.x = { s.x with regionStage := none } ∧ s.ctxBut t b 64 ∧
      (ok → t.fld b Region.state = 1 ∧ leNat (t.ctxRd b 4) = v.toNat &&& 0xFFFF00F8 ∧
        t.fld b Region.tag = bits v.toNat 31 16 ∧
        (s.fld b Region.state = 3 → t.fld b Region.tag ≠ s.fld b Region.tag) ∧
        (∀ p ∈ ws, p.1 ≠ 6 → p.1 ≠ 7 → leNat (t.ctxRd (b + 4 * p.1) 4) = p.2.toNat) ∧ t.regs = s.regs) ∧
      (¬ ok → t.ctx = s.ctx ∧ s.regsBut t [R.hdrErrFirst 0x70, R.hdrErrFirstInfo 0x70] ∧
        t.reg (R.hdrErrFirst 0x70) =
          (if s.regBit (R.hdrErrFirst 0x70) 31 then s.reg (R.hdrErrFirst 0x70) else 2 ^ 31 + 0x23))

/-- Revocation, keys and routes. RMA_REVOKE of a VALID entry with its tag starts its revocation, of any other sets
NOMATCH, and waits while one is under way or waits; a revocation is done when INFLIGHT is 0, and the first that waits
then starts, or sets NOMATCH (R258). SEC_KEY_CTRL does in turn what its bits ask, unless AK_SEC is locked: it stores
the staged key in the selected slot and zeroes the stage, empties the slot unless it is the TX slot in use of an UP
connection, and switches to a phase whose TX key is present (R273, R278); what a switch sends is another statement's.
That order of several bits is the model's (log entry 127). The high word of a routing entry, no word of which has
flipped, commits the entry with the low word staged for it (R301, R380). -/
def Obligations.RevocationKeysAndRoutesFollowTheirWrites : Prop :=
  ∀ (s : State), s.ctx.wf = true →
    (∀ v : Word, s.pageReady 0x70 = true →
      let n := bits v.toNat 31 16
      let b := regionBase n
      let hit := s.fld b Region.state = 1 ∧ s.fld b Region.tag = bits v.toNat 15 0
      let busy := s.regBit R.rmaRevokeStat 31 = true ∨ s.x.revokes ≠ []
      ∃ t, exec (.rmaRevoke v) s = .next t ∧ s.regsBut t [R.rmaRevokeStat] ∧ t.q = s.q ∧ t.mem = s.mem ∧
        (busy → t = { s with x := { s.x with revokes := s.x.revokes ++ [(n, bits v.toNat 15 0)] } }) ∧
        (¬ busy → hit → t.fld b Region.state = 2 ∧ s.ctxBut t b 1 ∧ t.regBit R.rmaRevokeStat 31 = true ∧
          t.regBits R.rmaRevokeStat 15 0 = n) ∧
        (¬ busy → ¬ hit → s.onlyRegs t ∧ t.regBit R.rmaRevokeStat 29 = true)) ∧
    (∀ region : BitVec 16, s.up 4 = true →
      let b := regionBase region.toNat
      let drained := s.fld b Region.state = 2 ∧ s.fld b Region.inflight = 0
      (drained → ∃ t, exec (.revokeDone region) s = .next t ∧ t.fld b Region.state = 3 ∧
        t.regBit R.rmaRevokeStat 30 = true ∧ t.regBit (R.hdrIrqStat 0x70) 2 = true ∧
        (s.x.revokes = [] → t.regBit R.rmaRevokeStat 31 = false ∧ s.ctxBut t b 1) ∧
        (∀ n tag w, s.x.revokes = (n, tag) :: w → n < 65536 → n ≠ region.toNat →
          s.fld (regionBase n) Region.state = 1 → s.fld (regionBase n) Region.tag = tag →
          t.fld (regionBase n) Region.state = 2 ∧ t.x.revokes = w ∧ t.regBit R.rmaRevokeStat 31 = true) ∧
        (∀ n tag, s.x.revokes = [(n, tag)] → n < 65536 → n ≠ region.toNat →
          ¬ (s.fld (regionBase n) Region.state = 1 ∧ s.fld (regionBase n) Region.tag = tag) →
          t.x.revokes = [] ∧ t.regBit R.rmaRevokeStat 29 = true ∧ t.regBit R.rmaRevokeStat 31 = false)) ∧
      (¬ drained → s.x.revokes = [] ∨ s.regBit R.rmaRevokeStat 31 = true → exec (.revokeDone region) s = .next s)) ∧
    (∀ v : Word, s.pageReady 0x78 = true → ∀ i ∈ [Instr.secKeyCommit v, Instr.secKeyErase v, Instr.txSwitch v],
      let sel := s.reg R.secKeySel
      let c := bits sel 14 0
      let b := connBase c
      let phase := sel.testBit 16
      let rx := sel.testBit 17
      let held := rx = false ∧ phase = s.flag b Conn.txPhase ∧ s.connState c = 2
      let staged := if v.getLsbD 0 then some ((List.range 8).map fun j => toLE 4 (s.reg (R.secKey j))).flatten
        else s.keySlot c rx phase
      let key := if v.getLsbD 1 ∧ ¬ held then none else staged
      let switches := v.getLsbD 2 = true ∧ (if rx then s.keySlot c false phase else key).isSome = true
      (s.locks.any (fun p => p.1 == 0x78) = true → exec i s = .next s) ∧
      (s.locks.any (fun p => p.1 == 0x78) = false → ∃ t, exec i s = .next t ∧ t.keySlot c rx phase = key ∧
        (∀ c' rx' phase', (c', rx', phase') ≠ (c, rx, phase) → t.keySlot c' rx' phase' = s.keySlot c' rx' phase') ∧
        (¬ switches ∨ s.x.out = [] → s.regsBut t ((List.range 8).map R.secKey) ∧
          ∀ j, j < 8 → t.reg (R.secKey j) = if v.getLsbD 0 then 0 else s.reg (R.secKey j)) ∧
        (¬ switches → t.ctx = s.ctx) ∧
        (switches → s.x.out = [] → t.flag b Conn.txPhase = phase ∧ t.fld b Conn.phaseCnt = 0 ∧
          t.flag b Conn.rekeyDue = false ∧ s.ctxBut t (b + 0x20) 0x60))) ∧
    (∀ (dst : BitVec 16) (v : Word), s.pageReady 0xF60 = true →
      let b := routeBase dst.toNat
      s.hasFlip .context (b / 16) = false →
      ∃ t, exec (.routeEntryWrite dst v) s = .next t ∧ s.ctxBut t b 8 ∧ t.regs = s.regs ∧ t.q = s.q ∧
        leNat (t.ctxRd (b + 4) 4) = v.toNat &&& 0x8003FFFF ∧ t.x = { s.x with routeStage := none } ∧
        (∀ w, s.x.routeStage = some (dst.toNat, w) → leNat (t.ctxRd b 4) = w.toNat) ∧
        ((∀ n w, s.x.routeStage = some (n, w) → n ≠ dst.toNat) → t.ctxRd b 4 = s.ctxRd b 4))

/-! ## Links -/

/-- Frames and pauses on a link (R138, R282-R286, R295-R297, R302, R309, R310). The link words of a packet that a peer
sends arrive here as that packet: its frame is dropped on VL 7 or for want of room in its lane, and else counted as
accepted and discarded at the hop limit, handed to the transport when it is for this chip, or forwarded with HOPS one
higher on the output chosen, with CE when that queue stands at its threshold, and counted as forwarded; with no output
it counts as unrouted. A SOF that does not check, and a stomped frame for this chip, count and do no more. On a link
that exchanges CAP and IDENT a word that does not check or has a reserved KIND counts, and any other changes nothing; a
link in another state takes nothing; a frame with a codeword that was not corrected changes counts of its port alone.
PAUSE records the lanes it stops, and this side's own state is sent again at each refresh. Readings: log entries 13 and
63. -/
def Obligations.FramesArriveAndArePassedOn : Prop :=
  ∀ (s : State) (h : BitVec 6), s.up (37 + h.toNat / 2) = true → h.toNat < s.deck.ports.length →
    let n := h.toNat
    let port := n / 2
    let one (t : State) (a : Nat) := t.reg a = min (s.reg a + 1) 0xFFFFFFFF
    let counted (t : State) := t.reg64 (R.portFramesRxLo port) = (s.reg64 (R.portFramesRxLo port) + 1) % 2 ^ 64
    (s.linkIsUp n = true → s.islandReady 3 = true →
      (∀ (p : Packet) (vl : BitVec 3) (hops : Byte), p.payload.length ≤ 4096 → p.tag.length ≤ 16 →
        let v := vl.toNat
        let f : Frame := ⟨n, v, hops.toNat, false, p⟩
        let row (stomp : Bool) : Instr := .frameReceive h ⟨frameWords { f with stomp := stomp }, false, []⟩
        let dst := p.dst.toNat % 65536
        let fits := s.occupancy n v + pktSize p ≤ s.vlBytes n v 31 24
        let goes := v ≠ 7 ∧ fits ∧ hops.toNat ≠ s.regBits R.deckHopLimit 7 0 ∧ s.deckRoom = true ∧ (s.half n).buffer = []
        let out := s.chooseOut (s.candidates (some n) p.vl.toNat dst)
        (∃ t, exec (row false) s = .next t ∧
          (v = 7 ∨ v = 6 ∧ ¬ fits → s.onlyRegs t ∧ s.regsBut t [R.portDrop port] ∧ one t (R.portDrop port)) ∧
          (v < 6 → ¬ fits → s.onlyRegs t ∧ s.regsBut t [R.portOvf port] ∧ one t (R.portOvf port)) ∧
          (v ≠ 7 → fits → hops.toNat = s.regBits R.deckHopLimit 7 0 → s.onlyIrq t ∧ counted t ∧ one t R.deckHoplimit) ∧
          (goes → dst = s.node → p.opcode ≠ 0x30 → s.islandReady 4 = true →
            t = receive p (s.bump64 (R.portFramesRxLo port))) ∧
          (goes → dst ≠ s.node → out = none → s.onlyIrq t ∧ counted t ∧ one t R.deckNoroute ∧ t.reg R.deckNorouteLast = dst ∧
            t.reg64 R.deckFwdLo = s.reg64 R.deckFwdLo) ∧
          (∀ h' v', goes → dst ≠ s.node → out = some (h', v') →
            let mark := decide (s.reg R.deckCeThresh * 1024 ≤ s.queued h' v')
            t = { s with regs := t.regs, deck := { s.deck with out := s.deck.out ++
              [⟨h', v', hops.toNat + 1, false, { p with vl := BitVec.ofNat 3 v', ce := p.ce || mark }⟩] } } ∧
            counted t ∧ t.reg R.deckCeMarked = (if mark then min (s.reg R.deckCeMarked + 1) 0xFFFFFFFF else s.reg R.deckCeMarked) ∧
            t.reg64 R.deckFwdLo = (s.reg64 R.deckFwdLo + 1) % 2 ^ 64)) ∧
        (dst = s.node → ∃ t, exec (row true) s = .next t ∧ s.onlyRegs t ∧ s.regsBut t [R.portStompRx port] ∧
          one t (R.portStompRx port))) ∧
      (∀ (w : Bytes) (rest : List Bytes), wordGood w = false → rest ≠ [] →
        ∃ t, exec (.frameReceive h ⟨w :: rest, false, []⟩) s = .next t ∧ s.onlyRegs t ∧
          s.regsBut t [R.portWordErr port, R.portLcrcErr port] ∧ one t (R.portWordErr port) ∧ one t (R.portLcrcErr port))) ∧
    (s.linkIsUp n = false →
      let exchanges := s.halfExists n = true ∧ s.linkState n ∈ [2, 3, 5]
      let bad (w : Bytes) := wordGood w = false ∨ leAt w 0 1 = 0 ∨ 10 < leAt w 0 1
      (∀ cut, exec (.frameReceive h ⟨[], cut, []⟩) s = .next s) ∧
      ∀ (w : Bytes) (rest : List Bytes) (cut : Bool),
        (exchanges → bad w → exec (.frameReceive h ⟨w :: rest, cut, []⟩) s = .next (s.bump (R.portWordErr port))) ∧
        (¬ (exchanges ∧ bad w) → exec (.frameReceive h ⟨w :: rest, cut, []⟩) s = .next s)) ∧
    (∀ f : RxFrame, f.fec.any codewordLost = true →
      ∃ t, exec (.frameReceive h f) s = .next t ∧ s.onlyRegs t ∧ s.regsIn t (fun k => k == 0x40 + port)) ∧
    (n < 48 → ∀ xoff : Byte,
      (s.linkIsUp n = true → ∃ t, exec (.pause h xoff) s = .next t ∧ (t.half n).paused = xoff.toNat ∧
        (∀ k, k ≠ n → t.half k = s.half k) ∧ t.deck.out = s.deck.out ∧ t.regs = s.regs) ∧
      (s.linkIsUp n = true → exec (.pauseRefresh h) s = .next (s.putLink n [linkWord 4 (toLE 1 (s.half n).xoff)])) ∧
      (s.linkIsUp n = false → exec (.pause h xoff) s = .next s ∧ exec (.pauseRefresh h) s = .next s))

/-- The steps of training (R281, R287-R291) of a link, with firmware announced or not yet announced for the first
time. DETECT marks open and short lanes and goes to TRAIN with LANE_ID on each usable lane, or to FAILED without one;
a LANE_ID is recorded with its polarity and answered with CAP and IDENT; once CAP and IDENT have come, no shared level
and a differing split fail the link, a cabling mismatch holds it, HOLD makes it wait, also when it comes after the lanes
have begun to retrain, and else the lanes retrain with
the level, rate and lanes agreed; at the end of that the lanes that failed are left out, and the link is UP once the
neighbour is READY and its receive buffer's partition is good. Readings: log entries 60 and 61. -/
def Obligations.LinkTrainingFollowsItsSteps : Prop :=
  ∀ (s : State) (h : BitVec 6), s.up (37 + h.toNat / 2) = true → h.toNat < s.deck.ports.length →
    s.halfExists h.toNat = true → s.announced = true ∨ s.regBits R.kstnState 15 0 = 0 →
    let n := h.toNat
    let st := s.linkState n
    let stat := portStatOf n
    let width := s.regBits stat 19 16
    let lanesOf := maskOf ((List.range (s.laneCount n)).map (s.laneBase n + ·))
    let page := portPage n
    let first (t : State) (status : Nat) :=
      t.reg (R.hdrErrFirst page) = if s.regBit (R.hdrErrFirst page) 31 then s.reg (R.hdrErrFirst page) else 2 ^ 31 + status
    let agrees (t : State) (w : CapWord) :=
      let level := min 2 w.lvlMax.toNat
      let shared := max 1 w.lvlMin.toNat ≤ level
      let lanes := chooseLanes (s.laneCount n) (s.bothGood n w)
      (¬ shared → t.linkState n = 6 ∧ first t 0x70) ∧
      (shared → w.split ≠ s.isSplit n → t.linkState n = 6 ∧ first t 0x23) ∧
      (shared → w.split = s.isSplit n → s.agreedRate n w = none → t.linkState n = st) ∧
      (∀ rate, shared → w.split = s.isSplit n → s.agreedRate n w = some rate → lanes = 0 → t.linkState n = 6) ∧
      (∀ rate, shared → w.split = s.isSplit n → s.agreedRate n w = some rate → lanes ≠ 0 →
        (t.cabled n = false → t.linkState n = 5 ∧ t.regBit (R.hdrIrqStat page) 1 = true) ∧
        (t.cabled n = true → w.hold = true → t.linkState n = 3) ∧
        (t.cabled n = true → w.hold = false → t.linkState n = 2 ∧ t.regBits stat 19 16 = laneTotal lanes ∧
          t.regBits stat 7 0 = lanes ∧ t.regBits stat 23 20 = level ∧ t.regBits stat 27 26 = rate))
    let checking := st = 2 ∧ width = 0 ∨ st = 3
    (∀ opens shorts : Byte,
      (s.mayTrain n = true → st = 1 ∨ st = 6 → ∃ t, exec (.detectRetry h opens shorts) s = .next t ∧
        t.reg (R.portLaneFault (n / 2)) = s.reg (R.portLaneFault (n / 2)) |||
          (opens.toNat &&& lanesOf) <<< 16 ||| (shorts.toNat &&& lanesOf) <<< 8 ∧
        t.linkState n = (if t.usableLanes n = 0 then 6 else 2) ∧
        (t.usableLanes n ≠ 0 → t.deck.linkOut = s.deck.linkOut ++
          [⟨n, (setIdx (t.usableLanes n) 8).map fun i => linkWord 10 (toLE 1 i)⟩])) ∧
      (s.mayTrain n = false ∨ st ≠ 1 ∧ st ≠ 6 → exec (.detectRetry h opens shorts) s = .next s)) ∧
    (∀ (lane : BitVec 3) (id : Byte) (inv : Bool),
      let takes := st = 2 ∧ lane.toNat < s.laneCount n ∧ width = 0
      (takes → ∃ t capWord, exec (.laneId h lane id inv) s = .next t ∧ (lane.toNat, id.toNat, inv) ∈ (t.half n).laneIds ∧
        t.regBit stat (8 + lane.toNat) = inv ∧ t.regBit stat 25 = t.linkReversed n ∧ t.deck.linkOut = s.deck.linkOut ++
          [⟨n, [linkWord 5 capWord]⟩, ⟨n, [linkWord 6 (toLE 1 (n / 2 + n % 2 * 32) ++ toLE 3 s.node)]⟩]) ∧
      (¬ takes → exec (.laneId h lane id inv) s = .next s)) ∧
    (∀ w : CapWord, ∃ t, exec (.cap h w) s = .next t ∧ (st ∉ [2, 3, 5] → t = s) ∧
      (st = 5 ∨ st = 2 ∧ width ≠ 0 ∧ w.hold = false ∧ ((s.half n).trained = false ∨ w.ready = false) →
        t = s.setHalf n fun x => { x with cap := some w }) ∧
      (st = 2 → width ≠ 0 → w.hold = false → (s.half n).trained = true → w.ready = true →
        t.linkState n = if s.partitionBad (n / 2) then 6 else 4)) ∧
    (∀ w : CapWord, checking → (s.half n).trained = false →
      ((s.half n).ident = false → exec (.cap h w) s = .next (s.setHalf n fun x => { x with cap := some w })) ∧
      ((s.half n).ident = true → ∃ t, exec (.cap h w) s = .next t ∧ agrees t w)) ∧
    (∀ (w : CapWord) (rate : Nat), st = 2 → width ≠ 0 → w.hold = true → (s.half n).ident = true → s.cabled n = true →
      max 1 w.lvlMin.toNat ≤ min 2 w.lvlMax.toNat → w.split = s.isSplit n → s.agreedRate n w = some rate →
      chooseLanes (s.laneCount n) (s.bothGood n w) ≠ 0 →
      ∃ t, exec (.cap h w) s = .next t ∧ t.linkState n = 3 ∧ (t.half n).trained = false ∧ (t.half n).cap = some w) ∧
    (∀ (port : BitVec 5) (half : Bool) (node : BitVec 20), st ∉ [2, 3, 5] → exec (.ident h port half node) s = .next s) ∧
    (∀ (port : BitVec 5) (half : Bool) (node : BitVec 20), checking →
      ∃ t, exec (.ident h port half node) s = .next t ∧
        t.reg (R.portSeen (n / 2) (n % 2)) = 2 ^ 31 + port.toNat * 2 ^ 21 + b2n half * 2 ^ 20 + node.toNat ∧
        ((s.half n).cap = none → (t.half n).ident = true ∧ s.regsBut t [R.portSeen (n / 2) (n % 2)]) ∧
        (∀ w, (s.half n).cap = some w → agrees t w)) ∧
    (∀ failed : Byte,
      let due := s.mayTrain n = true ∧ st = 2 ∧ width ≠ 0
      (¬ due → exec (.linkUp h failed) s = .next s) ∧
      (due → (s.half n).cap = none → exec (.linkUp h failed) s = .next s) ∧
      (∀ w, due → (s.half n).cap = some w → ∃ t, exec (.linkUp h failed) s = .next t ∧
        let lanes := chooseLanes (s.laneCount n) (s.bothGood n w &&& (failed.toNat ^^^ 0xFF))
        (lanes = 0 → t.linkState n = 6) ∧
        (lanes ≠ 0 → w.ready = false → t.linkState n = 2 ∧ (t.half n).trained = true ∧
          t.regBits stat 19 16 = laneTotal lanes ∧ t.regBits stat 7 0 = lanes) ∧
        (lanes ≠ 0 → w.ready = true → s.partitionBad (n / 2) = true → t.linkState n = 6 ∧ first t 0x23) ∧
        (lanes ≠ 0 → w.ready = true → s.partitionBad (n / 2) = false → t.linkState n = 4 ∧ (t.half n).wasUp = true ∧
          t.regBit (R.hdrIrqStat page) 0 = true ∧ t.regBits stat 19 16 = laneTotal lanes ∧ t.regBits stat 7 0 = lanes)))

/-- What takes a link down and what its lanes suffer (R287, R288, R291-R293). Loss of signal, a training step that
ends without agreement, and RETRAIN send it to DETECT, which counts once it has been UP; what was queued for it is
discarded and counted, and its pause state is cleared. RETRAIN of a half-port also clears the marks of its lanes, and one of a half-port that
no port has does nothing. A degraded lane that
is not in test is marked, and the link retrains without it when a width is left; a short lane is marked. PORT_EXP lets a HELD link that
now passes go on. Reading: log entry 62. -/
def Obligations.LinkLossAndLaneFaultsAreHandled : Prop :=
  ∀ (s : State) (h : BitVec 6), s.up (37 + h.toNat / 2) = true → h.toNat < s.deck.ports.length →
    s.halfExists h.toNat = true → s.announced = true ∨ s.regBits R.kstnState 15 0 = 0 →
    let n := h.toNat
    let port := BitVec.ofNat 5 (n / 2)
    let st := s.linkState n
    let stat := portStatOf n
    let fault := R.portLaneFault (n / 2)
    let lanesOf := maskOf ((List.range (s.laneCount n)).map (s.laneBase n + ·))
    let queued := s.deck.out.filter fun f => f.h == n
    let down (t : State) := t.linkState n = 1 ∧ (t.half n).cap = none ∧ (t.half n).laneIds = [] ∧
      t.reg (R.portRetrains (n / 2)) = (if (s.half n).wasUp then min (s.reg (R.portRetrains (n / 2)) + 1) 0xFFFFFFFF
        else s.reg (R.portRetrains (n / 2))) ∧
      (st = 4 → t.deck.out = (s.deck.out.filter fun f => f.h != n) ∧ (t.half n).paused = 0 ∧
        t.reg R.deckDownDrop = min (s.reg R.deckDownDrop + queued.length) 0xFFFFFFFF) ∧
      (∀ k, k ≠ n → t.half k = s.half k) ∧ (∀ k, k < 48 → k ≠ n → t.linkState k = s.linkState k)
    (st ∈ [2, 3, 4, 5] → ∃ t, exec (.linkSignalLoss h) s = .next t ∧ down t) ∧
    (st ∉ [2, 3, 4, 5] → exec (.linkSignalLoss h) s = .next s) ∧
    (st = 2 → s.regBits stat 19 16 = 0 → ∃ t, exec (.trainTimeout h) s = .next t ∧ down t) ∧
    (st ≠ 2 ∨ s.regBits stat 19 16 ≠ 0 → exec (.trainTimeout h) s = .next s) ∧
    (s.pageReady (portPage n) = true → ∀ v : Word,
      let marks := lanesOf <<< 16 ||| lanesOf <<< 8 ||| (lanesOf &&& s.regBits (R.portCfg (n / 2)) 31 24)
      let mine := v.getLsbD (n % 2) = true
      let other := v.getLsbD (1 - n % 2) = true ∧ s.halfExists (n ^^^ 1) = true
      ∃ t, exec (.portRetrain port v) s = .next t ∧ (¬ mine → ¬ other → t = s) ∧
        (mine → t.reg fault &&& marks = 0 ∧ t.linkState n = (if st = 0 then 0 else 1) ∧
          (st ≠ 0 → st ≠ 1 → (t.half n).cap = none ∧ (t.half n).laneIds = []) ∧
          (st = 4 → (∀ f ∈ t.deck.out, f.h ≠ n) ∧ (t.half n).paused = 0)) ∧
        (mine → ¬ other → t.reg fault = s.reg fault &&& (0xFFFFFFFF ^^^ marks) ∧
          (st = 0 ∨ st = 1 → s.onlyRegs t) ∧ (st ≠ 0 → st ≠ 1 → down t))) ∧
    (∀ lane : BitVec 3, s.halfOfLane (n / 2) lane.toNat = n →
      let i := lane.toNat
      let on := s.regBits (R.portDegrade (n / 2)) 31 16 ≠ 0 ∧ s.laneInTest (n / 2) i = false
      let u := s.setReg fault (s.reg fault ||| 1 <<< i)
      let left := ∃ w, (s.half n).cap = some w ∧ chooseLanes (s.laneCount n) (u.bothGood n w) ≠ 0
      let active := st = 4 ∧ (s.regBits stat 7 0).testBit (i - s.laneBase n) = true
      (¬ on → exec (.laneDegraded port lane) s = .next s) ∧
      (on → ∃ t, exec (.laneDegraded port lane) s = .next t ∧ t.regBit fault i = true ∧
        (s.regBit fault i = false → t.regBit (R.hdrIrqStat (portPage n)) 2 = true) ∧
        (active → left → down t) ∧ (¬ (active ∧ left) → s.onlyIrq t ∧ t.linkState n = st)) ∧
      (∃ t, exec (.laneShort port lane) s = .next t ∧ s.onlyRegs t ∧ s.regsBut t [fault] ∧
        t.reg fault = s.reg fault ||| 1 <<< (8 + i))) ∧
    (s.pageReady (portPage n) = true → ∀ v : Word,
      let u := s.writeFields (R.portExp (n / 2) (n % 2)) v.toNat
      (st ≠ 5 ∨ u.cabled n = false ∨ (s.half n).cap = none ∨ (∃ w, (s.half n).cap = some w ∧ s.agreedRate n w = none) →
        exec (.portExpWrite port (decide (n % 2 = 1)) v) s = .next u) ∧
      (∀ w rate, st = 5 → u.cabled n = true → (s.half n).cap = some w → s.agreedRate n w = some rate →
        let lanes := chooseLanes (s.laneCount n) (s.bothGood n w)
        ∃ t, exec (.portExpWrite port (decide (n % 2 = 1)) v) s = .next t ∧ (lanes = 0 → t.linkState n = 6) ∧
          (lanes ≠ 0 → w.hold = true → t.linkState n = 3) ∧
          (lanes ≠ 0 → w.hold = false → t.linkState n = 2 ∧ t.regBits stat 19 16 = laneTotal lanes ∧ t.regBits stat 7 0 = lanes)))

/-! ## The timebase and the barriers -/

/-- The timebase (R304, R305, R378). A parent answers TSYNC_REQ with TSYNC_T2 and TSYNC_T3; a child sends TSYNC_REQ at
each interval while it follows a parent on an UP link, keeps t2, and at TSYNC_T3 forms offset and delay, writes them,
ends holdover, and steps until it first locks or while an unlocked offset exceeds 1 us, else slews; eight exchanges in
a row within TIME_LOCK_PS from a locked parent lock it. A holdover period without an exchange sets HOLDOVER, the next
one takes LOCKED away and counts. SET at the root loads the time and locks. Readings: log entries 56 and 57. -/
def Obligations.TimebaseFollowsItsParent : Prop :=
  ∀ (s : State) (h : BitVec 6) (seq : BitVec 16) (t1 t2 t3 t4 : DWord) (locked : Bool),
    let up := s.up 0 = true
    let one (t : State) (a : Nat) := t.reg a = min (s.reg a + 1) 0xFFFFFFFF
    let word (h kind flags : Nat) (seq ts : Nat) : LinkOut := ⟨h, [linkWord kind (toLE 1 flags ++ toLE 2 seq ++ toLE 8 ts)]⟩
    let sends (t : State) (l : List LinkOut) := t.deck = { s.deck with linkOut := s.deck.linkOut ++ l }
    let mine := s.parentLink = some h.toNat
    (up → s.linkIsUp h.toNat = true → ∃ t, exec (.tsyncReq h seq t1 t2 t3) s = .next t ∧ t = { s with deck := t.deck } ∧
      sends t [word h.toNat 8 (b2n (s.regBit R.timeStat 0)) seq.toNat t2.toNat, word h.toNat 9 0 seq.toNat t3.toNat]) ∧
    (up → s.linkIsUp h.toNat = false → exec (.tsyncReq h seq t1 t2 t3) s = .next s) ∧
    (up → (∀ p, mine → p = h.toNat → s.regBit R.timeCtrl 1 = true → s.linkIsUp p = true →
        ∃ t, exec (.timeIntervalExpiry t1) s = .next t ∧ sends t [word p 7 0 s.clock.seq t1.toNat] ∧
          t.clock = { s.clock with seq := (s.clock.seq + 1) % 65536, exchange := some ⟨s.clock.seq, t1.toNat, none, false⟩ }) ∧
      (s.parentLink = none ∨ s.regBit R.timeCtrl 1 = false ∨ (∃ p, s.parentLink = some p ∧ s.linkIsUp p = false) →
        exec (.timeIntervalExpiry t1) s = .next s)) ∧
    (up → (∀ x, s.clock.exchange = some x → mine → x.seq = seq.toNat →
        exec (.tsyncT2 h locked seq t2) s =
          .next { s with clock := { s.clock with exchange := some { x with t2 := some t2.toNat, locked := locked } } }) ∧
      ((∀ x, s.clock.exchange = some x → ¬ (mine ∧ x.seq = seq.toNat)) →
        exec (.tsyncT2 h locked seq t2) s = .next s ∧ exec (.tsyncT3 h seq t3 t4) s = .next s) ∧
      (∀ x, s.clock.exchange = some x → x.t2 = none → exec (.tsyncT3 h seq t3 t4) s = .next s)) ∧
    (up → ∀ x, s.clock.exchange = some x → mine → x.seq = seq.toNat → x.t2 = some t2.toNat →
      let e (n : DWord) : Int := s.extendTs n
      let there := e t2 - e (BitVec.ofNat 64 x.t1)
      let back := e t4 - e t3
      let offset2 := there - back
      let was := s.regBit R.timeStat 0
      let slews := was = true ∨ s.clock.locked = true ∧ (offset2 / 2).natAbs ≤ 1000 * 65536
      let near := offset2.natAbs * 1000 ≤ 2 * 65536 * s.reg R.timeLockPs ∧ x.locked = true
      ∃ t, exec (.tsyncT3 h seq t3 t4) s = .next t ∧ t.reg R.timeOffset = satReg (offset2 / 512) ∧
        t.reg R.timeDelay = ((there + back) / 512 % 2 ^ 32).toNat ∧ one t R.timeSyncCnt ∧ t.regBit R.timeStat 1 = false ∧
        t.clock.exchange = none ∧ (slews → t.clock.tb = s.clock.tb ∧ t.clock.slew = offset2 / 2) ∧
        (¬ slews → t.clock.tb = (((s.clock.tb : Int) + offset2 / 2) % 2 ^ 80).toNat ∧ t.clock.slew = 0) ∧
        (near → t.clock.run = s.clock.run + 1) ∧ (¬ near → t.clock.run = 0) ∧
        (t.regBit R.timeStat 0 = true ↔ was = true ∨ 8 ≤ t.clock.run) ∧
        (was = false → 8 ≤ t.clock.run → t.regBit (R.hdrIrqStat 3) 0 = true) ∧ t.q = s.q ∧ t.mem = s.mem) ∧
    (up → let root := s.regBit R.timeCtrl 0 = true
      let was := s.regBit R.timeStat 0
      let held := s.regBit R.timeStat 1
      (root ∨ held = true ∧ was = false → exec .holdover s = .next s) ∧
      (¬ root → held = false → ∃ t, exec .holdover s = .next t ∧ s.onlyRegs t ∧ s.regsBut t [R.timeStat] ∧
        t.regBit R.timeStat 1 = true ∧ t.regBit R.timeStat 0 = was) ∧
      (¬ root → held = true → was = true → ∃ t, exec .holdover s = .next t ∧ t.regBit R.timeStat 0 = false ∧
        one t R.timeUnlockCnt ∧ t.regBit (R.hdrIrqStat 3) 1 = true ∧ t.clock = { s.clock with run := 0, slew := 0 })) ∧
    (∀ v : Word, s.pageReady 3 = true →
      let u := s.writeFields R.timeCtrl v.toNat
      let sets := v.getLsbD 2 = true ∧ u.regBit R.timeCtrl 0 = true
      (¬ sets → exec (.timeCtrlSet v) s = .next u) ∧
      (sets → ∃ t, exec (.timeCtrlSet v) s = .next t ∧ t.reg R.timeCtrl = u.reg R.timeCtrl ∧
        t.clock = { s.clock with
          tb := (s.reg R.timeSetLo + s.reg R.timeSetHi * 2 ^ 32) * 65536, slew := 0, locked := true } ∧
        t.regBit R.timeStat 0 = true ∧ (s.regBit R.timeStat 0 = false → t.regBit (R.hdrIrqStat 3) 0 = true)))

/-- Barriers (R307, R308). BAR_ARRIVE from a member opens a record, or is kept until the BARRIER comes, or is accepted
from a child: with all children in, rank 0 releases DELAY from now, tells its children, and every other rank tells its
parent once; after the release a child is answered with it again; from anyone else it is discarded and counted.
BAR_RELEASE from the parent's node keeps the time and passes it on, counts when it is late, and completes the BARRIER
once the timebase has reached it; the resend timer tells the parent again until then; a record goes only after its
release time. Readings: log entries 52 to 54. -/
def Obligations.BarriersGatherAndRelease : Prop :=
  ∀ (s : State) (src : BitVec 20) (group : BitVec 12) (channel rank : BitVec 16) (seq : Word) (time : DWord),
    s.up 2 = true → s.idsOk →
    let g := group.toNat
    let r := rank.toNat
    let node (r : Nat) := s.memberNode g r % 65536
    let me := s.fld (grpBase g) Grp.myRank
    let n := s.fld (grpBase g) Grp.nMembers
    let arrive := Instr.barArrive src group channel rank seq
    let release := Instr.barRelease src group channel seq time
    let found (t : State) := t.bar g channel.toNat seq.toNat
    let dropped (i : Instr) := exec i s = .next (s.bump R.timeBarDrop)
    let member := s.groupUsed g = true ∧ r < n ∧ node r = src.toNat % 65536
    let ended (t : State) := ∀ l ∈ t.q.live, l.phase = .barrier →
      ¬ (l.desc.group = group ∧ l.desc.channel = channel ∧ l.desc.seq = seq)
    (¬ member → dropped arrive) ∧
    (found s = none →
      (member → s.clock.bars.length < 256 →
        exec arrive s = .next (s.putBar ⟨g, channel.toNat, seq.toNat, none, 0, 0, [r], false, none⟩)) ∧
      (member → 256 ≤ s.clock.bars.length → dropped arrive) ∧ dropped release ∧
      (∀ i ∈ [Instr.releaseTimeReached group channel seq, .barResend group channel seq, .barKeepExpiry group channel seq],
        exec i s = .next s)) ∧
    (∀ b, found s = some b →
      let child := r ∈ childrenOf n b.fanout me
      let tells (u : State) (at_ : Nat) := (childrenOf n b.fanout me).foldl (fun (u : State) c =>
        u.mgmt (u.memberNode g c) 4 g channel.toNat 0 seq.toNat (toLE 8 at_)) u
      let b' := { b with arrived := insertN r b.arrived }
      let due := (s.now + b.delay) % 2 ^ 64
      let all := ∀ c ∈ childrenOf n b.fanout me, c ∈ b'.arrived
      let waits := b.live = none ∧ b.release = none
      let fromParent := ¬ waits ∧ me ≠ 0 ∧ node (parentOf b.fanout me) = src.toNat % 65536
      let ready := member ∧ child ∧ b.live.isSome = true ∧ b.release = none ∧ b.sent = false ∧ all
      (member → waits → exec arrive s = .next (s.putBar b')) ∧
      (member → ¬ waits → ¬ child → dropped arrive) ∧
      (∀ at_, member → child → b.release = some at_ →
        exec arrive s = .next (s.mgmt (s.memberNode g r) 4 g channel.toNat 0 seq.toNat (toLE 8 at_))) ∧
      (member → child → ¬ waits → b.release = none → b.sent = true ∨ ¬ all → exec arrive s = .next (s.putBar b')) ∧
      (ready → me ≠ 0 → exec arrive s = .next ((s.putBar { b' with sent := true }).mgmt
        (s.memberNode g (parentOf b.fanout me)) 3 g channel.toNat me seq.toNat [])) ∧
      (ready → me = 0 → s.now < due → exec arrive s = .next (tells (s.putBar { b' with release := some due }) due)) ∧
      (ready → me = 0 → due ≤ s.now → ∃ t, exec arrive s = .next t ∧ found t = some { b' with release := some due } ∧ ended t) ∧
      (¬ fromParent → dropped release) ∧
      (fromParent → b.release.isSome = true → exec release s = .next s) ∧
      (fromParent → b.release = none → s.now < time.toNat →
        exec release s = .next (tells (s.putBar { b with release := some time.toNat }) time.toNat)) ∧
      (fromParent → b.release = none → time.toNat ≤ s.now → ∃ t, exec release s = .next t ∧
        found t = some { b with release := some time.toNat } ∧ ended t ∧
        (time.toNat < s.now → t.reg R.timeBarLate = min (s.reg R.timeBarLate + 1) 0xFFFFFFFF ∧
          t.regBit (R.hdrIrqStat 3) 2 = true)) ∧
      (∀ at_, b.release = some at_ → (∃ t, exec (.releaseTimeReached group channel seq) s = .next t ∧ ended t ∧
          t.clock = { s.clock with tb := max s.clock.tb (at_ * 65536), up := t.clock.up }) ∧
        (at_ ≤ s.now → ∃ t, exec (.barKeepExpiry group channel seq) s = .next t ∧ found t = none ∧
          t = { s with clock := { s.clock with bars := t.clock.bars } }) ∧
        (s.now < at_ → exec (.barKeepExpiry group channel seq) s = .next s)) ∧
      (b.release = none → exec (.releaseTimeReached group channel seq) s = .next s ∧
        exec (.barKeepExpiry group channel seq) s = .next s) ∧
      (b.sent = true → b.release = none → exec (.barResend group channel seq) s =
        .next (s.mgmt (s.memberNode g (parentOf b.fanout me)) 3 g channel.toNat me seq.toNat [])) ∧
      (b.sent = false ∨ b.release.isSome = true → exec (.barResend group channel seq) s = .next s))

/-! ## Recovery and firmware -/

/-- The watch (R332-R337). A HEARTBEAT moves every entry of its sender by the table of R333 and no other entry; each
period sends one to the node watched, if there is one; a missed period counts, and the MISS-th, or the end of the
grace period, makes the entry LOST, which is recorded and counted, and firmware declares its node lost, or will once
it has announced itself; setting VALID starts the entry in WAIT. A declaration ends the connections to the node, makes
LOST each Caisson entry that names it, and leaves the node a route with no output; a LOST notice does the same, and
one that names this chip stops its dispatch. Readings: log entries 44, 45 and 49. -/
def Obligations.LostNodesAreWatchedAndDeclared : Prop :=
  ∀ (s : State), s.up 2 = true →
    let missed (s : State) (i : Nat) := s.regBits (R.snapWatch i) 27 24
    let node (i : Nat) := s.regBits (R.snapWatch i) 19 0
    let declares (u : State) (n : BitVec 20) : Host.Outcome State Fault Refusal := .next
      (if s.firmwareRuns then declareNodeLost n u
        else { u with kstn := { u.kstn with duties := u.kstn.duties ++ [.declareNodeLost n] } })
    let lost (i m : Nat) (row : Instr) := ∃ u : State, exec row s = declares u (BitVec.ofNat 20 (node i)) ∧
      s.onlyIrq u ∧ u.watchState i = 3 ∧ missed u i = m ∧ u.reg R.snapLostLast = 2 ^ 31 + node i ∧
      u.reg R.snapLostCnt = min (s.reg R.snapLostCnt + 1) 0xFFFFFFFF ∧ u.regBit (R.hdrIrqStat 6) 0 = true
    (∀ (src : BitVec 20) (hb : Heartbeat), ∃ t, exec (.heartbeat src hb) s = .next t ∧ s.onlyIrq t ∧
      s.regsBut t (irqRegs 6 ++ (List.range 64).map R.snapWatch) ∧
      ∀ i, i < 64 →
        let hears := s.watched i = true ∧ node i % 65536 = src.toNat % 65536
        let st := s.watchState i
        let runs := hb.kstn = 0
        (hears → (runs → st ≤ 2 → t.watchState i = 1 ∧ missed t i = 0) ∧
          (¬ runs → st = 1 ∨ st = 2 → t.watchState i = 2 ∧ missed t i = 0) ∧
          (¬ runs → st = 1 → t.regBit (R.hdrIrqStat 6) 3 = true)) ∧
        (¬ hears ∨ 2 < st ∨ ¬ runs ∧ st = 0 → t.reg (R.snapWatch i) = s.reg (R.snapWatch i))) ∧
    ((∀ i, i < 64 → s.watched i = false) → exec .heartbeatPeriod s = .next s) ∧
    (∀ i, i < 64 → s.watched i = true → (∀ k, k < 64 → k ≠ i → s.watched k = false) →
      let u := { s with snap := { s.snap with hbSeq := (s.snap.hbSeq + 1) % 2 ^ 32 } }
      exec .heartbeatPeriod s = .next (u.mgmt (node i) 1 0 0 0 0 u.heartbeatBytes)) ∧
    (∀ entry : BitVec 6,
      let i := entry.toNat
      let st := s.watchState i
      let m := min (missed s i + 1) 15
      let counts := s.watched i = true ∧ (st = 1 ∨ st = 2)
      (counts → m < s.regBits R.snapHbCfg 23 20 → ∃ t, exec (.heartbeatMiss entry) s = .next t ∧ s.onlyRegs t ∧
        s.regsBut t [R.snapWatch i] ∧ t.watchState i = st ∧ missed t i = m) ∧
      (counts → s.regBits R.snapHbCfg 23 20 ≤ m → lost i m (.heartbeatMiss entry)) ∧
      (¬ counts → exec (.heartbeatMiss entry) s = .next s) ∧
      (s.watched i = true ∧ st = 2 → lost i (missed s i) (.graceExpiry entry)) ∧
      (¬ (s.watched i = true ∧ st = 2) → exec (.graceExpiry entry) s = .next s) ∧
      (s.pageReady 6 = true → ∀ v : Word, ∃ t, exec (.snapWatchWrite entry v) s = .next t ∧ s.onlyRegs t ∧
        s.regsBut t [R.snapWatch i] ∧ t.watched i = v.getLsbD 31 ∧
        t.regBits (R.snapWatch i) 19 0 = bits v.toNat 19 0 ∧
        (s.watched i = false → v.getLsbD 31 = true → t.watchState i = 0 ∧ missed t i = 0) ∧
        (s.watched i = true ∨ v.getLsbD 31 = false → t.watchState i = st ∧ missed t i = missed s i))) ∧
    (∀ n : BitVec 20,
      exec (.declareNodeLost n) s = declares s n ∧
      (∀ src, exec (.firmware src none) s = if s.firmwareRuns then .next s else
        .next { s with kstn := { s.kstn with duties := s.kstn.duties ++ [.firmware src none] } }) ∧
      (∀ src, s.firmwareRuns = true → n.toNat % 65536 ≠ s.node → exec (.firmware src (some n)) s = exec (.declareNodeLost n) s) ∧
      (∀ src, s.firmwareRuns = true → n.toNat % 65536 = s.node → ∃ t, exec (.firmware src (some n)) s = .next t ∧
        t = { s with q := { s.q with selfLost := true }, regs := t.regs, irqOut := t.irqOut } ∧
        t.regBit (R.hdrIrqStat 6) 4 = true) ∧
      (s.firmwareRuns = true → s.q.live = [] → s.ctx.wf = true → ∃ t, exec (.declareNodeLost n) s = .next t ∧
        (∀ c, c < 32768 → s.flag (connBase c) Conn.enable = true → s.fld (connBase c) Conn.remoteNode % 65536 = n.toNat % 65536 →
          s.connState c = 1 ∨ s.connState c = 2 → t.connState c = 3 ∧ t.fld (connBase c) Conn.endStatus = 0x41) ∧
        (∀ e, e < 2 → s.entryNode e % 65536 = n.toNat % 65536 →
          t.entryState e = 4) ∧
        t.flag (routeBase (n.toNat % 65536)) Route.valid = true ∧ t.fld (routeBase (n.toNat % 65536)) Route.ports = 0))

/-- Firmware (R313, R314, R361, R377, R378). A mailbox command is refused while one is outstanding, waits for the
first announcement, and is answered then with the status and the data of the table, its argument checked. The
announcement counts INCARNATION up, ends a start, and answers what a reset cut off. A DISCOVER request is answered.
Writing ARM puts an entry into CHECKING, and its partner is asked again at each repeat until an answer comes; feeds
that conflict refuse it unless overridden; clearing ARM puts it OFF, and its other fields are taken only while ARM is
0. Readings: log entries 46, 58, 72 and 73. -/
def Obligations.FirmwareServesMailboxAndArming : Prop :=
  ∀ (s : State) (v : Word), s.ctx.wf = true →
    let arg := s.reg (R.kstnMbArg 0)
    let busy := s.regBit R.kstnMbStat 31 = true
    let answered (t : State) (status : Nat) := t.reg R.kstnMbStat = 2 ^ 30 + bits v.toNat 31 24 * 65536 + status ∧
      t.regBit (R.hdrIrqStat 1) 0 = true
    let data (t : State) (i : Nat) := t.reg (R.kstnMbData i)
    (s.pageReady 1 = true → ∀ i ∈ [Instr.ping v, .version v, .declareLost v, .routeClear v, .timeReparent v],
      let asked (n : Nat) := ¬ busy ∧ s.announced = true ∧ v.toNat % 256 = n
      (busy → ∃ t, exec i s = .next t ∧ s.onlyIrq t ∧ t.reg R.kstnMbRefused = min (s.reg R.kstnMbRefused + 1) 0xFFFFFFFF ∧
        t.regBit (R.hdrIrqStat 1) 2 = true) ∧
      (¬ busy → s.announced = false → ∃ t, exec i s = .next t ∧ t.regBit R.kstnMbStat 31 = true ∧
        s.regsBut t [R.kstnMbStat] ∧ t = { s with regs := t.regs, kstn := { s.kstn with command := some v } }) ∧
      (asked 1 → ∃ t, exec i s = .next t ∧ s.onlyIrq t ∧ answered t 0 ∧ data t 0 = arg) ∧
      (asked 2 → ∃ t, exec i s = .next t ∧ s.onlyIrq t ∧ answered t 0 ∧ data t 0 = s.reg R.bootFwVersion ∧
        data t 1 = s.reg R.bootSvn ∧ data t 2 = s.regBits R.kstnState 15 0) ∧
      ((asked 3 ∨ asked 4) ∧ 2 ^ 20 ≤ arg ∨ asked 5 ∧ (64 ≤ arg ∨ s.linkIsUp arg = false) →
        ∃ t, exec i s = .next t ∧ s.onlyIrq t ∧ answered t 0x23) ∧
      (asked 3 → arg < 2 ^ 20 → ∃ u : State, s.onlyRegs u ∧ s.regsBut u [R.kstnMbStat] ∧
        exec i s = .next ((declareNodeLost (BitVec.ofNat 20 arg) u).mbAnswer v 0 [])) ∧
      (asked 4 → arg < 2 ^ 20 → ∃ t, exec i s = .next t ∧ answered t 0 ∧
        data t 0 = (s.snap.detours.filter fun x => x.1 == arg % 65536).length % 2 ^ 32 ∧
        (∀ x ∈ s.snap.detours, x.1 = arg % 65536 → leNat (t.ctxRd (routeBase x.2) 8) = 0 ∧ x ∉ t.snap.detours) ∧
        ∀ x ∈ s.snap.detours, x.1 ≠ arg % 65536 → x ∈ t.snap.detours) ∧
      (asked 5 → arg < 64 → s.linkIsUp arg = true → ∃ t, exec i s = .next t ∧ answered t 0 ∧
        t.reg R.timeParent = 2 ^ 31 + arg ∧ t.clock = { s.clock with exchange := none, run := 0 }) ∧
      (∀ n, asked n → n = 0 ∨ 5 < n → ∃ t, exec i s = .next t ∧ s.onlyIrq t ∧ answered t 0x70)) ∧
    (s.up 1 = true →
      (s.mayAnnounce = false → exec .keystoneAnnounce s = .next s) ∧ (∃ t, exec .keystoneAnnounce s = .next t) ∧
      (s.mayAnnounce = true → s.kstn.duties = [] → s.kstn.command = none → ∃ t, exec .keystoneAnnounce s = .next t ∧
        t.announced = true ∧ t.regBits R.kstnState 31 30 = 0 ∧ t.regBit (R.hdrIrqStat 1) 1 = true ∧
        t.regBits R.kstnState 15 0 = (s.regBits R.kstnState 15 0 + 1) % 65536 ∧
        t.regBits R.snapSelf 15 0 = (s.regBits R.kstnState 15 0 + 1) % 65536 ∧ t.kstn.cutOff = none ∧
        (s.bootState = 4 → t.bootState = 5 ∧ t.reg R.bootTime = (s.clock.up - s.pwr.goAt) / 1000000 % 2 ^ 32 ∧
          t.regBit (R.hdrIrqStat 2) 6 = true) ∧
        (∀ c, s.kstn.cutOff = some c → t.reg R.kstnMbStat = 2 ^ 30 + bits c.toNat 31 24 * 65536 + 0x7F))) ∧
    (s.up 2 = true → s.firmwareRuns = true → ∀ (src : BitVec 20) (m : DiscoverMsg) (entry : Bool),
      let e := b2n entry
      let feed (d : Nat) := bits d 31 20
      let own := s.reg R.snapDomain
      let conflict := feed own = feed m.domain.toNat ∨ feed own = 0 ∨ feed m.domain.toNat = 0
      (m.answer = false → exec (.discover src m) s =
        .next (s.mgmt src.toNat 2 0 0 0 0 (s.discoverBytes true))) ∧
      (m.answer = true → s.askingPartner e = true → s.entryNode e % 65536 = src.toNat % 65536 →
        s.entryNode (1 - e) % 65536 ≠ src.toNat % 65536 →
        conflict → s.regBit (R.snapCNode e) 30 = false → ∃ t, exec (.discover src m) s = .next t ∧ t.entryState e = 3 ∧
          t.regBits (R.snapCStat e) 7 0 = 0x60 ∧ t.regBit (R.hdrIrqStat 6) 1 = true ∧
          t.reg (R.hdrErrFirst 6) =
            (if s.regBit (R.hdrErrFirst 6) 31 then s.reg (R.hdrErrFirst 6) else 2 ^ 31 + 0x60)) ∧
      (m.answer = true → s.askingPartner e = true → s.entryNode e % 65536 = src.toNat % 65536 →
        ∃ t, exec (.discover src m) s = .next t ∧ t.reg (R.snapCPeerDomain e) = m.domain.toNat) ∧
      (m.answer = true → (∀ e, e < 2 → s.askingPartner e = true → s.entryNode e % 65536 ≠ src.toNat % 65536) →
        exec (.discover src m) s = .next s) ∧
      (s.askingPartner e = true → exec (.discoverRepeat entry) s =
        .next (s.mgmt (s.entryNode e) 2 0 0 0 0 (s.discoverBytes false))) ∧
      (s.askingPartner e = false → exec (.discoverRepeat entry) s = .next s)) ∧
    (s.pageReady 6 = true → ∀ entry : Bool, ∀ i ∈ [Instr.caissonArm entry v, .caissonDisarm entry v],
      let e := b2n entry
      let armed := s.regBit (R.snapCNode e) 31 = true
      (s.locked 6 = true ∨ armed ∧ v.getLsbD 31 = true → exec i s = .next s) ∧ (∃ t, exec i s = .next t) ∧
      (s.locked 6 = false → armed → v.getLsbD 31 = false → s.q.live = [] → ∃ t, exec i s = .next t ∧
        t.regBit (R.snapCNode e) 31 = false ∧ t.regBits (R.snapCNode e) 30 0 = s.regBits (R.snapCNode e) 30 0 ∧
        t.entryState e = 0 ∧ ∀ j ∈ t.snap.jobs, j.live = none → j.entry ≠ e) ∧
      (s.locked 6 = false → ¬ armed → v.getLsbD 31 = false → ∃ t, exec i s = .next t ∧ s.onlyRegs t ∧
        s.regsBut t [R.snapCNode e] ∧ t.entryNode e = bits v.toNat 19 0 ∧ t.regBit (R.snapCNode e) 31 = false) ∧
      (s.locked 6 = false → ¬ armed → v.getLsbD 31 = true → ∃ t, exec i s = .next t ∧
        t.entryState e = 1 ∧ t.entryNode e = bits v.toNat 19 0 ∧ t.regBit (R.snapCNode e) 31 = true))

/-! ## Supplies, clocks, temperature, resets and start-up -/

/-- Supplies, islands, operating points and temperature (R342, R343, R345-R353, R356, R364, R366). A supply at its
warning level stretches the island; the dip is remembered with its least reading and onset, and is counted, logged and
reported when the supply has risen 10 mV above that level. At the reset level the island is reset and counted; what that
becomes depends on the island, and a third time in a second takes a Pier, a port or an Abutment out of service; the fall
is logged when it ends. A short takes any island out. Where a more severe event holds, only counters and log entries are
made. An island released, or that start-up starts, runs when it may, at the point asked for or the cap's. A VDDA group's
dip is counted and its reset takes its links down; both are logged when they end. An island moves to the point asked for,
or the cap's while its sensor is hot, one transition at a time; BOUNDS is recorded for a point it does not have. Readings:
log entries 68 to 70 and 121. -/
def Obligations.PowerEventsActOnTheirIslands : Prop :=
  ∀ (s : State), s.up 0 = true → s.shaped = true →
    let one (t : State) (a : Nat) := t.reg a = min (s.reg a + 1) 0xFFFFFFFF
    let irq (t : State) (n : Nat) := t.regBit (R.hdrIrqStat 2) n = true
    let other (t : State) (i : Nat) := ∀ k, k ≠ i → t.island k = s.island k
    let power (t : State) := t = { s with pwr := t.pwr }
    (∀ (island : BitVec 7) (vddh : Bool) (mv : BitVec 16),
      let i := island.toNat
      let m := mv.toNat
      let x := s.island i
      let dip := eventOf vddh x.dips
      let fall := eventOf vddh x.falls
      let head (kind : Nat) := kind * 2 ^ 24 + b2n vddh * 128 + i
      let recent := x.resets.filter fun u => decide (s.now < u + 1000000000)
      (68 < i → ∀ c ∈ [Instr.vdip island vddh mv, .vreset island vddh mv, .vdipRecover island vddh mv,
        .islandResetRelease island, .short island, .dvfsDone island], exec c s = .next s) ∧
      (i ≤ 68 → ∀ c ∈ [Instr.vdip island vddh mv, .vreset island vddh mv],
        (∀ d, fall = some d → ∃ t, exec c s = .next t ∧ power t ∧ other t i ∧
          t.island i = { x with falls := (t.island i).falls } ∧
          eventOf vddh (t.island i).falls = some (vddh, min d.2.1 m, d.2.2)) ∧
        (fall = none → x.resetLevel vddh < m → ∀ d, dip = some d → ∃ t, exec c s = .next t ∧ power t ∧ other t i ∧
          t.island i = { x with dips := (t.island i).dips } ∧
          eventOf vddh (t.island i).dips = some (vddh, min d.2.1 m, d.2.2)) ∧
        (fall = none → x.resetLevel vddh < m → dip = none →
          (m ≤ x.warnLevel vddh → ∃ t, exec c s = .next t ∧ power t ∧ other t i ∧
            t.island i = { x with dips := (t.island i).dips } ∧
            eventOf vddh (t.island i).dips = some (vddh, m, s.now)) ∧
          (x.warnLevel vddh < m → exec c s = .next s)) ∧
        (fall = none → m ≤ x.resetLevel vddh → i ≠ 0 → ∃ t, exec c s = .next t ∧ one t R.pwrVrstCnt ∧ irq t 1 ∧
          (t.island i).ready = false ∧ (t.island i).low = true ∧ (t.island i).vrsts = min (x.vrsts + 1) 0xFFFFFFFF ∧
          eventOf vddh (t.island i).falls = some (vddh, m, s.now) ∧ eventOf vddh (t.island i).dips = none ∧
          (∀ d, dip = some d → one t R.pwrVdipCnt ∧ irq t 0 ∧ s.pwrLogged t (head 1) (min d.2.1 m) d.2.2) ∧
          (s.absorbed = true → s.onlyPwr t ∧ other t i ∧ (t.island i).oos = x.oos) ∧
          (s.absorbed = false →
            (i = 1 → 2 ≤ s.bootState → t.regBits R.kstnState 31 30 = 1 ∧ other t i ∧ t.q = s.q ∧ t.x = s.x) ∧
            (2 ≤ i → i ≤ 4 → t.bootState = 1 ∧ ∀ k, 1 ≤ k → (t.island k).ready = false) ∧
            (5 ≤ i → other t i ∧ (t.island i).oos = (x.oos || decide (2 ≤ recent.length))) ∧
            (5 ≤ i → i ≤ 36 → t.mem = s.mem ∧ t.ctx = s.ctx ∧ t.q = s.q ∧ t.x = s.x))) ∧
        (fall = none → m ≤ x.resetLevel vddh → i = 0 → ∃ t, exec c s = .next t ∧ t.bootState = 0)) ∧
      (i ≤ 68 → x.warnLevel vddh + 10 ≤ m → ∃ t, exec (.vdipRecover island vddh mv) s = .next t ∧ s.onlyPwr t ∧
        other t i ∧ eventOf vddh (t.island i).dips = none ∧ eventOf vddh (t.island i).falls = none ∧
        (t.island i).ready = x.ready ∧ (t.island i).low = x.low ∧
        (∀ d, dip = some d → (t.island i).vdips = min (x.vdips + 1) 0xFFFFFFFF ∧ one t R.pwrVdipCnt ∧ irq t 0 ∧
          (fall = none → s.pwrLogged t (head 1) (min d.2.1 m) d.2.2)) ∧
        (∀ d, dip = none → fall = some d → s.pwrLogged t (head 2) (d.2.1 % 65536) d.2.2) ∧
        (dip = none → fall = none → t = s)) ∧
      (i ≤ 68 → m < x.warnLevel vddh + 10 →
        exec (.vdipRecover island vddh mv) s = exec (.vdip island vddh mv) s) ∧
      (i ≤ 68 →
        let u := s.setIsland i fun x => { x with low := false }
        ∃ t, exec (.islandResetRelease island) s = .next t ∧
          t = { s with regs := t.regs, pwr := t.pwr, piers := t.piers } ∧ other t i ∧ (t.island i).low = false ∧
          (t.island i).ready = (x.ready || u.mayRun i) ∧ eventOf vddh (t.island i).falls = none ∧
          (x.ready = false → u.mayRun i = true → (t.island i).point = s.goal i ∧
            (5 ≤ i → i ≤ 36 → nth t.piers (i - 5) [] = s.q.tables)) ∧
          (∀ d, fall = some d → eventOf (!vddh) x.falls = none → s.pwrLogged t (head 2) (d.2.1 % 65536) d.2.2)) ∧
      (i ≤ 68 → ∃ t value, exec (.short island) s = .next t ∧ irq t 2 ∧ value < 65536 ∧
        s.pwrLogged t (3 * 2 ^ 24 + i) value s.now ∧
        (i ≠ 0 → s.absorbed = true → t = { s with regs := t.regs, irqOut := t.irqOut, free := t.free }) ∧
        (i = 0 ∨ s.absorbed = false → (t.island i).oos = true ∧ (t.island i).ready = false ∧
          (i = 0 → t.pwr.dead = true) ∧ (i = 1 → 2 ≤ s.bootState → t.regBits R.kstnState 31 30 = 1) ∧
          (i ≤ 4 → i ≠ 1 → ∀ k, 1 ≤ k → (t.island k).ready = false) ∧ (i = 1 ∨ 5 ≤ i → other t i))) ∧
      (∀ p, x.ramp = some p → i ≤ 68 → ∃ t, exec (.dvfsDone island) s = .next t ∧ power t ∧ other t i ∧
        t.island i = { x with point := p, ramp := (t.island i).ramp } ∧
        (t.island i).ramp = if s.mayRamp i && decide (p ≠ s.goal i) then some (s.goal i) else none) ∧
      (x.ramp = none → exec (.dvfsDone island) s = .next s)) ∧
    (∀ (g : BitVec 3) (mv : BitVec 16),
      let n := g.toNat
      let m := mv.toNat
      let of (l : List (Nat × Nat × Nat)) := l.find? fun w => w.1 == n
      let warn := of s.pwr.vddaWarn
      let fall := of s.pwr.vddaReset
      (∀ c ∈ [Instr.vddaDip g mv, .vddaReset g mv],
        (∀ w, fall = some w → ∃ t, exec c s = .next t ∧ t = { s with pwr := { s.pwr with vddaReset := t.pwr.vddaReset } } ∧
          of t.pwr.vddaReset = some (n, min w.2.1 m, w.2.2)) ∧
        (fall = none → m ≤ 810 → ∃ t, exec c s = .next t ∧ of t.pwr.vddaReset = some (n, m, s.now) ∧
          of t.pwr.vddaWarn = none ∧ t.pwr.islands = s.pwr.islands ∧
          (∀ w, warn = some w → s.pwrLogged t (4 * 2 ^ 24 + n) (min w.2.1 m) w.2.2) ∧
          ∀ h, h < 48 → h / 8 = n → s.halfExists h = true → s.linkState h ≠ 0 → t.linkState h = 1) ∧
        (fall = none → 810 < m → ∀ w, warn = some w → ∃ t, exec c s = .next t ∧
          t = { s with pwr := { s.pwr with vddaWarn := t.pwr.vddaWarn } } ∧
          of t.pwr.vddaWarn = some (n, min w.2.1 m, w.2.2)) ∧
        (fall = none → 810 < m → warn = none →
          (m ≤ 855 → ∃ t, exec c s = .next t ∧ s.onlyPwr t ∧ of t.pwr.vddaWarn = some (n, m, s.now) ∧
            one t R.pwrVddaDipCnt ∧ s.regsBut t [R.pwrVddaDipCnt]) ∧
          (855 < m → exec c s = .next s))) ∧
      ∃ t, exec (.vddaRecover g) s = .next t ∧ s.onlyPwr t ∧ of t.pwr.vddaWarn = none ∧ of t.pwr.vddaReset = none ∧
        t.pwr.islands = s.pwr.islands ∧
        (∀ w, warn = none → fall = some w → s.pwrLogged t (5 * 2 ^ 24 + n) (w.2.1 % 65536) w.2.2) ∧
        (∀ w, fall = none → warn = some w → s.pwrLogged t (4 * 2 ^ 24 + n) (min w.2.1 0xFFFF) w.2.2) ∧
        (warn = none → fall = none → t = s)) ∧
    ((s.bootState = 0 → ∃ t, exec .suppliesQualified s = .next t ∧ s.onlyPwr t ∧ t.bootState = 1 ∧
        (t.island 0).ready = true ∧ other t 0) ∧ (s.bootState ≠ 0 → exec .suppliesQualified s = .next s)) ∧
    (let starts (u t : State) (lo : Nat) := t = { s with pwr := t.pwr, piers := t.piers } ∧
       (∀ i, i < lo → t.island i = s.island i) ∧
       ∀ i, lo ≤ i → i ≤ 68 → (t.island i).ready = ((s.island i).ready || u.mayRun i) ∧
         ((s.island i).ready = false → u.mayRun i = true → (t.island i).point = s.goal i ∧
           (i ≤ 36 → nth t.piers (i - 5) [] = s.q.tables))
     (s.bootState = 4 ∨ s.bootState = 5 → ∃ t, exec .islandStart s = .next t ∧ t.pwr.started = true ∧
       starts { s with pwr := { s.pwr with started := true } } t 5) ∧
     (s.bootState ≠ 3 → s.bootState ≠ 4 → s.bootState ≠ 5 → exec .islandStart s = .next s) ∧
     (∃ t, exec .dieToDieFabricUp s = .next t ∧ t.pwr.dieFabric = true ∧
       starts { s with pwr := { s.pwr with dieFabric := true } } t 61)) ∧
    (∀ v : Word,
      let i := s.regBits R.pwrIslSel 6 0
      let p := v.toNat % 4
      (68 < i → exec (.pwrIslOpp v) s = .next s) ∧
      (i ≤ 68 → pointsOf i ≤ p → ∃ t, exec (.pwrIslOpp v) s = .next t ∧ s.onlyRegs t ∧
        s.regsBut t [R.hdrErrFirst 2, R.hdrErrFirstInfo 2] ∧
        t.reg (R.hdrErrFirst 2) = if s.regBit (R.hdrErrFirst 2) 31 then s.reg (R.hdrErrFirst 2) else 2 ^ 31 + 0x23) ∧
      (i ≤ 68 → p < pointsOf i →
        let goal := if s.capped i then 2 else p
        ∃ t, exec (.pwrIslOpp v) s = .next t ∧ power t ∧ other t i ∧
          t.island i = { s.island i with asked := p, ramp := (t.island i).ramp } ∧
          (t.island i).ramp = if s.mayRamp i && (s.island i).ramp.isNone && decide ((s.island i).point ≠ goal)
            then some goal else (s.island i).ramp)) ∧
    (∀ (sensor : BitVec 4) (temp : BitVec 16),
      let n := sensor.toNat
      let x := s.sensor n
      let moves (t : State) (goal : Nat → Nat) := ∀ i, i ∈ dvfsOf n →
        t.island i = { s.island i with ramp := (t.island i).ramp } ∧
        ((s.island i).ready = true → (s.island i).ramp = none →
          (t.island i).ramp = if (s.island i).point = goal i then none else some (goal i))
      let hot := s.limit 8 ≤ temp.toInt
      (hot → x.hot = false → dvfsOf n ≠ [] → (∀ i ∈ dvfsOf n, (s.island i).dips = []) →
        ∃ t, exec (.throttle sensor temp) s = .next t ∧ s.onlyPwr t ∧ (t.sensor n).hot = true ∧
          (t.sensor n).onset = s.now ∧ one t R.pwrThrottleCnt ∧ irq t 3 ∧ moves t fun _ => 2) ∧
      (hot → x.hot = false → ∀ i ∈ dvfsOf n, (s.island i).dips ≠ [] → ∃ t, exec (.throttle sensor temp) s = .next t ∧
        s.onlyPwr t ∧ (t.sensor n).hot = true ∧ one t R.pwrThrottleCnt ∧ irq t 3 ∧ t.island i = s.island i) ∧
      (¬ hot ∨ x.hot = true ∨ dvfsOf n = [] → ∃ t, exec (.throttle sensor temp) s = .next t ∧ power t ∧
        t.pwr.islands = s.pwr.islands ∧ (t.sensor n).hot = x.hot ∧ (t.sensor n).temp = temp) ∧
      (x.hot = true → temp.toInt ≤ s.limit 0 → ∃ t, exec (.throttleLift sensor temp) s = .next t ∧ s.onlyPwr t ∧
        (t.sensor n).hot = false ∧ s.pwrLogged t (6 * 2 ^ 24 + n)
          (degrees (if x.hottest.toInt < temp.toInt then temp else x.hottest)) x.onset ∧
        moves t fun i => (s.island i).asked) ∧
      (x.hot = false ∨ s.limit 0 < temp.toInt → ∃ t, exec (.throttleLift sensor temp) s = .next t ∧ power t ∧
        t.pwr.islands = s.pwr.islands ∧ (t.sensor n).hot = x.hot ∧ (t.sensor n).temp = temp))

/-- Resets and start-up (R343, R354, R355, R358, R360-R364). A cold reset keeps the fuses, what the part is, and what is
not of the engine. An engine warm reset, and a trip and the loss of the island clock at their onset, clear every island but
the top; a warm reset also clears AK_TOP and the locks, keeps the registers of AK_PWR, AK_TIME and AK_TEST, the timebase,
the image and the out-of-service marks, and begins at the self-test; a trip ends when the sensors have cooled and
TRIP_CLEAR is written, a clock loss when the clock returns, and a warm reset follows. A Keystone-only reset cuts a command
off. The loss of a port clock takes its links down. The self-test's report fails the start or takes islands out; LOAD
starts an image over, its words are stored in order, and GO begins VERIFY, which ends, with the image running or the
status of the check that failed, at the latest when the islands are to start. The watchdog resets the Keystone; firmware
restarts it. A lesser event under a more severe one has only its counter and log entry. Readings: log entries 65 to 72. -/
def Obligations.ResetsAndStartUpFollowTheirStages : Prop :=
  ∀ (s : State), s.shaped = true → s.memOk = true →
    let one (t : State) (a : Nat) := t.reg a = min (s.reg a + 1) 0xFFFFFFFF
    let irq (t : State) (n : Nat) := t.regBit (R.hdrIrqStat 2) n = true
    let untouched (t : State) := ∀ b, b / 64 ∉ s.cb.map (·.granule) ++ s.touched.map (·.2) →
      t.mem.read b = s.mem.read b
    let kept (held : Bool) (a : Nat) := a / 4096 = 2 ∨ a / 4096 = 3 ∨ a / 4096 = 0x7C ∨ a = R.topPart ∨
      held = true ∧ a / 4096 = 0
    let cleared (t : State) (held : Bool) := (∀ a, ¬ kept held a → t.reg a = regReset a) ∧
      (∀ a, a / 4096 = 3 ∨ a = R.topPart ∨ a / 4096 = 0x7C ∧ s.test = none → t.reg a = s.reg a) ∧
      t.ctx = [] ∧ t.q = QState.reset ∧ t.x = Xport.reset ∧ t.snap = Snap.reset ∧ t.cb = [] ∧ t.joints = [] ∧
      t.kstn = ⟨none, none, []⟩ ∧ t.test = none ∧ (∀ p, p < 32 → nth t.piers p [] = []) ∧ untouched t ∧
      t.clock.tb = s.clock.tb ∧ t.pwr.image = s.pwr.image ∧ t.pwr.verified = s.pwr.verified ∧ t.pwr.started = false ∧
      (∀ i, 1 ≤ i → (t.island i).ready = false) ∧ (∀ i, (t.island i).oos = (s.island i).oos) ∧
      ∀ l, l ∈ t.locks ↔ l ∈ s.locks ∧ (held = true ∨ l.1 = 2 ∨ l.1 = 3 ∨ l.1 = 0x7C)
    let warm (t : State) := cleared t false ∧ t.bootState = 1
    let keystone (t : State) := t.regBits R.kstnState 31 30 = 1 ∧ t.announced = false ∧
      t.regBits R.kstnState 15 0 = s.regBits R.kstnState 15 0 ∧ t.regBits R.snapSelf 17 16 = 1 ∧ t.kstn.command = none ∧
      (∀ c, s.kstn.command = some c → t.kstn.cutOff = some c) ∧ t.pwr.wdogAt = t.now ∧
      t = { s with regs := t.regs, irqOut := t.irqOut, clock := t.clock, kstn := t.kstn, pwr := t.pwr, free := t.free }
    (∀ vdda, ∀ i ∈ [Instr.coldReset, .supplyLoss vdda], ∃ t, exec i s = .next t ∧ untouched t ∧ t.pending = s.pending ∧
      (∀ a, a ≠ R.topPart → a ≠ R.bootSvn → t.reg a = regReset a) ∧ t.reg R.topPart = s.reg R.topPart ∧
      t.regBits R.bootSvn 31 16 = s.regBits R.bootSvn 31 16 ∧ t.pwr.digest = s.pwr.digest ∧
      t.pwr.fusedOff = s.pwr.fusedOff ∧ t.pwr.dieFabric = s.pwr.dieFabric ∧ t.pwr.islands = Pwr.reset.islands ∧
      t.pwr.image = [] ∧ t.ctx = [] ∧ t.q = QState.reset ∧ t.x = Xport.reset ∧ t.clock = State.reset.clock ∧
      t.seed = State.reset.seed ∧ t.scan = s.scan ∧ t.locks = []) ∧
    (s.pageReady 2 = true → ∀ v : Word, ∀ i ∈ [Instr.tripClear v, .warmReset v, .kstnReset v],
      let ends := v.getLsbD 2 = true ∧ s.pwr.tripAt.isSome = true ∧ s.cooled = true
      (ends → ∀ at_ n hottest, s.pwr.tripAt = some (at_, n, hottest) → ∃ t, exec i s = .next t ∧
        t.pwr.tripAt = none ∧ s.pwrLogged t (7 * 2 ^ 24 + n % 128) (degrees hottest) at_ ∧
        (s.pwr.clockLost = none → s.bootState ≠ 0 → warm t) ∧
        (s.pwr.clockLost.isSome = true ∨ s.bootState = 0 → s.onlyPwr t ∧ t.pwr = { s.pwr with tripAt := none })) ∧
      (¬ ends → v.getLsbD 1 = true →
        (s.absorbed = false → ∃ t, exec i s = .next t ∧ warm t ∧
          ∀ a, a / 4096 = 2 → a ≠ R.bootStat → t.reg a = s.reg a) ∧
        (s.absorbed = true → exec i s = .next s)) ∧
      (¬ ends → v.getLsbD 1 = false → v.getLsbD 0 = true →
        (s.heldDown = false → 2 ≤ s.bootState → ∃ t, exec i s = .next t ∧ keystone t ∧
          s.regsBut t [R.kstnState, R.snapSelf]) ∧
        (s.heldDown = true ∨ s.bootState < 2 → exec i s = .next s)) ∧
      (¬ ends → v.getLsbD 1 = false → v.getLsbD 0 = false → exec i s = .next s)) ∧
    (s.up 0 = true →
      (∀ (sensor : BitVec 4) (temp : BitVec 16),
        (s.pwr.tripAt = none → s.limit 24 ≤ temp.toInt → ∃ t, exec (.trip sensor temp) s = .next t ∧ cleared t true ∧
          irq t 4 ∧ t.heldDown = true ∧ t.pwr.tripAt = some (s.now, sensor.toNat, temp) ∧
          (s.test = none → ∀ a, kept true a → a ∉ irqRegs 2 → t.reg a = s.reg a)) ∧
        (∀ at_ n hottest, s.pwr.tripAt = some (at_, n, hottest) → s.limit 24 ≤ temp.toInt → ∃ t,
          exec (.trip sensor temp) s = .next t ∧ t = { s with pwr := t.pwr } ∧ t.pwr.islands = s.pwr.islands ∧
          t.pwr.tripAt = some (at_, n, if hottest.toInt < temp.toInt then temp else hottest)) ∧
        (temp.toInt < s.limit 24 → ∃ t, exec (.trip sensor temp) s = .next t ∧
          t = { s with pwr := { s.pwr with sensors := t.pwr.sensors } } ∧ (t.sensor sensor.toNat).temp = temp)) ∧
      (s.pwr.clockLost = none → ∃ t, exec .refclk s = .next t ∧ cleared t true ∧ t.heldDown = true ∧
        t.pwr.clockLost = some s.now ∧ (s.test = none → ∀ a, kept true a → t.reg a = s.reg a)) ∧
      (s.pwr.clockLost.isSome = true → exec .refclk s = .next s) ∧
      (∀ at_, s.pwr.clockLost = some at_ → ∃ t, exec .refclkReturn s = .next t ∧ t.pwr.clockLost = none ∧
        (∃ place value, place < 128 ∧ value < 65536 ∧ s.pwrLogged t (9 * 2 ^ 24 + place) value at_) ∧
        (s.pwr.tripAt = none → s.bootState ≠ 0 → warm t) ∧
        (s.pwr.tripAt.isSome = true ∨ s.bootState = 0 →
          t = { s with regs := t.regs, free := t.free, pwr := { s.pwr with clockLost := none } })) ∧
      (s.pwr.clockLost = none → exec .refclkReturn s = .next s) ∧
      (∀ g : BitVec 3, (∃ t, exec (.portRefclkLoss g) s = .next t ∧ g.toNat ∈ t.pwr.portClock ∧ t.mem = s.mem ∧
          t.pwr.islands = s.pwr.islands ∧
          ∀ h, h < 48 → h / 8 = g.toNat → s.halfExists h = true → s.linkState h ≠ 0 → t.linkState h = 1) ∧
        ∃ t, exec (.portRefclkReturn g) s = .next t ∧ t = { s with pwr := { s.pwr with portClock := t.pwr.portClock } } ∧
          ∀ k, k ∈ t.pwr.portClock ↔ k ∈ s.pwr.portClock ∧ k ≠ g.toNat) ∧
      (let due := s.regBit R.pwrWdog 31 = true ∧ (s.bootState = 4 ∨ s.bootState = 5)
       (due → ∃ t value, exec .wdog s = .next t ∧ value < 65536 ∧ one t R.pwrWdogCnt ∧ irq t 5 ∧
         s.pwrLogged t (8 * 2 ^ 24 + 1) value t.now ∧ (s.heldDown = false → keystone t) ∧
         (s.heldDown = true → t = { s with regs := t.regs, irqOut := t.irqOut, clock := t.clock, free := t.free })) ∧
       (¬ due → exec .wdog s = .next s)) ∧
      (s.islandReady 1 = true → exec .wdogRestart s = .next { s with pwr := { s.pwr with wdogAt := s.now } }) ∧
      (s.islandReady 1 = false → exec .wdogRestart s = .next s) ∧
      (let v := s.correctImage
       let failed (t : State) (status array : Nat) := irq t 6 ∧ t.reg R.bootStat = 6 * 2 ^ 28 + status * 256 + array
       let runs (t : State) := t.reg R.bootFwVersion = leNat (v.pwr.image.readN 8 4) ∧
         t.regBits R.bootSvn 15 0 = leNat (v.pwr.image.readN 6 2) ∧ t.regBits R.kstnState 31 30 = 2 ∧
         t.pwr.verified = true ∧ t.pwr.wdogAt = s.now
       (∀ r : SelfTestReport,
         let stage2 := s.bootState = 1 ∧ s.heldDown = false
         let again := s.regBits R.kstnState 31 30 = 1 ∧ (s.island 1).oos = false
         (stage2 → ∀ a, r.failedArray = some a → ∃ t, exec (.bootSelftestDone r) s = .next t ∧ s.onlyIrq t ∧
           failed t 0x51 a.toNat) ∧
         (stage2 → r.failedArray = none → ∃ t, exec (.bootSelftestDone r) s = .next t ∧
           t.bootState = (if s.pwr.verified && t.islandReady 1 then 3 else 2) ∧
           (∀ k, 1 ≤ k → k ≤ 4 → (t.island k).ready =
             ((s.island k).ready || (!(s.island k).oos && !(s.island k).low && !s.engineGone))) ∧
           (∀ i ∈ r.failedIslands, 5 ≤ i.toNat → i.toNat ≤ 68 →
             (t.island i.toNat).oos = true ∧ (t.island i.toNat).ready = false) ∧
           (r.failedIslands = [] → s.onlyPwr t ∧ s.regsBut t [R.bootStat])) ∧
         (¬ stage2 → again → ∃ t, exec (.bootSelftestDone r) s = .next t ∧ t.q = s.q ∧ t.x = s.x ∧ t.mem = s.mem ∧
           (s.pwr.verified = false → t.regBits R.kstnState 31 30 = 2) ∧
           (s.pwr.verified = true → (∀ status, v.verify = some status → failed t status 0) ∧
             (v.verify = none → runs t))) ∧
         (¬ stage2 → ¬ again → exec (.bootSelftestDone r) s = .next s)) ∧
       (s.bootState = 3 → s.heldDown = false → s.islandReady 1 = true → ∃ t, exec .islandStart s = .next t ∧
         (∀ status, v.verify = some status → failed t status 0 ∧ t.pwr.islands = s.pwr.islands) ∧
         (v.verify = none → runs t ∧ t.bootState = 4 ∧ t.pwr.started = true)) ∧
       (s.bootState = 3 → s.heldDown = true ∨ s.islandReady 1 = false → exec .islandStart s = .next s))) ∧
    (s.pageReady 2 = true → ∀ v : Word, ∀ i ∈ [Instr.bootLoad v, .bootGo v],
      let load := v.getLsbD 0 = true ∧ s.islandReady 1 = true ∧ (s.bootState = 2 ∨ s.bootState = 6)
      let go := v.getLsbD 1 = true ∧ s.islandReady 1 = true ∧ (s.bootState = 2 ∨ load)
      (load → ∃ t, exec i s = .next t ∧ s.onlyPwr t ∧ t.reg R.bootLoadPtr = 0 ∧ s.regsBut t [R.bootLoadPtr, R.bootStat] ∧
        (¬ go → t.reg R.bootStat = 2 <<< 28 ∧ t.pwr = { s.pwr with verified := false }) ∧
        (go → t.reg R.bootStat = 3 <<< 28 ∧ t.pwr = { s.pwr with verified := false, goAt := s.clock.up })) ∧
      (¬ load → go → ∃ t, exec i s = .next t ∧ s.onlyPwr t ∧ s.regsBut t [R.bootStat] ∧ t.reg R.bootStat = 3 <<< 28 ∧
        t.pwr = { s.pwr with goAt := s.clock.up }) ∧
      (¬ load → ¬ go → exec i s = .next s)) ∧
    (s.pageReady 2 = true → ∀ v : Word,
      let p := s.reg R.bootLoadPtr
      let takes := s.islandReady 1 = true ∧ s.bootState = 2 ∧ p + 4 ≤ 3 * 2 ^ 20
      (takes → ∃ t, exec (.bootLoadData v) s = .next t ∧ t.reg R.bootLoadPtr = p + 4 ∧ s.regsBut t [R.bootLoadPtr] ∧
        t = { s with regs := t.regs, upsets := t.upsets, pwr := { s.pwr with image := t.pwr.image } } ∧
        leNat (t.pwr.image.readN p 4) = v.toNat ∧
        (∀ b, b < p ∨ p + 4 ≤ b → t.pwr.image.read b = s.pwr.image.read b) ∧
        (p % 16 = 12 → t.hasFlip .keystone (p / 16) = false) ∧ (p % 16 ≠ 12 → t.upsets = s.upsets)) ∧
      (¬ takes → exec (.bootLoadData v) s = .next s))

/-! ## Test and diagnostics -/

/-- Self-tests, lane tests and boundary scan (R392-R397, R400-R404). START is refused while a test runs, ends at once
for a reserved KIND or a target that is not held, and else runs, the last result standing until then; ABORT ends the test
with INTERNAL when it next may end; a test that ends records and counts its result, a Pier has its table copies again, an
Abutment no lines, and an island that fails its SRAM test goes out of service. The fields of a lane are taken only in test,
and a write that is not taken does nothing else; INJECT makes one mismatch at the lane's own locked checker; a checker that
is turned off adds what it compared, which is a free value; PRBS_LOCK and PRBS_UNLOCK are the checker's events; an eye scan
runs on an active lane or one in test, and is written when it completes. The scan instructions drive and capture the 384
cells, and those that own the transmitters send every link to DETECT. Readings: log entries 74, 75 and 122. -/
def Obligations.TestsRunRecordAndOwnTheLanes : Prop :=
  ∀ (s : State), s.shaped = true →
    let one (t : State) (a : Nat) := t.reg a = min (s.reg a + 1) 0xFFFFFFFF
    let result (t : State) (pass : Bool) (status array vector : Nat) := t.test = none ∧
      t.reg R.testStat = 2 ^ 30 + b2n pass * 2 ^ 29 + status * 256 + array * 16 + vector ∧ one t R.testRuns ∧
      t.reg R.testFails = (if pass then s.reg R.testFails else min (s.reg R.testFails + 1) 0xFFFFFFFF) ∧
      t.regBit (R.hdrIrqStat 0x7C) 0 = true
    (s.pageReady 0x7C = true → ∀ v : Word, ∀ i ∈ [Instr.sramSelfTest v, .knownAnswerTest v, .testAbort v],
      let kind := if s.locked 0x7C then s.regBits R.testCtrl 7 4 else bits v.toNat 7 4
      let target := s.regBits R.testTarget 6 0
      let left := if v.getLsbD 1 then s.test.map fun x => { x with abort := true } else s.test
      let start := v.getLsbD 0 = true
      let idle := s.test = none
      let right := s.targetHeld target = true ∧ (kind = 1 → 5 ≤ target ∧ target < 37)
      ∃ t, exec i s = .next t ∧ t = { s with regs := t.regs, irqOut := t.irqOut, test := t.test } ∧
        t.regBits R.testCtrl 7 4 = kind ∧
        (¬ start → t.test = left ∧ s.regsBut t [R.testCtrl]) ∧
        (start → ¬ idle → t.test = left ∧ one t R.testRefused ∧ s.regsBut t [R.testCtrl, R.testRefused]) ∧
        (start → idle → 2 ≤ kind → result t false 0x70 0 0) ∧
        (start → idle → kind < 2 → ¬ right → result t false 0x23 0 0) ∧
        (start → idle → kind < 2 → right → t.test = some ⟨kind, target, false⟩ ∧ s.regsBut t [R.testCtrl])) ∧
    (s.up 0 = true → ∀ r : TestResult,
      (s.test = none → exec (.testDone r) s = .next s) ∧
      (∀ x, s.test = some x → ∃ t, exec (.testDone r) s = .next t ∧
        (x.abort = true → result t false 0x7F 0 0) ∧
        (x.abort = false → r.pass = true → result t true 0 0 0) ∧
        (x.abort = false → r.pass = false → x.kind = 0 → 5 ≤ x.island → x.island ≤ 68 →
          result t false 0x51 r.array.toNat 0 ∧ t.reg R.testFailAddr = r.granule.toNat ∧
          (t.island x.island).oos = true ∧ (t.island x.island).ready = false) ∧
        (x.abort = false → r.pass = false → x.kind ≠ 0 → result t false 0x7F 0 r.vector.toNat ∧
          t.reg R.testFailCrc = r.crc.toNat) ∧
        (x.kind = 0 → 61 ≤ x.island → ∀ l ∈ t.cb, abutOf (l.granule * 64) ≠ x.island - 61) ∧
        (x.kind = 0 → 5 ≤ x.island → x.island < 37 → x.abort = true ∨ r.pass = true →
          nth t.piers (x.island - 5) [] = s.q.tables) ∧
        (x.kind ≠ 0 ∨ x.abort = true ∨ r.pass = true →
          t = { s with regs := t.regs, irqOut := t.irqOut, cb := t.cb, piers := t.piers, test := none }))) ∧
    (∀ (port : BitVec 5) (lane : BitVec 3), port.toNat < 24 →
      let p := port.toNat
      let i := lane.toNat
      let ctl := R.portLaneCtrl p i
      let stat := R.portLaneStat p i
      let errs := R.portLanePrbsErrLo p i
      let seen := R.portLanePrbsBitsLo p i
      let lock := s.regBit stat 31 = true
      let page := 0x40 + p
      let grows (t : State) (a n : Nat) := t.reg64 a = min (s.reg64 a + n) (2 ^ 64 - 1)
      (s.pageReady page = true → ∀ v : Word,
        ∀ c ∈ [Instr.laneTestConfig port lane v, .inject port lane v, .eyeStart port lane v],
        let new := bits v.toNat 5 0
        let same := new = s.regBits ctl 5 0
        let takes := same ∨ s.laneInTest p i = true ∧ bits v.toNat 5 4 ≠ 3
        let locked := lock ∧ (same ∨ v.getLsbD 1 = true)
        let marks := v.getLsbD 6 = true ∧ s.laneInTest p i = true ∧ locked ∧ v.getLsbD 0 = true ∧ v.getLsbD 1 = true ∧
          bits v.toNat 5 4 = 1
        let scans := v.getLsbD 7 = true ∧ (s.laneActive p i = true ∨ s.laneInTest p i = true)
        (¬ takes → ∃ t, exec c s = .next t ∧ s.onlyRegs t ∧ s.regsBut t [R.hdrErrFirst page, R.hdrErrFirstInfo page] ∧
          t.reg (R.hdrErrFirst page) =
            if s.regBit (R.hdrErrFirst page) 31 then s.reg (R.hdrErrFirst page) else 2 ^ 31 + 0x23) ∧
        (takes → ∃ t, exec c s = .next t ∧
          t = { s with regs := t.regs, free := t.free, deck := { s.deck with eyes := t.deck.eyes } } ∧
          s.regsBut t [ctl, stat, errs, errs + 4, seen, seen + 4] ∧ t.regBits ctl 5 0 = new ∧
          (t.regBit stat 31 = true ↔ locked) ∧
          (marks → grows t errs 1 ∧ grows t seen 0) ∧ (¬ marks → (lock → locked) → grows t errs 0 ∧ grows t seen 0) ∧
          (lock → ¬ locked → ∃ n bad, bad ≤ n ∧ grows t seen n ∧ grows t errs bad) ∧
          (scans → t.regBit stat 29 = false ∧ (p, i) ∈ t.deck.eyes) ∧
          (¬ scans → t.regBit stat 29 = s.regBit stat 29 ∧ t.deck = s.deck))) ∧
      (s.up (37 + p) = true → ∀ (nbits bad : DWord) (height width : BitVec 16),
        (s.laneInTest p i = true → s.regBit ctl 1 = true → ∃ t, exec (.prbsLock port lane) s = .next t ∧
          s.onlyRegs t ∧ s.regsBut t [stat] ∧ t.regBit stat 31 = true) ∧
        (s.laneInTest p i = false ∨ s.regBit ctl 1 = false → exec (.prbsLock port lane) s = .next s) ∧
        (lock → ∃ t, exec (.prbsUnlock port lane nbits bad) s = .next t ∧ s.onlyRegs t ∧ t.regBit stat 31 = false ∧
          s.regsBut t [stat, errs, errs + 4, seen, seen + 4] ∧ grows t seen nbits.toNat ∧ grows t errs bad.toNat) ∧
        (¬ lock → exec (.prbsUnlock port lane nbits bad) s = .next s) ∧
        ((p, i) ∈ s.deck.eyes → ∃ t, exec (.eyeDone port lane height width) s = .next t ∧ t.regBit stat 29 = true ∧
          t.reg (R.portLaneEye p i) = width.toNat * 65536 + height.toNat ∧ (p, i) ∉ t.deck.eyes ∧
          t = { s with regs := t.regs, deck := { s.deck with eyes := t.deck.eyes } } ∧
          s.regsBut t [stat, R.portLaneEye p i]) ∧
        ((p, i) ∉ s.deck.eyes → exec (.eyeDone port lane height width) s = .next s))) ∧
    (∀ drive pins : List Bool,
      (scanCells pins).length = 384 ∧ (pins.length = 384 → scanCells pins = pins) ∧
      exec .bypass s = .next { s with scan := ⟨.bypass, s.scan.drive, s.scan.capture⟩ } ∧
      exec (.samplePreload pins) s = .next { s with scan := ⟨.sample, s.scan.drive, scanCells pins⟩ } ∧
      ∀ r ∈ [(Instr.extest drive pins, ScanMode.extest), (.extestPulse drive pins, .pulse),
          (.extestTrain drive pins, .train)],
        ∃ t, exec r.1 s = .next t ∧ t.scan = ⟨r.2, scanCells drive, scanCells pins⟩ ∧ t.q = s.q ∧ t.mem = s.mem ∧
          ∀ h, h < 48 → s.halfExists h = true → s.linkState h ≠ 0 → t.linkState h = 1)

/-! ## Packets and frames as bytes -/

/-- The bytes of a packet spell that packet, with every field of its header at every value, whatever its payload of up
to 4,096 bytes and its tag (R254, R255). The link words of a frame spell the packet's bytes, padded, between a SOF
that gives their length and an EOF, and each word checks (R282, R283). -/
def Obligations.PacketBytesSpellThePacket : Prop :=
  (∀ p : Packet, p.payload.length ≤ 4096 → packetOf (pktBytes p) = some p ∧
    (pktBytes p).length = 32 + p.payload.length + p.tag.length) ∧
  (∀ p q : Packet, p.payload.length ≤ 4096 → q.payload.length ≤ 4096 → pktBytes p = pktBytes q → p = q) ∧
  (∀ f : Frame, (pktBytes f.pkt).length < 65536 → f.vl < 256 → f.hops < 256 →
    ∃ sof body eof, frameWords f = sof :: body ++ [eof] ∧ (∀ w ∈ [sof, eof], wordGood w = true) ∧
      (∀ w ∈ body, w.length = 16) ∧ body.flatten.take (pktBytes f.pkt).length = pktBytes f.pkt ∧
      body.length = ceilDiv (pktBytes f.pkt).length 16 ∧ leAt sof 0 1 = 1 ∧ leAt sof 1 1 = f.vl ∧ leAt sof 2 1 = f.hops ∧
      leAt sof 4 2 = (pktBytes f.pkt).length ∧ leAt eof 0 1 = 2 ∧ bit (leAt eof 1 1) 0 = f.stomp ∧
      leAt eof 4 4 = crc32c body.flatten)

/-- The code of a protected word (R30, R34, R70): a good word reads as its data; with any one of its 137 bits flipped
it is corrected to the same data, with any two it is uncorrectable, and so is every word whose POISON bit is set; the
reserved bits are ignored. -/
def Obligations.CodeCorrectsOneFlipAndDetectsTwo : Prop :=
  ∀ data, data < 2 ^ 128 →
    eccRead (eccWord data) = .good data ∧ eccRead (eccPoisonWord data) = .uncorrectable data ∧
    (∀ i, i < 137 → eccRead (eccWord data ^^^ 1 <<< i) = .corrected data) ∧
    (∀ i j, i < j → j < 137 → ∃ d, eccRead (eccWord data ^^^ (1 <<< i ||| 1 <<< j)) = .uncorrectable d) ∧
    (∀ w, w.testBit 137 = true → ∃ d, eccRead w = .uncorrectable d) ∧
    ∀ r, r < 64 → eccRead (eccWord data ||| r <<< 138) = .good data

end
end

