-- ==== Sys2Proof/Laws/Memory.lean ====
section
/-! SUPPORT. Byte memories: what a read after a write gives, and that every write keeps the canonical form. -/

namespace Sys2Proof.Machine

/-! ### The canonical form -/

theorem Memory.wfFrom_mono {m : Memory} {lo lo' : Nat} (h : lo' ≤ lo) (hm : Memory.wfFrom lo m = true) :
    Memory.wfFrom lo' m = true := by
  cases m with
  | nil => rfl
  | cons p t => simp only [Memory.wfFrom, Bool.and_eq_true, decide_eq_true_eq] at hm ⊢; exact ⟨⟨by omega, hm.1.2⟩, hm.2⟩

/-- An address below all that a memory lists reads zero. -/
theorem Memory.read_low {m : Memory} {lo a : Nat} (hm : Memory.wfFrom lo m = true) (h : a < lo) : m.read a = 0 := by
  induction m generalizing lo with
  | nil => rfl
  | cons p t ih =>
    simp only [Memory.wfFrom, Bool.and_eq_true, decide_eq_true_eq] at hm
    simp only [Memory.read]
    rw [if_neg (by omega)]
    exact ih hm.2 (by omega)

theorem Memory.wfFrom_from {m : Memory} {lo a : Nat} (hm : Memory.wfFrom lo m = true) :
    Memory.wfFrom a (m.from a) = true := by
  induction m generalizing lo with
  | nil => rfl
  | cons p t ih =>
    simp only [Memory.wfFrom, Bool.and_eq_true, decide_eq_true_eq] at hm
    simp only [Memory.from]
    split
    · exact ih hm.2
    · simp only [Memory.wfFrom, Bool.and_eq_true, decide_eq_true_eq]; exact ⟨⟨by omega, hm.1.2⟩, hm.2⟩

/-- What stands at or above an address reads as before there, and zero below. -/
theorem Memory.read_from {m : Memory} {lo : Nat} (a x : Nat) (hm : Memory.wfFrom lo m = true) :
    (m.from a).read x = if a ≤ x then m.read x else 0 := by
  induction m generalizing lo with
  | nil => simp [Memory.from, Memory.read]
  | cons p t ih =>
    have hm' := hm
    simp only [Memory.wfFrom, Bool.and_eq_true, decide_eq_true_eq] at hm
    simp only [Memory.from]
    by_cases hk : p.1 < a
    · rw [if_pos hk, ih hm.2]
      by_cases hx : a ≤ x
      · rw [if_pos hx, if_pos hx, Memory.read, if_neg (by omega)]
      · rw [if_neg hx, if_neg hx]
    · rw [if_neg hk]
      by_cases hx : a ≤ x
      · rw [if_pos hx]
      · rw [if_neg hx]
        have h1 : Memory.wfFrom p.1 (p :: t) = true := by
          simp only [Memory.wfFrom, Bool.and_eq_true, decide_eq_true_eq]; exact ⟨⟨Nat.le_refl _, hm.1.2⟩, hm.2⟩
        exact Memory.read_low h1 (by omega)

/-- What stands below an address, with a canonical rest put after it. -/
theorem Memory.wfFrom_below_append {m r : Memory} {lo a : Nat} (hm : Memory.wfFrom lo m = true)
    (hr : Memory.wfFrom a r = true) (h : lo ≤ a) : Memory.wfFrom lo (m.below a ++ r) = true := by
  induction m generalizing lo with
  | nil => exact Memory.wfFrom_mono h hr
  | cons p t ih =>
    simp only [Memory.wfFrom, Bool.and_eq_true, decide_eq_true_eq] at hm
    simp only [Memory.below]
    split
    · simp only [List.cons_append, Memory.wfFrom, Bool.and_eq_true, decide_eq_true_eq]
      exact ⟨⟨hm.1.1, hm.1.2⟩, ih hm.2 (by omega)⟩
    · exact Memory.wfFrom_mono h hr

theorem Memory.read_below_append {m r : Memory} {lo a : Nat} (x : Nat) (hm : Memory.wfFrom lo m = true)
    (hr : Memory.wfFrom a r = true) : (m.below a ++ r).read x = if x < a then m.read x else r.read x := by
  induction m generalizing lo with
  | nil =>
    by_cases hx : x < a
    · simp [Memory.below, Memory.read, hx, Memory.read_low hr hx]
    · simp [Memory.below, hx]
  | cons p t ih =>
    have hm' := hm
    simp only [Memory.wfFrom, Bool.and_eq_true, decide_eq_true_eq] at hm
    simp only [Memory.below]
    by_cases hk : p.1 < a
    · rw [if_pos hk]
      simp only [List.cons_append, Memory.read]
      by_cases hx : p.1 = x
      · rw [if_pos hx, if_pos (by omega), if_pos hx]
      · rw [if_neg hx, ih hm.2, if_neg hx]
    · rw [if_neg hk, List.nil_append]
      by_cases hx : x < a
      · rw [if_pos hx, Memory.read_low hr hx]
        have h1 : Memory.wfFrom p.1 (p :: t) = true := by
          simp only [Memory.wfFrom, Bool.and_eq_true, decide_eq_true_eq]; exact ⟨⟨Nat.le_refl _, hm.1.2⟩, hm.2⟩
        exact (Memory.read_low h1 (by omega)).symm
      · rw [if_neg hx]

/-! ### Bytes laid -/

theorem Memory.wfFrom_cell {m : Memory} {a : Nat} (b : Byte) (hm : Memory.wfFrom (a + 1) m = true) :
    Memory.wfFrom a (Memory.cell a b m) = true := by
  simp only [Memory.cell]
  split
  · exact Memory.wfFrom_mono (by omega) hm
  · next h =>
    simp only [Memory.wfFrom, Bool.and_eq_true]
    exact ⟨⟨decide_eq_true (Nat.le_refl _), by simpa using h⟩, hm⟩

theorem Memory.read_cell {m : Memory} {a : Nat} (b : Byte) (x : Nat) (hm : Memory.wfFrom (a + 1) m = true) :
    (Memory.cell a b m).read x = if x = a then b else m.read x := by
  simp only [Memory.cell]
  by_cases hb : b = 0
  · rw [if_pos hb]
    by_cases hx : x = a
    · rw [if_pos hx, hx, hb]; exact Memory.read_low hm (by omega)
    · rw [if_neg hx]
  · rw [if_neg hb, Memory.read]
    by_cases hx : x = a
    · rw [if_pos hx.symm, if_pos hx]
    · rw [if_neg (fun h => hx h.symm), if_neg hx]

theorem Memory.lay_spec (bs : Bytes) (m : Memory) (a : Nat) (hm : Memory.wfFrom a m = true) :
    Memory.wfFrom a (Memory.lay m a bs) = true ∧
    ∀ x, (Memory.lay m a bs).read x = if a ≤ x ∧ x < a + bs.length then nth bs (x - a) 0 else m.read x := by
  induction bs generalizing m a with
  | nil =>
    rw [Memory.lay]
    exact ⟨hm, fun x => by rw [if_neg (by simp)]⟩
  | cons b bs ih =>
    have step : ∀ (r : Memory), Memory.wfFrom (a + 1) r = true → (∀ x, a < x → r.read x = m.read x) →
        Memory.wfFrom a (Memory.cell a b (Memory.lay r (a + 1) bs)) = true ∧
        ∀ x, (Memory.cell a b (Memory.lay r (a + 1) bs)).read x =
          if a ≤ x ∧ x < a + (b :: bs).length then nth (b :: bs) (x - a) 0 else m.read x := by
      intro r hr hread
      obtain ⟨hw, hx⟩ := ih r (a + 1) hr
      refine ⟨Memory.wfFrom_cell b hw, fun x => ?_⟩
      rw [Memory.read_cell b x hw]
      simp only [List.length_cons]
      by_cases h1 : x = a
      · subst h1; simp [nth]
      · rw [if_neg h1, hx]
        by_cases h2 : a + 1 ≤ x ∧ x < a + 1 + bs.length
        · rw [if_pos h2, if_pos (by omega)]
          obtain ⟨k, hk⟩ : ∃ k, x = a + 1 + k := ⟨x - (a + 1), by omega⟩
          subst hk
          simp only [nth]
          rw [show a + 1 + k - a = k + 1 by omega, show a + 1 + k - (a + 1) = k by omega, List.getElem?_cons_succ]
        · rw [if_neg h2, if_neg (by omega)]
          by_cases h3 : a < x
          · exact hread x h3
          · rw [Memory.read_low hm (by omega), Memory.read_low hr (by omega)]
    cases m with
    | nil => rw [Memory.lay]; exact step [] rfl (fun _ _ => rfl)
    | cons p t =>
      simp only [Memory.wfFrom, Bool.and_eq_true, decide_eq_true_eq] at hm
      rw [Memory.lay]
      split
      · next h =>
        subst h
        refine step t hm.2 (fun x hx => ?_)
        rw [Memory.read, if_neg (by omega)]
      · next h =>
        refine step (p :: t) ?_ (fun _ _ => rfl)
        simp only [Memory.wfFrom, Bool.and_eq_true, decide_eq_true_eq]
        exact ⟨⟨by omega, hm.1.2⟩, hm.2⟩

/-! ### Writing and reading -/

/-- Every write keeps the canonical form. -/
theorem Memory.wf_writeN {m : Memory} (a : Nat) (bs : Bytes) (hm : m.wf = true) : (m.writeN a bs).wf = true :=
  Memory.wfFrom_below_append hm (Memory.lay_spec bs _ a (Memory.wfFrom_from hm)).1 (Nat.zero_le a)

theorem Memory.wf_write {m : Memory} (a : Nat) (b : Byte) (hm : m.wf = true) : (m.write a b).wf = true :=
  Memory.wf_writeN a [b] hm

/-- A byte after a write: the one written there, or as before. -/
theorem Memory.read_writeN {m : Memory} (a : Nat) (bs : Bytes) (x : Nat) (hm : m.wf = true) :
    (m.writeN a bs).read x = if a ≤ x ∧ x < a + bs.length then nth bs (x - a) 0 else m.read x := by
  have h := Memory.lay_spec bs (m.from a) a (Memory.wfFrom_from hm)
  rw [Memory.writeN, Memory.read_below_append x hm h.1, h.2, Memory.read_from a x hm]
  by_cases hx : x < a
  · rw [if_pos hx, if_neg (by omega)]
  · rw [if_neg hx, if_pos (show a ≤ x by omega)]

theorem Memory.read_writeN_other {m : Memory} {a : Nat} {bs : Bytes} {x : Nat} (hm : m.wf = true)
    (h : x < a ∨ a + bs.length ≤ x) : (m.writeN a bs).read x = m.read x := by
  rw [Memory.read_writeN a bs x hm, if_neg (by omega)]

theorem Memory.read_write {m : Memory} (a : Nat) (b : Byte) (x : Nat) (hm : m.wf = true) :
    (m.write a b).read x = if x = a then b else m.read x := by
  rw [Memory.write, Memory.read_writeN a [b] x hm]
  by_cases hx : x = a
  · subst hx; simp [nth]
  · rw [if_neg (by simp; omega), if_neg hx]

theorem Memory.walk_eq (n : Nat) (m : Memory) (a : Nat) (hm : Memory.wfFrom a m = true) :
    Memory.walk n m a = (List.range n).map fun i => m.read (a + i) := by
  induction n generalizing m a with
  | zero => rfl
  | succ n ih =>
    rw [List.range_succ_eq_map, List.map_cons, List.map_map]
    have shift : ∀ (r : Memory), Memory.wfFrom (a + 1) r = true → (∀ x, a < x → r.read x = m.read x) →
        Memory.walk n r (a + 1) = (List.range n).map ((fun i => m.read (a + i)) ∘ Nat.succ) := by
      intro r hr hx
      rw [ih r (a + 1) hr]
      refine List.map_congr_left (fun i _ => ?_)
      simp only [Function.comp]
      rw [hx _ (by omega), show a + 1 + i = a + i.succ by omega]
    cases m with
    | nil => rw [Memory.walk, shift [] rfl (fun _ _ => rfl)]; rfl
    | cons p t =>
      simp only [Memory.wfFrom, Bool.and_eq_true, decide_eq_true_eq] at hm
      rw [Memory.walk]
      split
      · next h =>
        subst h
        rw [shift t hm.2 (fun x hx => by rw [Memory.read, if_neg (by omega)])]
        simp [Memory.read]
      · next h =>
        have hr : Memory.wfFrom (a + 1) (p :: t) = true := by
          simp only [Memory.wfFrom, Bool.and_eq_true, decide_eq_true_eq]; exact ⟨⟨by omega, hm.1.2⟩, hm.2⟩
        rw [shift (p :: t) hr (fun _ _ => rfl)]
        rw [Nat.add_zero, Memory.read_low hr (by omega)]

/-- A run of bytes is its bytes one by one. -/
theorem Memory.readN_eq {m : Memory} (a n : Nat) (hm : m.wf = true) :
    m.readN a n = (List.range n).map fun i => m.read (a + i) := by
  rw [Memory.readN, Memory.walk_eq n _ a (Memory.wfFrom_from hm)]
  refine List.map_congr_left (fun i _ => ?_)
  rw [Memory.read_from a _ hm, if_pos (by omega)]

@[simp] theorem Memory.length_walk (n : Nat) (m : Memory) (a : Nat) : (Memory.walk n m a).length = n := by
  induction n generalizing m a with
  | zero => rfl
  | succ n ih =>
    cases m with
    | nil => simp [Memory.walk, ih]
    | cons p t => rw [Memory.walk]; split <;> simp [ih]

@[simp] theorem Memory.length_readN (m : Memory) (a n : Nat) : (m.readN a n).length = n := Memory.length_walk n _ a

/-- A read of what has just been written gives it back. -/
theorem Memory.readN_writeN {m : Memory} (a : Nat) (bs : Bytes) (hm : m.wf = true) :
    (m.writeN a bs).readN a bs.length = bs := by
  rw [Memory.readN_eq a _ (Memory.wf_writeN a bs hm)]
  refine List.ext_getElem (by simp) (fun i h1 h2 => ?_)
  simp only [List.getElem_map, List.getElem_range]
  rw [Memory.read_writeN a bs _ hm, if_pos (by omega), show a + i - a = i by omega]
  simp [nth, h2]

/-- A read apart from what is written reads as before. -/
theorem Memory.readN_writeN_other {m : Memory} {a : Nat} {bs : Bytes} {x n : Nat} (hm : m.wf = true)
    (h : x + n ≤ a ∨ a + bs.length ≤ x) : (m.writeN a bs).readN x n = m.readN x n := by
  rw [Memory.readN_eq x n (Memory.wf_writeN a bs hm), Memory.readN_eq x n hm]
  refine List.map_congr_left (fun i hi => ?_)
  have := List.mem_range.mp hi
  exact Memory.read_writeN_other hm (by omega)

end Sys2Proof.Machine
end

