-- ==== Sys2Proof/Laws/State.lean ====
section
/-! SUPPORT. What each named update of the state leaves of every field: one lemma per field and update, so that no proof unfolds a record update. -/

namespace Sys2Proof.Machine

variable (s : State)

/-! ### State.setReg -/

@[simp] theorem State.setReg_pending (a v : Nat) : (s.setReg a v).pending = s.pending := rfl
@[simp] theorem State.setReg_latch (a v : Nat) : (s.setReg a v).latch = s.latch := rfl
@[simp] theorem State.setReg_locks (a v : Nat) : (s.setReg a v).locks = s.locks := rfl
@[simp] theorem State.setReg_ctx (a v : Nat) : (s.setReg a v).ctx = s.ctx := rfl
@[simp] theorem State.setReg_ctxPoison (a v : Nat) : (s.setReg a v).ctxPoison = s.ctxPoison := rfl
@[simp] theorem State.setReg_resPoison (a v : Nat) : (s.setReg a v).resPoison = s.resPoison := rfl
@[simp] theorem State.setReg_clearRun (a v : Nat) : (s.setReg a v).clearRun = s.clearRun := rfl
@[simp] theorem State.setReg_upsets (a v : Nat) : (s.setReg a v).upsets = s.upsets := rfl
@[simp] theorem State.setReg_mem (a v : Nat) : (s.setReg a v).mem = s.mem := rfl
@[simp] theorem State.setReg_memPoison (a v : Nat) : (s.setReg a v).memPoison = s.memPoison := rfl
@[simp] theorem State.setReg_cb (a v : Nat) : (s.setReg a v).cb = s.cb := rfl
@[simp] theorem State.setReg_touched (a v : Nat) : (s.setReg a v).touched = s.touched := rfl
@[simp] theorem State.setReg_piers (a v : Nat) : (s.setReg a v).piers = s.piers := rfl
@[simp] theorem State.setReg_joints (a v : Nat) : (s.setReg a v).joints = s.joints := rfl
@[simp] theorem State.setReg_irqOut (a v : Nat) : (s.setReg a v).irqOut = s.irqOut := rfl
@[simp] theorem State.setReg_lastRead (a v : Nat) : (s.setReg a v).lastRead = s.lastRead := rfl
@[simp] theorem State.setReg_q (a v : Nat) : (s.setReg a v).q = s.q := rfl
@[simp] theorem State.setReg_x (a v : Nat) : (s.setReg a v).x = s.x := rfl
@[simp] theorem State.setReg_deck (a v : Nat) : (s.setReg a v).deck = s.deck := rfl
@[simp] theorem State.setReg_clock (a v : Nat) : (s.setReg a v).clock = s.clock := rfl
@[simp] theorem State.setReg_snap (a v : Nat) : (s.setReg a v).snap = s.snap := rfl
@[simp] theorem State.setReg_pwr (a v : Nat) : (s.setReg a v).pwr = s.pwr := rfl
@[simp] theorem State.setReg_kstn (a v : Nat) : (s.setReg a v).kstn = s.kstn := rfl
@[simp] theorem State.setReg_scan (a v : Nat) : (s.setReg a v).scan = s.scan := rfl
@[simp] theorem State.setReg_test (a v : Nat) : (s.setReg a v).test = s.test := rfl
@[simp] theorem State.setReg_free (a v : Nat) : (s.setReg a v).free = s.free := rfl

/-! ### State.setRegBits -/

@[simp] theorem State.setRegBits_pending (a hi lo v : Nat) : (s.setRegBits a hi lo v).pending = s.pending := rfl
@[simp] theorem State.setRegBits_latch (a hi lo v : Nat) : (s.setRegBits a hi lo v).latch = s.latch := rfl
@[simp] theorem State.setRegBits_locks (a hi lo v : Nat) : (s.setRegBits a hi lo v).locks = s.locks := rfl
@[simp] theorem State.setRegBits_ctx (a hi lo v : Nat) : (s.setRegBits a hi lo v).ctx = s.ctx := rfl
@[simp] theorem State.setRegBits_ctxPoison (a hi lo v : Nat) : (s.setRegBits a hi lo v).ctxPoison = s.ctxPoison := rfl
@[simp] theorem State.setRegBits_resPoison (a hi lo v : Nat) : (s.setRegBits a hi lo v).resPoison = s.resPoison := rfl
@[simp] theorem State.setRegBits_clearRun (a hi lo v : Nat) : (s.setRegBits a hi lo v).clearRun = s.clearRun := rfl
@[simp] theorem State.setRegBits_upsets (a hi lo v : Nat) : (s.setRegBits a hi lo v).upsets = s.upsets := rfl
@[simp] theorem State.setRegBits_mem (a hi lo v : Nat) : (s.setRegBits a hi lo v).mem = s.mem := rfl
@[simp] theorem State.setRegBits_memPoison (a hi lo v : Nat) : (s.setRegBits a hi lo v).memPoison = s.memPoison := rfl
@[simp] theorem State.setRegBits_cb (a hi lo v : Nat) : (s.setRegBits a hi lo v).cb = s.cb := rfl
@[simp] theorem State.setRegBits_touched (a hi lo v : Nat) : (s.setRegBits a hi lo v).touched = s.touched := rfl
@[simp] theorem State.setRegBits_piers (a hi lo v : Nat) : (s.setRegBits a hi lo v).piers = s.piers := rfl
@[simp] theorem State.setRegBits_joints (a hi lo v : Nat) : (s.setRegBits a hi lo v).joints = s.joints := rfl
@[simp] theorem State.setRegBits_irqOut (a hi lo v : Nat) : (s.setRegBits a hi lo v).irqOut = s.irqOut := rfl
@[simp] theorem State.setRegBits_lastRead (a hi lo v : Nat) : (s.setRegBits a hi lo v).lastRead = s.lastRead := rfl
@[simp] theorem State.setRegBits_q (a hi lo v : Nat) : (s.setRegBits a hi lo v).q = s.q := rfl
@[simp] theorem State.setRegBits_x (a hi lo v : Nat) : (s.setRegBits a hi lo v).x = s.x := rfl
@[simp] theorem State.setRegBits_deck (a hi lo v : Nat) : (s.setRegBits a hi lo v).deck = s.deck := rfl
@[simp] theorem State.setRegBits_clock (a hi lo v : Nat) : (s.setRegBits a hi lo v).clock = s.clock := rfl
@[simp] theorem State.setRegBits_snap (a hi lo v : Nat) : (s.setRegBits a hi lo v).snap = s.snap := rfl
@[simp] theorem State.setRegBits_pwr (a hi lo v : Nat) : (s.setRegBits a hi lo v).pwr = s.pwr := rfl
@[simp] theorem State.setRegBits_kstn (a hi lo v : Nat) : (s.setRegBits a hi lo v).kstn = s.kstn := rfl
@[simp] theorem State.setRegBits_scan (a hi lo v : Nat) : (s.setRegBits a hi lo v).scan = s.scan := rfl
@[simp] theorem State.setRegBits_test (a hi lo v : Nat) : (s.setRegBits a hi lo v).test = s.test := rfl
@[simp] theorem State.setRegBits_free (a hi lo v : Nat) : (s.setRegBits a hi lo v).free = s.free := rfl

/-! ### State.wr -/

@[simp] theorem State.wr_pending (a : Nat) (bs : Bytes) : (s.wr a bs).pending = s.pending := rfl
@[simp] theorem State.wr_regs (a : Nat) (bs : Bytes) : (s.wr a bs).regs = s.regs := rfl
@[simp] theorem State.wr_latch (a : Nat) (bs : Bytes) : (s.wr a bs).latch = s.latch := rfl
@[simp] theorem State.wr_locks (a : Nat) (bs : Bytes) : (s.wr a bs).locks = s.locks := rfl
@[simp] theorem State.wr_ctx (a : Nat) (bs : Bytes) : (s.wr a bs).ctx = s.ctx := rfl
@[simp] theorem State.wr_ctxPoison (a : Nat) (bs : Bytes) : (s.wr a bs).ctxPoison = s.ctxPoison := rfl
@[simp] theorem State.wr_resPoison (a : Nat) (bs : Bytes) : (s.wr a bs).resPoison = s.resPoison := rfl
@[simp] theorem State.wr_clearRun (a : Nat) (bs : Bytes) : (s.wr a bs).clearRun = s.clearRun := rfl
@[simp] theorem State.wr_upsets (a : Nat) (bs : Bytes) : (s.wr a bs).upsets = s.upsets := rfl
@[simp] theorem State.wr_cb (a : Nat) (bs : Bytes) : (s.wr a bs).cb = s.cb := rfl
@[simp] theorem State.wr_touched (a : Nat) (bs : Bytes) : (s.wr a bs).touched = s.touched := rfl
@[simp] theorem State.wr_piers (a : Nat) (bs : Bytes) : (s.wr a bs).piers = s.piers := rfl
@[simp] theorem State.wr_joints (a : Nat) (bs : Bytes) : (s.wr a bs).joints = s.joints := rfl
@[simp] theorem State.wr_irqOut (a : Nat) (bs : Bytes) : (s.wr a bs).irqOut = s.irqOut := rfl
@[simp] theorem State.wr_lastRead (a : Nat) (bs : Bytes) : (s.wr a bs).lastRead = s.lastRead := rfl
@[simp] theorem State.wr_q (a : Nat) (bs : Bytes) : (s.wr a bs).q = s.q := rfl
@[simp] theorem State.wr_x (a : Nat) (bs : Bytes) : (s.wr a bs).x = s.x := rfl
@[simp] theorem State.wr_deck (a : Nat) (bs : Bytes) : (s.wr a bs).deck = s.deck := rfl
@[simp] theorem State.wr_clock (a : Nat) (bs : Bytes) : (s.wr a bs).clock = s.clock := rfl
@[simp] theorem State.wr_snap (a : Nat) (bs : Bytes) : (s.wr a bs).snap = s.snap := rfl
@[simp] theorem State.wr_pwr (a : Nat) (bs : Bytes) : (s.wr a bs).pwr = s.pwr := rfl
@[simp] theorem State.wr_kstn (a : Nat) (bs : Bytes) : (s.wr a bs).kstn = s.kstn := rfl
@[simp] theorem State.wr_scan (a : Nat) (bs : Bytes) : (s.wr a bs).scan = s.scan := rfl
@[simp] theorem State.wr_test (a : Nat) (bs : Bytes) : (s.wr a bs).test = s.test := rfl
@[simp] theorem State.wr_free (a : Nat) (bs : Bytes) : (s.wr a bs).free = s.free := rfl

/-! ### State.markPoison -/

@[simp] theorem State.markPoison_pending (a n : Nat) : (s.markPoison a n).pending = s.pending := rfl
@[simp] theorem State.markPoison_regs (a n : Nat) : (s.markPoison a n).regs = s.regs := rfl
@[simp] theorem State.markPoison_latch (a n : Nat) : (s.markPoison a n).latch = s.latch := rfl
@[simp] theorem State.markPoison_locks (a n : Nat) : (s.markPoison a n).locks = s.locks := rfl
@[simp] theorem State.markPoison_ctx (a n : Nat) : (s.markPoison a n).ctx = s.ctx := rfl
@[simp] theorem State.markPoison_ctxPoison (a n : Nat) : (s.markPoison a n).ctxPoison = s.ctxPoison := rfl
@[simp] theorem State.markPoison_resPoison (a n : Nat) : (s.markPoison a n).resPoison = s.resPoison := rfl
@[simp] theorem State.markPoison_clearRun (a n : Nat) : (s.markPoison a n).clearRun = s.clearRun := rfl
@[simp] theorem State.markPoison_upsets (a n : Nat) : (s.markPoison a n).upsets = s.upsets := rfl
@[simp] theorem State.markPoison_mem (a n : Nat) : (s.markPoison a n).mem = s.mem := rfl
@[simp] theorem State.markPoison_cb (a n : Nat) : (s.markPoison a n).cb = s.cb := rfl
@[simp] theorem State.markPoison_touched (a n : Nat) : (s.markPoison a n).touched = s.touched := rfl
@[simp] theorem State.markPoison_piers (a n : Nat) : (s.markPoison a n).piers = s.piers := rfl
@[simp] theorem State.markPoison_joints (a n : Nat) : (s.markPoison a n).joints = s.joints := rfl
@[simp] theorem State.markPoison_irqOut (a n : Nat) : (s.markPoison a n).irqOut = s.irqOut := rfl
@[simp] theorem State.markPoison_lastRead (a n : Nat) : (s.markPoison a n).lastRead = s.lastRead := rfl
@[simp] theorem State.markPoison_q (a n : Nat) : (s.markPoison a n).q = s.q := rfl
@[simp] theorem State.markPoison_x (a n : Nat) : (s.markPoison a n).x = s.x := rfl
@[simp] theorem State.markPoison_deck (a n : Nat) : (s.markPoison a n).deck = s.deck := rfl
@[simp] theorem State.markPoison_clock (a n : Nat) : (s.markPoison a n).clock = s.clock := rfl
@[simp] theorem State.markPoison_snap (a n : Nat) : (s.markPoison a n).snap = s.snap := rfl
@[simp] theorem State.markPoison_pwr (a n : Nat) : (s.markPoison a n).pwr = s.pwr := rfl
@[simp] theorem State.markPoison_kstn (a n : Nat) : (s.markPoison a n).kstn = s.kstn := rfl
@[simp] theorem State.markPoison_scan (a n : Nat) : (s.markPoison a n).scan = s.scan := rfl
@[simp] theorem State.markPoison_test (a n : Nat) : (s.markPoison a n).test = s.test := rfl
@[simp] theorem State.markPoison_free (a n : Nat) : (s.markPoison a n).free = s.free := rfl

/-! ### State.wrPoison -/

@[simp] theorem State.wrPoison_pending (a : Nat) (bs : Bytes) : (s.wrPoison a bs).pending = s.pending := rfl
@[simp] theorem State.wrPoison_regs (a : Nat) (bs : Bytes) : (s.wrPoison a bs).regs = s.regs := rfl
@[simp] theorem State.wrPoison_latch (a : Nat) (bs : Bytes) : (s.wrPoison a bs).latch = s.latch := rfl
@[simp] theorem State.wrPoison_locks (a : Nat) (bs : Bytes) : (s.wrPoison a bs).locks = s.locks := rfl
@[simp] theorem State.wrPoison_ctx (a : Nat) (bs : Bytes) : (s.wrPoison a bs).ctx = s.ctx := rfl
@[simp] theorem State.wrPoison_ctxPoison (a : Nat) (bs : Bytes) : (s.wrPoison a bs).ctxPoison = s.ctxPoison := rfl
@[simp] theorem State.wrPoison_resPoison (a : Nat) (bs : Bytes) : (s.wrPoison a bs).resPoison = s.resPoison := rfl
@[simp] theorem State.wrPoison_clearRun (a : Nat) (bs : Bytes) : (s.wrPoison a bs).clearRun = s.clearRun := rfl
@[simp] theorem State.wrPoison_upsets (a : Nat) (bs : Bytes) : (s.wrPoison a bs).upsets = s.upsets := rfl
@[simp] theorem State.wrPoison_cb (a : Nat) (bs : Bytes) : (s.wrPoison a bs).cb = s.cb := rfl
@[simp] theorem State.wrPoison_touched (a : Nat) (bs : Bytes) : (s.wrPoison a bs).touched = s.touched := rfl
@[simp] theorem State.wrPoison_piers (a : Nat) (bs : Bytes) : (s.wrPoison a bs).piers = s.piers := rfl
@[simp] theorem State.wrPoison_joints (a : Nat) (bs : Bytes) : (s.wrPoison a bs).joints = s.joints := rfl
@[simp] theorem State.wrPoison_irqOut (a : Nat) (bs : Bytes) : (s.wrPoison a bs).irqOut = s.irqOut := rfl
@[simp] theorem State.wrPoison_lastRead (a : Nat) (bs : Bytes) : (s.wrPoison a bs).lastRead = s.lastRead := rfl
@[simp] theorem State.wrPoison_q (a : Nat) (bs : Bytes) : (s.wrPoison a bs).q = s.q := rfl
@[simp] theorem State.wrPoison_x (a : Nat) (bs : Bytes) : (s.wrPoison a bs).x = s.x := rfl
@[simp] theorem State.wrPoison_deck (a : Nat) (bs : Bytes) : (s.wrPoison a bs).deck = s.deck := rfl
@[simp] theorem State.wrPoison_clock (a : Nat) (bs : Bytes) : (s.wrPoison a bs).clock = s.clock := rfl
@[simp] theorem State.wrPoison_snap (a : Nat) (bs : Bytes) : (s.wrPoison a bs).snap = s.snap := rfl
@[simp] theorem State.wrPoison_pwr (a : Nat) (bs : Bytes) : (s.wrPoison a bs).pwr = s.pwr := rfl
@[simp] theorem State.wrPoison_kstn (a : Nat) (bs : Bytes) : (s.wrPoison a bs).kstn = s.kstn := rfl
@[simp] theorem State.wrPoison_scan (a : Nat) (bs : Bytes) : (s.wrPoison a bs).scan = s.scan := rfl
@[simp] theorem State.wrPoison_test (a : Nat) (bs : Bytes) : (s.wrPoison a bs).test = s.test := rfl
@[simp] theorem State.wrPoison_free (a : Nat) (bs : Bytes) : (s.wrPoison a bs).free = s.free := rfl

/-! ### State.ctxWr -/

@[simp] theorem State.ctxWr_pending (a : Nat) (bs : Bytes) : (s.ctxWr a bs).pending = s.pending := rfl
@[simp] theorem State.ctxWr_regs (a : Nat) (bs : Bytes) : (s.ctxWr a bs).regs = s.regs := rfl
@[simp] theorem State.ctxWr_latch (a : Nat) (bs : Bytes) : (s.ctxWr a bs).latch = s.latch := rfl
@[simp] theorem State.ctxWr_locks (a : Nat) (bs : Bytes) : (s.ctxWr a bs).locks = s.locks := rfl
@[simp] theorem State.ctxWr_ctxPoison (a : Nat) (bs : Bytes) : (s.ctxWr a bs).ctxPoison = s.ctxPoison := rfl
@[simp] theorem State.ctxWr_resPoison (a : Nat) (bs : Bytes) : (s.ctxWr a bs).resPoison = s.resPoison := rfl
@[simp] theorem State.ctxWr_clearRun (a : Nat) (bs : Bytes) : (s.ctxWr a bs).clearRun = s.clearRun := rfl
@[simp] theorem State.ctxWr_upsets (a : Nat) (bs : Bytes) : (s.ctxWr a bs).upsets = s.upsets := rfl
@[simp] theorem State.ctxWr_mem (a : Nat) (bs : Bytes) : (s.ctxWr a bs).mem = s.mem := rfl
@[simp] theorem State.ctxWr_memPoison (a : Nat) (bs : Bytes) : (s.ctxWr a bs).memPoison = s.memPoison := rfl
@[simp] theorem State.ctxWr_cb (a : Nat) (bs : Bytes) : (s.ctxWr a bs).cb = s.cb := rfl
@[simp] theorem State.ctxWr_touched (a : Nat) (bs : Bytes) : (s.ctxWr a bs).touched = s.touched := rfl
@[simp] theorem State.ctxWr_piers (a : Nat) (bs : Bytes) : (s.ctxWr a bs).piers = s.piers := rfl
@[simp] theorem State.ctxWr_joints (a : Nat) (bs : Bytes) : (s.ctxWr a bs).joints = s.joints := rfl
@[simp] theorem State.ctxWr_irqOut (a : Nat) (bs : Bytes) : (s.ctxWr a bs).irqOut = s.irqOut := rfl
@[simp] theorem State.ctxWr_lastRead (a : Nat) (bs : Bytes) : (s.ctxWr a bs).lastRead = s.lastRead := rfl
@[simp] theorem State.ctxWr_q (a : Nat) (bs : Bytes) : (s.ctxWr a bs).q = s.q := rfl
@[simp] theorem State.ctxWr_x (a : Nat) (bs : Bytes) : (s.ctxWr a bs).x = s.x := rfl
@[simp] theorem State.ctxWr_deck (a : Nat) (bs : Bytes) : (s.ctxWr a bs).deck = s.deck := rfl
@[simp] theorem State.ctxWr_clock (a : Nat) (bs : Bytes) : (s.ctxWr a bs).clock = s.clock := rfl
@[simp] theorem State.ctxWr_snap (a : Nat) (bs : Bytes) : (s.ctxWr a bs).snap = s.snap := rfl
@[simp] theorem State.ctxWr_pwr (a : Nat) (bs : Bytes) : (s.ctxWr a bs).pwr = s.pwr := rfl
@[simp] theorem State.ctxWr_kstn (a : Nat) (bs : Bytes) : (s.ctxWr a bs).kstn = s.kstn := rfl
@[simp] theorem State.ctxWr_scan (a : Nat) (bs : Bytes) : (s.ctxWr a bs).scan = s.scan := rfl
@[simp] theorem State.ctxWr_test (a : Nat) (bs : Bytes) : (s.ctxWr a bs).test = s.test := rfl
@[simp] theorem State.ctxWr_free (a : Nat) (bs : Bytes) : (s.ctxWr a bs).free = s.free := rfl

/-! ### State.setFld -/

@[simp] theorem State.setFld_pending (a : Nat) (f : Fld) (v : Nat) : (s.setFld a f v).pending = s.pending := rfl
@[simp] theorem State.setFld_regs (a : Nat) (f : Fld) (v : Nat) : (s.setFld a f v).regs = s.regs := rfl
@[simp] theorem State.setFld_latch (a : Nat) (f : Fld) (v : Nat) : (s.setFld a f v).latch = s.latch := rfl
@[simp] theorem State.setFld_locks (a : Nat) (f : Fld) (v : Nat) : (s.setFld a f v).locks = s.locks := rfl
@[simp] theorem State.setFld_ctxPoison (a : Nat) (f : Fld) (v : Nat) : (s.setFld a f v).ctxPoison = s.ctxPoison := rfl
@[simp] theorem State.setFld_resPoison (a : Nat) (f : Fld) (v : Nat) : (s.setFld a f v).resPoison = s.resPoison := rfl
@[simp] theorem State.setFld_clearRun (a : Nat) (f : Fld) (v : Nat) : (s.setFld a f v).clearRun = s.clearRun := rfl
@[simp] theorem State.setFld_upsets (a : Nat) (f : Fld) (v : Nat) : (s.setFld a f v).upsets = s.upsets := rfl
@[simp] theorem State.setFld_mem (a : Nat) (f : Fld) (v : Nat) : (s.setFld a f v).mem = s.mem := rfl
@[simp] theorem State.setFld_memPoison (a : Nat) (f : Fld) (v : Nat) : (s.setFld a f v).memPoison = s.memPoison := rfl
@[simp] theorem State.setFld_cb (a : Nat) (f : Fld) (v : Nat) : (s.setFld a f v).cb = s.cb := rfl
@[simp] theorem State.setFld_touched (a : Nat) (f : Fld) (v : Nat) : (s.setFld a f v).touched = s.touched := rfl
@[simp] theorem State.setFld_piers (a : Nat) (f : Fld) (v : Nat) : (s.setFld a f v).piers = s.piers := rfl
@[simp] theorem State.setFld_joints (a : Nat) (f : Fld) (v : Nat) : (s.setFld a f v).joints = s.joints := rfl
@[simp] theorem State.setFld_irqOut (a : Nat) (f : Fld) (v : Nat) : (s.setFld a f v).irqOut = s.irqOut := rfl
@[simp] theorem State.setFld_lastRead (a : Nat) (f : Fld) (v : Nat) : (s.setFld a f v).lastRead = s.lastRead := rfl
@[simp] theorem State.setFld_q (a : Nat) (f : Fld) (v : Nat) : (s.setFld a f v).q = s.q := rfl
@[simp] theorem State.setFld_x (a : Nat) (f : Fld) (v : Nat) : (s.setFld a f v).x = s.x := rfl
@[simp] theorem State.setFld_deck (a : Nat) (f : Fld) (v : Nat) : (s.setFld a f v).deck = s.deck := rfl
@[simp] theorem State.setFld_clock (a : Nat) (f : Fld) (v : Nat) : (s.setFld a f v).clock = s.clock := rfl
@[simp] theorem State.setFld_snap (a : Nat) (f : Fld) (v : Nat) : (s.setFld a f v).snap = s.snap := rfl
@[simp] theorem State.setFld_pwr (a : Nat) (f : Fld) (v : Nat) : (s.setFld a f v).pwr = s.pwr := rfl
@[simp] theorem State.setFld_kstn (a : Nat) (f : Fld) (v : Nat) : (s.setFld a f v).kstn = s.kstn := rfl
@[simp] theorem State.setFld_scan (a : Nat) (f : Fld) (v : Nat) : (s.setFld a f v).scan = s.scan := rfl
@[simp] theorem State.setFld_test (a : Nat) (f : Fld) (v : Nat) : (s.setFld a f v).test = s.test := rfl
@[simp] theorem State.setFld_free (a : Nat) (f : Fld) (v : Nat) : (s.setFld a f v).free = s.free := rfl

/-! ### State.setPhase -/

@[simp] theorem State.setPhase_pending (id : Nat) (p : Phase) : (s.setPhase id p).pending = s.pending := rfl
@[simp] theorem State.setPhase_regs (id : Nat) (p : Phase) : (s.setPhase id p).regs = s.regs := rfl
@[simp] theorem State.setPhase_latch (id : Nat) (p : Phase) : (s.setPhase id p).latch = s.latch := rfl
@[simp] theorem State.setPhase_locks (id : Nat) (p : Phase) : (s.setPhase id p).locks = s.locks := rfl
@[simp] theorem State.setPhase_ctx (id : Nat) (p : Phase) : (s.setPhase id p).ctx = s.ctx := rfl
@[simp] theorem State.setPhase_ctxPoison (id : Nat) (p : Phase) : (s.setPhase id p).ctxPoison = s.ctxPoison := rfl
@[simp] theorem State.setPhase_resPoison (id : Nat) (p : Phase) : (s.setPhase id p).resPoison = s.resPoison := rfl
@[simp] theorem State.setPhase_clearRun (id : Nat) (p : Phase) : (s.setPhase id p).clearRun = s.clearRun := rfl
@[simp] theorem State.setPhase_upsets (id : Nat) (p : Phase) : (s.setPhase id p).upsets = s.upsets := rfl
@[simp] theorem State.setPhase_mem (id : Nat) (p : Phase) : (s.setPhase id p).mem = s.mem := rfl
@[simp] theorem State.setPhase_memPoison (id : Nat) (p : Phase) : (s.setPhase id p).memPoison = s.memPoison := rfl
@[simp] theorem State.setPhase_cb (id : Nat) (p : Phase) : (s.setPhase id p).cb = s.cb := rfl
@[simp] theorem State.setPhase_touched (id : Nat) (p : Phase) : (s.setPhase id p).touched = s.touched := rfl
@[simp] theorem State.setPhase_piers (id : Nat) (p : Phase) : (s.setPhase id p).piers = s.piers := rfl
@[simp] theorem State.setPhase_joints (id : Nat) (p : Phase) : (s.setPhase id p).joints = s.joints := rfl
@[simp] theorem State.setPhase_irqOut (id : Nat) (p : Phase) : (s.setPhase id p).irqOut = s.irqOut := rfl
@[simp] theorem State.setPhase_lastRead (id : Nat) (p : Phase) : (s.setPhase id p).lastRead = s.lastRead := rfl
@[simp] theorem State.setPhase_x (id : Nat) (p : Phase) : (s.setPhase id p).x = s.x := rfl
@[simp] theorem State.setPhase_deck (id : Nat) (p : Phase) : (s.setPhase id p).deck = s.deck := rfl
@[simp] theorem State.setPhase_clock (id : Nat) (p : Phase) : (s.setPhase id p).clock = s.clock := rfl
@[simp] theorem State.setPhase_snap (id : Nat) (p : Phase) : (s.setPhase id p).snap = s.snap := rfl
@[simp] theorem State.setPhase_pwr (id : Nat) (p : Phase) : (s.setPhase id p).pwr = s.pwr := rfl
@[simp] theorem State.setPhase_kstn (id : Nat) (p : Phase) : (s.setPhase id p).kstn = s.kstn := rfl
@[simp] theorem State.setPhase_scan (id : Nat) (p : Phase) : (s.setPhase id p).scan = s.scan := rfl
@[simp] theorem State.setPhase_test (id : Nat) (p : Phase) : (s.setPhase id p).test = s.test := rfl
@[simp] theorem State.setPhase_free (id : Nat) (p : Phase) : (s.setPhase id p).free = s.free := rfl

/-! ### State.setPack -/

@[simp] theorem State.setPack_pending (p : Pack) : (s.setPack p).pending = s.pending := rfl
@[simp] theorem State.setPack_regs (p : Pack) : (s.setPack p).regs = s.regs := rfl
@[simp] theorem State.setPack_latch (p : Pack) : (s.setPack p).latch = s.latch := rfl
@[simp] theorem State.setPack_locks (p : Pack) : (s.setPack p).locks = s.locks := rfl
@[simp] theorem State.setPack_ctx (p : Pack) : (s.setPack p).ctx = s.ctx := rfl
@[simp] theorem State.setPack_ctxPoison (p : Pack) : (s.setPack p).ctxPoison = s.ctxPoison := rfl
@[simp] theorem State.setPack_resPoison (p : Pack) : (s.setPack p).resPoison = s.resPoison := rfl
@[simp] theorem State.setPack_clearRun (p : Pack) : (s.setPack p).clearRun = s.clearRun := rfl
@[simp] theorem State.setPack_upsets (p : Pack) : (s.setPack p).upsets = s.upsets := rfl
@[simp] theorem State.setPack_mem (p : Pack) : (s.setPack p).mem = s.mem := rfl
@[simp] theorem State.setPack_memPoison (p : Pack) : (s.setPack p).memPoison = s.memPoison := rfl
@[simp] theorem State.setPack_cb (p : Pack) : (s.setPack p).cb = s.cb := rfl
@[simp] theorem State.setPack_touched (p : Pack) : (s.setPack p).touched = s.touched := rfl
@[simp] theorem State.setPack_piers (p : Pack) : (s.setPack p).piers = s.piers := rfl
@[simp] theorem State.setPack_joints (p : Pack) : (s.setPack p).joints = s.joints := rfl
@[simp] theorem State.setPack_irqOut (p : Pack) : (s.setPack p).irqOut = s.irqOut := rfl
@[simp] theorem State.setPack_lastRead (p : Pack) : (s.setPack p).lastRead = s.lastRead := rfl
@[simp] theorem State.setPack_x (p : Pack) : (s.setPack p).x = s.x := rfl
@[simp] theorem State.setPack_deck (p : Pack) : (s.setPack p).deck = s.deck := rfl
@[simp] theorem State.setPack_clock (p : Pack) : (s.setPack p).clock = s.clock := rfl
@[simp] theorem State.setPack_snap (p : Pack) : (s.setPack p).snap = s.snap := rfl
@[simp] theorem State.setPack_pwr (p : Pack) : (s.setPack p).pwr = s.pwr := rfl
@[simp] theorem State.setPack_kstn (p : Pack) : (s.setPack p).kstn = s.kstn := rfl
@[simp] theorem State.setPack_scan (p : Pack) : (s.setPack p).scan = s.scan := rfl
@[simp] theorem State.setPack_test (p : Pack) : (s.setPack p).test = s.test := rfl
@[simp] theorem State.setPack_free (p : Pack) : (s.setPack p).free = s.free := rfl

/-! ### State.setTbl -/

@[simp] theorem State.setTbl_pending (n : Nat) (t : TblSlot) : (s.setTbl n t).pending = s.pending := rfl
@[simp] theorem State.setTbl_regs (n : Nat) (t : TblSlot) : (s.setTbl n t).regs = s.regs := rfl
@[simp] theorem State.setTbl_latch (n : Nat) (t : TblSlot) : (s.setTbl n t).latch = s.latch := rfl
@[simp] theorem State.setTbl_locks (n : Nat) (t : TblSlot) : (s.setTbl n t).locks = s.locks := rfl
@[simp] theorem State.setTbl_ctx (n : Nat) (t : TblSlot) : (s.setTbl n t).ctx = s.ctx := rfl
@[simp] theorem State.setTbl_ctxPoison (n : Nat) (t : TblSlot) : (s.setTbl n t).ctxPoison = s.ctxPoison := rfl
@[simp] theorem State.setTbl_resPoison (n : Nat) (t : TblSlot) : (s.setTbl n t).resPoison = s.resPoison := rfl
@[simp] theorem State.setTbl_clearRun (n : Nat) (t : TblSlot) : (s.setTbl n t).clearRun = s.clearRun := rfl
@[simp] theorem State.setTbl_upsets (n : Nat) (t : TblSlot) : (s.setTbl n t).upsets = s.upsets := rfl
@[simp] theorem State.setTbl_mem (n : Nat) (t : TblSlot) : (s.setTbl n t).mem = s.mem := rfl
@[simp] theorem State.setTbl_memPoison (n : Nat) (t : TblSlot) : (s.setTbl n t).memPoison = s.memPoison := rfl
@[simp] theorem State.setTbl_cb (n : Nat) (t : TblSlot) : (s.setTbl n t).cb = s.cb := rfl
@[simp] theorem State.setTbl_touched (n : Nat) (t : TblSlot) : (s.setTbl n t).touched = s.touched := rfl
@[simp] theorem State.setTbl_piers (n : Nat) (t : TblSlot) : (s.setTbl n t).piers = s.piers := rfl
@[simp] theorem State.setTbl_joints (n : Nat) (t : TblSlot) : (s.setTbl n t).joints = s.joints := rfl
@[simp] theorem State.setTbl_irqOut (n : Nat) (t : TblSlot) : (s.setTbl n t).irqOut = s.irqOut := rfl
@[simp] theorem State.setTbl_lastRead (n : Nat) (t : TblSlot) : (s.setTbl n t).lastRead = s.lastRead := rfl
@[simp] theorem State.setTbl_x (n : Nat) (t : TblSlot) : (s.setTbl n t).x = s.x := rfl
@[simp] theorem State.setTbl_deck (n : Nat) (t : TblSlot) : (s.setTbl n t).deck = s.deck := rfl
@[simp] theorem State.setTbl_clock (n : Nat) (t : TblSlot) : (s.setTbl n t).clock = s.clock := rfl
@[simp] theorem State.setTbl_snap (n : Nat) (t : TblSlot) : (s.setTbl n t).snap = s.snap := rfl
@[simp] theorem State.setTbl_pwr (n : Nat) (t : TblSlot) : (s.setTbl n t).pwr = s.pwr := rfl
@[simp] theorem State.setTbl_kstn (n : Nat) (t : TblSlot) : (s.setTbl n t).kstn = s.kstn := rfl
@[simp] theorem State.setTbl_scan (n : Nat) (t : TblSlot) : (s.setTbl n t).scan = s.scan := rfl
@[simp] theorem State.setTbl_test (n : Nat) (t : TblSlot) : (s.setTbl n t).test = s.test := rfl
@[simp] theorem State.setTbl_free (n : Nat) (t : TblSlot) : (s.setTbl n t).free = s.free := rfl

/-! ### State.setConnX -/

@[simp] theorem State.setConnX_pending (c : Nat) (f : ConnX → ConnX) : (s.setConnX c f).pending = s.pending := rfl
@[simp] theorem State.setConnX_regs (c : Nat) (f : ConnX → ConnX) : (s.setConnX c f).regs = s.regs := rfl
@[simp] theorem State.setConnX_latch (c : Nat) (f : ConnX → ConnX) : (s.setConnX c f).latch = s.latch := rfl
@[simp] theorem State.setConnX_locks (c : Nat) (f : ConnX → ConnX) : (s.setConnX c f).locks = s.locks := rfl
@[simp] theorem State.setConnX_ctx (c : Nat) (f : ConnX → ConnX) : (s.setConnX c f).ctx = s.ctx := rfl
@[simp] theorem State.setConnX_ctxPoison (c : Nat) (f : ConnX → ConnX) : (s.setConnX c f).ctxPoison = s.ctxPoison := rfl
@[simp] theorem State.setConnX_resPoison (c : Nat) (f : ConnX → ConnX) : (s.setConnX c f).resPoison = s.resPoison := rfl
@[simp] theorem State.setConnX_clearRun (c : Nat) (f : ConnX → ConnX) : (s.setConnX c f).clearRun = s.clearRun := rfl
@[simp] theorem State.setConnX_upsets (c : Nat) (f : ConnX → ConnX) : (s.setConnX c f).upsets = s.upsets := rfl
@[simp] theorem State.setConnX_mem (c : Nat) (f : ConnX → ConnX) : (s.setConnX c f).mem = s.mem := rfl
@[simp] theorem State.setConnX_memPoison (c : Nat) (f : ConnX → ConnX) : (s.setConnX c f).memPoison = s.memPoison := rfl
@[simp] theorem State.setConnX_cb (c : Nat) (f : ConnX → ConnX) : (s.setConnX c f).cb = s.cb := rfl
@[simp] theorem State.setConnX_touched (c : Nat) (f : ConnX → ConnX) : (s.setConnX c f).touched = s.touched := rfl
@[simp] theorem State.setConnX_piers (c : Nat) (f : ConnX → ConnX) : (s.setConnX c f).piers = s.piers := rfl
@[simp] theorem State.setConnX_joints (c : Nat) (f : ConnX → ConnX) : (s.setConnX c f).joints = s.joints := rfl
@[simp] theorem State.setConnX_irqOut (c : Nat) (f : ConnX → ConnX) : (s.setConnX c f).irqOut = s.irqOut := rfl
@[simp] theorem State.setConnX_lastRead (c : Nat) (f : ConnX → ConnX) : (s.setConnX c f).lastRead = s.lastRead := rfl
@[simp] theorem State.setConnX_q (c : Nat) (f : ConnX → ConnX) : (s.setConnX c f).q = s.q := rfl
@[simp] theorem State.setConnX_deck (c : Nat) (f : ConnX → ConnX) : (s.setConnX c f).deck = s.deck := rfl
@[simp] theorem State.setConnX_clock (c : Nat) (f : ConnX → ConnX) : (s.setConnX c f).clock = s.clock := rfl
@[simp] theorem State.setConnX_snap (c : Nat) (f : ConnX → ConnX) : (s.setConnX c f).snap = s.snap := rfl
@[simp] theorem State.setConnX_pwr (c : Nat) (f : ConnX → ConnX) : (s.setConnX c f).pwr = s.pwr := rfl
@[simp] theorem State.setConnX_kstn (c : Nat) (f : ConnX → ConnX) : (s.setConnX c f).kstn = s.kstn := rfl
@[simp] theorem State.setConnX_scan (c : Nat) (f : ConnX → ConnX) : (s.setConnX c f).scan = s.scan := rfl
@[simp] theorem State.setConnX_test (c : Nat) (f : ConnX → ConnX) : (s.setConnX c f).test = s.test := rfl
@[simp] theorem State.setConnX_free (c : Nat) (f : ConnX → ConnX) : (s.setConnX c f).free = s.free := rfl

/-! ### State.setKey -/

@[simp] theorem State.setKey_pending (c : Nat) (rx phase : Bool) (key : Option Bytes) : (s.setKey c rx phase key).pending = s.pending := rfl
@[simp] theorem State.setKey_regs (c : Nat) (rx phase : Bool) (key : Option Bytes) : (s.setKey c rx phase key).regs = s.regs := rfl
@[simp] theorem State.setKey_latch (c : Nat) (rx phase : Bool) (key : Option Bytes) : (s.setKey c rx phase key).latch = s.latch := rfl
@[simp] theorem State.setKey_locks (c : Nat) (rx phase : Bool) (key : Option Bytes) : (s.setKey c rx phase key).locks = s.locks := rfl
@[simp] theorem State.setKey_ctx (c : Nat) (rx phase : Bool) (key : Option Bytes) : (s.setKey c rx phase key).ctx = s.ctx := rfl
@[simp] theorem State.setKey_ctxPoison (c : Nat) (rx phase : Bool) (key : Option Bytes) : (s.setKey c rx phase key).ctxPoison = s.ctxPoison := rfl
@[simp] theorem State.setKey_resPoison (c : Nat) (rx phase : Bool) (key : Option Bytes) : (s.setKey c rx phase key).resPoison = s.resPoison := rfl
@[simp] theorem State.setKey_clearRun (c : Nat) (rx phase : Bool) (key : Option Bytes) : (s.setKey c rx phase key).clearRun = s.clearRun := rfl
@[simp] theorem State.setKey_upsets (c : Nat) (rx phase : Bool) (key : Option Bytes) : (s.setKey c rx phase key).upsets = s.upsets := rfl
@[simp] theorem State.setKey_mem (c : Nat) (rx phase : Bool) (key : Option Bytes) : (s.setKey c rx phase key).mem = s.mem := rfl
@[simp] theorem State.setKey_memPoison (c : Nat) (rx phase : Bool) (key : Option Bytes) : (s.setKey c rx phase key).memPoison = s.memPoison := rfl
@[simp] theorem State.setKey_cb (c : Nat) (rx phase : Bool) (key : Option Bytes) : (s.setKey c rx phase key).cb = s.cb := rfl
@[simp] theorem State.setKey_touched (c : Nat) (rx phase : Bool) (key : Option Bytes) : (s.setKey c rx phase key).touched = s.touched := rfl
@[simp] theorem State.setKey_piers (c : Nat) (rx phase : Bool) (key : Option Bytes) : (s.setKey c rx phase key).piers = s.piers := rfl
@[simp] theorem State.setKey_joints (c : Nat) (rx phase : Bool) (key : Option Bytes) : (s.setKey c rx phase key).joints = s.joints := rfl
@[simp] theorem State.setKey_irqOut (c : Nat) (rx phase : Bool) (key : Option Bytes) : (s.setKey c rx phase key).irqOut = s.irqOut := rfl
@[simp] theorem State.setKey_lastRead (c : Nat) (rx phase : Bool) (key : Option Bytes) : (s.setKey c rx phase key).lastRead = s.lastRead := rfl
@[simp] theorem State.setKey_q (c : Nat) (rx phase : Bool) (key : Option Bytes) : (s.setKey c rx phase key).q = s.q := rfl
@[simp] theorem State.setKey_deck (c : Nat) (rx phase : Bool) (key : Option Bytes) : (s.setKey c rx phase key).deck = s.deck := rfl
@[simp] theorem State.setKey_clock (c : Nat) (rx phase : Bool) (key : Option Bytes) : (s.setKey c rx phase key).clock = s.clock := rfl
@[simp] theorem State.setKey_snap (c : Nat) (rx phase : Bool) (key : Option Bytes) : (s.setKey c rx phase key).snap = s.snap := rfl
@[simp] theorem State.setKey_pwr (c : Nat) (rx phase : Bool) (key : Option Bytes) : (s.setKey c rx phase key).pwr = s.pwr := rfl
@[simp] theorem State.setKey_kstn (c : Nat) (rx phase : Bool) (key : Option Bytes) : (s.setKey c rx phase key).kstn = s.kstn := rfl
@[simp] theorem State.setKey_scan (c : Nat) (rx phase : Bool) (key : Option Bytes) : (s.setKey c rx phase key).scan = s.scan := rfl
@[simp] theorem State.setKey_test (c : Nat) (rx phase : Bool) (key : Option Bytes) : (s.setKey c rx phase key).test = s.test := rfl
@[simp] theorem State.setKey_free (c : Nat) (rx phase : Bool) (key : Option Bytes) : (s.setKey c rx phase key).free = s.free := rfl

/-! ### State.dropAwait -/

@[simp] theorem State.dropAwait_pending (a : Await) : (s.dropAwait a).pending = s.pending := rfl
@[simp] theorem State.dropAwait_regs (a : Await) : (s.dropAwait a).regs = s.regs := rfl
@[simp] theorem State.dropAwait_latch (a : Await) : (s.dropAwait a).latch = s.latch := rfl
@[simp] theorem State.dropAwait_locks (a : Await) : (s.dropAwait a).locks = s.locks := rfl
@[simp] theorem State.dropAwait_ctx (a : Await) : (s.dropAwait a).ctx = s.ctx := rfl
@[simp] theorem State.dropAwait_ctxPoison (a : Await) : (s.dropAwait a).ctxPoison = s.ctxPoison := rfl
@[simp] theorem State.dropAwait_resPoison (a : Await) : (s.dropAwait a).resPoison = s.resPoison := rfl
@[simp] theorem State.dropAwait_clearRun (a : Await) : (s.dropAwait a).clearRun = s.clearRun := rfl
@[simp] theorem State.dropAwait_upsets (a : Await) : (s.dropAwait a).upsets = s.upsets := rfl
@[simp] theorem State.dropAwait_mem (a : Await) : (s.dropAwait a).mem = s.mem := rfl
@[simp] theorem State.dropAwait_memPoison (a : Await) : (s.dropAwait a).memPoison = s.memPoison := rfl
@[simp] theorem State.dropAwait_cb (a : Await) : (s.dropAwait a).cb = s.cb := rfl
@[simp] theorem State.dropAwait_touched (a : Await) : (s.dropAwait a).touched = s.touched := rfl
@[simp] theorem State.dropAwait_piers (a : Await) : (s.dropAwait a).piers = s.piers := rfl
@[simp] theorem State.dropAwait_joints (a : Await) : (s.dropAwait a).joints = s.joints := rfl
@[simp] theorem State.dropAwait_irqOut (a : Await) : (s.dropAwait a).irqOut = s.irqOut := rfl
@[simp] theorem State.dropAwait_lastRead (a : Await) : (s.dropAwait a).lastRead = s.lastRead := rfl
@[simp] theorem State.dropAwait_q (a : Await) : (s.dropAwait a).q = s.q := rfl
@[simp] theorem State.dropAwait_deck (a : Await) : (s.dropAwait a).deck = s.deck := rfl
@[simp] theorem State.dropAwait_clock (a : Await) : (s.dropAwait a).clock = s.clock := rfl
@[simp] theorem State.dropAwait_snap (a : Await) : (s.dropAwait a).snap = s.snap := rfl
@[simp] theorem State.dropAwait_pwr (a : Await) : (s.dropAwait a).pwr = s.pwr := rfl
@[simp] theorem State.dropAwait_kstn (a : Await) : (s.dropAwait a).kstn = s.kstn := rfl
@[simp] theorem State.dropAwait_scan (a : Await) : (s.dropAwait a).scan = s.scan := rfl
@[simp] theorem State.dropAwait_test (a : Await) : (s.dropAwait a).test = s.test := rfl
@[simp] theorem State.dropAwait_free (a : Await) : (s.dropAwait a).free = s.free := rfl

/-! ### State.putLink -/

@[simp] theorem State.putLink_pending (h : Nat) (words : List Bytes) : (s.putLink h words).pending = s.pending := rfl
@[simp] theorem State.putLink_regs (h : Nat) (words : List Bytes) : (s.putLink h words).regs = s.regs := rfl
@[simp] theorem State.putLink_latch (h : Nat) (words : List Bytes) : (s.putLink h words).latch = s.latch := rfl
@[simp] theorem State.putLink_locks (h : Nat) (words : List Bytes) : (s.putLink h words).locks = s.locks := rfl
@[simp] theorem State.putLink_ctx (h : Nat) (words : List Bytes) : (s.putLink h words).ctx = s.ctx := rfl
@[simp] theorem State.putLink_ctxPoison (h : Nat) (words : List Bytes) : (s.putLink h words).ctxPoison = s.ctxPoison := rfl
@[simp] theorem State.putLink_resPoison (h : Nat) (words : List Bytes) : (s.putLink h words).resPoison = s.resPoison := rfl
@[simp] theorem State.putLink_clearRun (h : Nat) (words : List Bytes) : (s.putLink h words).clearRun = s.clearRun := rfl
@[simp] theorem State.putLink_upsets (h : Nat) (words : List Bytes) : (s.putLink h words).upsets = s.upsets := rfl
@[simp] theorem State.putLink_mem (h : Nat) (words : List Bytes) : (s.putLink h words).mem = s.mem := rfl
@[simp] theorem State.putLink_memPoison (h : Nat) (words : List Bytes) : (s.putLink h words).memPoison = s.memPoison := rfl
@[simp] theorem State.putLink_cb (h : Nat) (words : List Bytes) : (s.putLink h words).cb = s.cb := rfl
@[simp] theorem State.putLink_touched (h : Nat) (words : List Bytes) : (s.putLink h words).touched = s.touched := rfl
@[simp] theorem State.putLink_piers (h : Nat) (words : List Bytes) : (s.putLink h words).piers = s.piers := rfl
@[simp] theorem State.putLink_joints (h : Nat) (words : List Bytes) : (s.putLink h words).joints = s.joints := rfl
@[simp] theorem State.putLink_irqOut (h : Nat) (words : List Bytes) : (s.putLink h words).irqOut = s.irqOut := rfl
@[simp] theorem State.putLink_lastRead (h : Nat) (words : List Bytes) : (s.putLink h words).lastRead = s.lastRead := rfl
@[simp] theorem State.putLink_q (h : Nat) (words : List Bytes) : (s.putLink h words).q = s.q := rfl
@[simp] theorem State.putLink_x (h : Nat) (words : List Bytes) : (s.putLink h words).x = s.x := rfl
@[simp] theorem State.putLink_clock (h : Nat) (words : List Bytes) : (s.putLink h words).clock = s.clock := rfl
@[simp] theorem State.putLink_snap (h : Nat) (words : List Bytes) : (s.putLink h words).snap = s.snap := rfl
@[simp] theorem State.putLink_pwr (h : Nat) (words : List Bytes) : (s.putLink h words).pwr = s.pwr := rfl
@[simp] theorem State.putLink_kstn (h : Nat) (words : List Bytes) : (s.putLink h words).kstn = s.kstn := rfl
@[simp] theorem State.putLink_scan (h : Nat) (words : List Bytes) : (s.putLink h words).scan = s.scan := rfl
@[simp] theorem State.putLink_test (h : Nat) (words : List Bytes) : (s.putLink h words).test = s.test := rfl
@[simp] theorem State.putLink_free (h : Nat) (words : List Bytes) : (s.putLink h words).free = s.free := rfl

/-! ### State.setHalf -/

@[simp] theorem State.setHalf_pending (h : Nat) (f : HalfPort → HalfPort) : (s.setHalf h f).pending = s.pending := rfl
@[simp] theorem State.setHalf_regs (h : Nat) (f : HalfPort → HalfPort) : (s.setHalf h f).regs = s.regs := rfl
@[simp] theorem State.setHalf_latch (h : Nat) (f : HalfPort → HalfPort) : (s.setHalf h f).latch = s.latch := rfl
@[simp] theorem State.setHalf_locks (h : Nat) (f : HalfPort → HalfPort) : (s.setHalf h f).locks = s.locks := rfl
@[simp] theorem State.setHalf_ctx (h : Nat) (f : HalfPort → HalfPort) : (s.setHalf h f).ctx = s.ctx := rfl
@[simp] theorem State.setHalf_ctxPoison (h : Nat) (f : HalfPort → HalfPort) : (s.setHalf h f).ctxPoison = s.ctxPoison := rfl
@[simp] theorem State.setHalf_resPoison (h : Nat) (f : HalfPort → HalfPort) : (s.setHalf h f).resPoison = s.resPoison := rfl
@[simp] theorem State.setHalf_clearRun (h : Nat) (f : HalfPort → HalfPort) : (s.setHalf h f).clearRun = s.clearRun := rfl
@[simp] theorem State.setHalf_upsets (h : Nat) (f : HalfPort → HalfPort) : (s.setHalf h f).upsets = s.upsets := rfl
@[simp] theorem State.setHalf_mem (h : Nat) (f : HalfPort → HalfPort) : (s.setHalf h f).mem = s.mem := rfl
@[simp] theorem State.setHalf_memPoison (h : Nat) (f : HalfPort → HalfPort) : (s.setHalf h f).memPoison = s.memPoison := rfl
@[simp] theorem State.setHalf_cb (h : Nat) (f : HalfPort → HalfPort) : (s.setHalf h f).cb = s.cb := rfl
@[simp] theorem State.setHalf_touched (h : Nat) (f : HalfPort → HalfPort) : (s.setHalf h f).touched = s.touched := rfl
@[simp] theorem State.setHalf_piers (h : Nat) (f : HalfPort → HalfPort) : (s.setHalf h f).piers = s.piers := rfl
@[simp] theorem State.setHalf_joints (h : Nat) (f : HalfPort → HalfPort) : (s.setHalf h f).joints = s.joints := rfl
@[simp] theorem State.setHalf_irqOut (h : Nat) (f : HalfPort → HalfPort) : (s.setHalf h f).irqOut = s.irqOut := rfl
@[simp] theorem State.setHalf_lastRead (h : Nat) (f : HalfPort → HalfPort) : (s.setHalf h f).lastRead = s.lastRead := rfl
@[simp] theorem State.setHalf_q (h : Nat) (f : HalfPort → HalfPort) : (s.setHalf h f).q = s.q := rfl
@[simp] theorem State.setHalf_x (h : Nat) (f : HalfPort → HalfPort) : (s.setHalf h f).x = s.x := rfl
@[simp] theorem State.setHalf_clock (h : Nat) (f : HalfPort → HalfPort) : (s.setHalf h f).clock = s.clock := rfl
@[simp] theorem State.setHalf_snap (h : Nat) (f : HalfPort → HalfPort) : (s.setHalf h f).snap = s.snap := rfl
@[simp] theorem State.setHalf_pwr (h : Nat) (f : HalfPort → HalfPort) : (s.setHalf h f).pwr = s.pwr := rfl
@[simp] theorem State.setHalf_kstn (h : Nat) (f : HalfPort → HalfPort) : (s.setHalf h f).kstn = s.kstn := rfl
@[simp] theorem State.setHalf_scan (h : Nat) (f : HalfPort → HalfPort) : (s.setHalf h f).scan = s.scan := rfl
@[simp] theorem State.setHalf_test (h : Nat) (f : HalfPort → HalfPort) : (s.setHalf h f).test = s.test := rfl
@[simp] theorem State.setHalf_free (h : Nat) (f : HalfPort → HalfPort) : (s.setHalf h f).free = s.free := rfl

/-! ### State.putBar -/

@[simp] theorem State.putBar_pending (b : Bar) : (s.putBar b).pending = s.pending := rfl
@[simp] theorem State.putBar_regs (b : Bar) : (s.putBar b).regs = s.regs := rfl
@[simp] theorem State.putBar_latch (b : Bar) : (s.putBar b).latch = s.latch := rfl
@[simp] theorem State.putBar_locks (b : Bar) : (s.putBar b).locks = s.locks := rfl
@[simp] theorem State.putBar_ctx (b : Bar) : (s.putBar b).ctx = s.ctx := rfl
@[simp] theorem State.putBar_ctxPoison (b : Bar) : (s.putBar b).ctxPoison = s.ctxPoison := rfl
@[simp] theorem State.putBar_resPoison (b : Bar) : (s.putBar b).resPoison = s.resPoison := rfl
@[simp] theorem State.putBar_clearRun (b : Bar) : (s.putBar b).clearRun = s.clearRun := rfl
@[simp] theorem State.putBar_upsets (b : Bar) : (s.putBar b).upsets = s.upsets := rfl
@[simp] theorem State.putBar_mem (b : Bar) : (s.putBar b).mem = s.mem := rfl
@[simp] theorem State.putBar_memPoison (b : Bar) : (s.putBar b).memPoison = s.memPoison := rfl
@[simp] theorem State.putBar_cb (b : Bar) : (s.putBar b).cb = s.cb := rfl
@[simp] theorem State.putBar_touched (b : Bar) : (s.putBar b).touched = s.touched := rfl
@[simp] theorem State.putBar_piers (b : Bar) : (s.putBar b).piers = s.piers := rfl
@[simp] theorem State.putBar_joints (b : Bar) : (s.putBar b).joints = s.joints := rfl
@[simp] theorem State.putBar_irqOut (b : Bar) : (s.putBar b).irqOut = s.irqOut := rfl
@[simp] theorem State.putBar_lastRead (b : Bar) : (s.putBar b).lastRead = s.lastRead := rfl
@[simp] theorem State.putBar_q (b : Bar) : (s.putBar b).q = s.q := rfl
@[simp] theorem State.putBar_x (b : Bar) : (s.putBar b).x = s.x := rfl
@[simp] theorem State.putBar_deck (b : Bar) : (s.putBar b).deck = s.deck := rfl
@[simp] theorem State.putBar_snap (b : Bar) : (s.putBar b).snap = s.snap := rfl
@[simp] theorem State.putBar_pwr (b : Bar) : (s.putBar b).pwr = s.pwr := rfl
@[simp] theorem State.putBar_kstn (b : Bar) : (s.putBar b).kstn = s.kstn := rfl
@[simp] theorem State.putBar_scan (b : Bar) : (s.putBar b).scan = s.scan := rfl
@[simp] theorem State.putBar_test (b : Bar) : (s.putBar b).test = s.test := rfl
@[simp] theorem State.putBar_free (b : Bar) : (s.putBar b).free = s.free := rfl

/-! ### State.reach -/

@[simp] theorem State.reach_pending (ns : Nat) : (s.reach ns).pending = s.pending := rfl
@[simp] theorem State.reach_regs (ns : Nat) : (s.reach ns).regs = s.regs := rfl
@[simp] theorem State.reach_latch (ns : Nat) : (s.reach ns).latch = s.latch := rfl
@[simp] theorem State.reach_locks (ns : Nat) : (s.reach ns).locks = s.locks := rfl
@[simp] theorem State.reach_ctx (ns : Nat) : (s.reach ns).ctx = s.ctx := rfl
@[simp] theorem State.reach_ctxPoison (ns : Nat) : (s.reach ns).ctxPoison = s.ctxPoison := rfl
@[simp] theorem State.reach_resPoison (ns : Nat) : (s.reach ns).resPoison = s.resPoison := rfl
@[simp] theorem State.reach_clearRun (ns : Nat) : (s.reach ns).clearRun = s.clearRun := rfl
@[simp] theorem State.reach_upsets (ns : Nat) : (s.reach ns).upsets = s.upsets := rfl
@[simp] theorem State.reach_mem (ns : Nat) : (s.reach ns).mem = s.mem := rfl
@[simp] theorem State.reach_memPoison (ns : Nat) : (s.reach ns).memPoison = s.memPoison := rfl
@[simp] theorem State.reach_cb (ns : Nat) : (s.reach ns).cb = s.cb := rfl
@[simp] theorem State.reach_touched (ns : Nat) : (s.reach ns).touched = s.touched := rfl
@[simp] theorem State.reach_piers (ns : Nat) : (s.reach ns).piers = s.piers := rfl
@[simp] theorem State.reach_joints (ns : Nat) : (s.reach ns).joints = s.joints := rfl
@[simp] theorem State.reach_irqOut (ns : Nat) : (s.reach ns).irqOut = s.irqOut := rfl
@[simp] theorem State.reach_lastRead (ns : Nat) : (s.reach ns).lastRead = s.lastRead := rfl
@[simp] theorem State.reach_q (ns : Nat) : (s.reach ns).q = s.q := rfl
@[simp] theorem State.reach_x (ns : Nat) : (s.reach ns).x = s.x := rfl
@[simp] theorem State.reach_deck (ns : Nat) : (s.reach ns).deck = s.deck := rfl
@[simp] theorem State.reach_snap (ns : Nat) : (s.reach ns).snap = s.snap := rfl
@[simp] theorem State.reach_pwr (ns : Nat) : (s.reach ns).pwr = s.pwr := rfl
@[simp] theorem State.reach_kstn (ns : Nat) : (s.reach ns).kstn = s.kstn := rfl
@[simp] theorem State.reach_scan (ns : Nat) : (s.reach ns).scan = s.scan := rfl
@[simp] theorem State.reach_test (ns : Nat) : (s.reach ns).test = s.test := rfl
@[simp] theorem State.reach_free (ns : Nat) : (s.reach ns).free = s.free := rfl

/-! ### State.setCaisson -/

@[simp] theorem State.setCaisson_pending (e : Nat) (f : Caisson → Caisson) : (s.setCaisson e f).pending = s.pending := rfl
@[simp] theorem State.setCaisson_regs (e : Nat) (f : Caisson → Caisson) : (s.setCaisson e f).regs = s.regs := rfl
@[simp] theorem State.setCaisson_latch (e : Nat) (f : Caisson → Caisson) : (s.setCaisson e f).latch = s.latch := rfl
@[simp] theorem State.setCaisson_locks (e : Nat) (f : Caisson → Caisson) : (s.setCaisson e f).locks = s.locks := rfl
@[simp] theorem State.setCaisson_ctx (e : Nat) (f : Caisson → Caisson) : (s.setCaisson e f).ctx = s.ctx := rfl
@[simp] theorem State.setCaisson_ctxPoison (e : Nat) (f : Caisson → Caisson) : (s.setCaisson e f).ctxPoison = s.ctxPoison := rfl
@[simp] theorem State.setCaisson_resPoison (e : Nat) (f : Caisson → Caisson) : (s.setCaisson e f).resPoison = s.resPoison := rfl
@[simp] theorem State.setCaisson_clearRun (e : Nat) (f : Caisson → Caisson) : (s.setCaisson e f).clearRun = s.clearRun := rfl
@[simp] theorem State.setCaisson_upsets (e : Nat) (f : Caisson → Caisson) : (s.setCaisson e f).upsets = s.upsets := rfl
@[simp] theorem State.setCaisson_mem (e : Nat) (f : Caisson → Caisson) : (s.setCaisson e f).mem = s.mem := rfl
@[simp] theorem State.setCaisson_memPoison (e : Nat) (f : Caisson → Caisson) : (s.setCaisson e f).memPoison = s.memPoison := rfl
@[simp] theorem State.setCaisson_cb (e : Nat) (f : Caisson → Caisson) : (s.setCaisson e f).cb = s.cb := rfl
@[simp] theorem State.setCaisson_touched (e : Nat) (f : Caisson → Caisson) : (s.setCaisson e f).touched = s.touched := rfl
@[simp] theorem State.setCaisson_piers (e : Nat) (f : Caisson → Caisson) : (s.setCaisson e f).piers = s.piers := rfl
@[simp] theorem State.setCaisson_joints (e : Nat) (f : Caisson → Caisson) : (s.setCaisson e f).joints = s.joints := rfl
@[simp] theorem State.setCaisson_irqOut (e : Nat) (f : Caisson → Caisson) : (s.setCaisson e f).irqOut = s.irqOut := rfl
@[simp] theorem State.setCaisson_lastRead (e : Nat) (f : Caisson → Caisson) : (s.setCaisson e f).lastRead = s.lastRead := rfl
@[simp] theorem State.setCaisson_q (e : Nat) (f : Caisson → Caisson) : (s.setCaisson e f).q = s.q := rfl
@[simp] theorem State.setCaisson_x (e : Nat) (f : Caisson → Caisson) : (s.setCaisson e f).x = s.x := rfl
@[simp] theorem State.setCaisson_deck (e : Nat) (f : Caisson → Caisson) : (s.setCaisson e f).deck = s.deck := rfl
@[simp] theorem State.setCaisson_clock (e : Nat) (f : Caisson → Caisson) : (s.setCaisson e f).clock = s.clock := rfl
@[simp] theorem State.setCaisson_pwr (e : Nat) (f : Caisson → Caisson) : (s.setCaisson e f).pwr = s.pwr := rfl
@[simp] theorem State.setCaisson_kstn (e : Nat) (f : Caisson → Caisson) : (s.setCaisson e f).kstn = s.kstn := rfl
@[simp] theorem State.setCaisson_scan (e : Nat) (f : Caisson → Caisson) : (s.setCaisson e f).scan = s.scan := rfl
@[simp] theorem State.setCaisson_test (e : Nat) (f : Caisson → Caisson) : (s.setCaisson e f).test = s.test := rfl
@[simp] theorem State.setCaisson_free (e : Nat) (f : Caisson → Caisson) : (s.setCaisson e f).free = s.free := rfl

/-! ### State.setJob -/

@[simp] theorem State.setJob_pending (j : Job) : (s.setJob j).pending = s.pending := rfl
@[simp] theorem State.setJob_regs (j : Job) : (s.setJob j).regs = s.regs := rfl
@[simp] theorem State.setJob_latch (j : Job) : (s.setJob j).latch = s.latch := rfl
@[simp] theorem State.setJob_locks (j : Job) : (s.setJob j).locks = s.locks := rfl
@[simp] theorem State.setJob_ctx (j : Job) : (s.setJob j).ctx = s.ctx := rfl
@[simp] theorem State.setJob_ctxPoison (j : Job) : (s.setJob j).ctxPoison = s.ctxPoison := rfl
@[simp] theorem State.setJob_resPoison (j : Job) : (s.setJob j).resPoison = s.resPoison := rfl
@[simp] theorem State.setJob_clearRun (j : Job) : (s.setJob j).clearRun = s.clearRun := rfl
@[simp] theorem State.setJob_upsets (j : Job) : (s.setJob j).upsets = s.upsets := rfl
@[simp] theorem State.setJob_mem (j : Job) : (s.setJob j).mem = s.mem := rfl
@[simp] theorem State.setJob_memPoison (j : Job) : (s.setJob j).memPoison = s.memPoison := rfl
@[simp] theorem State.setJob_cb (j : Job) : (s.setJob j).cb = s.cb := rfl
@[simp] theorem State.setJob_touched (j : Job) : (s.setJob j).touched = s.touched := rfl
@[simp] theorem State.setJob_piers (j : Job) : (s.setJob j).piers = s.piers := rfl
@[simp] theorem State.setJob_joints (j : Job) : (s.setJob j).joints = s.joints := rfl
@[simp] theorem State.setJob_irqOut (j : Job) : (s.setJob j).irqOut = s.irqOut := rfl
@[simp] theorem State.setJob_lastRead (j : Job) : (s.setJob j).lastRead = s.lastRead := rfl
@[simp] theorem State.setJob_q (j : Job) : (s.setJob j).q = s.q := rfl
@[simp] theorem State.setJob_x (j : Job) : (s.setJob j).x = s.x := rfl
@[simp] theorem State.setJob_deck (j : Job) : (s.setJob j).deck = s.deck := rfl
@[simp] theorem State.setJob_clock (j : Job) : (s.setJob j).clock = s.clock := rfl
@[simp] theorem State.setJob_pwr (j : Job) : (s.setJob j).pwr = s.pwr := rfl
@[simp] theorem State.setJob_kstn (j : Job) : (s.setJob j).kstn = s.kstn := rfl
@[simp] theorem State.setJob_scan (j : Job) : (s.setJob j).scan = s.scan := rfl
@[simp] theorem State.setJob_test (j : Job) : (s.setJob j).test = s.test := rfl
@[simp] theorem State.setJob_free (j : Job) : (s.setJob j).free = s.free := rfl

/-! ### State.setIsland -/

@[simp] theorem State.setIsland_pending (i : Nat) (f : Island → Island) : (s.setIsland i f).pending = s.pending := rfl
@[simp] theorem State.setIsland_regs (i : Nat) (f : Island → Island) : (s.setIsland i f).regs = s.regs := rfl
@[simp] theorem State.setIsland_latch (i : Nat) (f : Island → Island) : (s.setIsland i f).latch = s.latch := rfl
@[simp] theorem State.setIsland_locks (i : Nat) (f : Island → Island) : (s.setIsland i f).locks = s.locks := rfl
@[simp] theorem State.setIsland_ctx (i : Nat) (f : Island → Island) : (s.setIsland i f).ctx = s.ctx := rfl
@[simp] theorem State.setIsland_ctxPoison (i : Nat) (f : Island → Island) : (s.setIsland i f).ctxPoison = s.ctxPoison := rfl
@[simp] theorem State.setIsland_resPoison (i : Nat) (f : Island → Island) : (s.setIsland i f).resPoison = s.resPoison := rfl
@[simp] theorem State.setIsland_clearRun (i : Nat) (f : Island → Island) : (s.setIsland i f).clearRun = s.clearRun := rfl
@[simp] theorem State.setIsland_upsets (i : Nat) (f : Island → Island) : (s.setIsland i f).upsets = s.upsets := rfl
@[simp] theorem State.setIsland_mem (i : Nat) (f : Island → Island) : (s.setIsland i f).mem = s.mem := rfl
@[simp] theorem State.setIsland_memPoison (i : Nat) (f : Island → Island) : (s.setIsland i f).memPoison = s.memPoison := rfl
@[simp] theorem State.setIsland_cb (i : Nat) (f : Island → Island) : (s.setIsland i f).cb = s.cb := rfl
@[simp] theorem State.setIsland_touched (i : Nat) (f : Island → Island) : (s.setIsland i f).touched = s.touched := rfl
@[simp] theorem State.setIsland_piers (i : Nat) (f : Island → Island) : (s.setIsland i f).piers = s.piers := rfl
@[simp] theorem State.setIsland_joints (i : Nat) (f : Island → Island) : (s.setIsland i f).joints = s.joints := rfl
@[simp] theorem State.setIsland_irqOut (i : Nat) (f : Island → Island) : (s.setIsland i f).irqOut = s.irqOut := rfl
@[simp] theorem State.setIsland_lastRead (i : Nat) (f : Island → Island) : (s.setIsland i f).lastRead = s.lastRead := rfl
@[simp] theorem State.setIsland_q (i : Nat) (f : Island → Island) : (s.setIsland i f).q = s.q := rfl
@[simp] theorem State.setIsland_x (i : Nat) (f : Island → Island) : (s.setIsland i f).x = s.x := rfl
@[simp] theorem State.setIsland_deck (i : Nat) (f : Island → Island) : (s.setIsland i f).deck = s.deck := rfl
@[simp] theorem State.setIsland_clock (i : Nat) (f : Island → Island) : (s.setIsland i f).clock = s.clock := rfl
@[simp] theorem State.setIsland_snap (i : Nat) (f : Island → Island) : (s.setIsland i f).snap = s.snap := rfl
@[simp] theorem State.setIsland_kstn (i : Nat) (f : Island → Island) : (s.setIsland i f).kstn = s.kstn := rfl
@[simp] theorem State.setIsland_scan (i : Nat) (f : Island → Island) : (s.setIsland i f).scan = s.scan := rfl
@[simp] theorem State.setIsland_test (i : Nat) (f : Island → Island) : (s.setIsland i f).test = s.test := rfl
@[simp] theorem State.setIsland_free (i : Nat) (f : Island → Island) : (s.setIsland i f).free = s.free := rfl

/-! ### State.scanIn -/

@[simp] theorem State.scanIn_pending (m : ScanMode) (d c : List Bool) : (s.scanIn m d c).pending = s.pending := rfl
@[simp] theorem State.scanIn_regs (m : ScanMode) (d c : List Bool) : (s.scanIn m d c).regs = s.regs := rfl
@[simp] theorem State.scanIn_latch (m : ScanMode) (d c : List Bool) : (s.scanIn m d c).latch = s.latch := rfl
@[simp] theorem State.scanIn_locks (m : ScanMode) (d c : List Bool) : (s.scanIn m d c).locks = s.locks := rfl
@[simp] theorem State.scanIn_ctx (m : ScanMode) (d c : List Bool) : (s.scanIn m d c).ctx = s.ctx := rfl
@[simp] theorem State.scanIn_ctxPoison (m : ScanMode) (d c : List Bool) : (s.scanIn m d c).ctxPoison = s.ctxPoison := rfl
@[simp] theorem State.scanIn_resPoison (m : ScanMode) (d c : List Bool) : (s.scanIn m d c).resPoison = s.resPoison := rfl
@[simp] theorem State.scanIn_clearRun (m : ScanMode) (d c : List Bool) : (s.scanIn m d c).clearRun = s.clearRun := rfl
@[simp] theorem State.scanIn_upsets (m : ScanMode) (d c : List Bool) : (s.scanIn m d c).upsets = s.upsets := rfl
@[simp] theorem State.scanIn_mem (m : ScanMode) (d c : List Bool) : (s.scanIn m d c).mem = s.mem := rfl
@[simp] theorem State.scanIn_memPoison (m : ScanMode) (d c : List Bool) : (s.scanIn m d c).memPoison = s.memPoison := rfl
@[simp] theorem State.scanIn_cb (m : ScanMode) (d c : List Bool) : (s.scanIn m d c).cb = s.cb := rfl
@[simp] theorem State.scanIn_touched (m : ScanMode) (d c : List Bool) : (s.scanIn m d c).touched = s.touched := rfl
@[simp] theorem State.scanIn_piers (m : ScanMode) (d c : List Bool) : (s.scanIn m d c).piers = s.piers := rfl
@[simp] theorem State.scanIn_joints (m : ScanMode) (d c : List Bool) : (s.scanIn m d c).joints = s.joints := rfl
@[simp] theorem State.scanIn_irqOut (m : ScanMode) (d c : List Bool) : (s.scanIn m d c).irqOut = s.irqOut := rfl
@[simp] theorem State.scanIn_lastRead (m : ScanMode) (d c : List Bool) : (s.scanIn m d c).lastRead = s.lastRead := rfl
@[simp] theorem State.scanIn_q (m : ScanMode) (d c : List Bool) : (s.scanIn m d c).q = s.q := rfl
@[simp] theorem State.scanIn_x (m : ScanMode) (d c : List Bool) : (s.scanIn m d c).x = s.x := rfl
@[simp] theorem State.scanIn_deck (m : ScanMode) (d c : List Bool) : (s.scanIn m d c).deck = s.deck := rfl
@[simp] theorem State.scanIn_clock (m : ScanMode) (d c : List Bool) : (s.scanIn m d c).clock = s.clock := rfl
@[simp] theorem State.scanIn_snap (m : ScanMode) (d c : List Bool) : (s.scanIn m d c).snap = s.snap := rfl
@[simp] theorem State.scanIn_pwr (m : ScanMode) (d c : List Bool) : (s.scanIn m d c).pwr = s.pwr := rfl
@[simp] theorem State.scanIn_kstn (m : ScanMode) (d c : List Bool) : (s.scanIn m d c).kstn = s.kstn := rfl
@[simp] theorem State.scanIn_test (m : ScanMode) (d c : List Bool) : (s.scanIn m d c).test = s.test := rfl
@[simp] theorem State.scanIn_free (m : ScanMode) (d c : List Bool) : (s.scanIn m d c).free = s.free := rfl

/-! ### What the updates write -/

@[simp] theorem State.setReg_regs (a v : Nat) :
    (s.setReg a v).regs = putWord regReset s.regs a (BitVec.ofNat 32 v) := rfl
@[simp] theorem State.wr_mem (a : Nat) (bs : Bytes) : (s.wr a bs).mem = s.mem.writeN a bs := rfl
@[simp] theorem State.wrPoison_mem (a : Nat) (bs : Bytes) : (s.wrPoison a bs).mem = s.mem.writeN a bs := rfl
@[simp] theorem State.ctxWr_ctx (a : Nat) (bs : Bytes) : (s.ctxWr a bs).ctx = s.ctx.writeN a bs := rfl
@[simp] theorem State.scanIn_scan (m : ScanMode) (d c : List Bool) : (s.scanIn m d c).scan = ⟨m, scanCells d, scanCells c⟩ := rfl

end Sys2Proof.Machine
end

