-- ==== Sys2Proof/Laws/Context.lean ====
section
/-! SUPPORT. Bit fields and context entries: what a field reads after a field has been stored. -/

namespace Sys2Proof.Machine

@[simp] theorem length_toLE (k n : Nat) : (toLE k n).length = k := by
  induction k generalizing n with
  | zero => rfl
  | succ k ih => simp [toLE, ih]

/-- A number's bytes spell it again, in as many bytes. -/
theorem leNat_toLE (k n : Nat) : leNat (toLE k n) = n % 2 ^ (8 * k) := by
  induction k generalizing n with
  | zero => simp [toLE, leNat, Nat.mod_one]
  | succ k ih =>
    rw [toLE, leNat, ih, BitVec.toNat_ofNat, show 8 * (k + 1) = 8 + 8 * k by omega, Nat.pow_add,
      Nat.mod_mul (x := n)]

theorem leNat_lt (bs : Bytes) : leNat bs < 2 ^ (8 * bs.length) := by
  induction bs with
  | nil => simp [leNat]
  | cons b t ih =>
    rw [leNat, List.length_cons, show 8 * (t.length + 1) = 8 + 8 * t.length by omega, Nat.pow_add]
    have := b.isLt
    omega

/-- Bytes of the context tables after bytes have been written there, in a canonical memory. -/
theorem State.ctxRd_ctxWr_same (s : State) (a : Nat) (bs : Bytes) (h : s.ctx.wf = true) :
    (s.ctxWr a bs).ctxRd a bs.length = bs := Memory.readN_writeN a bs h

theorem State.ctxRd_ctxWr_other (s : State) {a b n : Nat} (bs : Bytes) (h : s.ctx.wf = true)
    (hd : b + n ≤ a ∨ a + bs.length ≤ b) : (s.ctxWr a bs).ctxRd b n = s.ctxRd b n :=
  Memory.readN_writeN_other h hd

/-- A field apart from the bytes of a stored one reads as before. -/
theorem State.fld_setFld_other (s : State) {a b : Nat} {f g : Fld} (v : Nat) (h : s.ctx.wf = true)
    (hd : b + g.off + g.len ≤ a + f.off ∨ a + f.off + f.len ≤ b + g.off) :
    (s.setFld a f v).fld b g = s.fld b g := by
  rw [State.fld, State.fld, State.setFld, State.ctxRd_ctxWr_other _ _ h (by simpa using hd)]

/-- The bits below a stored field stay. -/
theorem setBits_low (n v : Nat) {hi lo : Nat} (h : lo ≤ hi + 1) : setBits n hi lo v % 2 ^ lo = n % 2 ^ lo := by
  obtain ⟨d, hd⟩ : ∃ d, hi + 1 = lo + d := ⟨hi + 1 - lo, by omega⟩
  rw [setBits, Nat.shiftLeft_eq, Nat.shiftLeft_eq, hd, Nat.pow_add, Nat.mul_left_comm, Nat.add_assoc,
    Nat.mul_add_mod, Nat.add_comm, Nat.add_mul_mod_self_right, Nat.mod_mod]

/-- A field stored in a number reads as the value, in the field's width. -/
theorem bits_setBits (n v : Nat) {hi lo : Nat} (h : lo ≤ hi + 1) :
    bits (setBits n hi lo v) hi lo = v % 2 ^ (hi + 1 - lo) := by
  obtain ⟨d, hd⟩ : ∃ d, hi + 1 = lo + d := ⟨hi + 1 - lo, by omega⟩
  rw [bits, setBits, Nat.shiftLeft_eq, Nat.shiftLeft_eq, hd, show lo + d - lo = d by omega, Nat.shiftRight_eq_div_pow,
    Nat.pow_add]
  have hp : 0 < 2 ^ lo := Nat.two_pow_pos lo
  rw [show n >>> (lo + d) * (2 ^ lo * 2 ^ d) + v % 2 ^ d * 2 ^ lo + n % 2 ^ lo =
    2 ^ lo * (n >>> (lo + d) * 2 ^ d + v % 2 ^ d) + n % 2 ^ lo by ring]
  rw [Nat.mul_add_div hp, Nat.div_eq_of_lt (Nat.mod_lt n hp), Nat.add_zero, Nat.add_comm,
    Nat.add_mul_mod_self_right, Nat.mod_mod]

theorem setBits_lt {n k hi lo : Nat} (v : Nat) (hn : n < 2 ^ k) (hk : hi + 1 ≤ k) (hl : lo ≤ hi + 1) :
    setBits n hi lo v < 2 ^ k := by
  obtain ⟨d, hd⟩ : ∃ d, hi + 1 = lo + d := ⟨hi + 1 - lo, by omega⟩
  obtain ⟨e, he⟩ : ∃ e, k = lo + d + e := ⟨k - (lo + d), by omega⟩
  subst he
  rw [setBits, Nat.shiftLeft_eq, Nat.shiftLeft_eq, hd, show lo + d - lo = d by omega, Nat.shiftRight_eq_div_pow]
  have h1 : n / 2 ^ (lo + d) < 2 ^ e := by
    rw [Nat.div_lt_iff_lt_mul (Nat.two_pow_pos _), ← Nat.pow_add, Nat.add_comm e]; exact hn
  have h2 : v % 2 ^ d < 2 ^ d := Nat.mod_lt _ (Nat.two_pow_pos d)
  have h3 : n % 2 ^ lo < 2 ^ lo := Nat.mod_lt _ (Nat.two_pow_pos lo)
  have h4 : v % 2 ^ d * 2 ^ lo + n % 2 ^ lo < 2 ^ (lo + d) := by
    rw [Nat.pow_add]
    calc v % 2 ^ d * 2 ^ lo + n % 2 ^ lo < v % 2 ^ d * 2 ^ lo + 2 ^ lo := by omega
      _ = (v % 2 ^ d + 1) * 2 ^ lo := by ring
      _ ≤ 2 ^ d * 2 ^ lo := Nat.mul_le_mul_right _ h2
      _ = 2 ^ lo * 2 ^ d := Nat.mul_comm _ _
  calc n / 2 ^ (lo + d) * 2 ^ (lo + d) + v % 2 ^ d * 2 ^ lo + n % 2 ^ lo
      < n / 2 ^ (lo + d) * 2 ^ (lo + d) + 2 ^ (lo + d) := by omega
    _ = (n / 2 ^ (lo + d) + 1) * 2 ^ (lo + d) := by ring
    _ ≤ 2 ^ e * 2 ^ (lo + d) := Nat.mul_le_mul_right _ h1
    _ = 2 ^ (lo + d + e) := by rw [← Nat.pow_add, Nat.add_comm]

/-- A field of an entry reads as stored, in its width. -/
theorem State.fld_setFld_same (s : State) (a v : Nat) {f : Fld} (h : s.ctx.wf = true) (hl : f.lo ≤ f.hi + 1)
    (hf : f.hi + 1 ≤ 8 * f.len) : (s.setFld a f v).fld a f = v % 2 ^ (f.hi + 1 - f.lo) := by
  have hr : (s.setFld a f v).ctxRd (a + f.off) f.len =
      toLE f.len (setBits (leNat (s.ctxRd (a + f.off) f.len)) f.hi f.lo v) := by
    have := s.ctxRd_ctxWr_same (a + f.off) (toLE f.len (setBits (leNat (s.ctxRd (a + f.off) f.len)) f.hi f.lo v)) h
    rw [length_toLE] at this
    exact this
  have hlt : leNat (s.ctxRd (a + f.off) f.len) < 2 ^ (8 * f.len) := by
    have := leNat_lt (s.ctxRd (a + f.off) f.len)
    rwa [State.ctxRd, Memory.length_readN] at this
  rw [State.fld, hr, leNat_toLE, Nat.mod_eq_of_lt (setBits_lt v hlt hf hl), bits_setBits _ _ hl]

/-- Every write of the context tables keeps their canonical form. -/
theorem State.ctx_wf_ctxWr (s : State) (a : Nat) (bs : Bytes) (h : s.ctx.wf = true) : (s.ctxWr a bs).ctx.wf = true :=
  Memory.wf_writeN a bs h

theorem State.ctx_wf_setFld (s : State) (a : Nat) (f : Fld) (v : Nat) (h : s.ctx.wf = true) :
    (s.setFld a f v).ctx.wf = true := Memory.wf_writeN _ _ h

/-- Every write of host memory keeps its canonical form. -/
theorem State.mem_wf_wr (s : State) (a : Nat) (bs : Bytes) (h : s.mem.wf = true) : (s.wr a bs).mem.wf = true :=
  Memory.wf_writeN a bs h

end Sys2Proof.Machine
end

