-- ==== Sys2Proof/Laws/Effects.lean ====
section
/-! SUPPORT. What the shared operations on registers, counters, interrupts and error records can do: each changes register words alone, or register words and the messages sent, and for each field left as it was one lemma. -/

namespace Sys2Proof.Machine

variable (s : State)

theorem State.setReg_effect (a v : Nat) : ∃ (r : List (Nat × Word)), s.setReg a v = { s with regs := r } := ⟨_, rfl⟩

theorem State.setReg2_effect (a v b w : Nat) :
    ∃ (r : List (Nat × Word)), (s.setReg a v).setReg b w = { s with regs := r } := by
  obtain ⟨r, h⟩ := s.setReg_effect a v
  obtain ⟨r', h'⟩ := (s.setReg a v).setReg_effect b w
  exact ⟨r', by rw [h', h]⟩

theorem State.bump_effect (a n : Nat) : ∃ (r : List (Nat × Word)), s.bump a n = { s with regs := r } := by
  unfold State.bump; split
  · exact ⟨_, rfl⟩
  · exact ⟨_, rfl⟩
@[simp] theorem State.bump_pending (a n : Nat) : (s.bump a n).pending = s.pending := by
  obtain ⟨_, h⟩ := s.bump_effect a n; rw [h]
@[simp] theorem State.bump_latch (a n : Nat) : (s.bump a n).latch = s.latch := by
  obtain ⟨_, h⟩ := s.bump_effect a n; rw [h]
@[simp] theorem State.bump_locks (a n : Nat) : (s.bump a n).locks = s.locks := by
  obtain ⟨_, h⟩ := s.bump_effect a n; rw [h]
@[simp] theorem State.bump_ctx (a n : Nat) : (s.bump a n).ctx = s.ctx := by
  obtain ⟨_, h⟩ := s.bump_effect a n; rw [h]
@[simp] theorem State.bump_ctxPoison (a n : Nat) : (s.bump a n).ctxPoison = s.ctxPoison := by
  obtain ⟨_, h⟩ := s.bump_effect a n; rw [h]
@[simp] theorem State.bump_resPoison (a n : Nat) : (s.bump a n).resPoison = s.resPoison := by
  obtain ⟨_, h⟩ := s.bump_effect a n; rw [h]
@[simp] theorem State.bump_clearRun (a n : Nat) : (s.bump a n).clearRun = s.clearRun := by
  obtain ⟨_, h⟩ := s.bump_effect a n; rw [h]
@[simp] theorem State.bump_upsets (a n : Nat) : (s.bump a n).upsets = s.upsets := by
  obtain ⟨_, h⟩ := s.bump_effect a n; rw [h]
@[simp] theorem State.bump_mem (a n : Nat) : (s.bump a n).mem = s.mem := by
  obtain ⟨_, h⟩ := s.bump_effect a n; rw [h]
@[simp] theorem State.bump_memPoison (a n : Nat) : (s.bump a n).memPoison = s.memPoison := by
  obtain ⟨_, h⟩ := s.bump_effect a n; rw [h]
@[simp] theorem State.bump_cb (a n : Nat) : (s.bump a n).cb = s.cb := by
  obtain ⟨_, h⟩ := s.bump_effect a n; rw [h]
@[simp] theorem State.bump_touched (a n : Nat) : (s.bump a n).touched = s.touched := by
  obtain ⟨_, h⟩ := s.bump_effect a n; rw [h]
@[simp] theorem State.bump_piers (a n : Nat) : (s.bump a n).piers = s.piers := by
  obtain ⟨_, h⟩ := s.bump_effect a n; rw [h]
@[simp] theorem State.bump_joints (a n : Nat) : (s.bump a n).joints = s.joints := by
  obtain ⟨_, h⟩ := s.bump_effect a n; rw [h]
@[simp] theorem State.bump_irqOut (a n : Nat) : (s.bump a n).irqOut = s.irqOut := by
  obtain ⟨_, h⟩ := s.bump_effect a n; rw [h]
@[simp] theorem State.bump_lastRead (a n : Nat) : (s.bump a n).lastRead = s.lastRead := by
  obtain ⟨_, h⟩ := s.bump_effect a n; rw [h]
@[simp] theorem State.bump_q (a n : Nat) : (s.bump a n).q = s.q := by
  obtain ⟨_, h⟩ := s.bump_effect a n; rw [h]
@[simp] theorem State.bump_x (a n : Nat) : (s.bump a n).x = s.x := by
  obtain ⟨_, h⟩ := s.bump_effect a n; rw [h]
@[simp] theorem State.bump_deck (a n : Nat) : (s.bump a n).deck = s.deck := by
  obtain ⟨_, h⟩ := s.bump_effect a n; rw [h]
@[simp] theorem State.bump_clock (a n : Nat) : (s.bump a n).clock = s.clock := by
  obtain ⟨_, h⟩ := s.bump_effect a n; rw [h]
@[simp] theorem State.bump_snap (a n : Nat) : (s.bump a n).snap = s.snap := by
  obtain ⟨_, h⟩ := s.bump_effect a n; rw [h]
@[simp] theorem State.bump_pwr (a n : Nat) : (s.bump a n).pwr = s.pwr := by
  obtain ⟨_, h⟩ := s.bump_effect a n; rw [h]
@[simp] theorem State.bump_kstn (a n : Nat) : (s.bump a n).kstn = s.kstn := by
  obtain ⟨_, h⟩ := s.bump_effect a n; rw [h]
@[simp] theorem State.bump_scan (a n : Nat) : (s.bump a n).scan = s.scan := by
  obtain ⟨_, h⟩ := s.bump_effect a n; rw [h]
@[simp] theorem State.bump_test (a n : Nat) : (s.bump a n).test = s.test := by
  obtain ⟨_, h⟩ := s.bump_effect a n; rw [h]
@[simp] theorem State.bump_free (a n : Nat) : (s.bump a n).free = s.free := by
  obtain ⟨_, h⟩ := s.bump_effect a n; rw [h]

theorem State.bump64_effect (a n : Nat) : ∃ (r : List (Nat × Word)), s.bump64 a n = { s with regs := r } := by
  rw [State.bump64]; split
  · exact ⟨s.regs, rfl⟩
  · exact s.setReg2_effect _ _ _ _
@[simp] theorem State.bump64_pending (a n : Nat) : (s.bump64 a n).pending = s.pending := by
  obtain ⟨_, h⟩ := s.bump64_effect a n; rw [h]
@[simp] theorem State.bump64_latch (a n : Nat) : (s.bump64 a n).latch = s.latch := by
  obtain ⟨_, h⟩ := s.bump64_effect a n; rw [h]
@[simp] theorem State.bump64_locks (a n : Nat) : (s.bump64 a n).locks = s.locks := by
  obtain ⟨_, h⟩ := s.bump64_effect a n; rw [h]
@[simp] theorem State.bump64_ctx (a n : Nat) : (s.bump64 a n).ctx = s.ctx := by
  obtain ⟨_, h⟩ := s.bump64_effect a n; rw [h]
@[simp] theorem State.bump64_ctxPoison (a n : Nat) : (s.bump64 a n).ctxPoison = s.ctxPoison := by
  obtain ⟨_, h⟩ := s.bump64_effect a n; rw [h]
@[simp] theorem State.bump64_resPoison (a n : Nat) : (s.bump64 a n).resPoison = s.resPoison := by
  obtain ⟨_, h⟩ := s.bump64_effect a n; rw [h]
@[simp] theorem State.bump64_clearRun (a n : Nat) : (s.bump64 a n).clearRun = s.clearRun := by
  obtain ⟨_, h⟩ := s.bump64_effect a n; rw [h]
@[simp] theorem State.bump64_upsets (a n : Nat) : (s.bump64 a n).upsets = s.upsets := by
  obtain ⟨_, h⟩ := s.bump64_effect a n; rw [h]
@[simp] theorem State.bump64_mem (a n : Nat) : (s.bump64 a n).mem = s.mem := by
  obtain ⟨_, h⟩ := s.bump64_effect a n; rw [h]
@[simp] theorem State.bump64_memPoison (a n : Nat) : (s.bump64 a n).memPoison = s.memPoison := by
  obtain ⟨_, h⟩ := s.bump64_effect a n; rw [h]
@[simp] theorem State.bump64_cb (a n : Nat) : (s.bump64 a n).cb = s.cb := by
  obtain ⟨_, h⟩ := s.bump64_effect a n; rw [h]
@[simp] theorem State.bump64_touched (a n : Nat) : (s.bump64 a n).touched = s.touched := by
  obtain ⟨_, h⟩ := s.bump64_effect a n; rw [h]
@[simp] theorem State.bump64_piers (a n : Nat) : (s.bump64 a n).piers = s.piers := by
  obtain ⟨_, h⟩ := s.bump64_effect a n; rw [h]
@[simp] theorem State.bump64_joints (a n : Nat) : (s.bump64 a n).joints = s.joints := by
  obtain ⟨_, h⟩ := s.bump64_effect a n; rw [h]
@[simp] theorem State.bump64_irqOut (a n : Nat) : (s.bump64 a n).irqOut = s.irqOut := by
  obtain ⟨_, h⟩ := s.bump64_effect a n; rw [h]
@[simp] theorem State.bump64_lastRead (a n : Nat) : (s.bump64 a n).lastRead = s.lastRead := by
  obtain ⟨_, h⟩ := s.bump64_effect a n; rw [h]
@[simp] theorem State.bump64_q (a n : Nat) : (s.bump64 a n).q = s.q := by
  obtain ⟨_, h⟩ := s.bump64_effect a n; rw [h]
@[simp] theorem State.bump64_x (a n : Nat) : (s.bump64 a n).x = s.x := by
  obtain ⟨_, h⟩ := s.bump64_effect a n; rw [h]
@[simp] theorem State.bump64_deck (a n : Nat) : (s.bump64 a n).deck = s.deck := by
  obtain ⟨_, h⟩ := s.bump64_effect a n; rw [h]
@[simp] theorem State.bump64_clock (a n : Nat) : (s.bump64 a n).clock = s.clock := by
  obtain ⟨_, h⟩ := s.bump64_effect a n; rw [h]
@[simp] theorem State.bump64_snap (a n : Nat) : (s.bump64 a n).snap = s.snap := by
  obtain ⟨_, h⟩ := s.bump64_effect a n; rw [h]
@[simp] theorem State.bump64_pwr (a n : Nat) : (s.bump64 a n).pwr = s.pwr := by
  obtain ⟨_, h⟩ := s.bump64_effect a n; rw [h]
@[simp] theorem State.bump64_kstn (a n : Nat) : (s.bump64 a n).kstn = s.kstn := by
  obtain ⟨_, h⟩ := s.bump64_effect a n; rw [h]
@[simp] theorem State.bump64_scan (a n : Nat) : (s.bump64 a n).scan = s.scan := by
  obtain ⟨_, h⟩ := s.bump64_effect a n; rw [h]
@[simp] theorem State.bump64_test (a n : Nat) : (s.bump64 a n).test = s.test := by
  obtain ⟨_, h⟩ := s.bump64_effect a n; rw [h]
@[simp] theorem State.bump64_free (a n : Nat) : (s.bump64 a n).free = s.free := by
  obtain ⟨_, h⟩ := s.bump64_effect a n; rw [h]

theorem State.bumpSat64_effect (a n : Nat) : ∃ (r : List (Nat × Word)), s.bumpSat64 a n = { s with regs := r } := by
  rw [State.bumpSat64]; split
  · exact ⟨s.regs, rfl⟩
  · exact s.setReg2_effect _ _ _ _
@[simp] theorem State.bumpSat64_pending (a n : Nat) : (s.bumpSat64 a n).pending = s.pending := by
  obtain ⟨_, h⟩ := s.bumpSat64_effect a n; rw [h]
@[simp] theorem State.bumpSat64_latch (a n : Nat) : (s.bumpSat64 a n).latch = s.latch := by
  obtain ⟨_, h⟩ := s.bumpSat64_effect a n; rw [h]
@[simp] theorem State.bumpSat64_locks (a n : Nat) : (s.bumpSat64 a n).locks = s.locks := by
  obtain ⟨_, h⟩ := s.bumpSat64_effect a n; rw [h]
@[simp] theorem State.bumpSat64_ctx (a n : Nat) : (s.bumpSat64 a n).ctx = s.ctx := by
  obtain ⟨_, h⟩ := s.bumpSat64_effect a n; rw [h]
@[simp] theorem State.bumpSat64_ctxPoison (a n : Nat) : (s.bumpSat64 a n).ctxPoison = s.ctxPoison := by
  obtain ⟨_, h⟩ := s.bumpSat64_effect a n; rw [h]
@[simp] theorem State.bumpSat64_resPoison (a n : Nat) : (s.bumpSat64 a n).resPoison = s.resPoison := by
  obtain ⟨_, h⟩ := s.bumpSat64_effect a n; rw [h]
@[simp] theorem State.bumpSat64_clearRun (a n : Nat) : (s.bumpSat64 a n).clearRun = s.clearRun := by
  obtain ⟨_, h⟩ := s.bumpSat64_effect a n; rw [h]
@[simp] theorem State.bumpSat64_upsets (a n : Nat) : (s.bumpSat64 a n).upsets = s.upsets := by
  obtain ⟨_, h⟩ := s.bumpSat64_effect a n; rw [h]
@[simp] theorem State.bumpSat64_mem (a n : Nat) : (s.bumpSat64 a n).mem = s.mem := by
  obtain ⟨_, h⟩ := s.bumpSat64_effect a n; rw [h]
@[simp] theorem State.bumpSat64_memPoison (a n : Nat) : (s.bumpSat64 a n).memPoison = s.memPoison := by
  obtain ⟨_, h⟩ := s.bumpSat64_effect a n; rw [h]
@[simp] theorem State.bumpSat64_cb (a n : Nat) : (s.bumpSat64 a n).cb = s.cb := by
  obtain ⟨_, h⟩ := s.bumpSat64_effect a n; rw [h]
@[simp] theorem State.bumpSat64_touched (a n : Nat) : (s.bumpSat64 a n).touched = s.touched := by
  obtain ⟨_, h⟩ := s.bumpSat64_effect a n; rw [h]
@[simp] theorem State.bumpSat64_piers (a n : Nat) : (s.bumpSat64 a n).piers = s.piers := by
  obtain ⟨_, h⟩ := s.bumpSat64_effect a n; rw [h]
@[simp] theorem State.bumpSat64_joints (a n : Nat) : (s.bumpSat64 a n).joints = s.joints := by
  obtain ⟨_, h⟩ := s.bumpSat64_effect a n; rw [h]
@[simp] theorem State.bumpSat64_irqOut (a n : Nat) : (s.bumpSat64 a n).irqOut = s.irqOut := by
  obtain ⟨_, h⟩ := s.bumpSat64_effect a n; rw [h]
@[simp] theorem State.bumpSat64_lastRead (a n : Nat) : (s.bumpSat64 a n).lastRead = s.lastRead := by
  obtain ⟨_, h⟩ := s.bumpSat64_effect a n; rw [h]
@[simp] theorem State.bumpSat64_q (a n : Nat) : (s.bumpSat64 a n).q = s.q := by
  obtain ⟨_, h⟩ := s.bumpSat64_effect a n; rw [h]
@[simp] theorem State.bumpSat64_x (a n : Nat) : (s.bumpSat64 a n).x = s.x := by
  obtain ⟨_, h⟩ := s.bumpSat64_effect a n; rw [h]
@[simp] theorem State.bumpSat64_deck (a n : Nat) : (s.bumpSat64 a n).deck = s.deck := by
  obtain ⟨_, h⟩ := s.bumpSat64_effect a n; rw [h]
@[simp] theorem State.bumpSat64_clock (a n : Nat) : (s.bumpSat64 a n).clock = s.clock := by
  obtain ⟨_, h⟩ := s.bumpSat64_effect a n; rw [h]
@[simp] theorem State.bumpSat64_snap (a n : Nat) : (s.bumpSat64 a n).snap = s.snap := by
  obtain ⟨_, h⟩ := s.bumpSat64_effect a n; rw [h]
@[simp] theorem State.bumpSat64_pwr (a n : Nat) : (s.bumpSat64 a n).pwr = s.pwr := by
  obtain ⟨_, h⟩ := s.bumpSat64_effect a n; rw [h]
@[simp] theorem State.bumpSat64_kstn (a n : Nat) : (s.bumpSat64 a n).kstn = s.kstn := by
  obtain ⟨_, h⟩ := s.bumpSat64_effect a n; rw [h]
@[simp] theorem State.bumpSat64_scan (a n : Nat) : (s.bumpSat64 a n).scan = s.scan := by
  obtain ⟨_, h⟩ := s.bumpSat64_effect a n; rw [h]
@[simp] theorem State.bumpSat64_test (a n : Nat) : (s.bumpSat64 a n).test = s.test := by
  obtain ⟨_, h⟩ := s.bumpSat64_effect a n; rw [h]
@[simp] theorem State.bumpSat64_free (a n : Nat) : (s.bumpSat64 a n).free = s.free := by
  obtain ⟨_, h⟩ := s.bumpSat64_effect a n; rw [h]

theorem State.errFirst_effect (page status info : Nat) : ∃ (r : List (Nat × Word)), s.errFirst page status info = { s with regs := r } := by
  rw [State.errFirst]; split
  · exact ⟨s.regs, rfl⟩
  · exact s.setReg2_effect _ _ _ _
@[simp] theorem State.errFirst_pending (page status info : Nat) : (s.errFirst page status info).pending = s.pending := by
  obtain ⟨_, h⟩ := s.errFirst_effect page status info; rw [h]
@[simp] theorem State.errFirst_latch (page status info : Nat) : (s.errFirst page status info).latch = s.latch := by
  obtain ⟨_, h⟩ := s.errFirst_effect page status info; rw [h]
@[simp] theorem State.errFirst_locks (page status info : Nat) : (s.errFirst page status info).locks = s.locks := by
  obtain ⟨_, h⟩ := s.errFirst_effect page status info; rw [h]
@[simp] theorem State.errFirst_ctx (page status info : Nat) : (s.errFirst page status info).ctx = s.ctx := by
  obtain ⟨_, h⟩ := s.errFirst_effect page status info; rw [h]
@[simp] theorem State.errFirst_ctxPoison (page status info : Nat) : (s.errFirst page status info).ctxPoison = s.ctxPoison := by
  obtain ⟨_, h⟩ := s.errFirst_effect page status info; rw [h]
@[simp] theorem State.errFirst_resPoison (page status info : Nat) : (s.errFirst page status info).resPoison = s.resPoison := by
  obtain ⟨_, h⟩ := s.errFirst_effect page status info; rw [h]
@[simp] theorem State.errFirst_clearRun (page status info : Nat) : (s.errFirst page status info).clearRun = s.clearRun := by
  obtain ⟨_, h⟩ := s.errFirst_effect page status info; rw [h]
@[simp] theorem State.errFirst_upsets (page status info : Nat) : (s.errFirst page status info).upsets = s.upsets := by
  obtain ⟨_, h⟩ := s.errFirst_effect page status info; rw [h]
@[simp] theorem State.errFirst_mem (page status info : Nat) : (s.errFirst page status info).mem = s.mem := by
  obtain ⟨_, h⟩ := s.errFirst_effect page status info; rw [h]
@[simp] theorem State.errFirst_memPoison (page status info : Nat) : (s.errFirst page status info).memPoison = s.memPoison := by
  obtain ⟨_, h⟩ := s.errFirst_effect page status info; rw [h]
@[simp] theorem State.errFirst_cb (page status info : Nat) : (s.errFirst page status info).cb = s.cb := by
  obtain ⟨_, h⟩ := s.errFirst_effect page status info; rw [h]
@[simp] theorem State.errFirst_touched (page status info : Nat) : (s.errFirst page status info).touched = s.touched := by
  obtain ⟨_, h⟩ := s.errFirst_effect page status info; rw [h]
@[simp] theorem State.errFirst_piers (page status info : Nat) : (s.errFirst page status info).piers = s.piers := by
  obtain ⟨_, h⟩ := s.errFirst_effect page status info; rw [h]
@[simp] theorem State.errFirst_joints (page status info : Nat) : (s.errFirst page status info).joints = s.joints := by
  obtain ⟨_, h⟩ := s.errFirst_effect page status info; rw [h]
@[simp] theorem State.errFirst_irqOut (page status info : Nat) : (s.errFirst page status info).irqOut = s.irqOut := by
  obtain ⟨_, h⟩ := s.errFirst_effect page status info; rw [h]
@[simp] theorem State.errFirst_lastRead (page status info : Nat) : (s.errFirst page status info).lastRead = s.lastRead := by
  obtain ⟨_, h⟩ := s.errFirst_effect page status info; rw [h]
@[simp] theorem State.errFirst_q (page status info : Nat) : (s.errFirst page status info).q = s.q := by
  obtain ⟨_, h⟩ := s.errFirst_effect page status info; rw [h]
@[simp] theorem State.errFirst_x (page status info : Nat) : (s.errFirst page status info).x = s.x := by
  obtain ⟨_, h⟩ := s.errFirst_effect page status info; rw [h]
@[simp] theorem State.errFirst_deck (page status info : Nat) : (s.errFirst page status info).deck = s.deck := by
  obtain ⟨_, h⟩ := s.errFirst_effect page status info; rw [h]
@[simp] theorem State.errFirst_clock (page status info : Nat) : (s.errFirst page status info).clock = s.clock := by
  obtain ⟨_, h⟩ := s.errFirst_effect page status info; rw [h]
@[simp] theorem State.errFirst_snap (page status info : Nat) : (s.errFirst page status info).snap = s.snap := by
  obtain ⟨_, h⟩ := s.errFirst_effect page status info; rw [h]
@[simp] theorem State.errFirst_pwr (page status info : Nat) : (s.errFirst page status info).pwr = s.pwr := by
  obtain ⟨_, h⟩ := s.errFirst_effect page status info; rw [h]
@[simp] theorem State.errFirst_kstn (page status info : Nat) : (s.errFirst page status info).kstn = s.kstn := by
  obtain ⟨_, h⟩ := s.errFirst_effect page status info; rw [h]
@[simp] theorem State.errFirst_scan (page status info : Nat) : (s.errFirst page status info).scan = s.scan := by
  obtain ⟨_, h⟩ := s.errFirst_effect page status info; rw [h]
@[simp] theorem State.errFirst_test (page status info : Nat) : (s.errFirst page status info).test = s.test := by
  obtain ⟨_, h⟩ := s.errFirst_effect page status info; rw [h]
@[simp] theorem State.errFirst_free (page status info : Nat) : (s.errFirst page status info).free = s.free := by
  obtain ⟨_, h⟩ := s.errFirst_effect page status info; rw [h]

theorem State.countUe_effect (m : Sram) (g : Nat) : ∃ (r : List (Nat × Word)), s.countUe m g = { s with regs := r } := by
  obtain ⟨r, h⟩ := s.bump_effect (R.hdrErrCntUe m.page) 1
  unfold State.countUe
  obtain ⟨r', h'⟩ := (s.bump (R.hdrErrCntUe m.page) 1).errFirst_effect m.page 0x51 ((Config.whereOf m.number).toNat * 2 ^ 28 + g % 2 ^ 28)
  exact ⟨r', by rw [h', h]⟩
@[simp] theorem State.countUe_pending (m : Sram) (g : Nat) : (s.countUe m g).pending = s.pending := by
  obtain ⟨_, h⟩ := s.countUe_effect m g; rw [h]
@[simp] theorem State.countUe_latch (m : Sram) (g : Nat) : (s.countUe m g).latch = s.latch := by
  obtain ⟨_, h⟩ := s.countUe_effect m g; rw [h]
@[simp] theorem State.countUe_locks (m : Sram) (g : Nat) : (s.countUe m g).locks = s.locks := by
  obtain ⟨_, h⟩ := s.countUe_effect m g; rw [h]
@[simp] theorem State.countUe_ctx (m : Sram) (g : Nat) : (s.countUe m g).ctx = s.ctx := by
  obtain ⟨_, h⟩ := s.countUe_effect m g; rw [h]
@[simp] theorem State.countUe_ctxPoison (m : Sram) (g : Nat) : (s.countUe m g).ctxPoison = s.ctxPoison := by
  obtain ⟨_, h⟩ := s.countUe_effect m g; rw [h]
@[simp] theorem State.countUe_resPoison (m : Sram) (g : Nat) : (s.countUe m g).resPoison = s.resPoison := by
  obtain ⟨_, h⟩ := s.countUe_effect m g; rw [h]
@[simp] theorem State.countUe_clearRun (m : Sram) (g : Nat) : (s.countUe m g).clearRun = s.clearRun := by
  obtain ⟨_, h⟩ := s.countUe_effect m g; rw [h]
@[simp] theorem State.countUe_upsets (m : Sram) (g : Nat) : (s.countUe m g).upsets = s.upsets := by
  obtain ⟨_, h⟩ := s.countUe_effect m g; rw [h]
@[simp] theorem State.countUe_mem (m : Sram) (g : Nat) : (s.countUe m g).mem = s.mem := by
  obtain ⟨_, h⟩ := s.countUe_effect m g; rw [h]
@[simp] theorem State.countUe_memPoison (m : Sram) (g : Nat) : (s.countUe m g).memPoison = s.memPoison := by
  obtain ⟨_, h⟩ := s.countUe_effect m g; rw [h]
@[simp] theorem State.countUe_cb (m : Sram) (g : Nat) : (s.countUe m g).cb = s.cb := by
  obtain ⟨_, h⟩ := s.countUe_effect m g; rw [h]
@[simp] theorem State.countUe_touched (m : Sram) (g : Nat) : (s.countUe m g).touched = s.touched := by
  obtain ⟨_, h⟩ := s.countUe_effect m g; rw [h]
@[simp] theorem State.countUe_piers (m : Sram) (g : Nat) : (s.countUe m g).piers = s.piers := by
  obtain ⟨_, h⟩ := s.countUe_effect m g; rw [h]
@[simp] theorem State.countUe_joints (m : Sram) (g : Nat) : (s.countUe m g).joints = s.joints := by
  obtain ⟨_, h⟩ := s.countUe_effect m g; rw [h]
@[simp] theorem State.countUe_irqOut (m : Sram) (g : Nat) : (s.countUe m g).irqOut = s.irqOut := by
  obtain ⟨_, h⟩ := s.countUe_effect m g; rw [h]
@[simp] theorem State.countUe_lastRead (m : Sram) (g : Nat) : (s.countUe m g).lastRead = s.lastRead := by
  obtain ⟨_, h⟩ := s.countUe_effect m g; rw [h]
@[simp] theorem State.countUe_q (m : Sram) (g : Nat) : (s.countUe m g).q = s.q := by
  obtain ⟨_, h⟩ := s.countUe_effect m g; rw [h]
@[simp] theorem State.countUe_x (m : Sram) (g : Nat) : (s.countUe m g).x = s.x := by
  obtain ⟨_, h⟩ := s.countUe_effect m g; rw [h]
@[simp] theorem State.countUe_deck (m : Sram) (g : Nat) : (s.countUe m g).deck = s.deck := by
  obtain ⟨_, h⟩ := s.countUe_effect m g; rw [h]
@[simp] theorem State.countUe_clock (m : Sram) (g : Nat) : (s.countUe m g).clock = s.clock := by
  obtain ⟨_, h⟩ := s.countUe_effect m g; rw [h]
@[simp] theorem State.countUe_snap (m : Sram) (g : Nat) : (s.countUe m g).snap = s.snap := by
  obtain ⟨_, h⟩ := s.countUe_effect m g; rw [h]
@[simp] theorem State.countUe_pwr (m : Sram) (g : Nat) : (s.countUe m g).pwr = s.pwr := by
  obtain ⟨_, h⟩ := s.countUe_effect m g; rw [h]
@[simp] theorem State.countUe_kstn (m : Sram) (g : Nat) : (s.countUe m g).kstn = s.kstn := by
  obtain ⟨_, h⟩ := s.countUe_effect m g; rw [h]
@[simp] theorem State.countUe_scan (m : Sram) (g : Nat) : (s.countUe m g).scan = s.scan := by
  obtain ⟨_, h⟩ := s.countUe_effect m g; rw [h]
@[simp] theorem State.countUe_test (m : Sram) (g : Nat) : (s.countUe m g).test = s.test := by
  obtain ⟨_, h⟩ := s.countUe_effect m g; rw [h]
@[simp] theorem State.countUe_free (m : Sram) (g : Nat) : (s.countUe m g).free = s.free := by
  obtain ⟨_, h⟩ := s.countUe_effect m g; rw [h]

theorem State.bumpFld_effect (a : Nat) (f : Fld) (n : Nat) : ∃ (c : Memory), s.bumpFld a f n = { s with ctx := c } := by
  unfold State.bumpFld; split
  · exact ⟨_, rfl⟩
  · exact ⟨_, rfl⟩
@[simp] theorem State.bumpFld_pending (a : Nat) (f : Fld) (n : Nat) : (s.bumpFld a f n).pending = s.pending := by
  obtain ⟨_, h⟩ := s.bumpFld_effect a f n; rw [h]
@[simp] theorem State.bumpFld_regs (a : Nat) (f : Fld) (n : Nat) : (s.bumpFld a f n).regs = s.regs := by
  obtain ⟨_, h⟩ := s.bumpFld_effect a f n; rw [h]
@[simp] theorem State.bumpFld_latch (a : Nat) (f : Fld) (n : Nat) : (s.bumpFld a f n).latch = s.latch := by
  obtain ⟨_, h⟩ := s.bumpFld_effect a f n; rw [h]
@[simp] theorem State.bumpFld_locks (a : Nat) (f : Fld) (n : Nat) : (s.bumpFld a f n).locks = s.locks := by
  obtain ⟨_, h⟩ := s.bumpFld_effect a f n; rw [h]
@[simp] theorem State.bumpFld_ctxPoison (a : Nat) (f : Fld) (n : Nat) : (s.bumpFld a f n).ctxPoison = s.ctxPoison := by
  obtain ⟨_, h⟩ := s.bumpFld_effect a f n; rw [h]
@[simp] theorem State.bumpFld_resPoison (a : Nat) (f : Fld) (n : Nat) : (s.bumpFld a f n).resPoison = s.resPoison := by
  obtain ⟨_, h⟩ := s.bumpFld_effect a f n; rw [h]
@[simp] theorem State.bumpFld_clearRun (a : Nat) (f : Fld) (n : Nat) : (s.bumpFld a f n).clearRun = s.clearRun := by
  obtain ⟨_, h⟩ := s.bumpFld_effect a f n; rw [h]
@[simp] theorem State.bumpFld_upsets (a : Nat) (f : Fld) (n : Nat) : (s.bumpFld a f n).upsets = s.upsets := by
  obtain ⟨_, h⟩ := s.bumpFld_effect a f n; rw [h]
@[simp] theorem State.bumpFld_mem (a : Nat) (f : Fld) (n : Nat) : (s.bumpFld a f n).mem = s.mem := by
  obtain ⟨_, h⟩ := s.bumpFld_effect a f n; rw [h]
@[simp] theorem State.bumpFld_memPoison (a : Nat) (f : Fld) (n : Nat) : (s.bumpFld a f n).memPoison = s.memPoison := by
  obtain ⟨_, h⟩ := s.bumpFld_effect a f n; rw [h]
@[simp] theorem State.bumpFld_cb (a : Nat) (f : Fld) (n : Nat) : (s.bumpFld a f n).cb = s.cb := by
  obtain ⟨_, h⟩ := s.bumpFld_effect a f n; rw [h]
@[simp] theorem State.bumpFld_touched (a : Nat) (f : Fld) (n : Nat) : (s.bumpFld a f n).touched = s.touched := by
  obtain ⟨_, h⟩ := s.bumpFld_effect a f n; rw [h]
@[simp] theorem State.bumpFld_piers (a : Nat) (f : Fld) (n : Nat) : (s.bumpFld a f n).piers = s.piers := by
  obtain ⟨_, h⟩ := s.bumpFld_effect a f n; rw [h]
@[simp] theorem State.bumpFld_joints (a : Nat) (f : Fld) (n : Nat) : (s.bumpFld a f n).joints = s.joints := by
  obtain ⟨_, h⟩ := s.bumpFld_effect a f n; rw [h]
@[simp] theorem State.bumpFld_irqOut (a : Nat) (f : Fld) (n : Nat) : (s.bumpFld a f n).irqOut = s.irqOut := by
  obtain ⟨_, h⟩ := s.bumpFld_effect a f n; rw [h]
@[simp] theorem State.bumpFld_lastRead (a : Nat) (f : Fld) (n : Nat) : (s.bumpFld a f n).lastRead = s.lastRead := by
  obtain ⟨_, h⟩ := s.bumpFld_effect a f n; rw [h]
@[simp] theorem State.bumpFld_q (a : Nat) (f : Fld) (n : Nat) : (s.bumpFld a f n).q = s.q := by
  obtain ⟨_, h⟩ := s.bumpFld_effect a f n; rw [h]
@[simp] theorem State.bumpFld_x (a : Nat) (f : Fld) (n : Nat) : (s.bumpFld a f n).x = s.x := by
  obtain ⟨_, h⟩ := s.bumpFld_effect a f n; rw [h]
@[simp] theorem State.bumpFld_deck (a : Nat) (f : Fld) (n : Nat) : (s.bumpFld a f n).deck = s.deck := by
  obtain ⟨_, h⟩ := s.bumpFld_effect a f n; rw [h]
@[simp] theorem State.bumpFld_clock (a : Nat) (f : Fld) (n : Nat) : (s.bumpFld a f n).clock = s.clock := by
  obtain ⟨_, h⟩ := s.bumpFld_effect a f n; rw [h]
@[simp] theorem State.bumpFld_snap (a : Nat) (f : Fld) (n : Nat) : (s.bumpFld a f n).snap = s.snap := by
  obtain ⟨_, h⟩ := s.bumpFld_effect a f n; rw [h]
@[simp] theorem State.bumpFld_pwr (a : Nat) (f : Fld) (n : Nat) : (s.bumpFld a f n).pwr = s.pwr := by
  obtain ⟨_, h⟩ := s.bumpFld_effect a f n; rw [h]
@[simp] theorem State.bumpFld_kstn (a : Nat) (f : Fld) (n : Nat) : (s.bumpFld a f n).kstn = s.kstn := by
  obtain ⟨_, h⟩ := s.bumpFld_effect a f n; rw [h]
@[simp] theorem State.bumpFld_scan (a : Nat) (f : Fld) (n : Nat) : (s.bumpFld a f n).scan = s.scan := by
  obtain ⟨_, h⟩ := s.bumpFld_effect a f n; rw [h]
@[simp] theorem State.bumpFld_test (a : Nat) (f : Fld) (n : Nat) : (s.bumpFld a f n).test = s.test := by
  obtain ⟨_, h⟩ := s.bumpFld_effect a f n; rw [h]
@[simp] theorem State.bumpFld_free (a : Nat) (f : Fld) (n : Nat) : (s.bumpFld a f n).free = s.free := by
  obtain ⟨_, h⟩ := s.bumpFld_effect a f n; rw [h]

theorem State.sendVec_effect (v : Nat) : ∃ (r : List (Nat × Word)) (i : List (BitVec 6)), s.sendVec v = { s with regs := r, irqOut := i } := by
  unfold State.sendVec; dsimp only; split
  · exact ⟨_, _, rfl⟩
  · exact ⟨_, _, rfl⟩
@[simp] theorem State.sendVec_pending (v : Nat) : (s.sendVec v).pending = s.pending := by
  obtain ⟨_, _, h⟩ := s.sendVec_effect v; rw [h]
@[simp] theorem State.sendVec_latch (v : Nat) : (s.sendVec v).latch = s.latch := by
  obtain ⟨_, _, h⟩ := s.sendVec_effect v; rw [h]
@[simp] theorem State.sendVec_locks (v : Nat) : (s.sendVec v).locks = s.locks := by
  obtain ⟨_, _, h⟩ := s.sendVec_effect v; rw [h]
@[simp] theorem State.sendVec_ctx (v : Nat) : (s.sendVec v).ctx = s.ctx := by
  obtain ⟨_, _, h⟩ := s.sendVec_effect v; rw [h]
@[simp] theorem State.sendVec_ctxPoison (v : Nat) : (s.sendVec v).ctxPoison = s.ctxPoison := by
  obtain ⟨_, _, h⟩ := s.sendVec_effect v; rw [h]
@[simp] theorem State.sendVec_resPoison (v : Nat) : (s.sendVec v).resPoison = s.resPoison := by
  obtain ⟨_, _, h⟩ := s.sendVec_effect v; rw [h]
@[simp] theorem State.sendVec_clearRun (v : Nat) : (s.sendVec v).clearRun = s.clearRun := by
  obtain ⟨_, _, h⟩ := s.sendVec_effect v; rw [h]
@[simp] theorem State.sendVec_upsets (v : Nat) : (s.sendVec v).upsets = s.upsets := by
  obtain ⟨_, _, h⟩ := s.sendVec_effect v; rw [h]
@[simp] theorem State.sendVec_mem (v : Nat) : (s.sendVec v).mem = s.mem := by
  obtain ⟨_, _, h⟩ := s.sendVec_effect v; rw [h]
@[simp] theorem State.sendVec_memPoison (v : Nat) : (s.sendVec v).memPoison = s.memPoison := by
  obtain ⟨_, _, h⟩ := s.sendVec_effect v; rw [h]
@[simp] theorem State.sendVec_cb (v : Nat) : (s.sendVec v).cb = s.cb := by
  obtain ⟨_, _, h⟩ := s.sendVec_effect v; rw [h]
@[simp] theorem State.sendVec_touched (v : Nat) : (s.sendVec v).touched = s.touched := by
  obtain ⟨_, _, h⟩ := s.sendVec_effect v; rw [h]
@[simp] theorem State.sendVec_piers (v : Nat) : (s.sendVec v).piers = s.piers := by
  obtain ⟨_, _, h⟩ := s.sendVec_effect v; rw [h]
@[simp] theorem State.sendVec_joints (v : Nat) : (s.sendVec v).joints = s.joints := by
  obtain ⟨_, _, h⟩ := s.sendVec_effect v; rw [h]
@[simp] theorem State.sendVec_lastRead (v : Nat) : (s.sendVec v).lastRead = s.lastRead := by
  obtain ⟨_, _, h⟩ := s.sendVec_effect v; rw [h]
@[simp] theorem State.sendVec_q (v : Nat) : (s.sendVec v).q = s.q := by
  obtain ⟨_, _, h⟩ := s.sendVec_effect v; rw [h]
@[simp] theorem State.sendVec_x (v : Nat) : (s.sendVec v).x = s.x := by
  obtain ⟨_, _, h⟩ := s.sendVec_effect v; rw [h]
@[simp] theorem State.sendVec_deck (v : Nat) : (s.sendVec v).deck = s.deck := by
  obtain ⟨_, _, h⟩ := s.sendVec_effect v; rw [h]
@[simp] theorem State.sendVec_clock (v : Nat) : (s.sendVec v).clock = s.clock := by
  obtain ⟨_, _, h⟩ := s.sendVec_effect v; rw [h]
@[simp] theorem State.sendVec_snap (v : Nat) : (s.sendVec v).snap = s.snap := by
  obtain ⟨_, _, h⟩ := s.sendVec_effect v; rw [h]
@[simp] theorem State.sendVec_pwr (v : Nat) : (s.sendVec v).pwr = s.pwr := by
  obtain ⟨_, _, h⟩ := s.sendVec_effect v; rw [h]
@[simp] theorem State.sendVec_kstn (v : Nat) : (s.sendVec v).kstn = s.kstn := by
  obtain ⟨_, _, h⟩ := s.sendVec_effect v; rw [h]
@[simp] theorem State.sendVec_scan (v : Nat) : (s.sendVec v).scan = s.scan := by
  obtain ⟨_, _, h⟩ := s.sendVec_effect v; rw [h]
@[simp] theorem State.sendVec_test (v : Nat) : (s.sendVec v).test = s.test := by
  obtain ⟨_, _, h⟩ := s.sendVec_effect v; rw [h]
@[simp] theorem State.sendVec_free (v : Nat) : (s.sendVec v).free = s.free := by
  obtain ⟨_, _, h⟩ := s.sendVec_effect v; rw [h]

theorem State.pageMsg_effect (page : Nat) : ∃ (r : List (Nat × Word)) (i : List (BitVec 6)), s.pageMsg page = { s with regs := r, irqOut := i } := by
  unfold State.pageMsg; dsimp only; split
  · exact s.sendVec_effect _
  · exact ⟨_, _, rfl⟩
@[simp] theorem State.pageMsg_pending (page : Nat) : (s.pageMsg page).pending = s.pending := by
  obtain ⟨_, _, h⟩ := s.pageMsg_effect page; rw [h]
@[simp] theorem State.pageMsg_latch (page : Nat) : (s.pageMsg page).latch = s.latch := by
  obtain ⟨_, _, h⟩ := s.pageMsg_effect page; rw [h]
@[simp] theorem State.pageMsg_locks (page : Nat) : (s.pageMsg page).locks = s.locks := by
  obtain ⟨_, _, h⟩ := s.pageMsg_effect page; rw [h]
@[simp] theorem State.pageMsg_ctx (page : Nat) : (s.pageMsg page).ctx = s.ctx := by
  obtain ⟨_, _, h⟩ := s.pageMsg_effect page; rw [h]
@[simp] theorem State.pageMsg_ctxPoison (page : Nat) : (s.pageMsg page).ctxPoison = s.ctxPoison := by
  obtain ⟨_, _, h⟩ := s.pageMsg_effect page; rw [h]
@[simp] theorem State.pageMsg_resPoison (page : Nat) : (s.pageMsg page).resPoison = s.resPoison := by
  obtain ⟨_, _, h⟩ := s.pageMsg_effect page; rw [h]
@[simp] theorem State.pageMsg_clearRun (page : Nat) : (s.pageMsg page).clearRun = s.clearRun := by
  obtain ⟨_, _, h⟩ := s.pageMsg_effect page; rw [h]
@[simp] theorem State.pageMsg_upsets (page : Nat) : (s.pageMsg page).upsets = s.upsets := by
  obtain ⟨_, _, h⟩ := s.pageMsg_effect page; rw [h]
@[simp] theorem State.pageMsg_mem (page : Nat) : (s.pageMsg page).mem = s.mem := by
  obtain ⟨_, _, h⟩ := s.pageMsg_effect page; rw [h]
@[simp] theorem State.pageMsg_memPoison (page : Nat) : (s.pageMsg page).memPoison = s.memPoison := by
  obtain ⟨_, _, h⟩ := s.pageMsg_effect page; rw [h]
@[simp] theorem State.pageMsg_cb (page : Nat) : (s.pageMsg page).cb = s.cb := by
  obtain ⟨_, _, h⟩ := s.pageMsg_effect page; rw [h]
@[simp] theorem State.pageMsg_touched (page : Nat) : (s.pageMsg page).touched = s.touched := by
  obtain ⟨_, _, h⟩ := s.pageMsg_effect page; rw [h]
@[simp] theorem State.pageMsg_piers (page : Nat) : (s.pageMsg page).piers = s.piers := by
  obtain ⟨_, _, h⟩ := s.pageMsg_effect page; rw [h]
@[simp] theorem State.pageMsg_joints (page : Nat) : (s.pageMsg page).joints = s.joints := by
  obtain ⟨_, _, h⟩ := s.pageMsg_effect page; rw [h]
@[simp] theorem State.pageMsg_lastRead (page : Nat) : (s.pageMsg page).lastRead = s.lastRead := by
  obtain ⟨_, _, h⟩ := s.pageMsg_effect page; rw [h]
@[simp] theorem State.pageMsg_q (page : Nat) : (s.pageMsg page).q = s.q := by
  obtain ⟨_, _, h⟩ := s.pageMsg_effect page; rw [h]
@[simp] theorem State.pageMsg_x (page : Nat) : (s.pageMsg page).x = s.x := by
  obtain ⟨_, _, h⟩ := s.pageMsg_effect page; rw [h]
@[simp] theorem State.pageMsg_deck (page : Nat) : (s.pageMsg page).deck = s.deck := by
  obtain ⟨_, _, h⟩ := s.pageMsg_effect page; rw [h]
@[simp] theorem State.pageMsg_clock (page : Nat) : (s.pageMsg page).clock = s.clock := by
  obtain ⟨_, _, h⟩ := s.pageMsg_effect page; rw [h]
@[simp] theorem State.pageMsg_snap (page : Nat) : (s.pageMsg page).snap = s.snap := by
  obtain ⟨_, _, h⟩ := s.pageMsg_effect page; rw [h]
@[simp] theorem State.pageMsg_pwr (page : Nat) : (s.pageMsg page).pwr = s.pwr := by
  obtain ⟨_, _, h⟩ := s.pageMsg_effect page; rw [h]
@[simp] theorem State.pageMsg_kstn (page : Nat) : (s.pageMsg page).kstn = s.kstn := by
  obtain ⟨_, _, h⟩ := s.pageMsg_effect page; rw [h]
@[simp] theorem State.pageMsg_scan (page : Nat) : (s.pageMsg page).scan = s.scan := by
  obtain ⟨_, _, h⟩ := s.pageMsg_effect page; rw [h]
@[simp] theorem State.pageMsg_test (page : Nat) : (s.pageMsg page).test = s.test := by
  obtain ⟨_, _, h⟩ := s.pageMsg_effect page; rw [h]
@[simp] theorem State.pageMsg_free (page : Nat) : (s.pageMsg page).free = s.free := by
  obtain ⟨_, _, h⟩ := s.pageMsg_effect page; rw [h]

theorem State.raiseIrq_effect (page mask : Nat) : ∃ (r : List (Nat × Word)) (i : List (BitVec 6)), s.raiseIrq page mask = { s with regs := r, irqOut := i } := by
  unfold State.raiseIrq; dsimp only; split
  · obtain ⟨r, o, h⟩ := (s.setReg (R.hdrIrqStat page) (s.reg (R.hdrIrqStat page) ||| mask)).pageMsg_effect page
    exact ⟨r, o, by rw [h]; rfl⟩
  · exact ⟨_, _, rfl⟩
@[simp] theorem State.raiseIrq_pending (page mask : Nat) : (s.raiseIrq page mask).pending = s.pending := by
  obtain ⟨_, _, h⟩ := s.raiseIrq_effect page mask; rw [h]
@[simp] theorem State.raiseIrq_latch (page mask : Nat) : (s.raiseIrq page mask).latch = s.latch := by
  obtain ⟨_, _, h⟩ := s.raiseIrq_effect page mask; rw [h]
@[simp] theorem State.raiseIrq_locks (page mask : Nat) : (s.raiseIrq page mask).locks = s.locks := by
  obtain ⟨_, _, h⟩ := s.raiseIrq_effect page mask; rw [h]
@[simp] theorem State.raiseIrq_ctx (page mask : Nat) : (s.raiseIrq page mask).ctx = s.ctx := by
  obtain ⟨_, _, h⟩ := s.raiseIrq_effect page mask; rw [h]
@[simp] theorem State.raiseIrq_ctxPoison (page mask : Nat) : (s.raiseIrq page mask).ctxPoison = s.ctxPoison := by
  obtain ⟨_, _, h⟩ := s.raiseIrq_effect page mask; rw [h]
@[simp] theorem State.raiseIrq_resPoison (page mask : Nat) : (s.raiseIrq page mask).resPoison = s.resPoison := by
  obtain ⟨_, _, h⟩ := s.raiseIrq_effect page mask; rw [h]
@[simp] theorem State.raiseIrq_clearRun (page mask : Nat) : (s.raiseIrq page mask).clearRun = s.clearRun := by
  obtain ⟨_, _, h⟩ := s.raiseIrq_effect page mask; rw [h]
@[simp] theorem State.raiseIrq_upsets (page mask : Nat) : (s.raiseIrq page mask).upsets = s.upsets := by
  obtain ⟨_, _, h⟩ := s.raiseIrq_effect page mask; rw [h]
@[simp] theorem State.raiseIrq_mem (page mask : Nat) : (s.raiseIrq page mask).mem = s.mem := by
  obtain ⟨_, _, h⟩ := s.raiseIrq_effect page mask; rw [h]
@[simp] theorem State.raiseIrq_memPoison (page mask : Nat) : (s.raiseIrq page mask).memPoison = s.memPoison := by
  obtain ⟨_, _, h⟩ := s.raiseIrq_effect page mask; rw [h]
@[simp] theorem State.raiseIrq_cb (page mask : Nat) : (s.raiseIrq page mask).cb = s.cb := by
  obtain ⟨_, _, h⟩ := s.raiseIrq_effect page mask; rw [h]
@[simp] theorem State.raiseIrq_touched (page mask : Nat) : (s.raiseIrq page mask).touched = s.touched := by
  obtain ⟨_, _, h⟩ := s.raiseIrq_effect page mask; rw [h]
@[simp] theorem State.raiseIrq_piers (page mask : Nat) : (s.raiseIrq page mask).piers = s.piers := by
  obtain ⟨_, _, h⟩ := s.raiseIrq_effect page mask; rw [h]
@[simp] theorem State.raiseIrq_joints (page mask : Nat) : (s.raiseIrq page mask).joints = s.joints := by
  obtain ⟨_, _, h⟩ := s.raiseIrq_effect page mask; rw [h]
@[simp] theorem State.raiseIrq_lastRead (page mask : Nat) : (s.raiseIrq page mask).lastRead = s.lastRead := by
  obtain ⟨_, _, h⟩ := s.raiseIrq_effect page mask; rw [h]
@[simp] theorem State.raiseIrq_q (page mask : Nat) : (s.raiseIrq page mask).q = s.q := by
  obtain ⟨_, _, h⟩ := s.raiseIrq_effect page mask; rw [h]
@[simp] theorem State.raiseIrq_x (page mask : Nat) : (s.raiseIrq page mask).x = s.x := by
  obtain ⟨_, _, h⟩ := s.raiseIrq_effect page mask; rw [h]
@[simp] theorem State.raiseIrq_deck (page mask : Nat) : (s.raiseIrq page mask).deck = s.deck := by
  obtain ⟨_, _, h⟩ := s.raiseIrq_effect page mask; rw [h]
@[simp] theorem State.raiseIrq_clock (page mask : Nat) : (s.raiseIrq page mask).clock = s.clock := by
  obtain ⟨_, _, h⟩ := s.raiseIrq_effect page mask; rw [h]
@[simp] theorem State.raiseIrq_snap (page mask : Nat) : (s.raiseIrq page mask).snap = s.snap := by
  obtain ⟨_, _, h⟩ := s.raiseIrq_effect page mask; rw [h]
@[simp] theorem State.raiseIrq_pwr (page mask : Nat) : (s.raiseIrq page mask).pwr = s.pwr := by
  obtain ⟨_, _, h⟩ := s.raiseIrq_effect page mask; rw [h]
@[simp] theorem State.raiseIrq_kstn (page mask : Nat) : (s.raiseIrq page mask).kstn = s.kstn := by
  obtain ⟨_, _, h⟩ := s.raiseIrq_effect page mask; rw [h]
@[simp] theorem State.raiseIrq_scan (page mask : Nat) : (s.raiseIrq page mask).scan = s.scan := by
  obtain ⟨_, _, h⟩ := s.raiseIrq_effect page mask; rw [h]
@[simp] theorem State.raiseIrq_test (page mask : Nat) : (s.raiseIrq page mask).test = s.test := by
  obtain ⟨_, _, h⟩ := s.raiseIrq_effect page mask; rw [h]
@[simp] theorem State.raiseIrq_free (page mask : Nat) : (s.raiseIrq page mask).free = s.free := by
  obtain ⟨_, _, h⟩ := s.raiseIrq_effect page mask; rw [h]

end Sys2Proof.Machine
end

