-- ==== Sys2Proof/Laws/Exec.lean ====
section
/-! SUPPORT. What exec does with each command: the one meaning that answers for it. -/

namespace Sys2Proof.Machine

variable (s : State)

theorem exec_nop (d : Desc) : exec (.nop d) s = execNop d s := rfl
theorem exec_compress (d : Desc) : exec (.compress d) s = execCompress d s := rfl
theorem exec_stats (d : Desc) : exec (.stats d) s = execStats d s := rfl
theorem exec_select (d : Desc) : exec (.select d) s = execSelect d s := rfl
theorem exec_merge (d : Desc) : exec (.merge d) s = execMerge d s := rfl
theorem exec_expand (d : Desc) : exec (.expand d) s = execExpand d s := rfl
theorem exec_actSave (d : Desc) : exec (.actSave d) s = execActSave d s := rfl
theorem exec_actLoad (d : Desc) : exec (.actLoad d) s = execActLoad d s := rfl
theorem exec_write (d : Desc) : exec (.write d) s = execWrite d s := rfl
theorem exec_read (d : Desc) : exec (.read d) s = execRead d s := rfl
theorem exec_send (d : Desc) : exec (.send d) s = execSend d s := rfl
theorem exec_accum (d : Desc) : exec (.accum d) s = execAccum d s := rfl
theorem exec_accumSparse (d : Desc) : exec (.accumSparse d) s = execAccumSparse d s := rfl
theorem exec_instanceOpen (group : BitVec 12) (channel : BitVec 16) (seq : Word) :
    exec (.instanceOpen group channel seq) s = execInstanceOpen group channel seq s := rfl
theorem exec_flush (d : Desc) : exec (.flush d) s = execFlush d s := rfl
theorem exec_atomicMax (d : Desc) : exec (.atomicMax d) s = execAtomicMax d s := rfl
theorem exec_rescale (d : Desc) : exec (.rescale d) s = execRescale d s := rfl
theorem exec_dot (d : Desc) : exec (.dot d) s = execDot d s := rfl
theorem exec_update (d : Desc) : exec (.update d) s = execUpdate d s := rfl
theorem exec_residualReturn (d : Desc) : exec (.residualReturn d) s = execResidualReturn d s := rfl
theorem exec_snapshot (d : Desc) : exec (.snapshot d) s = execSnapshot d s := rfl
theorem exec_restore (d : Desc) : exec (.restore d) s = execRestore d s := rfl
theorem exec_logAppend (d : Desc) : exec (.logAppend d) s = execLogAppend d s := rfl
theorem exec_snapshotExport (d : Desc) : exec (.snapshotExport d) s = execSnapshotExport d s := rfl
theorem exec_barrier (d : Desc) : exec (.barrier d) s = execBarrier d s := rfl
theorem exec_tableInstall (d : Desc) : exec (.tableInstall d) s = execTableInstall d s := rfl
theorem exec_fence (d : Desc) : exec (.fence d) s = execFence d s := rfl
theorem exec_counterAdd (d : Desc) : exec (.counterAdd d) s = execCounterAdd d s := rfl
theorem exec_relay (d : Desc) : exec (.relay d) s = execRelay d s := rfl
theorem exec_descriptorRead (ring : BitVec 12) : exec (.descriptorRead ring) s = execDescriptorRead ring s := rfl
theorem exec_qmgrRingDb (v : Word) : exec (.qmgrRingDb v) s = execQmgrRingDb v s := rfl
theorem exec_qmgrCqDb (v : Word) : exec (.qmgrCqDb v) s = execQmgrCqDb v s := rfl
theorem exec_qmgrSpanShare (v : Word) : exec (.qmgrSpanShare v) s = execQmgrSpanShare v s := rfl
theorem exec_qmgrPpCancel (v : Word) : exec (.qmgrPpCancel v) s = execQmgrPpCancel v s := rfl
theorem exec_retainedRoom : exec .retainedRoom s = execRetainedRoom s := rfl
theorem exec_stagingRoom (conn : BitVec 15) : exec (.stagingRoom conn) s = execStagingRoom conn s := rfl
theorem exec_writePacket (p : Packet) : exec (.writePacket p) s = execWritePacket p s := rfl
theorem exec_readReq (p : Packet) : exec (.readReq p) s = execReadReq p s := rfl
theorem exec_readResp (p : Packet) : exec (.readResp p) s = execReadResp p s := rfl
theorem exec_sendPacket (p : Packet) : exec (.sendPacket p) s = execSendPacket p s := rfl
theorem exec_contrib (p : Packet) : exec (.contrib p) s = execContrib p s := rfl
theorem exec_atomicMaxReq (p : Packet) : exec (.atomicMaxReq p) s = execAtomicMaxReq p s := rfl
theorem exec_counterAddReq (p : Packet) : exec (.counterAddReq p) s = execCounterAddReq p s := rfl
theorem exec_flushReq (p : Packet) : exec (.flushReq p) s = execFlushReq p s := rfl
theorem exec_ctrl (p : Packet) : exec (.ctrl p) s = execCtrl p s := rfl
theorem exec_resp (p : Packet) : exec (.resp p) s = execResp p s := rfl
theorem exec_ack (p : Packet) : exec (.ack p) s = execAck p s := rfl
theorem exec_nak (p : Packet) : exec (.nak p) s = execNak p s := rfl
theorem exec_hello (p : Packet) : exec (.hello p) s = execHello p s := rfl
theorem exec_receipt (p : Packet) : exec (.receipt p) s = execReceipt p s := rfl
theorem exec_late (p : Packet) : exec (.late p) s = execLate p s := rfl
theorem exec_rejectSpan (p : Packet) : exec (.rejectSpan p) s = execRejectSpan p s := rfl
theorem exec_rejectBlock (p : Packet) : exec (.rejectBlock p) s = execRejectBlock p s := rfl
theorem exec_skip (p : Packet) : exec (.skip p) s = execSkip p s := rfl
theorem exec_tableAck (p : Packet) : exec (.tableAck p) s = execTableAck p s := rfl
theorem exec_tableEpoch (p : Packet) : exec (.tableEpoch p) s = execTableEpoch p s := rfl
theorem exec_retxTimer (conn : BitVec 15) (control : Bool) :
    exec (.retxTimer conn control) s = execRetxTimer conn control s := rfl
theorem exec_reorderTimer (conn : BitVec 15) (control : Bool) :
    exec (.reorderTimer conn control) s = execReorderTimer conn control s := rfl
theorem exec_ackDelay (conn : BitVec 15) (control : Bool) :
    exec (.ackDelay conn control) s = execAckDelay conn control s := rfl
theorem exec_rnrTimer (conn : BitVec 15) (control : Bool) :
    exec (.rnrTimer conn control) s = execRnrTimer conn control s := rfl
theorem exec_helloPeriod (conn : BitVec 15) : exec (.helloPeriod conn) s = execHelloPeriod conn s := rfl
theorem exec_tollPeriod : exec .tollPeriod s = execTollPeriod s := rfl
theorem exec_rekeyDue (conn : BitVec 15) : exec (.rekeyDue conn) s = execRekeyDue conn s := rfl
theorem exec_connEnable (conn : BitVec 15) (v : Word) :
    exec (.connEnable conn v) s = execConnEnable conn v s := rfl
theorem exec_connDisable (conn : BitVec 15) (v : Word) :
    exec (.connDisable conn v) s = execConnDisable conn v s := rfl
theorem exec_regionRegister (region : BitVec 16) (v : Word) :
    exec (.regionRegister region v) s = execRegionRegister region v s := rfl
theorem exec_rmaRevoke (v : Word) : exec (.rmaRevoke v) s = execRmaRevoke v s := rfl
theorem exec_revokeDone (region : BitVec 16) : exec (.revokeDone region) s = execRevokeDone region s := rfl
theorem exec_rmaSrqDb (v : Word) : exec (.rmaSrqDb v) s = execRmaSrqDb v s := rfl
theorem exec_secKeyCommit (v : Word) : exec (.secKeyCommit v) s = execSecKeyCommit v s := rfl
theorem exec_secKeyErase (v : Word) : exec (.secKeyErase v) s = execSecKeyErase v s := rfl
theorem exec_txSwitch (v : Word) : exec (.txSwitch v) s = execTxSwitch v s := rfl
theorem exec_frameReceive (h : BitVec 6) (frame : RxFrame) :
    exec (.frameReceive h frame) s = execFrameReceive h frame s := rfl
theorem exec_pause (h : BitVec 6) (xoff : Byte) : exec (.pause h xoff) s = execPause h xoff s := rfl
theorem exec_pauseRefresh (h : BitVec 6) : exec (.pauseRefresh h) s = execPauseRefresh h s := rfl
theorem exec_laneId (h : BitVec 6) (lane : BitVec 3) (id : Byte) (inverted : Bool) :
    exec (.laneId h lane id inverted) s = execLaneId h lane id inverted s := rfl
theorem exec_cap (h : BitVec 6) (w : CapWord) : exec (.cap h w) s = execCap h w s := rfl
theorem exec_ident (h : BitVec 6) (port : BitVec 5) (half : Bool) (node : BitVec 20) :
    exec (.ident h port half node) s = execIdent h port half node s := rfl
theorem exec_tsyncReq (h : BitVec 6) (seq : BitVec 16) (t1 t2 t3 : DWord) :
    exec (.tsyncReq h seq t1 t2 t3) s = execTsyncReq h seq t1 t2 t3 s := rfl
theorem exec_tsyncT2 (h : BitVec 6) (locked : Bool) (seq : BitVec 16) (t2 : DWord) :
    exec (.tsyncT2 h locked seq t2) s = execTsyncT2 h locked seq t2 s := rfl
theorem exec_tsyncT3 (h : BitVec 6) (seq : BitVec 16) (t3 t4 : DWord) :
    exec (.tsyncT3 h seq t3 t4) s = execTsyncT3 h seq t3 t4 s := rfl
theorem exec_timeIntervalExpiry (t1 : DWord) : exec (.timeIntervalExpiry t1) s = execTimeIntervalExpiry t1 s := rfl
theorem exec_holdover : exec .holdover s = execHoldover s := rfl
theorem exec_timeCtrlSet (v : Word) : exec (.timeCtrlSet v) s = execTimeCtrlSet v s := rfl
theorem exec_linkSignalLoss (h : BitVec 6) : exec (.linkSignalLoss h) s = execLinkSignalLoss h s := rfl
theorem exec_trainTimeout (h : BitVec 6) : exec (.trainTimeout h) s = execTrainTimeout h s := rfl
theorem exec_detectRetry (h : BitVec 6) (openLanes shortLanes : Byte) :
    exec (.detectRetry h openLanes shortLanes) s = execDetectRetry h openLanes shortLanes s := rfl
theorem exec_linkUp (h : BitVec 6) (failedLanes : Byte) :
    exec (.linkUp h failedLanes) s = execLinkUp h failedLanes s := rfl
theorem exec_laneDegraded (port : BitVec 5) (lane : BitVec 3) :
    exec (.laneDegraded port lane) s = execLaneDegraded port lane s := rfl
theorem exec_portRetrain (port : BitVec 5) (v : Word) :
    exec (.portRetrain port v) s = execPortRetrain port v s := rfl
theorem exec_portExpWrite (port : BitVec 5) (half : Bool) (v : Word) :
    exec (.portExpWrite port half v) s = execPortExpWrite port half v s := rfl
theorem exec_deckCtrlEn (v : Word) : exec (.deckCtrlEn v) s = execDeckCtrlEn v s := rfl
theorem exec_routeEntryWrite (dst : BitVec 16) (v : Word) :
    exec (.routeEntryWrite dst v) s = execRouteEntryWrite dst v s := rfl
theorem exec_heartbeat (src : BitVec 20) (hb : Heartbeat) :
    exec (.heartbeat src hb) s = execHeartbeat src hb s := rfl
theorem exec_heartbeatPeriod : exec .heartbeatPeriod s = execHeartbeatPeriod s := rfl
theorem exec_heartbeatMiss (entry : BitVec 6) : exec (.heartbeatMiss entry) s = execHeartbeatMiss entry s := rfl
theorem exec_graceExpiry (entry : BitVec 6) : exec (.graceExpiry entry) s = execGraceExpiry entry s := rfl
theorem exec_snapWatchWrite (entry : BitVec 6) (v : Word) :
    exec (.snapWatchWrite entry v) s = execSnapWatchWrite entry v s := rfl
theorem exec_declareNodeLost (node : BitVec 20) :
    exec (.declareNodeLost node) s = execDeclareNodeLost node s := rfl
theorem exec_firmware (src : BitVec 20) (lost : Option (BitVec 20)) :
    exec (.firmware src lost) s = execFirmware src lost s := rfl
theorem exec_discover (src : BitVec 20) (m : DiscoverMsg) : exec (.discover src m) s = execDiscover src m s := rfl
theorem exec_discoverRepeat (entry : Bool) : exec (.discoverRepeat entry) s = execDiscoverRepeat entry s := rfl
theorem exec_caissonArm (entry : Bool) (v : Word) : exec (.caissonArm entry v) s = execCaissonArm entry v s := rfl
theorem exec_caissonDisarm (entry : Bool) (v : Word) :
    exec (.caissonDisarm entry v) s = execCaissonDisarm entry v s := rfl
theorem exec_barArrive (src : BitVec 20) (group : BitVec 12) (channel : BitVec 16) (rank : BitVec 16) (seq : Word) :
    exec (.barArrive src group channel rank seq) s = execBarArrive src group channel rank seq s := rfl
theorem exec_barRelease (src : BitVec 20) (group : BitVec 12) (channel : BitVec 16) (seq : Word) (t : DWord) :
    exec (.barRelease src group channel seq t) s = execBarRelease src group channel seq t s := rfl
theorem exec_releaseTimeReached (group : BitVec 12) (channel : BitVec 16) (seq : Word) :
    exec (.releaseTimeReached group channel seq) s = execReleaseTimeReached group channel seq s := rfl
theorem exec_barResend (group : BitVec 12) (channel : BitVec 16) (seq : Word) :
    exec (.barResend group channel seq) s = execBarResend group channel seq s := rfl
theorem exec_barKeepExpiry (group : BitVec 12) (channel : BitVec 16) (seq : Word) :
    exec (.barKeepExpiry group channel seq) s = execBarKeepExpiry group channel seq s := rfl
theorem exec_deadline (group : BitVec 12) (channel : BitVec 16) (seq : Word) :
    exec (.deadline group channel seq) s = execDeadline group channel seq s := rfl
theorem exec_slotFreed (slot : BitVec 4) : exec (.slotFreed slot) s = execSlotFreed slot s := rfl
theorem exec_keystoneAnnounce : exec .keystoneAnnounce s = execKeystoneAnnounce s := rfl
theorem exec_ping (v : Word) : exec (.ping v) s = execPing v s := rfl
theorem exec_version (v : Word) : exec (.version v) s = execVersion v s := rfl
theorem exec_declareLost (v : Word) : exec (.declareLost v) s = execDeclareLost v s := rfl
theorem exec_routeClear (v : Word) : exec (.routeClear v) s = execRouteClear v s := rfl
theorem exec_timeReparent (v : Word) : exec (.timeReparent v) s = execTimeReparent v s := rfl
theorem exec_rngCtrlCommit (v : Word) : exec (.rngCtrlCommit v) s = execRngCtrlCommit v s := rfl
theorem exec_rngTest (v : Word) : exec (.rngTest v) s = execRngTest v s := rfl
theorem exec_statSel (v : Word) : exec (.statSel v) s = execStatSel v s := rfl
theorem exec_statClearSlot (v : Word) : exec (.statClearSlot v) s = execStatClearSlot v s := rfl
theorem exec_statClearAll (v : Word) : exec (.statClearAll v) s = execStatClearAll v s := rfl
theorem exec_pierSelClear (pier : BitVec 5) (v : Word) :
    exec (.pierSelClear pier v) s = execPierSelClear pier v s := rfl
theorem exec_pierCmpClear (pier : BitVec 5) (v : Word) :
    exec (.pierCmpClear pier v) s = execPierCmpClear pier v s := rfl
theorem exec_pierTblClear (pier : BitVec 5) (v : Word) :
    exec (.pierTblClear pier v) s = execPierTblClear pier v s := rfl
theorem exec_tblLogClear (v : Word) : exec (.tblLogClear v) s = execTblLogClear v s := rfl
theorem exec_qmgrClear (v : Word) : exec (.qmgrClear v) s = execQmgrClear v s := rfl
theorem exec_abutCbFlush (abut : BitVec 3) (v : Word) :
    exec (.abutCbFlush abut v) s = execAbutCbFlush abut v s := rfl
theorem exec_abutClear (abut : BitVec 3) (v : Word) : exec (.abutClear abut v) s = execAbutClear abut v s := rfl
theorem exec_rmaClear (v : Word) : exec (.rmaClear v) s = execRmaClear v s := rfl
theorem exec_rmaLogClear (v : Word) : exec (.rmaLogClear v) s = execRmaLogClear v s := rfl
theorem exec_portClear (port : BitVec 5) (v : Word) : exec (.portClear port v) s = execPortClear port v s := rfl
theorem exec_portTclear (port : BitVec 5) (v : Word) : exec (.portTclear port v) s = execPortTclear port v s := rfl
theorem exec_deckClear (v : Word) : exec (.deckClear v) s = execDeckClear v s := rfl
theorem exec_timeClear (v : Word) : exec (.timeClear v) s = execTimeClear v s := rfl
theorem exec_snapClear (v : Word) : exec (.snapClear v) s = execSnapClear v s := rfl
theorem exec_pwrClear (v : Word) : exec (.pwrClear v) s = execPwrClear v s := rfl
theorem exec_pwrLogClear (v : Word) : exec (.pwrLogClear v) s = execPwrLogClear v s := rfl
theorem exec_testClear (v : Word) : exec (.testClear v) s = execTestClear v s := rfl
theorem exec_tripClear (v : Word) : exec (.tripClear v) s = execTripClear v s := rfl
theorem exec_warmReset (v : Word) : exec (.warmReset v) s = execWarmReset v s := rfl
theorem exec_kstnReset (v : Word) : exec (.kstnReset v) s = execKstnReset v s := rfl
theorem exec_pwrIslOpp (v : Word) : exec (.pwrIslOpp v) s = execPwrIslOpp v s := rfl
theorem exec_dvfsDone (island : BitVec 7) : exec (.dvfsDone island) s = execDvfsDone island s := rfl
theorem exec_bootLoad (v : Word) : exec (.bootLoad v) s = execBootLoad v s := rfl
theorem exec_bootLoadData (v : Word) : exec (.bootLoadData v) s = execBootLoadData v s := rfl
theorem exec_bootGo (v : Word) : exec (.bootGo v) s = execBootGo v s := rfl
theorem exec_bootSelftestDone (r : SelfTestReport) : exec (.bootSelftestDone r) s = execBootSelftestDone r s := rfl
theorem exec_islandStart : exec .islandStart s = execIslandStart s := rfl
theorem exec_sramSelfTest (v : Word) : exec (.sramSelfTest v) s = execSramSelfTest v s := rfl
theorem exec_knownAnswerTest (v : Word) : exec (.knownAnswerTest v) s = execKnownAnswerTest v s := rfl
theorem exec_testAbort (v : Word) : exec (.testAbort v) s = execTestAbort v s := rfl
theorem exec_testDone (r : TestResult) : exec (.testDone r) s = execTestDone r s := rfl
theorem exec_laneTestConfig (port : BitVec 5) (lane : BitVec 3) (v : Word) :
    exec (.laneTestConfig port lane v) s = execLaneTestConfig port lane v s := rfl
theorem exec_inject (port : BitVec 5) (lane : BitVec 3) (v : Word) :
    exec (.inject port lane v) s = execInject port lane v s := rfl
theorem exec_prbsLock (port : BitVec 5) (lane : BitVec 3) :
    exec (.prbsLock port lane) s = execPrbsLock port lane s := rfl
theorem exec_prbsUnlock (port : BitVec 5) (lane : BitVec 3) (bits errs : DWord) :
    exec (.prbsUnlock port lane bits errs) s = execPrbsUnlock port lane bits errs s := rfl
theorem exec_eyeStart (port : BitVec 5) (lane : BitVec 3) (v : Word) :
    exec (.eyeStart port lane v) s = execEyeStart port lane v s := rfl
theorem exec_eyeDone (port : BitVec 5) (lane : BitVec 3) (height width : BitVec 16) :
    exec (.eyeDone port lane height width) s = execEyeDone port lane height width s := rfl
theorem exec_bypass : exec .bypass s = execBypass s := rfl
theorem exec_samplePreload (pins : List Bool) : exec (.samplePreload pins) s = execSamplePreload pins s := rfl
theorem exec_extest (drive pins : List Bool) : exec (.extest drive pins) s = execExtest drive pins s := rfl
theorem exec_extestPulse (drive pins : List Bool) :
    exec (.extestPulse drive pins) s = execExtestPulse drive pins s := rfl
theorem exec_extestTrain (drive pins : List Bool) :
    exec (.extestTrain drive pins) s = execExtestTrain drive pins s := rfl
theorem exec_lock (page : BitVec 12) (v : Word) : exec (.lock page v) s = execLock page v s := rfl
theorem exec_softReset (page : BitVec 12) (v : Word) : exec (.softReset page v) s = execSoftReset page v s := rfl
theorem exec_enable (page : BitVec 12) (v : Word) : exec (.enable page v) s = execEnable page v s := rfl
theorem exec_hold (page : BitVec 12) (v : Word) : exec (.hold page v) s = execHold page v s := rfl
theorem exec_irqStatClear (page : BitVec 12) (v : Word) :
    exec (.irqStatClear page v) s = execIrqStatClear page v s := rfl
theorem exec_irqEnWrite (page : BitVec 12) (v : Word) :
    exec (.irqEnWrite page v) s = execIrqEnWrite page v s := rfl
theorem exec_irqSet (page : BitVec 12) (v : Word) : exec (.irqSet page v) s = execIrqSet page v s := rfl
theorem exec_topVecMask (hi : Bool) (v : Word) : exec (.topVecMask hi v) s = execTopVecMask hi v s := rfl
theorem exec_errFirstClear (page : BitVec 12) (v : Word) :
    exec (.errFirstClear page v) s = execErrFirstClear page v s := rfl
theorem exec_errCntClear (page : BitVec 12) (uncorrected : Bool) (v : Word) :
    exec (.errCntClear page uncorrected v) s = execErrCntClear page uncorrected v s := rfl
theorem exec_loRead (r : ReadAccess) : exec (.loRead r) s = execLoRead r s := rfl
theorem exec_accessRefused (addr : BitVec 24) : exec (.accessRefused addr) s = execAccessRefused addr s := rfl
theorem exec_ringEnable (ring : BitVec 12) (v : Word) :
    exec (.ringEnable ring v) s = execRingEnable ring v s := rfl
theorem exec_ringDisable (ring : BitVec 12) (v : Word) :
    exec (.ringDisable ring v) s = execRingDisable ring v s := rfl
theorem exec_cqEnable (cq : BitVec 12) (v : Word) : exec (.cqEnable cq v) s = execCqEnable cq v s := rfl
theorem exec_counterValueWrite (ctr : BitVec 16) (v : Word) :
    exec (.counterValueWrite ctr v) s = execCounterValueWrite ctr v s := rfl
theorem exec_poisonedWindowRead (r : ReadAccess) :
    exec (.poisonedWindowRead r) s = execPoisonedWindowRead r s := rfl
theorem exec_windowWrite (addr : BitVec 24) (v : Word) :
    exec (.windowWrite addr v) s = execWindowWrite addr v s := rfl
theorem exec_registerWrite (addr : BitVec 24) (v : Word) :
    exec (.registerWrite addr v) s = execRegisterWrite addr v s := rfl
theorem exec_coldReset : exec .coldReset s = execColdReset s := rfl
theorem exec_supplyLoss (vdda : Bool) : exec (.supplyLoss vdda) s = execSupplyLoss vdda s := rfl
theorem exec_vdip (island : BitVec 7) (vddh : Bool) (mv : BitVec 16) :
    exec (.vdip island vddh mv) s = execVdip island vddh mv s := rfl
theorem exec_vdipRecover (island : BitVec 7) (vddh : Bool) (mv : BitVec 16) :
    exec (.vdipRecover island vddh mv) s = execVdipRecover island vddh mv s := rfl
theorem exec_vreset (island : BitVec 7) (vddh : Bool) (mv : BitVec 16) :
    exec (.vreset island vddh mv) s = execVreset island vddh mv s := rfl
theorem exec_islandResetRelease (island : BitVec 7) :
    exec (.islandResetRelease island) s = execIslandResetRelease island s := rfl
theorem exec_vddaDip (g : BitVec 3) (mv : BitVec 16) : exec (.vddaDip g mv) s = execVddaDip g mv s := rfl
theorem exec_vddaReset (g : BitVec 3) (mv : BitVec 16) : exec (.vddaReset g mv) s = execVddaReset g mv s := rfl
theorem exec_vddaRecover (g : BitVec 3) : exec (.vddaRecover g) s = execVddaRecover g s := rfl
theorem exec_short (island : BitVec 7) : exec (.short island) s = execShort island s := rfl
theorem exec_throttle (sensor : BitVec 4) (temp : BitVec 16) :
    exec (.throttle sensor temp) s = execThrottle sensor temp s := rfl
theorem exec_throttleLift (sensor : BitVec 4) (temp : BitVec 16) :
    exec (.throttleLift sensor temp) s = execThrottleLift sensor temp s := rfl
theorem exec_trip (sensor : BitVec 4) (temp : BitVec 16) :
    exec (.trip sensor temp) s = execTrip sensor temp s := rfl
theorem exec_refclk : exec .refclk s = execRefclk s := rfl
theorem exec_refclkReturn : exec .refclkReturn s = execRefclkReturn s := rfl
theorem exec_portRefclkLoss (g : BitVec 3) : exec (.portRefclkLoss g) s = execPortRefclkLoss g s := rfl
theorem exec_portRefclkReturn (g : BitVec 3) : exec (.portRefclkReturn g) s = execPortRefclkReturn g s := rfl
theorem exec_wdog : exec .wdog s = execWdog s := rfl
theorem exec_wdogRestart : exec .wdogRestart s = execWdogRestart s := rfl
theorem exec_suppliesQualified : exec .suppliesQualified s = execSuppliesQualified s := rfl
theorem exec_dieToDieFabricUp : exec .dieToDieFabricUp s = execDieToDieFabricUp s := rfl
theorem exec_laneShort (port : BitVec 5) (lane : BitVec 3) :
    exec (.laneShort port lane) s = execLaneShort port lane s := rfl

end Sys2Proof.Machine
end

