-- ==== Sys2Proof/Laws/Regs.lean ====
section
/-! SUPPORT. What a register word reads after a register word has been stored, and what the counters built on it
give. -/

namespace Sys2Proof.Machine

theorem find_insertWord_same (a : Nat) (v : Word) (l : List (Nat × Word)) :
    (insertWord a v l).find? (fun p => p.1 == a) = some (a, v) ∨
    ∃ w, (l.find? fun p => p.1 == a) = some (a, w) := by
  induction l with
  | nil => left; simp [insertWord]
  | cons p t ih =>
    obtain ⟨k, w⟩ := p
    rw [insertWord]
    by_cases hk : k = a
    · subst hk; right; exact ⟨w, by simp⟩
    · split
      · left; simp
      · rcases ih with ih | ⟨x, hx⟩
        · left; simp [hk, ih]
        · right; exact ⟨x, by simp [hk, hx]⟩

theorem find_insertWord_other {a b : Nat} (v : Word) (l : List (Nat × Word)) (h : a ≠ b) :
    (insertWord a v l).find? (fun p => p.1 == b) = l.find? fun p => p.1 == b := by
  induction l with
  | nil => simp [insertWord, h]
  | cons p t ih =>
    obtain ⟨k, w⟩ := p
    rw [insertWord]
    split
    · simp [h]
    · by_cases hk : k = b
      · simp [hk]
      · simp [hk, ih]

theorem find_filter_other {a b : Nat} (l : List (Nat × Word)) (h : a ≠ b) :
    (l.filter fun p => p.1 != a).find? (fun p => p.1 == b) = l.find? fun p => p.1 == b := by
  induction l with
  | nil => rfl
  | cons p t ih =>
    by_cases hp : p.1 = a
    · have hb : p.1 ≠ b := fun e => h (hp.symm.trans e)
      simp [hp, ih, h]
    · simp only [List.filter_cons, bne_iff_ne, ne_eq, hp, not_false_eq_true, if_true, List.find?_cons, ih]

theorem find_filter_same (a : Nat) (l : List (Nat × Word)) :
    ((l.filter fun p => p.1 != a).find? fun p => p.1 == a) = none := by
  rw [List.find?_eq_none]
  intro p hp
  have := (List.mem_filter.mp hp).2
  simpa using this

/-- A register word reads as what was stored in it, in 32 bits. -/
theorem State.reg_setReg_same (s : State) (a v : Nat) : (s.setReg a v).reg a = v % 2 ^ 32 := by
  rw [State.reg, State.setReg_regs, putWord]
  by_cases hv : (BitVec.ofNat 32 v).toNat = regReset a
  · rw [if_pos hv, find_filter_same]
    simpa using hv.symm
  · rw [if_neg hv]
    rcases find_insertWord_same a (BitVec.ofNat 32 v) (s.regs.filter fun p => p.1 != a) with h | ⟨w, h⟩
    · rw [h]; simp
    · rw [find_filter_same] at h; cases h

/-- A store into one register word leaves every other one. -/
theorem State.reg_setReg_other (s : State) {a b : Nat} (v : Nat) (h : a ≠ b) : (s.setReg a v).reg b = s.reg b := by
  rw [State.reg, State.reg, State.setReg_regs, putWord]
  by_cases hv : (BitVec.ofNat 32 v).toNat = regReset a
  · rw [if_pos hv, find_filter_other _ h]
  · rw [if_neg hv, find_insertWord_other _ _ h, find_filter_other _ h]

theorem State.reg_setReg (s : State) (a v b : Nat) :
    (s.setReg a v).reg b = if b = a then v % 2 ^ 32 else s.reg b := by
  by_cases h : b = a
  · subst h; rw [if_pos rfl, State.reg_setReg_same]
  · rw [if_neg h, State.reg_setReg_other s v (fun e => h e.symm)]

/-- A counter raised by n holds the sum, or all ones once it would pass them. -/
theorem State.reg_bump_same (s : State) {a n : Nat} (h : n ≠ 0) :
    (s.bump a n).reg a = min (s.reg a + n) 0xFFFFFFFF := by
  rw [State.bump, if_neg h, State.reg_setReg_same]
  exact Nat.mod_eq_of_lt (Nat.lt_of_le_of_lt (Nat.min_le_right _ _) (by decide))

theorem State.reg_bump_other (s : State) {a b : Nat} (n : Nat) (h : a ≠ b) : (s.bump a n).reg b = s.reg b := by
  rw [State.bump]
  split
  · rfl
  · exact State.reg_setReg_other s _ h

theorem State.reg_bump64_other (s : State) {a b : Nat} (n : Nat) (h : a ≠ b) (h' : a + 4 ≠ b) :
    (s.bump64 a n).reg b = s.reg b := by
  rw [State.bump64]
  split
  · rfl
  · rw [State.reg_setReg_other _ _ h', State.reg_setReg_other _ _ h]

/-- An error is recorded first and once; no register but the two of the record changes. -/
theorem State.reg_errFirst_other (s : State) {page b : Nat} (status info : Nat) (h : R.hdrErrFirst page ≠ b)
    (h' : R.hdrErrFirstInfo page ≠ b) : (s.errFirst page status info).reg b = s.reg b := by
  rw [State.errFirst]
  split
  · rfl
  · rw [State.reg_setReg_other _ _ h', State.reg_setReg_other _ _ h]

/-- A held error keeps the later ones out. -/
theorem State.errFirst_held (s : State) {page : Nat} (status info : Nat)
    (h : s.regBit (R.hdrErrFirst page) 31 = true) : s.errFirst page status info = s := by
  rw [State.errFirst, if_pos h]

/-- The register words read the same, so every field of one does. -/
theorem State.regBits_congr {s t : State} {a : Nat} (h : s.reg a = t.reg a) (hi lo : Nat) :
    s.regBits a hi lo = t.regBits a hi lo := by rw [State.regBits, State.regBits, h]

theorem State.regBit_congr {s t : State} {a : Nat} (h : s.reg a = t.reg a) (k : Nat) :
    s.regBit a k = t.regBit a k := by rw [State.regBit, State.regBit, h]

/-- A vector that is not masked sends its message and changes no register word. -/
theorem State.sendVec_open (s : State) (v : Nat) (h : s.vecMasked (v % 64) = false) :
    s.sendVec v = { s with irqOut := s.irqOut ++ [BitVec.ofNat 6 (v % 64)] } := by
  rw [State.sendVec]
  dsimp only
  rw [h, if_neg (by decide)]

end Sys2Proof.Machine
end

