-- ==== Sys2Proof/Laws/Upset.lean ====
section
/-! SUPPORT. What flipped bits can do: a check counts them and rewrites the word that flipped, and leaves host memory, the
context tables, every outstanding descriptor and the queue of commands as they were; a tick's flip changes the list of
flips, or a word in a joint, alone. -/

namespace Sys2Proof.Machine

/-- What a stored word of the queue island rewritten leaves; the candidate share keeps its canonical form. -/
theorem QState.rewrite_keeps (q : QState) (c : Stored) (v : Bytes) (bad : Bool) :
    (q.rewrite c v bad).live = q.live ∧ (q.rewrite c v bad).nextId = q.nextId ∧
    (q.cand.wf = true → (q.rewrite c v bad).cand.wf = true) := by
  cases c with
  | cand w => exact ⟨rfl, rfl, fun h => Memory.wf_writeN _ _ h⟩
  | _ => exact ⟨rfl, rfl, id⟩

/-- What a stored word rewritten leaves. -/
theorem State.rewrite_keeps (s : State) (c : Stored) (v : Bytes) (bad : Bool) :
    (s.rewrite c v bad).mem = s.mem ∧ (s.rewrite c v bad).ctx = s.ctx ∧ (s.rewrite c v bad).pending = s.pending ∧
    (s.rewrite c v bad).pwr = s.pwr ∧ (s.rewrite c v bad).q.live = s.q.live ∧
    (s.rewrite c v bad).q.nextId = s.q.nextId ∧ (s.q.cand.wf = true → (s.rewrite c v bad).q.cand.wf = true) := by
  have h := s.q.rewrite_keeps c v bad
  cases c <;> first
    | exact ⟨rfl, rfl, rfl, rfl, rfl, rfl, id⟩
    | exact ⟨rfl, rfl, rfl, rfl, h⟩

/-- What the check of a flipped word leaves. -/
theorem State.struck_keeps (s : State) (u : Upset) :
    (s.struck u).mem = s.mem ∧ (s.struck u).ctx = s.ctx ∧ (s.struck u).pending = s.pending ∧
    (s.struck u).pwr = s.pwr ∧ (s.struck u).q.live = s.q.live ∧ (s.struck u).q.nextId = s.q.nextId ∧
    (s.q.cand.wf = true → (s.struck u).q.cand.wf = true) := by
  unfold State.struck
  split
  · exact ⟨rfl, rfl, rfl, rfl, rfl, rfl, id⟩
  · dsimp only
    split
    · exact ⟨rfl, rfl, rfl, rfl, rfl, rfl, id⟩
    · split
      · exact s.rewrite_keeps _ _ _
      · simpa using s.rewrite_keeps _ _ false
      · simpa using s.rewrite_keeps _ _ true

/-- What the checks of a tick leave. -/
theorem State.checkUpsets_keeps (s : State) :
    s.checkUpsets.mem = s.mem ∧ s.checkUpsets.ctx = s.ctx ∧ s.checkUpsets.pending = s.pending ∧
    s.checkUpsets.pwr = s.pwr ∧ s.checkUpsets.q.live = s.q.live ∧ s.checkUpsets.q.nextId = s.q.nextId ∧
    (s.q.cand.wf = true → s.checkUpsets.q.cand.wf = true) := by
  have h : ∀ (l : List Upset) (t : State),
      (l.foldl State.struck t).mem = t.mem ∧ (l.foldl State.struck t).ctx = t.ctx ∧
      (l.foldl State.struck t).pending = t.pending ∧ (l.foldl State.struck t).pwr = t.pwr ∧
      (l.foldl State.struck t).q.live = t.q.live ∧ (l.foldl State.struck t).q.nextId = t.q.nextId ∧
      (t.q.cand.wf = true → (l.foldl State.struck t).q.cand.wf = true) := by
    intro l
    induction l with
    | nil => intro t; exact ⟨rfl, rfl, rfl, rfl, rfl, rfl, id⟩
    | cons u l ih =>
      intro t
      obtain ⟨a, b, c, d, e, f, g⟩ := ih (t.struck u)
      obtain ⟨a', b', c', d', e', f', g'⟩ := t.struck_keeps u
      exact ⟨a.trans a', b.trans b', c.trans c', d.trans d', e.trans e', f.trans f', fun w => g (g' w)⟩
  exact h _ _

/-- A tick's flip changes the list of flips, the words in the joints and the count of free values alone. -/
theorem State.flip_effect (s : State) :
    ∃ (u : List Upset) (j : List Joint) (n : Nat), s.flip = { s with upsets := u, joints := j, free := n } := by
  unfold State.flip
  dsimp only
  split
  · split <;> exact ⟨_, _, _, rfl⟩
  · exact ⟨_, _, _, rfl⟩

/-- A word crosses to an Abutment: register words and the flips that waited for it may change. -/
theorem State.cross_effect (s : State) (n data : Nat) :
    ∃ (r : List (Nat × Word)) (u : List Upset), (s.cross n data).2 = { s with regs := r, upsets := u } := by
  unfold State.cross
  split
  · exact ⟨_, _, rfl⟩
  · unfold State.checkWord
    dsimp only
    split
    · exact ⟨_, _, rfl⟩
    · obtain ⟨r, h⟩ := (s.freshWord (.crossing n) _).bump_effect (R.hdrErrCntCe (Sram.crossing n).page) 1
      exact ⟨r, _, by rw [h]; rfl⟩
    · obtain ⟨r, h⟩ := (s.freshWord (.crossing n) _).countUe_effect (.crossing n) _
      exact ⟨r, _, by rw [h]; rfl⟩

end Sys2Proof.Machine
end

