-- ==== Sys2Proof/Tests/Machines.lean ====
section
/-! SUPPORT. Small states that the tests start from. -/

namespace Sys2Proof.Tests

open Sys2Proof Sys2Proof.Machine

/-- Every island runs, firmware has announced itself, and nothing else has happened. -/
def awake : State :=
  { State.reset with
    regs := [(R.kstnState, 0x20000001), (R.bootStat, 0x50000000)]
    pwr := { Pwr.reset with islands := List.replicate 69 (Island.reset true), started := true, dieFabric := true } }

/-- Register words stored one after another. -/
def regs (l : List (Nat × Nat)) (s : State) : State := l.foldl (fun s r => s.setReg r.1 r.2) s

/-- Fields of an entry stored one after another. -/
def flds (base : Nat) (l : List (Fld × Nat)) (s : State) : State := l.foldl (fun s x => s.setFld base x.1 x.2) s

/-- Bytes of host memory. -/
def bytes (a : Nat) (l : Bytes) (s : State) : State := { s with mem := s.mem.writeN a l }

/-- Connection 3 is UP to connection 9 of node 7, at level 2, with no cipher. -/
def up3 : State :=
  flds (connBase 3) [(Conn.enable, 1), (Conn.state, 2), (Conn.level, 2), (Conn.lvlMin, 1), (Conn.lvlMax, 2),
    (Conn.remoteNode, 7), (Conn.remoteConn, 9)] awake

/-- The header of a packet from connection 9 of node 7 on connection 3. -/
def pkt3 : Packet :=
  { blankPkt with version := 2, vl := 2, src := 7, dst := 0, conn := 3 }

/-- A descriptor of ring 0 whose queue is not enabled, with no counter and zero operands. -/
def desc0 : Desc :=
  { src := .ring 0, prio := 0, fencePrev := false, irq := false, errOnly := false, group := 0, channel := 0, cq := 0xFFF
    seq := 0, trigThresh := 0, trigCtr := 0, doneCtr := 0, trigEn := false, doneEn := false, doneAny := false, tag := 0
    ppSlot := 0, ops := List.replicate 32 0 }

/-- desc0 with operand values at offsets from 0x20 (R229). -/
def desc (l : List (Nat × Nat)) : Desc :=
  { desc0 with ops := toLE 32 ((l.map fun (x : Nat × Nat) => x.2 * 256 ^ (x.1 - 0x20)).sum) }

/-- The state after one command; the same state where it does not go on. -/
def ran (c : Instr) (s : State) : State :=
  match exec c s with
  | .next t => t
  | _ => s

end Sys2Proof.Tests
end

