-- ==== Sys2Proof/Tests/Slice0.lean ====
section
/-! SUPPORT. Tests: ill-formed commands that WellFormed refuses, small facts about one command each with the values
that the manual gives, and for every statement a state and operands that meet its hypotheses. -/

namespace Sys2Proof.Tests

set_option Elab.async false

open Sys2Proof Sys2Proof.Machine

/-! ### WellFormed refuses an ill-formed term of each check -/

theorem test_wf_ops_length : (Instr.nop { desc0 with ops := [] }).wf = false := by decide
theorem test_wf_channel : (Instr.nop { desc0 with channel := 32 }).wf = false := by decide
theorem test_wf_trigger_with_fence :
    (Instr.nop { desc0 with src := .slot 5, ppSlot := 5, trigEn := true, fencePrev := true }).wf = false := by decide
theorem test_wf_ring_with_trigger : (Instr.nop { desc0 with trigEn := true }).wf = false := by decide
theorem test_wf_slot_named : (Instr.nop { desc0 with src := .slot 5, ppSlot := 6, trigEn := true }).wf = false := by decide
theorem test_wf_slot_range :
    (Instr.nop { desc0 with src := .slot 81920, ppSlot := 81920, trigEn := true }).wf = false := by decide
theorem test_wf_rescale_of_dot :
    (Instr.rescale { desc0 with ops := List.replicate 31 0 ++ [0x40] }).wf = false := by decide
theorem test_wf_dot_of_rescale : (Instr.dot desc0).wf = false := by decide
theorem test_wf_instance_channel : (Instr.instanceOpen 0 32 0).wf = false := by decide
theorem test_wf_packet_opcode : (Instr.writePacket { pkt3 with opcode := 2 }).wf = false := by decide
theorem test_wf_packet_payload :
    (Instr.writePacket { pkt3 with opcode := 1, payload := List.replicate 4097 0 }).wf = false := by decide +kernel
theorem test_wf_notice_kind :
    (Instr.receipt { pkt3 with opcode := 0x10, payload := 2 :: List.replicate 31 0 }).wf = false := by decide
theorem test_wf_notice_length :
    (Instr.receipt { pkt3 with opcode := 0x10, payload := [1] }).wf = false := by decide
theorem test_wf_half_port : (Instr.pause 48 0).wf = false := by decide
theorem test_wf_frame_word : (Instr.frameReceive 0 ⟨[[0]], false, []⟩).wf = false := by decide
theorem test_wf_port : (Instr.laneShort 24 0).wf = false := by decide
theorem test_wf_island : (Instr.dvfsDone 69).wf = false := by decide
theorem test_wf_group : (Instr.vddaDip 6 0).wf = false := by decide
theorem test_wf_page : (Instr.lock 9 0).wf = false := by decide
theorem test_wf_bit_named : (Instr.connEnable 0 0).wf = false := by decide
theorem test_wf_bit_denied : (Instr.connDisable 0 0x80).wf = false := by decide
theorem test_wf_command : (Instr.ping 2).wf = false := by decide
theorem test_wf_counter_zero : (Instr.errCntClear 0 true 1).wf = false := by decide
theorem test_wf_test_kind : (Instr.sramSelfTest 0x11).wf = false := by decide
theorem test_wf_register_alignment : (Instr.registerWrite 0x4041 0).wf = false := by decide
theorem test_wf_register_of_a_row : (Instr.registerWrite 0x4048 0).wf = false := by decide
theorem test_wf_window_of_a_row : (Instr.windowWrite 0x100000 0).wf = false := by decide
theorem test_wf_window_page : (Instr.windowWrite 0x40 0).wf = false := by decide
theorem test_wf_selftest_island : (Instr.bootSelftestDone ⟨none, [69]⟩).wf = false := by decide
theorem test_wf_accepts : (Instr.nop desc0).wf = true ∧ (Instr.connEnable 0 0x80).wf = true ∧
    (Instr.windowWrite 0x500000 0).wf = true ∧ (Instr.registerWrite 0x4040 0).wf = true := by decide

/-- A command whose step goes on, and the state it leaves. -/
theorem test_no_word_decodes : decodeTableWord 32 0 = none ∧ awake.withFetchWord 32 0 = awake := ⟨rfl, rfl⟩

/-! ### The block as a whole -/

theorem wit_StepRunsTheFrontCommand :
    ({ awake with pending := [.coldReset, .refclk] } : State).pending = .coldReset :: [.refclk] := rfl

theorem wit_StepKeepsMemoriesNumbersAndQueue :
    (∃ t, step { bytes 64 [1, 2] awake with pending := [.registerWrite 0x4040 7, .refclk] } = .next t) ∧
    (bytes 64 [1, 2] awake).memOk = true ∧ (bytes 64 [1, 2] awake).idsOk ∧ (bytes 64 [1, 2] awake).shaped = true :=
  ⟨⟨_, rfl⟩, by decide, by unfold State.idsOk; decide, by decide⟩

theorem wit_HostMemoryWriteReadsBack : (bytes 64 [1, 2] awake).mem.wf = true := by decide

/-- The queue's rest stays and the effect happens (R61: RNG_SEED_LO is AK_RNG + 0x40). -/
theorem test_step_takes_the_front :
    (match step { awake with pending := [.registerWrite 0x4040 7, .refclk] } with
     | .next t => (t.pending, t.reg R.rngSeedLo)
     | _ => ([], 0)) = ([.refclk], 7) := by decide

/-- On an empty queue a nanosecond passes: at increment 1 ns the timebase moves by 2^16 (R304). -/
theorem test_idle_step_goes_on : ∃ t, step awake = .next t := ⟨_, rfl⟩

/-! ### Register pages -/

theorem wit_ClearsZeroExactlyTheirCountersAndLogs :
    (∀ n ∈ [0, 31], awake.pageReady (0x10 + n) = true) ∧ (∀ p ∈ [0, 23], awake.pageReady (0x40 + p) = true) ∧
    (∀ n ∈ [2, 3, 5, 6, 7, 0x70, 0x7C], awake.pageReady n = true) ∧
    (∀ k ∈ [0, 7], awake.pageReady (0x68 + k) = true) := by decide

/-- A state whose first Abutment's buffer holds a dirty good line. -/
def dirtyLine : State := { awake with cb := [⟨0, List.replicate 64 7, false, true, []⟩] }

theorem wit_ClearsZeroExactlyTheirCountersAndLogs_flush :
    (2 : Word).getLsbD 1 = true ∧ (2 : Word).getLsbD 0 = false ∧ (1 : Word).getLsbD 1 = false ∧
    dirtyLine.pageReady 0x6F = true ∧ dirtyLine.mem.wf = true ∧ (dirtyLine.cb.map fun l => l.granule).Nodup ∧
    (∀ l ∈ dirtyLine.cb, l.data.length = 64) ∧ ∃ l ∈ dirtyLine.cb, l.dirty = true ∧ l.poison = false := by decide

theorem wit_DeckControlClearsAndEnables :
    awake.pageReady 0x60 = true ∧
    (regs [(R.deckMode, 0)] awake).regBits R.deckMode 1 0 = 0 ∧ ringsOk (regs [(R.deckMode, 0)] awake).rings = false ∧
    ((2 : Word).getLsbD 1 && !awake.locked 0x60 && !awake.regBit R.deckCtrl 1) = true ∧
    awake.regBit (R.hdrErrFirst 0x60) 31 = false := by decide

theorem wit_StatisticsSlotsCopyAndClear : awake.pageReady 8 = true := by decide

theorem wit_LockTakesAndChecksItsKey :
    (∀ n ∈ [0, 0x7C], regPage n = true ∧ awake.pageReady n = true) ∧ awake.locks = [] ∧
    ({ awake with locks := [(0x7C, 5)] } : State).locked 0x7C = true ∧
    ((10 : Word).getLsbD 0 = false ∧ (5 : BitVec 31) = ((10 : Word) >>> 1).setWidth 31) ∧
    ¬ ((11 : Word).getLsbD 0 = false ∧ (5 : BitVec 31) = ((11 : Word) >>> 1).setWidth 31) := by decide

/-- A page whose first event is pending, with its interrupt routed to an open vector and to a masked one. -/
def pendingIrq (mask : Nat) : State :=
  regs [(R.hdrIrqStat 0, 3), (R.hdrIrqEn 0, 3), (R.topIrqVec 0, 0x85), (R.topVecMaskLo, mask)] awake

theorem wit_InterruptsFollowTheirRegistersAndMasks :
    (∀ n ∈ [0, 0x7C], regPage n = true ∧ awake.pageReady n = true) ∧ (pendingIrq 0).pageIrq 0 = true ∧
    ((pendingIrq 0).routeByte 0).testBit 7 = true ∧ (pendingIrq 0).vecMasked 5 = false ∧
    (pendingIrq 0x20).vecMasked 5 = true ∧ (awake.routeByte 0).testBit 7 = false ∧ awake.pageIrq 0 = false := by decide

theorem wit_ErrorRegistersClearAsWritten : ∀ n ∈ [0, 0x7C], regPage n = true ∧ awake.pageReady n = true := by decide

theorem wit_EnableAndHoldFollowTheWrite :
    (∀ n ∈ [0x10, 0x2F, 0x68, 7, 3], regPage n = true ∧ awake.pageReady n = true) ∧
    (5 : Word).getLsbD 1 = false ∧ (∀ n, pageKind 0x2F ≠ .port n) ∧ (∀ n, pageKind 0x68 ≠ .port n) ∧
    (∀ n, pageKind 7 ≠ .port n) ∧ (∀ n, pageKind 3 ≠ .port n) :=
  have ne : ∀ {p q : PageKind} (f : Nat → PageKind), p = q → (∀ n, q ≠ f n) → ∀ n, p ≠ f n := fun _ h h' n => h ▸ h' n
  ⟨by decide, by decide, ne _ (q := .pier 31) (by decide) nofun, ne _ (q := .abut 0) (by decide) nofun,
    ne _ (q := .qmgr) (by decide) nofun, ne _ (q := .time) (by decide) nofun⟩

/-- Every island of the block that SOFT_RESET names, at its first and last page. -/
theorem wit_SoftResetResetsThePagesIsland :
    (∀ n ∈ [0, 1, 7, 0x60, 0x70, 0x10, 0x2F, 0x40, 0x57, 0x68, 0x6F], regPage n = true ∧ awake.pageReady n = true) ∧
    (2 : Word).getLsbD 1 = true ∧ awake.absorbed = false ∧ awake.test = none ∧
    (2 : Word).getLsbD 0 = awake.regBit (R.hdrCtrl 0x40) 0 ∧ awake.halfExists 0 = true := by decide

/-- R120: CLEAR zeroes the counters; PIER_CMP_* of Pier 3 stand at 0x13080. -/
theorem test_pier_cmp_clear : (ran (.pierCmpClear 3 1) ((awake.setReg 0x13080 9).setReg 0x13060 4)).reg 0x13080 = 0 ∧
    (ran (.pierCmpClear 3 1) ((awake.setReg 0x13080 9).setReg 0x13060 4)).reg 0x13060 = 4 := by decide
theorem test_pier_sel_clear : (ran (.pierSelClear 3 1) (awake.setReg 0x13040 9)).reg 0x13040 = 0 := by decide
theorem test_pier_tbl_clear : (ran (.pierTblClear 3 1) (awake.setReg 0x130C0 9)).reg 0x130C0 = 0 := by decide
/-- R309, R399: PORT_CLEAR takes the link counters, PORT_TCLEAR the FEC statistics. -/
theorem test_port_clears :
    (ran (.portClear 23 1) ((awake.setReg 0x57088 9).setReg 0x57600 8)).reg 0x57088 = 0 ∧
    (ran (.portClear 23 1) ((awake.setReg 0x57088 9).setReg 0x57600 8)).reg 0x57600 = 8 ∧
    (ran (.portTclear 23 1) ((awake.setReg 0x57088 9).setReg 0x57600 8)).reg 0x57600 = 0 := by decide
theorem test_time_clear : (ran (.timeClear 1) (awake.setReg 0x3074 9)).reg 0x3074 = 0 := by decide
theorem test_snap_clear : (ran (.snapClear 1) (awake.setReg 0x60B4 9)).reg 0x60B4 = 0 := by decide
theorem test_test_clear : (ran (.testClear 1) (awake.setReg 0x7C054 9)).reg 0x7C054 = 0 := by decide
theorem test_qmgr_clear : (ran (.qmgrClear 1) (awake.setReg 0x706C 9)).reg 0x706C = 0 := by decide
theorem test_rma_clear : (ran (.rmaClear 1) (awake.setReg 0x70070 9)).reg 0x70070 = 0 := by decide
theorem test_rma_log_clear : (ran (.rmaLogClear 2) (awake.setReg R.rmaLogCnt 9)).reg R.rmaLogCnt = 0 := by decide +kernel
theorem test_tbl_log_clear : (ran (.tblLogClear 1) (awake.setReg R.tblLogCnt 9)).reg R.tblLogCnt = 0 := by decide +kernel
theorem test_pwr_clear : (ran (.pwrClear 1) (awake.setReg 0x2064 9)).reg 0x2064 = 0 := by decide
theorem test_pwr_log_clear : (ran (.pwrLogClear 2) (awake.setReg R.pwrLogCnt 9)).reg R.pwrLogCnt = 0 := by decide
theorem test_abut_clear : (ran (.abutClear 7 1) (awake.setReg 0x6F050 9)).reg 0x6F050 = 0 := by decide
theorem test_deck_clear : (ran (.deckClear 1) (awake.setReg 0x600E0 9)).reg 0x600E0 = 0 := by decide
/-- R298: dimension order needs a valid configuration; detour routing (mode 1) does not. -/
theorem test_deck_enable : (ran (.deckCtrlEn 2) (regs [(R.deckMode, 1)] awake)).regBit R.deckCtrl 1 = true ∧
    (ran (.deckCtrlEn 2) (regs [(R.deckMode, 0)] awake)).regBit R.deckCtrl 1 = false := by decide
/-- R373: a key locks the page, the key with bit 0 clear unlocks it, another write counts. -/
theorem test_lock : (ran (.lock 4 0x15) awake).locked 4 = true ∧
    (ran (.lock 4 0x14) (ran (.lock 4 0x15) awake)).locked 4 = false ∧
    (ran (.lock 4 0x16) (ran (.lock 4 0x15) awake)).locked 4 = true ∧
    (ran (.lock 4 0x16) (ran (.lock 4 0x15) awake)).reg R.topLockFailCnt = 1 := by decide
/-- R374: a clear that leaves another event sends one message on vector 5; masked, it pends. -/
theorem test_irq_stat_clear : (ran (.irqStatClear 0 1) (pendingIrq 0)).irqOut = [5] ∧
    (ran (.irqStatClear 0 3) (pendingIrq 0)).irqOut = [] ∧
    (ran (.irqStatClear 0 1) (pendingIrq 0x20)).reg R.topVecPendLo = 0x20 := by decide
theorem test_irq_set : (ran (.irqSet 0 1) awake).reg (R.hdrIrqStat 0) = 1 := by decide
theorem test_irq_en : (ran (.irqEnWrite 0 1) (pendingIrq 0)).irqOut = [5] := by decide
theorem test_vec_mask : (ran (.topVecMask false 0) (awake.setReg R.topVecPendLo 0x30)).irqOut = [4, 5] ∧
    (ran (.topVecMask false 0x10) (awake.setReg R.topVecPendLo 0x30)).reg R.topVecPendLo = 0x10 := by decide +kernel
theorem test_err_first_clear :
    (ran (.errFirstClear 7 0x80000000) (awake.setReg (R.hdrErrFirst 7) 0x80000023)).reg (R.hdrErrFirst 7) = 0 := by decide
theorem test_err_cnt_clear : (ran (.errCntClear 7 true 0) (awake.setReg (R.hdrErrCntUe 7) 5)).reg (R.hdrErrCntUe 7) = 0 ∧
    (ran (.errCntClear 7 true 1) (awake.setReg (R.hdrErrCntUe 7) 5)).reg (R.hdrErrCntUe 7) = 5 := by decide
/-- R372: ENABLE of a Pier falls, HOLD of an Abutment rises while its ENABLE stays 1. -/
theorem test_enable : (ran (.enable 0x10 0) awake).regBit (R.hdrCtrl 0x10) 0 = false := by decide
theorem test_hold : (ran (.hold 0x68 4) awake).reg (R.hdrCtrl 0x68) = 5 := by decide
theorem test_soft_reset : (ran (.softReset 0x10 3) (awake.setReg 0x10040 9)).reg 0x10040 = 0 := by decide
theorem test_stat_sel :
    (ran (.statSel 5) { awake with q := { awake.q with stats := [⟨5, 7 :: List.replicate 259 0⟩] } }).q.statBuf.head? =
      some 7 := by decide
theorem test_stat_clear_slot :
    (ran (.statClearSlot 5) { awake with q := { awake.q with stats := [⟨5, 7 :: List.replicate 259 0⟩] } }).q.stats =
      [] := by decide +kernel
theorem test_stat_clear_all :
    (ran (.statClearAll 0x80000000)
      { awake with q := { awake.q with stats := [⟨5, 7 :: List.replicate 259 0⟩] } }).q.stats = [] := by decide

/-! ### Reading and writing the window -/

/-- TIME_NOW_LO at AK_TIME + 0x40 latches; its _HI word reads what is latched, and any other word reads itself. -/
theorem wit_LowReadLatchesTheHighWord :
    (0x3040 : BitVec 24).toNat % 4 = 0 ∧ awake.pageReady (0x3040 / 4096) = true ∧ regPage (0x3040 / 4096) = true ∧
    (loOffsets (pageKind (0x3040 / 4096))).contains (0x3040 % 4096) = true ∧
    (loOffsets (pageKind (0x3044 / 4096))).contains (0x3044 % 4096) = false ∧ ∀ p ∈ awake.latch, p.1 ≠ 0x3044 := by decide

/-- Another state with the same latches, as the clause about the next read needs. -/
theorem wit_LowReadLatchesTheHighWord_next :
    ({ ran (.loRead ⟨0x3040, 0xF⟩) awake with clock := { awake.clock with tb := 2 ^ 90 } } : State).latch =
      (ran (.loRead ⟨0x3040, 0xF⟩) awake).latch ∧
    ({ ran (.loRead ⟨0x3040, 0xF⟩) awake with clock := { awake.clock with tb := 2 ^ 90 } } : State).pageReady 3 = true := by decide

/-- A poisoned granule of stream context 0, and one of the last routing entry's low word. -/
def poisonedCtx : State := { awake with ctxPoison := [0x50001] }

theorem wit_UnansweredAndPoisonedReadsAreMarked :
    ({ awake with pwr := { awake.pwr with dead := true } } : State).pwr.dead = true ∧ awake.pwr.dead = false ∧
    State.reset.pageReady (0x13040 / 4096) = false ∧ State.reset.pwr.dead = false ∧
    poisonedCtx.winWord 0x500010 = some ⟨.strm, 0, 4⟩ ∧ poisonedCtx.pageReady (0x500010 / 4096) = true ∧
    ¬ ((⟨.strm, 0, 4⟩ : WinWord).table = .conn ∧ 32 ≤ 4) ∧ ¬ ((⟨.strm, 0, 4⟩ : WinWord).table = .route ∧ 4 = 1) ∧
    poisonedCtx.ctxPoison.contains ((⟨.strm, 0, 4⟩ : WinWord).home / 16) = true ∧
    poisonedCtx.regBit (R.hdrErrFirst 0x70) 31 = false ∧
    (poisonedCtx.setReg (R.hdrErrFirst 0x70) 0x80000023).regBit (R.hdrErrFirst 0x70) 31 = true := by decide

/-- The first and the last word of the stream contexts; a poisoned granule outside and at the end of its run. -/
theorem wit_WindowWriteAppliesAndClearsPoisonInOrder :
    (∀ a ∈ [0x500000, 0x8FFFFC], a % 4 = 0 ∧ 0x500000 ≤ a ∧ a < 0x900000 ∧ awake.pageReady (a / 4096) = true) ∧
    awake.ctx.wf = true ∧ awake.hasFlip .context 0x50000 = false ∧ poisonedCtx.granPoison 0x50001C = true ∧
    ¬ (0x50001C % 16 = 12 ∧ (0x50001C / 16, 3) ∈ poisonedCtx.clearRun) ∧
    (0x50001C % 16 = 12 ∧ (0x50001C / 16, 3) ∈ ({ poisonedCtx with clearRun := [(0x50001, 3)] } : State).clearRun) ∧
    (0x500010 % 16 = 4 * 0) ∧ (0x500014 % 16 = 4 * 1 ∧ (0x500014 / 16, 1) ∈ [(0x50001, 1)]) := by decide

/-- A word of each table that has no row of its own: connections, regions, counters, groups, queues, routes. -/
theorem wit_WindowWriteAppliesAndClearsPoisonInOrder_tables :
    (∀ x ∈ [(0x200004, Table.conn), (0xA00004, .region), (0xF58004, .ring)], ∃ w, awake.winWord x.1 = some w ∧
      w.table = x.2 ∧ awake.pageReady (x.1 / 4096) = true ∧
      awake.hasFlip (windowArray (w.home / 16)) (w.home / 16) = false ∧
      (w.table, w.word) ∉ [(.conn, 0), (.region, 0), (.ctr, 0), (.cq, 2), (.ring, 2), (.route, 1)]) := by decide

/-- An armed Caisson entry holds its other fields (R314). -/
theorem wit_RegisterWriteReplacesItsFields_armed :
    (regs [(R.snapCNode 0, 2 ^ 31)] awake).armedField 0x48 = true ∧ awake.armedField 0x48 = false ∧
    ownRow 6 0x48 = false ∧ awake.pageReady 6 = true := by decide

theorem wit_RegisterWriteReplacesItsFields :
    (∀ a ∈ [0x4040, 0x7048], a % 4 = 0 ∧ regPage (a / 4096) = true ∧ 0x40 ≤ a % 4096 ∧
      ownRow (a / 4096) (a % 4096) = (a == 0x7048) ∧ a ≠ R.pwrThermLimits ∧ (∀ i, i < 8 → a ≠ R.secKey i) ∧
      awake.pageReady (a / 4096) = true) ∧
    (regRow 0x4040).isSome = true ∧ (regRow 0x4FFC).isNone = true ∧
    awake.pageReady 2 = true ∧ awake.locked 2 = false ∧ awake.pageReady 0x78 = true := by decide

theorem wit_RefusedAccessIsRecorded : awake.pageReady 0 = true := by decide

theorem wit_SeedCommitTakesTheStagedSeed :
    awake.pageReady 4 = true ∧ awake.locked 4 = false ∧
    (ran (.registerWrite (BitVec.ofNat 24 R.rngSeedLo) 5) awake).latch = [] := by decide

/-- R15: 2^90 / 2^16 ns leaves 2^42 in TIME_NOW_HI; the latched half is that of the time of the low read. -/
theorem test_lo_read :
    (ran (.loRead ⟨0x3044, 0xF⟩) { ran (.loRead ⟨0x3040, 0xF⟩) { awake with clock := { awake.clock with tb := 2 ^ 50 } } with
      clock := { awake.clock with tb := 0 } }).lastRead = ⟨4, false⟩ := by decide
/-- R369: a read of the upper half of a word returns those bytes. -/
theorem test_lo_read_bytes : (ran (.loRead ⟨0x4040, 0xC⟩) (awake.setReg 0x4040 0x12345678)).lastRead.data = 0x12340000 := by
  decide
/-- R381: the word of a poisoned granule comes with the poison indication. -/
theorem test_poisoned_window_read : (ran (.poisonedWindowRead ⟨0x500010, 0xF⟩) poisonedCtx).lastRead = ⟨0, true⟩ := by
  decide +kernel
/-- R381: the first of four words in ascending order begins a run; the fourth of one clears the poison, and alone it does
not. -/
theorem test_window_write : (ran (.windowWrite 0x500010 1) poisonedCtx).clearRun = [(0x50001, 1)] ∧
    (ran (.windowWrite 0x50001C 1) { poisonedCtx with clearRun := [(0x50001, 3)] }).ctxPoison = [] ∧
    (ran (.windowWrite 0x50001C 1) poisonedCtx).ctxPoison = [0x50001] := by decide +kernel
theorem test_register_write : (ran (.registerWrite 0x4040 0x12345678) awake).reg 0x4040 = 0x12345678 := by decide
/-- R369, R375: TOP_ACCESS_ERR holds the first refused address; ACCESS_ERR is bit 1 of IRQ_STAT. -/
theorem test_access_refused : (ran (.accessRefused 0x9000) (ran (.accessRefused 0xA004) awake)).reg R.topAccessErr =
    0x8000A004 ∧ (ran (.accessRefused 0xA004) awake).reg (R.hdrIrqStat 0) = 2 := by decide
/-- R61: the staged seed becomes active at COMMIT alone. -/
theorem test_rng_commit : (ran (.registerWrite 0x4040 5) awake).seed = 0 ∧
    (ran (.rngCtrlCommit 1) (ran (.registerWrite 0x4040 5) awake)).seed = 5 := by decide

/-! ### Rings, completion queues, counters and the pre-posted store -/

/-- Ring 4095, the last, enabled with four entries and index 1. -/
def lastRing : State := flds (ringBase 4095) [(Ring.enable, 1), (Ring.log2Size, 2), (Ring.ci, 1)] awake

theorem wit_DoorbellsMoveIndicesAndCancelFreesASlot :
    lastRing.ctx.wf = true ∧ lastRing.pageReady 7 = true ∧ lastRing.pageReady 0x70 = true ∧
    (lastRing.flag (ringBase 4095) Ring.enable && !lastRing.flag (ringBase 4095) Ring.stopped &&
      decide ((bits 0xFFF00005 19 0 + 2 ^ 20 - lastRing.fld (ringBase 4095) Ring.ci) % 2 ^ 20 ≤
        2 ^ lastRing.fld (ringBase 4095) Ring.log2Size)) = true ∧ bits 0xFFF00005 31 20 = 4095 ∧
    (lastRing.flag (ringBase 4095) Ring.enable && !lastRing.flag (ringBase 4095) Ring.stopped &&
      decide ((bits 0xFFF00006 19 0 + 2 ^ 20 - lastRing.fld (ringBase 4095) Ring.ci) % 2 ^ 20 ≤
        2 ^ lastRing.fld (ringBase 4095) Ring.log2Size)) = false := by decide

/-- Slots 0 and 81919 hold descriptors that wait for counter 65535; the second has been enabled. -/
def stored : State :=
  let d := { desc0 with trigEn := true, trigCtr := 0xFFFF, trigThresh := 10 }
  (flds (ctrBase 0xFFFF) [(Ctr.waiters, 1)] awake |> fun (s : State) =>
    { s with q := { s.q with store := [⟨0, 0, 0, 0, { d with src := .slot 0 }, false, false⟩,
      ⟨81919, 0, 1, 0, { d with src := .slot 81919, ppSlot := 81919 }, true, false⟩] } })

theorem wit_DoorbellsMoveIndicesAndCancelFreesASlot_slots :
    stored.pageReady 7 = true ∧ stored.ctx.wf = true ∧
    ((stored.q.store.find? fun x => x.slot == 0).map fun x => x.enabled) = some false ∧
    ((stored.q.store.find? fun x => x.slot == 81919).map fun x => x.enabled) = some true ∧
    (stored.q.store.find? fun x => x.slot == 1) = none := by decide

/-- The least shares that R247 takes: CAND 4, RETAIN 88, STAGE_IN 1 and STAGE_OUT 3 MiB. -/
theorem wit_SpanShareTakesOnlyAValidPartition :
    State.reset.pageReady 7 = false ∧ awake.pageReady 7 = true ∧ awake.locked 7 = false ∧
    bits 0x04580103 31 24 + bits 0x04580103 23 16 + bits 0x04580103 15 8 + bits 0x04580103 7 0 = 96 ∧
    awake.usedOut = 0 ∧ awake.usedIn = 0 ∧ awake.usedRetain = 0 ∧
    ¬ (bits 0x04590003 15 8 ≥ 1) ∧ lastRing.flag (ringBase 4095) Ring.enable = true := by decide

theorem wit_SpanShareTakesOnlyAValidPartition_idle (r : Nat) : awake.flag (ringBase r) Ring.enable = false := by
  have h : awake.ctx = [] := rfl
  simp [State.flag, State.fld, State.ctxRd, h, Memory.readN, Memory.from, Memory.walk, leNat, bits, Ring.enable]

theorem wit_RingAndCompletionQueueControlFollowTheWrite :
    awake.pageReady 0xF50 = true ∧ awake.ctx.wf = true ∧ awake.pageReady 0xF00 = true ∧
    lastRing.hasFlip .span (ringBase 4095 / 16) = false ∧ awake.hasFlip .context (cqBase 4095 / 16) = false ∧
    lastRing.flag (ringBase 4095) Ring.enable = true ∧ lastRing.flag (ringBase 0) Ring.enable = false ∧
    (flds (cqBase 4095) [(Cq.enable, 1)] awake).flag (cqBase 4095) Cq.enable = true ∧
    (0x80 : Word).getLsbD 7 = true ∧ (0 : Word).getLsbD 7 = false := by decide

theorem wit_CounterWriteEnablesPassedThresholds :
    stored.pageReady 0xD00 = true ∧ stored.ctx.wf = true ∧ stored.hasFlip .context (ctrBase 0xFFFF / 16) = false ∧
    ((10 : Word) - 10).toNat < 2 ^ 31 ∧ ¬ ((9 : Word) - 10).toNat < 2 ^ 31 := by decide

/-- R227: (PI - CI) mod 2^20 may reach the ring's size, 4, and not pass it. -/
theorem test_ring_doorbell : (ran (.qmgrRingDb 0xFFF00005) lastRing).fld (ringBase 4095) Ring.pi = 5 ∧
    (ran (.qmgrRingDb 0xFFF00006) lastRing).fld (ringBase 4095) Ring.pi = 0 := by decide
theorem test_cq_doorbell : (ran (.qmgrCqDb 0x00500003) awake).fld (cqBase 5) Cq.ci = 3 := by decide
theorem test_srq_doorbell : (ran (.rmaSrqDb 0x00400002) (flds (srqBase 1) [(Srq.log2Slots, 1)] awake)).fld (srqBase 1)
    Srq.pi = 2 := by decide
/-- R239: removed, enabled already, empty. -/
theorem test_cancel : (ran (.qmgrPpCancel 0) stored).reg R.qmgrPpCancelRes = 0x80000000 ∧
    (ran (.qmgrPpCancel 81919) stored).reg R.qmgrPpCancelRes = 0x80000002 ∧
    (ran (.qmgrPpCancel 7) stored).reg R.qmgrPpCancelRes = 0x80000001 ∧
    (ran (.qmgrPpCancel 0) stored).fld (ctrBase 0xFFFF) Ctr.waiters = 0 := by decide +kernel
theorem test_span_share : (ran (.qmgrSpanShare 0x04580103) awake).reg R.qmgrSpanShare = 0x04580103 ∧
    (ran (.qmgrSpanShare 0x04590003) awake).reg R.qmgrSpanShare = 0x10182018 := by decide +kernel
theorem test_ring_enable : (ran (.ringEnable 4095 0x82) awake).flag (ringBase 4095) Ring.enable = true := by decide +kernel
theorem test_ring_disable : (ran (.ringDisable 4095 2) lastRing).flag (ringBase 4095) Ring.enable = false ∧
    (ran (.ringDisable 4095 2) lastRing).fld (ringBase 4095) Ring.ci = 1 := by decide +kernel
theorem test_cq_enable : (ran (.cqEnable 5 0x83) (flds (cqBase 5) [(Cq.pi, 9)] awake)).fld (cqBase 5) Cq.pi = 0 := by decide
/-- R237, R238: a value at the threshold enables; one behind it does not. -/
theorem test_counter_write :
    ((ran (.counterValueWrite 0xFFFF 10) stored).q.store.map fun x => x.enabled) = [true, true] ∧
    ((ran (.counterValueWrite 0xFFFF 9) stored).q.store.map fun x => x.enabled) = [false, true] := by decide +kernel

/-! ### Descriptors -/

/-- Work that DATA gives the engine: host memory words of four bytes. -/
def words (a : Nat) (l : List Nat) (s : State) : State := bytes a ((l.map (toLE 4)).flatten) s

/-- Queue 1 is enabled with one entry at 0x8000 and its only credit is taken. -/
def fullCq : State := flds (cqBase 1) [(Cq.enable, 1), (Cq.base, 0x8000), (Cq.resv, 1)] awake

theorem wit_DescriptorsRunWhenNothingHoldsThem :
    descOp (.nop desc0) = some (0, desc0) ∧ descOp (.relay desc0) = some (0x44, desc0) ∧ awake.up 2 = true ∧
    awake.fresh 0 desc0 = true ∧ (awake.enter 0 desc0).2.heldHead (awake.enter 0 desc0).1 = false ∧
    (awake.enter 0 desc0).2.noCredit (awake.enter 0 desc0).1 = false ∧
    (awake.enter 0 desc0).2.outranked (awake.enter 0 desc0).1 = false := by decide

/-- A READ that is outstanding and has not begun. -/
def oneLive0 : State :=
  { awake with q := { awake.q with nextId := 1, nextRead := 1, live := [⟨0, 0, 0, 0x11, desc0, 0, none, false, false, .start⟩] } }

/-- A head of ring 1 of a higher priority that may be dispatched. -/
def rivalled : State :=
  (flds (ringBase 1) [(Ring.enable, 1), (Ring.log2Size, 2)] awake |> fun (s : State) =>
    { s with q := { s.q with waiting := [⟨1, 0, 0, { desc0 with src := .ring 1, prio := 3 }, false, false⟩], nextRead := 1 } })

theorem wit_DescriptorsRunWhenNothingHoldsThem_outranked :
    rivalled.up 2 = true ∧ rivalled.fresh 0 desc0 = true ∧
    (rivalled.enter 0 desc0).2.heldHead (rivalled.enter 0 desc0).1 = false ∧
    (rivalled.enter 0 desc0).2.noCredit (rivalled.enter 0 desc0).1 = false ∧
    (rivalled.enter 0 desc0).2.outranked (rivalled.enter 0 desc0).1 = true ∧
    oneLive0.fresh 0x11 desc0 = false := by decide

theorem wit_DescriptorsRunWhenNothingHoldsThem_held :
    let s := awake.setReg (R.hdrCtrl 7) 5
    s.up 2 = true ∧ s.fresh 0 desc0 = true ∧ (s.enter 0 desc0).2.heldHead (s.enter 0 desc0).1 = true := by decide

theorem wit_DescriptorsRunWhenNothingHoldsThem_credit :
    let d := { desc0 with cq := 1 }
    fullCq.up 2 = true ∧ fullCq.fresh 0 d = true ∧ (fullCq.enter 0 d).2.heldHead (fullCq.enter 0 d).1 = false ∧
    (fullCq.enter 0 d).2.noCredit (fullCq.enter 0 d).1 = true := by decide

theorem wit_CompletionWritesItsRecordAndRaisesItsCounter :
    fullCq.ctx.wf = true ∧ fullCq.mem.wf = true ∧ fullCq.cb = [] := by decide

theorem wit_NopCompletesAtDispatch : awake.goes 0x00 desc0 = true := by decide

/-- A ring whose earlier descriptor, a READ, is outstanding. -/
def oneLive : State :=
  { awake with q := { awake.q with nextId := 1, nextRead := 1, live := [⟨0, 0, 0, 0x11, desc0, 0, none, false, false, .remote⟩] } }

theorem wit_FenceWaitsAndCounterAddApplies :
    awake.goes 0x42 desc0 = true ∧ oneLive.goes 0x42 desc0 = true ∧ (∀ x ∈ oneLive.q.live, x.id < oneLive.q.nextId) ∧
    (oneLive.q.live.filter fun x => decide (x.ring = (oneLive.begun 0x42 desc0).1.ring ∧
      x.order < (oneLive.begun 0x42 desc0).1.order)) ≠ [] ∧
    opBits (desc [(0x20, 3)]) 0x20 1 1 0 = 3 ∧ awake.goes 0x42 (desc [(0x20, 3)]) = true ∧
    awake.goes 0x43 desc0 = true ∧ opBit desc0 0x22 0 = false ∧ awake.ctx.wf = true ∧ awake.cleanTables = true ∧
    (let s : State := { awake with ctxPoison := [ctrBase 0 / 16] }
     s.goes 0x43 desc0 = true ∧ s.ctxPoison.contains (ctrBase (opd desc0 0x20 2) / 16) = true) := by decide

/-- Four int32 values, and a SELECT of the largest two in magnitude. -/
def selState : State := words 0x1000 [5, 0xFFFFFFF6, 7, 1] awake
def selDesc : Desc := desc [(0x20, 0x1000), (0x28, 0x2000), (0x30, 4), (0x35, 0x10), (0x36, 1), (0x38, 2), (0x3C, 2)]

theorem wit_SelectAndMergeWriteTheirLists :
    selState.memPoison = [] ∧ selState.mem.wf = true ∧ selState.goes 3 selDesc = true ∧ selectCheck selDesc = none ∧
    (selState.begun 3 selDesc).2.freePiers ≠ [] ∧
    (∀ c ∈ chunksOfRange 0 (opd selDesc 0x30 5) (opd selDesc 0x36 2 * 1024),
      ∀ e ∈ (selState.begun 3 selDesc).2.selRead selDesc c, e.nf = false) := by decide

/-- Two lists that share index 3: 1.0 and 2.0. -/
def mergeState : State :=
  words 0x5000 [3, 0, 0x40000000, 0] (words 0x4000 [3, 0, 0x3F800000, 0]
    (words 0x3000 [0x4000, 0, 1, 0, 0x5000, 0, 1, 0] awake))
def mergeDesc : Desc := desc [(0x20, 0x3000), (0x28, 0x6000), (0x30, 2), (0x34, 2)]

theorem wit_SelectAndMergeWriteTheirLists_merge :
    mergeState.memPoison = [] ∧ mergeState.mem.wf = true ∧ mergeState.goes 5 mergeDesc = true ∧
    opd mergeDesc 0x20 8 % 64 = 0 ∧ opd mergeDesc 0x28 8 % 64 = 0 ∧ opBits mergeDesc 0x30 1 6 0 = 2 ∧
    (∀ i, i < 2 → mergeState.rdN (0x3000 + 16 * i) 8 % 16 = 0) ∧ (mergeState.begun 5 mergeDesc).2.freePiers ≠ [] ∧
    (∀ i, i < 2 → (mergeState.mergeList i (mergeState.rdN (0x3000 + 16 * i) 8)
      (leNat (mergeState.rd (0x3000 + 16 * i + 8) 5))).Pairwise fun a b => a.idx < b.idx) ∧
    ((List.range 2).map fun i => (mergeState.mergeList i (mergeState.rdN (0x3000 + 16 * i) 8)
      (leNat (mergeState.rd (0x3000 + 16 * i + 8) 5))).length).sum ≤ opd mergeDesc 0x34 4 := by decide

/-- Stream 0: four FP32 gradients at 0x1000, residuals at 0x1100, for a dense mode, in group 0 of one member. -/
def strmState : State :=
  words 0x1000 [0x3F800000, 0xC0000000, 0, 0x40400000]
    (flds (grpBase 0) [(Grp.nMembers, 1)]
      (flds (strmBase 0) [(Strm.mode, 1), (Strm.gFmt, 8), (Strm.codeFmt, 6), (Strm.scaleSrc, 2), (Strm.length, 4),
        (Strm.chunkKi, 1), (Strm.gAddr, 0x1000), (Strm.resAddr, 0x1100), (Strm.lamaxAddr, 0x1200),
        (Strm.histBase, 0x1240)] awake))
def strmDesc : Desc := desc [(0x24, 9)]

theorem wit_StatsAndCompressKeepTheirStream :
    let c := strmState.stream 0
    let u := (strmState.begun 1 strmDesc).2
    strmState.cleanTables = true ∧ strmState.ctx.wf = true ∧ strmState.goes 1 strmDesc = true ∧
    strmState.goes 2 strmDesc = true ∧ u.streamHeld (strmState.begun 1 strmDesc).1 = false ∧ u.freePiers ≠ [] ∧
    (strmState.streamCheck c true false).toOption = some (0, 4) ∧
    (strmState.streamCheck c false false).toOption = some (0, 4) ∧
    (strmState.rowsInForce c 0 true).toOption = some [] ∧ strmState.statsDone c 9 = true ∧
    strmState.rowsStep c 9 = true ∧ (strmState.begun 1 strmDesc).1.stale = false ∧
    (strmState.takeScale c).1.toOption = some 0x3F800000 := by decide

theorem wit_StatsAndCompressKeepTheirStream_check :
    (awake.streamCheck (awake.stream 0) true false).toOption = none ∧ awake.goes 1 strmDesc = true ∧
    awake.goes 2 strmDesc = true ∧ (awake.begun 2 strmDesc).2.streamHeld (awake.begun 2 strmDesc).1 = false := by decide

/-- A store of four FP32 values as a stored-mode span at 0x2000, and its EXPAND and ACT_LOAD. -/
def saveDesc : Desc := desc [(0x20, 0x1000), (0x28, 0x2000), (0x30, 4), (0x35, 0x80), (0x36, 1), (0x3C, 0x1000)]
def savedBytes : Bytes :=
  (saveHdr saveDesc 0 1 144).toBytes ++
  ((packSegment (VFmt.ofCode 8) false 0 [(0, 0x3F800000), (1, 0xC0000000), (2, 0), (3, 0x40400000)] none).map
    fun b => b.bytes).flatten
def savedState : State := bytes 0x2000 savedBytes awake
def loadDesc (out cap : Nat) : Desc := desc [(0x20, 0x2000), (0x28, 0x9000), (0x30, cap), (0x35, out * 16)]

theorem wit_ExpandLoadAndSaveStayWithinTheirOutput :
    strmState.goes 6 saveDesc = true ∧ (strmState.begun 6 saveDesc).2.saveCheck (strmState.begun 6 saveDesc).1 = none ∧
    (strmState.begun 6 saveDesc).2.freePiers ≠ [] ∧ strmState.memPoison = [] := by decide

theorem wit_ExpandLoadAndSaveStayWithinTheirOutput_load :
    savedState.goes 7 (loadDesc 0 4) = true ∧ savedState.goes 4 (loadDesc 8 4) = true ∧
    opd (loadDesc 8 4) 0x20 8 % 64 = 0 ∧ opd (loadDesc 8 4) 0x28 8 % 64 = 0 ∧
    opBits (loadDesc 8 4) 0x35 1 7 4 = 8 ∧ opBits (loadDesc 0 4) 0x35 1 7 4 = 0 ∧
    checkSpanHdr (savedState.accept 2) (savedState.hostSpan 0x2000) = none ∧
    checkSpanHdr (awake.accept 2) (awake.hostSpan 0x2000) = some 0x33 ∧
    expandShape (parseSpanHdr (savedState.hostSpan 0x2000).raw) true false false 0 4 = none ∧
    expandShape (parseSpanHdr (savedState.hostSpan 0x2000).raw) false false false 8 4 = none ∧
    ((savedState.begun 7 (loadDesc 0 4)).2.freePiers ≠ []) := by decide +kernel

/-- A record for UPDATE at 0x3000: plain descent of four FP32 weights at 0x1100 by a dense gradient at 0x1000. -/
def updState : State :=
  words 0x3000 [0x04, 0, 4, 0, 0, 0, 0x1100, 0, 0, 0, 0, 0, 0, 0, 0x1000, 0] (words 0x1000 [0x3F800000, 0xC0000000, 0, 0x40400000] awake)
def updDesc : Desc := desc [(0x20, 0x3000), (0x28, 9)]

/-- ATOMIC_MAX of the four values at 0x1000 into the cells at 0x1100, and of one inline operand. -/
def maxDesc : Desc := desc [(0x20, 0x1000), (0x28, 0x1100), (0x36, 4)]
def maxInline : Desc := desc [(0x20, 0x3F800000), (0x28, 0x1100), (0x36, 1), (0x38, 1)]
/-- RESCALE of four int32 values to BF16 codes, and DOT of two FP32 tensors of four values. -/
def rescaleDesc : Desc := desc [(0x20, 0x1000), (0x28, 0x1100), (0x30, 0x3F800000), (0x34, 0x3F800000), (0x38, 4), (0x3D, 0x60)]
def dotDesc : Desc := desc [(0x20, 0x1000), (0x28, 0x1000), (0x30, 0x1200), (0x38, 4), (0x3E, 0x88), (0x3F, 0x40)]

theorem wit_AbutmentsComputeInPlace :
    updState.calm = true ∧ updState.mem.wf = true ∧ (∀ n, n < 8 → updState.abutFree n = true) ∧
    (∀ n, n < 8 → updState.abutGone n = false) := by decide

theorem wit_AbutmentsComputeInPlace_max :
    updState.goes 0x16 maxDesc = true ∧ opBit maxDesc 0x35 7 = false ∧ maxBad maxDesc = false ∧
    updState.goes 0x16 maxInline = true ∧ opBit maxInline 0x38 0 = true ∧ maxBad maxInline = false := by decide

theorem wit_AbutmentsComputeInPlace_rescale :
    selState.calm = true ∧ selState.goes 0x20 rescaleDesc = true ∧ opBits rescaleDesc 0x3F 1 7 6 = 0 ∧
    opBits rescaleDesc 0x3D 1 7 4 = 6 ∧ opd rescaleDesc 0x20 8 % 64 = 0 ∧ opd rescaleDesc 0x28 8 % 64 = 0 ∧
    opd rescaleDesc 0x38 5 = 4 ∧ scaleBad (opd rescaleDesc 0x30 4) = false ∧ scaleBad (opd rescaleDesc 0x34 4) = false := by
  decide

theorem wit_AbutmentsComputeInPlace_dot :
    updState.goes 0x20 dotDesc = true ∧ opBits dotDesc 0x3F 1 7 6 = 1 ∧ dotFmt (opBits dotDesc 0x3E 1 7 4) = true ∧
    dotInt 8 = false ∧ opBits dotDesc 0x3F 1 5 4 = 0 ∧ opd dotDesc 0x20 8 % 64 = 0 ∧ opd dotDesc 0x30 8 % 64 = 0 ∧
    opd dotDesc 0x38 4 ≠ 0 := by decide

theorem wit_AbutmentsComputeInPlace_update :
    let u := parseUpd (updState.rd 0x3000 256)
    updState.goes 0x21 updDesc = true ∧ opd updDesc 0x20 8 = 0x3000 ∧ opBits updDesc 0x2C 1 1 0 = 0 ∧
    u.formatBad 0 = false ∧ u.boundsBad 0x3000 0 = false ∧ u.nonfinite 0 = false ∧ u.gSrc = 0 := by decide

/-- R232, R233: NOP is outstanding no more, and has been dispatched. -/
theorem test_nop : (ran (.nop desc0) awake).q.live = [] ∧ (ran (.nop desc0) awake).reg R.qmgrDispatchLo = 1 := by decide
/-- R235: a FENCE waits for the earlier descriptor of its ring. -/
theorem test_fence : ((ran (.fence desc0) oneLive).q.live.map fun l => l.phase) = [.remote, .fence [0]] ∧
    (ran (.fence desc0) awake).q.live = [] := by decide
theorem test_counter_add : (ran (.counterAdd (desc [(0x20, 5), (0x24, 7)])) awake).fld (ctrBase 5) Ctr.value = 7 := by decide
/-- R86: of 5, 10, 7 and 1 the two largest are taken; the least of them is 7, at index 2. -/
theorem test_select : (pick true 2 [(0, 5), (1, 10), (2, 7), (3, 1)]).s = 2 ∧
    (pick true 2 [(0, 5), (1, 10), (2, 7), (3, 1)]).key = 7 ∧
    (pick true 2 [(0, 5), (1, 10), (2, 7), (3, 1)]).idx = 2 := by decide
/-- R92, R93: the shared index 3 carries 1.0 + 2.0 = 3.0, one duplicate; of entries 3, 7, 5, 4 the first two count. -/
theorem test_merge :
    ((mergeGroups false 2 [⟨0, 3, 0x3F800000, false⟩, ⟨1, 3, 0x40000000, false⟩]).map fun o => (o.idx, o.val, o.dup)) =
      [(3, 0x40400000, 1)] ∧
    ((inOrderPart ([3, 7, 5, 4].map fun i => ⟨0, i, 0, false⟩)).1.map fun e => e.idx) = [3, 7] := by decide
/-- R119: a context of reserved formats ends COMPRESS with FORMAT_VERSION, in COMPRESS_STATUS too; STATS completes. -/
theorem test_compress : (ran (.compress strmDesc) awake).fld (strmBase 0) Strm.compressStatus = 0x70 := by decide
theorem test_stats : (ran (.stats strmDesc) awake).q.live = [] := by decide
/-- R160: an output smaller than the span's LENGTH of four gives BOUNDS; ACT_LOAD of that span into four elements
passes. -/
theorem test_expand : expandShape (parseSpanHdr savedBytes) false false false 8 3 = some 0x23 := by decide
theorem test_act_load : expandShape (parseSpanHdr savedBytes) true false false 0 4 = none := by decide
/-- R162: a capacity below the span's worst size gives BOUNDS and stores nothing. -/
theorem test_act_save :
    (ran (.actSave (desc [(0x20, 0x1000), (0x28, 0x2000), (0x30, 4), (0x35, 0x80), (0x36, 1), (0x3C, 8)])) strmState).mem =
      strmState.mem := by decide
/-- R207: max(-2.0, 1.0) is 1.0, and +0 counts above -0. -/
theorem test_atomic_max : maxCell 0xC0000000 0x3F800000 = (0x3F800000, 0, false) ∧ maxCell 0x80000000 0 = (0, 0, false) := by
  decide
/-- R210: 5 rescaled by 1.0 is 5.0, BF16 0x40A0. -/
theorem test_rescale : (rescaleOut 6 0x3F800000 0x3F800000 5).1 = 0x40A0 := by decide
/-- R212: 1 + 4 + 9 = 14.0 in the record's first word. -/
theorem test_dot : (dotRecord (dotSums false 0 8 8 0 0 [(0x3F800000, 0x3F800000), (0x40000000, 0x40000000),
    (0x40400000, 0x40400000)]) 3 false none).take 4 = toLE 4 0x41600000 := by decide
/-- R221: plain descent with LR 0 and WD 0 leaves the weight 1.0. -/
theorem test_update : encodeF .fp32 (updArith (parseUpd (zeros 256)) (decodeF .fp32 0x3F800000).1 .zero .zero
    (decodeF .fp32 0x40400000).1).w = 0x3F800000 := by decide

/-! ### Descriptors of the transport, of groups and of Caissons -/

/-- A WRITE and a SEND of 64 bytes, and a FLUSH, on connection 3; connection 4 is not enabled, 5 is in HELLO. -/
def moveDesc (c len : Nat) : Desc := desc [(0x20, 0x1000), (0x28, 0x40), (0x30, 0x77), (0x34, len), (0x38, c)]
def upMore : State := flds (connBase 5) [(Conn.enable, 1), (Conn.state, 1)] up3

theorem wit_TransportDescriptorsPostTheirMessages :
    upMore.ctx.wf = true ∧ upMore.upsets = [] ∧ touches 16 (connBase 3) 256 upMore.ctxPoison = false ∧
    (∀ op ∈ [0x10, 0x11, 0x12, 0x15], upMore.goes op (moveDesc 3 64) = true ∧
      upMore.moveCheck op (moveOps (moveDesc 3 64)) = none ∧ upMore.goes op (moveDesc 4 64) = true ∧
      upMore.moveCheck op (moveOps (moveDesc 4 64)) = some 0x23 ∧
      upMore.moveCheck op (moveOps (moveDesc 5 64)) = none) ∧
    opBits (moveDesc 3 64) 0x38 2 14 0 = 3 ∧ upMore.connState 3 = 2 ∧ upMore.connState 5 = 1 := by decide

theorem wit_TransportDescriptorsPostTheirMessages_remote :
    let add := desc [(0x20, 5), (0x22, 1), (0x24, 7), (0x28, 3)]
    let max := desc [(0x20, 0x1000), (0x28, 0x40), (0x34, 3), (0x35, 0x80), (0x36, 1)]
    upMore.goes 0x43 add = true ∧ opBit add 0x22 0 = true ∧ opBit add 0x22 1 = false ∧
    opBits add 0x28 2 14 0 = 3 ∧ upMore.connCheck 3 0x07 = none ∧ opBit (desc [(0x22, 3)]) 0x22 1 = true ∧
    upMore.goes 0x16 max = true ∧ opBit max 0x35 7 = true ∧ maxBad max = false ∧ opBits max 0x34 2 14 0 = 3 ∧
    maxBad (desc [(0x35, 0x80)]) = true ∧ upMore.connState 3 = 2 := by decide

/-- The context of connection 3 is poisoned, so every descriptor that names it ends. -/
def spoilt3 : State := { upMore with ctxPoison := [connBase 3 / 16 + 4] }

theorem wit_TransportDescriptorsPostTheirMessages_spoilt :
    spoilt3.ctx.wf = true ∧ spoilt3.upsets = [] ∧ touches 16 (connBase 3) 256 spoilt3.ctxPoison = true ∧
    (∀ op ∈ [0x10, 0x11, 0x12, 0x15], spoilt3.goes op (moveDesc 3 64) = true) ∧
    spoilt3.goes 0x43 (desc [(0x20, 5), (0x22, 1), (0x24, 7), (0x28, 3)]) = true := by decide

/-- RELAYs into 0x6000 from connection 3, into an odd address, and from an ended connection. -/
def relayDesc (dst c : Nat) : Desc := desc [(0x20, dst), (0x28, 64), (0x2C, c)]
def relayPkt : Packet := { pkt3 with opcode := 4, first := true, last := true, payload := [1, 2, 3, 4], g0 := 4 }
def relayState : State :=
  let s := flds (connBase 6) [(Conn.enable, 1), (Conn.state, 3), (Conn.endStatus, 0x60)] up3
  { s with q := { s.q with msgs := [⟨3, 0, 0, [relayPkt]⟩] } }

theorem wit_RelayWaitsOrPlacesItsMessage :
    relayState.goes 0x44 (relayDesc 0x6000 3) = true ∧ relayState.ctx.wf = true ∧ relayState.q.live = [] ∧
    relayState.cleanTables = true ∧ (relayOps (desc [(0x20, 0x6000), (0x28, 2), (0x2C, 3)])).cap < msgLen relayPkt ∧
    (relayOps (relayDesc 0x6001 3)).dst % 64 ≠ 0 ∧ relayState.connState 6 = 3 ∧
    (relayOps (relayDesc 0x6000 3)).fwd = false ∧ relayState.connState 3 ≠ 3 ∧
    (relayState.q.msgs.find? fun h => decide (h.conn = 3 ∧ h.channel = 0 ∧ h.seq = 0)) = some ⟨3, 0, 0, [relayPkt]⟩ ∧
    msgLen relayPkt ≤ (relayOps (relayDesc 0x6000 3)).cap ∧ relayPkt.ctrEn = false ∧ relayPkt.poison = false ∧
    relayState.mem.wf = true ∧ relayState.x.out = [] ∧ up3.q.msgs = [] ∧ up3.waitingPkts 3 0 0 = [] := by decide

/-- Stream 0 as a receive role's context; descriptors whose sequence is the next, behind and ahead. -/
def recvDesc (seq : Word) (flags : Nat) : Desc :=
  { desc [(0x22, flags), (0x24, 9), (0x28, 0x7000)] with seq := seq }
def seqLive : State :=
  { strmState with q := { strmState.q with
      nextId := 1, live := [⟨0, 0, 0, 0x13, recvDesc 1 5, 0, none, false, false, .seq (strmState.ctx.readN (strmBase 0) 256)⟩] } }

theorem wit_ReceiveRolesOpenInSequence :
    let d := recvDesc 1 7
    let o := recvOps d
    let c := strmState.stream o.ctx
    strmState.cleanTables = true ∧ strmState.ctx.wf = true ∧ strmState.q.live = [] ∧ strmState.q.inbound = [] ∧
    strmState.goes 0x13 d = true ∧ opBit d 0x22 0 = true ∧ recvFormatOk 0x13 o c = true ∧
    strmState.recvBoundsOk d o c = true ∧ strmState.membersPoisoned 0 = false ∧ strmState.levelOneMember 0 = false ∧
    strmState.seqGap d = 0 ∧ 2 ^ 31 ≤ strmState.seqGap (recvDesc 0 7) ∧ strmState.seqGap (recvDesc 2 7) = 1 ∧
    strmState.instOf 0 0 1 = none ∧ (strmState.recvReads o c).toOption = some ([], 0) ∧
    (∀ n, n < 8 → strmState.abutFree n = true ∧ strmState.abutGone n = false) ∧ o.deadline = 0 ∧ o.clear = true ∧
    strmState.calm = true ∧ strmState.mem.wf = true := by decide

/-- A sparse stream, whose receive role ACCUM_SPARSE opens. -/
theorem wit_ReceiveRolesOpenInSequence_sparse :
    let s := flds (strmBase 0) [(Strm.mode, 0), (Strm.k, 2)] strmState
    s.goes 0x14 (recvDesc 1 7) = true ∧ recvFormatOk 0x14 (recvOps (recvDesc 1 7)) (s.stream 0) = true ∧
    s.recvBoundsOk (recvDesc 1 7) (recvOps (recvDesc 1 7)) (s.stream 0) = true := by decide

theorem wit_ReceiveRolesOpenInSequence_open :
    let d := recvDesc 1 5
    let was := strmState.ctx.readN (strmBase 0) 256
    seqLive.ctx.wf = true ∧ (∃ l ∈ seqLive.q.live, l.phase = .seq was ∧ l.desc = d) ∧ seqLive.up 2 = true ∧
    seqLive.seqGap d = 0 ∧ seqLive.q.live.length = 1 ∧ seqLive.instOf 0 0 1 = none ∧
    ((seqLive.asRead 0 was).recvReads (recvOps d) ((seqLive.asRead 0 was).stream 0)).toOption = some ([], 0) ∧ (recvOps d).deadline = 0 ∧
    (recvOps d).clear = false ∧ 1 ≤ seqLive.fld (grpBase 0) Grp.nMembers := by decide +kernel

/-- Descriptors that fail orders 1 and 2 (R180): a reserved ACC_KIND and a misaligned accumulator. -/
theorem wit_ReceiveRolesOpenInSequence_checks :
    let a := { desc [(0x22, 0xF1), (0x24, 9), (0x28, 0x7000)] with seq := 1 }
    let b := { desc [(0x22, 5), (0x24, 9), (0x28, 0x7001)] with seq := 1 }
    strmState.goes 0x13 a = true ∧ recvFormatOk 0x13 (recvOps a) (strmState.stream (recvOps a).ctx) = false ∧
    strmState.goes 0x13 b = true ∧ recvFormatOk 0x13 (recvOps b) (strmState.stream (recvOps b).ctx) = true ∧
    strmState.recvBoundsOk b (recvOps b) (strmState.stream (recvOps b).ctx) = false := by decide

/-- A block and a span of stream 0 for rank 0, and what COMPRESS of step 9 left. -/
def span0 : Span := ⟨0, 0, 0, 0, 0, 9, 0, 0, [], [], [], []⟩
def sendState (k : Pack) : State :=
  let s := flds (strmBase 0) [(Strm.compressStep, 9)] strmState
  { s with q := { s.q with packs := [k] } }
def skipPack : Pack := ⟨0, 9, 0, 0, false, true, []⟩
def spanPack : Pack := ⟨0, 9, 0, 0, false, false, [span0]⟩

theorem wit_SendRolesTakeAndReturnTheirSpans :
    let d := strmDesc
    ∀ s ∈ [sendState skipPack, sendState spanPack],
      s.ctx.wf = true ∧ s.cleanTables = true ∧ s.goes 0x13 d = true ∧ opBit d 0x22 0 = false ∧
      (s.begun 0x13 d).2.streamHeld (s.begun 0x13 d).1 = false ∧ modeFits 0x13 (s.fld (strmBase 0) Strm.mode) = true ∧
      s.fld (strmBase 0) Strm.compressStep = opd d 0x24 4 ∧ s.groupFits 0 = true ∧ s.membersOk 0 = true ∧
      s.membersPoisoned 0 = false ∧ s.levelOneMember 0 = false ∧ s.q.packs.length = 1 ∧ s.endedOwners 0 = [] := by decide

/-- A context that last compressed another step, and a sparse one. -/
theorem wit_SendRolesTakeAndReturnTheirSpans_step :
    strmState.fld (strmBase 0) Strm.compressStep ≠ opd strmDesc 0x24 4 ∧ strmState.goes 0x13 strmDesc = true ∧
    modeFits 0x14 ((flds (strmBase 0) [(Strm.mode, 0)] strmState).fld (strmBase 0) Strm.mode) = true := by decide

def heldState : State :=
  { strmState with q := { strmState.q with retained := [span0], held := [⟨0, 0, 9, 0, 0, 1, 0x3F800000, [zeros 64, zeros 64], [0, 1], []⟩] } }

theorem wit_SendRolesTakeAndReturnTheirSpans_return :
    let mine (x : Span) := decide (x.ctx = 0 ∧ x.channel = 0 ∧ x.seq = 0) && (false || x.rank == 0)
    heldState.cleanTables = true ∧ heldState.goes 0x22 (desc [(0x22, 2)]) = true ∧
    heldState.goes 0x22 (desc [(0x22, 3), (0x24, 9)]) = true ∧
    (heldState.begun 0x22 (desc [(0x22, 2)])).2.streamHeld (heldState.begun 0x22 (desc [(0x22, 2)])).1 = false ∧
    heldState.q.retained.filter mine ≠ [] ∧ strmState.q.retained.filter mine = [] ∧
    opBit (desc [(0x22, 3), (0x24, 9)]) 0x22 0 = true ∧
    (∃ x ∈ (heldState.q.held.filter fun h => decide (h.ctx = 0 ∧ h.step = 9)).map fun h => h.part false 0, x.1 ≠ []) ∧
    opBit (desc [(0x22, 2)]) 0x22 1 = true ∧ heldState.freePiers ≠ [] ∧
    (∀ x ∈ (heldState.q.held.filter fun h => decide (h.ctx = 0 ∧ h.step = 9)).map fun h => h.part false 7, x.1 = []) := by
  decide

/-- A send role whose one owner's span is held for room. -/
def sendRole : SendRole := ⟨0, 0, 0, 0, false, [⟨0, false, true, none⟩], none, false, false, false⟩
def roomState : State :=
  { sendState spanPack with q := { (sendState spanPack).q with
      nextId := 1, live := [⟨0, 0, 0, 0x13, strmDesc, 0, none, false, false, .send sendRole⟩] } }

theorem wit_SendRolesTakeAndReturnTheirSpans_room :
    roomState.up 2 = true ∧ (∃ l, roomState.q.live = [l] ∧ l.phase = .send sendRole) ∧
    sendRole.owners = [⟨0, false, true, none⟩] ∧ roomState.packedFor 0 0 = some span0 ∧
    roomState.retainRoom span0 = true := ⟨by decide, ⟨_, rfl, rfl⟩, by decide, by decide, by decide⟩

/-- An instance open with a deadline of 100 ns, over an accumulator of four values. -/
def openInst (deadline : Nat) : Inst :=
  ⟨1, 6, 4, 1, 0, [], 0, 1, 0x7000, 0, 4, deadline, 9, false, 0, [], [], false, none, none⟩
def instState (deadline : Nat) : State :=
  { strmState with q := { strmState.q with
      nextId := 1, live := [⟨0, 0, 0, 0x13, recvDesc 1 5, 0, none, false, false, .inst (openInst deadline)⟩] } }

theorem wit_DeadlineClosesItsInstance :
    let s := instState 100
    s.up 2 = true ∧ s.ctx.wf = true ∧ (s.q.live.map fun l => l.id).Nodup ∧ (∀ l ∈ s.q.live, l.id < s.q.nextId) ∧
    (∃ l, s.instOf 0 0 1 = some (l, openInst 100)) ∧ (s.reach 100).now = 100 ∧ s.instFree (openInst 100) = true ∧
    s.q.inbound = [] ∧ (openInst 100).pend = [] ∧ s.instOf 0 0 2 = none :=
  ⟨by decide, by decide, by decide, by decide, ⟨_, rfl⟩, by decide, by decide, by decide, by decide, by decide⟩

/-- Entry 0 is ARMED over connection 3, with slots and a log of 1 MiB; entry 1 is OFF. -/
def armed : State :=
  let s := regs [(R.snapCStat 0, 0x40000000), (R.snapCSize 0, 0x1001), (R.snapCConn 0, 3)] up3
  { s with snap := { s.snap with caissons := [{ Caisson.reset with commits := [some ⟨1, 5, 0, 0, 0, 0⟩, none] }, Caisson.reset] } }
/-- One segment of 64 bytes at 0x1000 in a table at 0x3000; the snapshot of step 9 begins, and goes on. -/
def snapState (begun : Bool) : State :=
  let s := words 0x3000 [0x1000, 0, 64, 0x10000] armed
  if begun then { s with snap := { s.snap with caissons :=
    [{ Caisson.reset with openAt := some 1, step := 9, off := 0x10000 }, Caisson.reset] } } else s
def snapDesc (flags : Nat) : Desc := desc [(0x20, 0x3000), (0x28, 0x3100), (0x30, 9), (0x34, 1), (0x36, flags)]

theorem wit_SnapshotDescriptorsBecomeJobs :
    ∀ p ∈ [(snapState false, snapDesc 0x81), (snapState true, snapDesc 0x01)],
      let s := p.1
      let d := p.2
      let o := snapOps d
      let segs := s.segTable o.table o.nSegs
      s.ctx.wf = true ∧ s.cleanTables = true ∧ s.shaped = true ∧ s.snap.jobs = [] ∧ s.goes 0x30 d = true ∧
      s.snapBusy o.entries = false ∧ o.entries = [0] ∧ o.table % 64 = 0 ∧ o.posAddr % 64 = 0 ∧ o.nSegs = 1 ∧
      s.entriesCheck o.entries = none ∧ o.entries.any (s.openBad o) = false ∧ o.entries.any (s.segsBad o segs) = false ∧
      s.entriesConn o.entries = none ∧ s.poisoned o.table (16 * o.nSegs) = false ∧
      (∀ x ∈ segs, s.poisoned x.addr x.len = false) ∧ (o.isCommit = true → s.poisoned o.posAddr 64 = false) := by decide

/-- A span of step 9 at 0x2000, and its LOG_APPEND to entry 0. -/
def logState : State :=
  bytes 0x2000 ({ saveHdr saveDesc 0 1 144 with step := 9 }.toBytes ++ savedBytes.drop 64) armed
def logDesc : Desc := desc [(0x20, 0x2000), (0x28, 9), (0x2E, 1)]

theorem wit_SnapshotDescriptorsBecomeJobs_log :
    let o := logOps logDesc
    let x := logState.hostSpan o.addr
    logState.goes 0x32 logDesc = true ∧ o.entries = [0] ∧ o.addr % 64 = 0 ∧ checkSpanHdr (logState.accept 2) x = none ∧
    (parseSpanHdr x.raw).step = o.step ∧ logState.entriesCheck o.entries = none ∧ logState.logReady o 0 = true ∧
    (logState.caisson 0).place (logState.logBytes 0) (64 + alignUp x.raw.length 64) ≠ none ∧
    logState.entriesConn o.entries = none := by decide +kernel

def restDesc : Desc := desc [(0x20, 0x3000), (0x28, 0x3200), (0x3C, 1)]
def expDesc : Desc := desc [(0x20, 0x4000), (0x2C, 3)]

theorem wit_SnapshotDescriptorsBecomeJobs_restore :
    let s := snapState false
    let o := restOps restDesc
    s.goes 0x31 restDesc = true ∧ o.table % 64 = 0 ∧ o.report % 64 = 0 ∧ o.log % 64 = 0 ∧ o.nSegs = 1 ∧
    s.slotMib o.entry ≠ 0 ∧ s.poisoned o.table (16 * o.nSegs) = false ∧
    s.connCheck (s.entryConn o.entry) 0x02 = none ∧ s.goes 0x33 expDesc = true ∧ (expOps expDesc).addr % 4096 = 0 ∧
    s.slotMib (expOps expDesc).entry ≠ 0 ∧ s.connCheck (s.entryConn (expOps expDesc).entry) 0x02 = none ∧
    s.connCheck (expOps expDesc).conn 0x01 = none := by decide

/-- Group 0 of two: rank 0 here and rank 1 at node 7 on connection 3; or this chip as rank 1. -/
def grp2 (me : Nat) : State :=
  words 0xA000 [7 * me, 0x8003 * me, 7 * (1 - me), 0x8003 * (1 - me)]
    (flds (grpBase 0) [(Grp.nMembers, 2), (Grp.myRank, me), (Grp.memberAddr, 0xA000)] up3)
def barDesc (fanout : Nat) : Desc := desc [(0x20, fanout), (0x24, 100)]

theorem wit_BarrierOpensItsRecord :
    (grp2 0).goes 0x40 (barDesc 2) = true ∧ (grp2 1).goes 0x40 (barDesc 16) = true ∧ (grp2 0).ctx.wf = true ∧
    opBits (barDesc 1) 0x20 1 4 0 = 1 ∧ opBits (barDesc 17) 0x20 1 4 0 = 17 ∧ awake.groupFits 0 = false ∧
    (grp2 0).groupFits 0 = true ∧ (grp2 0).membersPoisoned 0 = false ∧ (grp2 0).bar 0 0 0 = none ∧
    (grp2 0).clock.bars.length < 256 ∧ childrenOf 2 2 0 = [1] ∧ childrenOf 2 16 1 = [] ∧
    (grp2 1).fld (grpBase 0) Grp.myRank = 1 := by decide

/-- A table file at 0x3000 for an alphabet, with two lengths of 1. -/
def tblFile (al : Nat) : Bytes :=
  let f := toLE 4 0x54584B41 ++ [1, 0] ++ toLE 2 al ++ zeros 8 ++ [0x11] ++ zeros (0x9C - 17)
  f ++ toLE 4 (crc32c f)
def tblState (al : Nat) : State := bytes 0x3000 (tblFile al) (grp2 1)
def instDesc (action gen : Nat) : Desc :=
  desc [(0x20, 0x3000), (0x28, action * 64 + 1), (0x29, gen), (0x2A, 6), (0x2C, 1)]
/-- Slot 1 holds a table of generation 1. -/
def loaded (st : TblState) (s : State) : State :=
  { s with q := { s.q with tables := (List.replicate 16 ⟨.free, 0, 0, 0, 0, [], [], false⟩).set 1 ⟨st, 1, 9, 258, 0, [1, 1], [], false⟩ } }

theorem wit_TableInstallAndSlotsFollowTheirStates_slot :
    let s := loaded .retiring awake
    s.shaped = true ∧ (loaded .loaded awake).goes 0x41 (instDesc 3 1) = true ∧ (loaded .loaded (grp2 1)).goes 0x41 (instDesc 2 1) = true ∧
    (loaded .loaded (grp2 1)).installFields 0 (installOps (instDesc 2 1)) = none ∧ s.up 2 = true ∧
    (s.tbl 1).state = .retiring ∧ s.slotRefs 1 = 0 ∧ ¬ ((s.tbl 15).state = .retiring ∧ s.slotRefs 15 = 0) := by decide

set_option maxRecDepth 20000 in
/-- A good file for the exponents of FP32 (alphabet 258), and one with a wrong CRC. -/
theorem wit_TableInstallAndSlotsFollowTheirStates_file :
    (tblState 258).shaped = true ∧ (tblState 258).goes 0x41 (instDesc 0 1) = true ∧
    (tblState 258).installFile (installOps (instDesc 0 1)) = none ∧ (installOps (instDesc 0 1)).action = 0 ∧
    (grp2 1).installFile (installOps (instDesc 0 1)) = some 0x33 ∧
    (awake.goes 0x41 (instDesc 2 0) = true ∧ awake.installFields 0 (installOps (instDesc 2 0)) ≠ none) := by decide +kernel

theorem loaded_names (g n : Nat) : (loaded .loaded awake).groupNames g n = false := by
  have h : (loaded .loaded awake).ctx = [] := rfl
  have hf : ∀ b c, (loaded .loaded awake).fld b (Grp.defFmt c) = 0 := by
    intro b c; rw [State.fld, State.ctxRd, h]; rfl
  have hp : ∀ b c, (loaded .loaded awake).pend b c = 0 := by
    intro b c; rw [State.pend, State.fld, State.ctxRd, h]; rfl
  simp only [State.groupNames, hf, hp, Nat.zero_testBit, Bool.false_and, Bool.or_self]
  simp

theorem wit_TableInstallAndSlotsFollowTheirStates_retire :
    (loaded .loaded awake).installFields 0 (installOps (instDesc 3 1)) = none := by
  have ha : (installOps (instDesc 3 1)).action = 3 := by decide
  have ht : ((loaded .loaded awake).tbl (installOps (instDesc 3 1)).slot).state = .loaded := by decide
  have hl : ((List.range 4096).any fun g => (loaded .loaded awake).groupNames g (installOps (instDesc 3 1)).slot) = false :=
    List.any_eq_false.mpr fun g _ => by rw [loaded_names]; decide
  rw [State.installFields]
  simp only [ha, ht, hl]
  decide

/-- Ring 0 of two entries at 0x3000 with one descriptor, for queue 1. -/
def ringState (b : Bytes) (poison : List Nat) : State :=
  let s := bytes 0x3000 b (flds (cqBase 1) [(Cq.enable, 1), (Cq.log2Size, 2), (Cq.base, 0x8000)]
    (flds (ringBase 0) [(Ring.enable, 1), (Ring.log2Size, 1), (Ring.base, 0x3000), (Ring.pi, 1), (Ring.errCq, 1)] awake))
  { s with memPoison := poison }
def nopBytes : Bytes := [0, 0, 0, 0, 0, 0, 1] ++ zeros 57
def trigBytes : Bytes := [0, 0, 0, 0, 0, 0, 1] ++ zeros 13 ++ [0x80] ++ zeros 3 ++ [5] ++ zeros 39
def badBytes : Bytes := [0, 0, 0, 0, 32, 0, 1] ++ zeros 57

theorem wit_DescriptorReadTakesTheDescriptorAtCi :
    let p (b : Bytes) := descOf (.ring 0) ((ringState b []).ringBytes 0).1
    (∀ b ∈ [nopBytes, trigBytes, badBytes], (ringState b []).up 2 = true ∧ (ringState b []).ctx.wf = true ∧
      (ringState b []).upsets = [] ∧ (ringState b []).ctxPoison = [] ∧ (ringState b []).ringReady 0 = true ∧ ((ringState b []).ringBytes 0).2 = true) ∧
    (ringState nopBytes []).headerCheck (p nopBytes).1 (p nopBytes).2 = none ∧ (p nopBytes).2.trigEn = false ∧
    (ringState trigBytes []).headerCheck (p trigBytes).1 (p trigBytes).2 = none ∧ (p trigBytes).2.trigEn = true ∧
    (ringState badBytes []).headerCheck (p badBytes).1 (p badBytes).2 = some 0x23 ∧
    (ringState badBytes []).refusalWaits 0 (p badBytes).2 = false ∧
    ((ringState nopBytes [0xC0]).ringBytes 0).2 = false := by decide

/-- Its header fails, and queue 1, which takes the record, has no free credit: counted once. -/
theorem wit_DescriptorReadTakesTheDescriptorAtCi_waits :
    let s := flds (cqBase 1) [(Cq.resv, 4)] (ringState badBytes [])
    let p := descOf (.ring 0) (s.ringBytes 0).1
    s.up 2 = true ∧ s.ringReady 0 = true ∧ s.headerCheck p.1 p.2 = some 0x23 ∧ s.refusalWaits 0 p.2 = true ∧
    s.q.headWaits.contains 0 = false ∧ awake.ringReady 0 = false := by decide

/-- R263: one message of 64 bytes waits on connection 3, or has gone; the descriptor waits for it. -/
theorem test_write : ((ran (.write (moveDesc 3 64)) upMore).x.out.length + (ran (.write (moveDesc 3 64)) upMore).x.kept.length,
    (ran (.write (moveDesc 4 64)) upMore).q.live.length) = (1, 0) := by decide +kernel
theorem test_read : (ran (.read (moveDesc 3 64)) upMore).x.awaits.length = 1 := by decide +kernel
theorem test_send : (ran (.send (moveDesc 4 64)) upMore).q.live.length = 0 := by decide +kernel
theorem test_flush : (ran (.flush (moveDesc 3 0)) upMore).q.live.length = 1 := by decide +kernel
/-- R195: the held message's four bytes stand at DST_ADDR. -/
theorem test_relay : (ran (.relay (relayDesc 0x6000 3)) relayState).rd 0x6000 4 = [1, 2, 3, 4] := by decide +kernel
/-- R172: the next sequence opens its instance; one behind completes at once; one ahead waits. -/
theorem test_accum : ((ran (.accum (recvDesc 2 5)) strmState).q.live.map fun l => l.phase) =
      [.seq (strmState.ctx.readN (strmBase 0) 256)] ∧
    (ran (.accum (recvDesc 0 5)) strmState).q.live = [] := by decide +kernel
theorem test_accum_sparse : (ran (.accumSparse (recvDesc 1 5)) strmState).q.live = [] := by decide +kernel
theorem test_instance_open : ((ran (.instanceOpen 0 0 1) seqLive).q.live.any fun l => match l.phase with
    | .inst i => i.accAddr == 0x7000
    | _ => false) = true := by
  decide +kernel
/-- R190: the owner's block goes, the other rank's stays; ALL takes both. -/
theorem test_residual_return : (ran (.residualReturn (desc [(0x22, 2)])) heldState).q.retained = [] ∧
    ((ran (.residualReturn (desc [(0x22, 3), (0x24, 9)])) heldState).q.held.map fun h => h.ranks) = [[1]] ∧
    (ran (.residualReturn (desc [(0x22, 3), (0x24, 9), (0x28, 0x80000000)])) heldState).q.held = [] := by decide +kernel
theorem test_retained_room : (ran .retainedRoom roomState).q.retained = [span0] := by decide +kernel
/-- R185: at its deadline the instance closes and LAST_SEQ takes its sequence. -/
theorem test_deadline : (ran (.deadline 0 0 1) (instState 100)).q.live = [] ∧
    (ran (.deadline 0 0 1) (instState 100)).fld (grpBase 0) (Grp.lastSeq 0) = 1 ∧
    ran (.deadline 0 0 1) (instState 0) = instState 0 := by decide +kernel
theorem test_snapshot : ((ran (.snapshot (snapDesc 0x81)) (snapState false)).caisson 0).openAt = some 1 := by decide +kernel
theorem test_log_append : ((ran (.logAppend logDesc) logState).caisson 0).next = 1 := by decide +kernel
theorem test_restore : ((ran (.restore restDesc) (snapState false)).snap.jobs.map fun j => j.stage) = [.resHead] := by
  decide +kernel
theorem test_snapshot_export : ((ran (.snapshotExport expDesc) (snapState false)).snap.jobs.map fun j => j.stage) =
    [.expHead] := by decide +kernel
/-- R307: rank 1 of two has no child and sends its arrival; a FANOUT of 1 gives BOUNDS. -/
theorem test_barrier : ((ran (.barrier (barDesc 2)) (grp2 1)).clock.bars.map fun b => b.sent) = [true] ∧
    (ran (.barrier (barDesc 1)) (grp2 1)).clock.bars = [] := by decide +kernel
/-- R149: action 2 sets PEND and PEND_EPOCH. -/
theorem test_table_install :
    (ran (.tableInstall (instDesc 2 1)) (loaded .loaded (grp2 1))).fld (grpBase 0) Grp.pendEpoch = 1 := by decide +kernel
theorem test_slot_freed : ((ran (.slotFreed 1) (loaded .retiring awake)).tbl 1).state = .free ∧
    ((ran (.slotFreed 1) (loaded .retiring awake)).tbl 1).gen = 1 := by decide +kernel
/-- R227: CI moves past the descriptor that is read; one that is poisoned stops the ring. -/
theorem test_descriptor_read : (ran (.descriptorRead 0) (ringState nopBytes [])).fld (ringBase 0) Ring.ci = 1 ∧
    (ran (.descriptorRead 0) (ringState nopBytes [0xC0])).flag (ringBase 0) Ring.stopped = true := by decide

/-! ### Packets -/

/-- Region 0 at 0x20000 of 4 KiB, VALID for reads, writes and atomics under tag 9; connection 3 may raise counters 5 to
8, and its receive queue 2 has one slot of 256 bytes. -/
def hearing : State :=
  flds (regionBase 0) [(Region.state, 1), (Region.atomic, 1), (Region.read, 1), (Region.write, 1), (Region.tag, 9),
      (Region.base, 0x20000), (Region.length, 0x1000)]
    (flds (srqBase 2) [(Srq.enable, 1), (Srq.owner, 1), (Srq.log2Slots, 1), (Srq.log2Slot, 8), (Srq.base, 0x9000), (Srq.pi, 1)]
      (flds (connBase 3) [(Conn.ctrBase, 5), (Conn.ctrCount, 4), (Conn.srq, 2)] up3))

/-- One-packet messages: of group K at address 0x10 under a key; of group M with a length; of the control stream. -/
def pktK (op : Byte) (key : Nat) (load : Bytes) : Packet :=
  { pkt3 with opcode := op, first := true, last := true, g0 := BitVec.ofNat 32 key, g1 := 0x10, payload := load }
def pktM (op : Byte) (load : Bytes) : Packet :=
  { pkt3 with opcode := op, first := true, last := true, g0 := BitVec.ofNat 32 load.length, payload := load }
def pktC (op : Byte) (load : Bytes) : Packet := { pktM op load with stream := true, g0 := 0 }
def note (kind : Nat) (rest : Bytes) : Packet := pktC 0x10 (toLE 1 kind ++ rest ++ zeros (31 - rest.length))

/-- Every row's packet reaches its checks; one that is old, one beyond the window of 256, one not newer than the last
of the acknowledgement space; and one of a reserved version. -/
theorem wit_ArrivingPacketsAreCheckedInOrder :
    let s := flds (connBase 3) [(Conn.rxExpD, 5), (Conn.rxExpC, 5), (Conn.ackRxSeq, 5)] up3
    let old := pktM 1 []
    let far := { pktM 1 [] with psn := 261 }
    (packetRows old).length = 20 ∧ s.up 4 = true ∧ s.ctx.wf = true ∧ s.cleanTables = true ∧ s.worn 3 = false ∧
    s.badHeader { old with version := 3, opcode := 0x01 } = true ∧ s.hears 0x01 old = true ∧
    streamOf 0x01 = some old.stream ∧ s.esnOf old < s.fld (connBase 3) (rxExp false) ∧ s.hears 0x01 far = true ∧
    (s.fld (connBase 3) (rxExp false) : Int) + windowOf false ≤ s.esnOf far ∧ s.hears 0x10 (pktC 0x10 []) = true ∧
    s.esnOf (pktC 0x10 []) < s.fld (connBase 3) (rxExp true) ∧ s.hears 0x20 (pktC 0x20 []) = true ∧
    streamOf 0x20 = none ∧ s.spaceNo { pktC 0x20 [] with psn := 5 } ≤ s.fld (connBase 3) Conn.ackRxSeq := by decide

theorem wit_RequestsInOrderHaveTheirEffect :
    hearing.ctx.wf = true ∧ hearing.mem.wf = true ∧ hearing.inOrder 0x01 (pktK 1 9 [1, 2]) = true ∧
    hearing.accessCheck 3 (pktK 1 9 [1, 2]) = none ∧ (pktK 1 9 [1, 2]).ctrEn = false ∧
    hearing.inOrder 0x02 (pktK 2 9 [16, 0, 0, 0]) = true ∧ hearing.accessCheck 3 (pktK 2 9 [16, 0, 0, 0]) = none ∧
    hearing.accessCheck 3 (pktK 1 8 [1, 2]) = some 0x22 ∧ hearing.accessCheck 3 (pktK 2 8 [16, 0, 0, 0]) = some 0x22 ∧
    hearing.accessCheck 3 (pktK 6 8 [1, 2, 3, 4]) = some 0x22 ∧ hearing.inOrder 0x06 (pktK 6 8 [1, 2, 3, 4]) = true := by
  decide

theorem wit_RequestsInOrderHaveTheirEffect_kept :
    let s := { hearing with ctx := (flds (grpBase 0) [(Grp.nMembers, 2)] hearing).ctx }
    let span := { saveHdr saveDesc 0 0 64 with seq := 1 }.toBytes
    hearing.inOrder 0x04 (pktM 4 [1, 2]) = true ∧ hearing.relayFor 3 0 0 = none ∧
    hearing.x.dropped.contains (3, 0, 0) = false ∧ hearing.roomFor 3 0 (pktM 4 [1, 2]) = true ∧
    s.inOrder 0x05 (pktM 5 span) = true ∧ s.roomFor 3 0 (pktM 5 span) = true ∧ offOf (pktM 5 span) = 0 ∧
    (parseSpanHdr span).channel = 0 ∧ (parseSpanHdr span).seq = 1 ∧ s.groupUsed 0 = true ∧ s.seqPast 0 0 1 = false ∧
    s.instOf 0 0 1 = none := by decide +kernel

theorem wit_RequestsInOrderHaveTheirEffect_rest :
    hearing.accessCheck 3 (pktK 6 9 [1, 2, 3, 4]) = none ∧ hearing.inOrder 0x06 (pktK 6 9 [1, 2, 3, 4]) = true ∧
    hearing.calm = true ∧ (∀ k, k < 8 → hearing.abutFree k = true ∧ hearing.abutGone k = false) ∧
    (0x20000 + addrOfPkt (pktK 6 9 [1, 2, 3, 4])) % 4 = 0 ∧
    (∀ c ∈ [5, 8], hearing.ctrAllowed 3 c = true) ∧ (∀ c ∈ [4, 9], hearing.ctrAllowed 3 c = false) ∧
    hearing.inOrder 0x07 { pktK 7 0 [] with g1 := 8, g2 := 3 } = true ∧ hearing.inOrder 0x08 (pktK 8 0 []) = true ∧
    hearing.inOrder 0x11 (pktC 0x11 [1, 2, 3]) = true ∧ hearing.ctrlTooBig 3 (pktC 0x11 [1, 2, 3]) = false ∧
    hearing.slotFree 3 = true ∧ hearing.flag (srqBase (hearing.srqOf 3)) Srq.owner = true := by decide

/-- A CTRL longer than its slot of 256 bytes can hold, and one whose receive queue has no slot. -/
theorem wit_RequestsInOrderHaveTheirEffect_ctrl :
    let big := pktC 0x11 (List.replicate 225 1)
    let none_ := flds (srqBase 2) [(Srq.ci, 1)] hearing
    hearing.inOrder 0x11 big = true ∧ hearing.ctrlTooBig 3 big = true ∧ hearing.slotFree 3 = true ∧
    none_.inOrder 0x11 (pktC 0x11 [1]) = true ∧ none_.slotFree 3 = false ∧ none_.worn 3 = false := by decide +kernel

/-- A READ of eight bytes into 0x30000 and a FLUSH wait for their answers to packet 0. -/
def waitFor (op len : Nat) : State :=
  { hearing with
    x := { hearing.x with awaits := [⟨some 0, none, 3, 0, op, len, 0, false, if op = 2 then some 0x30000 else none, []⟩] }
    q := { hearing.q with nextId := 1, live := [⟨0, 0, 0, 0x11, moveDesc 3 len, 0, none, false, false, .remote⟩] } }
def respPkt : Packet := { pktC 0x12 ([0, 8] ++ zeros 30) with g0 := 0 }
def respRead (n : Nat) : Packet := { pktM 3 (List.replicate n 7) with g0 := 0 }

theorem wit_AnswersCompleteAndAcknowledge :
    (waitFor 2 8).inOrder 0x03 (respRead 8) = true ∧ (waitFor 2 8).inOrder 0x03 (respRead 4) = true ∧
    (∃ a, (waitFor 2 8).x.awaits = [a] ∧ a.op = 2 ∧ a.answers 3 0 = true ∧ a.job = none ∧ a.dest = some 0x30000 ∧
      a.got + 4 < a.len ∧ a.len ≤ a.got + 8) ∧
    (waitFor 8 0).inOrder 0x12 respPkt = true ∧ (waitFor 8 0).cleanTables = true ∧
    (∃ a, (waitFor 8 0).x.awaits = [a] ∧ a.op = leAt respPkt.payload 1 1 ∧ a.answers 3 0 = true ∧ a.job = none) :=
  ⟨by decide, by decide, ⟨_, rfl, by decide⟩, by decide, by decide, ⟨_, rfl, by decide⟩⟩

/-- A CTRL SEND that waits, its answer that says BOUNDS, and the one that says OK. -/
theorem wit_AnswersCompleteAndAcknowledge_ctrl :
    let r (st : Byte) : Packet := { pktC 0x12 ([st, 0x11] ++ zeros 30) with g0 := 0 }
    (waitFor 0x11 0).inOrder 0x12 (r 0x23) = true ∧ leAt (r 0x23).payload 0 1 = 0x23 ∧
    (waitFor 0x11 0).inOrder 0x12 (r 0) = true ∧
    ∀ a ∈ (waitFor 0x11 0).x.awaits, a.op = 0x11 ∧ a.answers 3 0 = true ∧ a.job = none := by decide

/-- Two packets of connection 3 are kept, numbers 4 and 5, after a number of resend rounds. -/
def keptState (rounds : Nat) : State :=
  let s := flds (connBase 3) [(Conn.txUnaD, 4), (Conn.txNxtD, 6), (Conn.retryD, rounds)] up3
  { s with x := { s.x with kept := [⟨3, false, 4, { pktM 1 [1] with psn := 4 }⟩, ⟨3, false, 5, { pktM 1 [2] with psn := 5 }⟩] } }
def ackPkt (cum : Word) : Packet := { pkt3 with opcode := 0x20, psn := 1, g0 := cum }
def nakPkt (miss : Word) : Packet := { pkt3 with opcode := 0x21, psn := 1, g1 := miss }
def helloPkt (levels : Word) : Packet := { pkt3 with opcode := 0x22, version := 1, psn := 1, g2 := 0x00090000 + levels }
def helloState : State := flds (connBase 3) [(Conn.state, 1)] up3

theorem wit_AnswersCompleteAndAcknowledge_space :
    (∀ r ∈ [0, 7], (keptState r).hears 0x20 (ackPkt 6) = true ∧ (keptState r).hears 0x21 (nakPkt 4) = true ∧
      (keptState r).fld (connBase 3) (retryOf false) = r) ∧
    (keptState 0).fld (connBase 3) Conn.ackRxSeq < (keptState 0).spaceNo (ackPkt 6) ∧
    (keptState 0).cleanTables = true ∧ (keptState 0).spaceNo (ackPkt 6) < 2 ^ 48 ∧ (keptState 0).x.out = [] ∧
    (extend 4 6).toNat = 6 ∧ 6 ≤ (keptState 0).fld (connBase 3) (txNxt false) ∧ (extend 4 7).toNat = 7 ∧
    ((nakPkt 4).g0.toNat < 2 ^ 31 ∨ (nakPkt 4).stream = true) ∧ (0x01000005 : Word).toNat / 2 ^ 24 = 1 ∧
    (4 : Word).toNat / 2 ^ 24 = 0 := by decide

theorem wit_AnswersCompleteAndAcknowledge_hello :
    helloState.hears 0x22 (helloPkt 0x21) = true ∧ helloState.fld (connBase 3) Conn.ackRxSeq < helloState.spaceNo (helloPkt 0x21) ∧
    helloState.connState 3 = 1 ∧ (helloPkt 0x21).g2.toNat / 65536 % 32768 = helloState.fld (connBase 3) Conn.remoteConn ∧
    helloState.x.out = [] ∧
    max ((helloPkt 0x21).g2.toNat % 16) 1 ≤ min (min ((helloPkt 0x21).g2.toNat / 16 % 16) 2) 2 ∧
    ¬ max ((helloPkt 0x33).g2.toNat % 16) 1 ≤ min (min ((helloPkt 0x33).g2.toNat / 16 % 16) 2) 2 := by decide

/-- A send role of group 0 that waits for rank 1 alone, whose span is retained. -/
def noteState : State :=
  { grp2 0 with q := { (grp2 0).q with
      nextId := 1, retained := [{ span0 with rank := 1 }]
      live := [⟨0, 0, 0, 0x13, strmDesc, 0, none, false, false,
        .send ⟨0, 0, 0, 0, false, [⟨1, true, false, none⟩], none, false, false, false⟩⟩] } }
/-- A notice about group 0, channel 0 and a sequence from node 7. -/
def aboutNote (kind seq : Nat) : Packet := note kind (zeros 7 ++ toLE 4 seq ++ zeros 4 ++ [7])

theorem wit_NoticesReachTheirRoles :
    (∀ k ∈ [1, 2, 3, 4, 5, 6, 7], noteState.inOrder 0x10 (aboutNote k 0) = true) ∧ noteState.ctx.wf = true ∧
    (noteState.q.live.map fun l => l.id).Nodup ∧ (∀ l ∈ noteState.q.live, l.id < noteState.q.nextId) ∧
    noteState.sendFor 0 0 5 7 = none ∧
    ((noteState.sendFor 0 0 0 7).map fun x => (x.2.1.owners.length, x.2.2)) = some (1, 1) ∧
    noteState.groupUsed 0 = true ∧ noteState.seqPast 0 0 1 = false ∧ noteState.instOf 0 0 1 = none := by decide

/-- Firmware that does not run; a root that is this chip and one that is not; a table epoch that matches and one that
does not. -/
theorem wit_NoticesReachTheirRoles_tables :
    let rooted := flds (grpBase 0) [(Grp.tblRoot, 7)] noteState
    let pend := flds (grpBase 0) [(Grp.pendFmt 6, 0xC1), (Grp.pendEpoch, 1)] noteState
    let n := tblNoteOf (note 7 ([0, 0, 0, 1] ++ zeros 8)).payload
    noteState.firmwareRuns = true ∧ (noteState.setReg R.kstnState 0x40000001).firmwareRuns = false ∧
    rooted.fld (grpBase 0) Grp.tblRoot % 65536 ≠ rooted.node ∧ n.group = 0 ∧ n.epoch = 1 ∧ pend.pendAny 0 = true ∧
    pend.fld (grpBase 0) Grp.pendEpoch = n.epoch ∧ noteState.pendAny 0 = false := by decide

/-- R259: a WRITE of two bytes lands at 0x20010 and RX_EXP moves on; one with an unknown tag counts a violation. -/
theorem test_write_packet : (ran (.writePacket (pktK 1 9 [1, 2])) hearing).rd 0x20010 2 = [1, 2] ∧
    (ran (.writePacket (pktK 1 9 [1, 2])) hearing).fld (connBase 3) Conn.rxExpD = 1 ∧
    (ran (.writePacket (pktK 1 8 [1, 2])) hearing).reg R.rmaViol = 1 := by decide +kernel
theorem test_read_req : ((ran (.readReq (pktK 2 9 [16, 0, 0, 0])) hearing).fld (connBase 3) Conn.rxExpD) = 1 := by
  decide +kernel
theorem test_read_resp : (ran (.readResp (respRead 4)) (waitFor 2 8)).rd 0x30000 4 = [7, 7, 7, 7] ∧
    (ran (.readResp (respRead 8)) (waitFor 2 8)).q.live = [] := by decide +kernel
theorem test_send_packet : (ran (.sendPacket (pktM 4 [1, 2])) hearing).q.msgs.length = 1 := by decide +kernel
theorem test_contrib : (ran (.contrib (pktM 5 (zeros 64))) hearing).q.inbound = [] := by decide +kernel
theorem test_atomic_max_req : (ran (.atomicMaxReq (pktK 6 8 (toLE 4 0x3F800000))) hearing).reg R.rmaViol = 1 := by
  decide +kernel
/-- R240: counter 8 is the window's last, and 9 lies outside it. -/
theorem test_counter_add_req :
    (ran (.counterAddReq { pktK 7 0 [] with g1 := 8, g2 := 3 }) hearing).fld (ctrBase 8) Ctr.value = 3 ∧
    (ran (.counterAddReq { pktK 7 0 [] with g1 := 9, g2 := 3 }) hearing).fld (ctrBase 9) Ctr.value = 0 := by decide +kernel
theorem test_flush_req : (ran (.flushReq (pktK 8 0 [])) hearing).fld (connBase 3) Conn.rxExpD = 1 := by decide +kernel
/-- R275: the payload stands 32 bytes into slot 0, and CI moves on. -/
theorem test_ctrl : (ran (.ctrl (pktC 0x11 [1, 2, 3])) hearing).rd 0x9020 3 = [1, 2, 3] ∧
    (ran (.ctrl (pktC 0x11 [1, 2, 3])) hearing).fld (srqBase 2) Srq.ci = 1 := by decide +kernel
theorem test_resp : (ran (.resp respPkt) (waitFor 8 0)).q.live = [] := by decide +kernel
/-- R267: an ACK of all before 6 frees both packets; a NAK counts a round, and the eighth ends the connection. -/
theorem test_ack : (ran (.ack (ackPkt 6)) (keptState 0)).x.kept = [] ∧
    (ran (.ack (ackPkt 7)) (keptState 0)).x.kept.length = 2 := by decide +kernel
theorem test_nak : (ran (.nak (nakPkt 4)) (keptState 0)).fld (connBase 3) Conn.retryD = 1 ∧
    (ran (.nak (nakPkt 4)) (keptState 7)).fld (connBase 3) Conn.endStatus = 0x40 := by decide +kernel
/-- R251: levels 1 to 2 on both sides agree on 2; 3 to 3 leaves none. -/
theorem test_hello : (ran (.hello (helloPkt 0x21)) helloState).fld (connBase 3) Conn.level = 2 ∧
    (ran (.hello (helloPkt 0x33)) helloState).fld (connBase 3) Conn.endStatus = 0x70 := by decide +kernel
theorem test_receipt : (ran (.receipt (aboutNote 1 0)) noteState).q.retained = [] ∧
    (ran (.receipt (aboutNote 1 0)) noteState).q.live = [] := by decide +kernel
theorem test_late : (ran (.late (aboutNote 2 0)) noteState).fld (grpBase 0) Grp.lateCnt = 1 := by decide +kernel
theorem test_reject_span : (ran (.rejectSpan (aboutNote 3 0)) noteState).q.live = [] := by decide +kernel
theorem test_reject_block : (ran (.rejectBlock (aboutNote 4 0)) noteState).q.live.length = 1 := by decide +kernel
theorem test_skip : ((ran (.skip (aboutNote 5 1)) noteState).q.inbound.map fun x => (x.skip, x.node)) = [(true, 7)] := by
  decide +kernel
theorem test_table_ack : (ran (.tableAck (note 6 [])) (noteState.setReg R.kstnState 0x40000001)).kstn.duties.length = 1 := by
  decide +kernel
theorem test_table_epoch :
    (ran (.tableEpoch (note 7 ([0, 0, 0, 1] ++ zeros 8)))
      (flds (grpBase 0) [(Grp.pendFmt 6, 0xC1), (Grp.pendEpoch, 1)] noteState)).fld (grpBase 0) Grp.tableEpoch = 1 := by
  decide +kernel

/-! ### Timers, connections, regions and keys -/

/-- What the engine keeps of connection 3: an acknowledgement owed, a gap, and an RNR wait from a number. -/
def connState3 : ConnX := ⟨3, 0, false, 2, 0, false, false, true, false, 4, 0, [], []⟩
/-- Every timer has work: two packets kept after a number of rounds, a gap, an acknowledgement owed, no room. -/
def timed (rounds rnr : Nat) : State :=
  let s := flds (connBase 3) [(Conn.rnrD, rnr), (Conn.rxMapD, 2), (Conn.rate, 100)] (keptState rounds)
  regs [(R.rmaTollStep, 0x100000), (R.rmaTollMax, 0xFFFF)] { s with x := { s.x with conns := [connState3] } }

theorem wit_TransportTimersKeepStreamsMoving :
    (∀ r ∈ [0, 7], (timed r 0).up 4 = true ∧ (timed r 0).ctx.wf = true ∧ (timed r 0).connState 3 = 2 ∧
      (timed r 0).fld (connBase 3) (txUna false) ≠ (timed r 0).fld (connBase 3) (txNxt false) ∧
      (timed r 0).flag (connBase 3) (rnrOf false) = false ∧ (timed r 0).fld (connBase 3) (retryOf false) = r) ∧
    (timed 0 0).flag (connBase 3) Conn.cipher = false ∧ ((timed 0 0).connX 3).gapD = true ∧
    (timed 0 0).fld (connBase 3) (rxMap false) ≠ 0 ∧ 0 < ((timed 0 0).connX 3).adv false ∧
    (timed 0 1).flag (connBase 3) (rnrOf false) = true ∧ (timed 0 1).x.out = [] ∧ ((timed 0 0).connX 3).seen = false ∧
    (timed 0 0).flag (connBase 3) Conn.enable = true ∧ (timed 0 0).flag (connBase 4) Conn.enable = false ∧
    (timed 0 0).flag (connBase 3) Conn.marked = false ∧ (timed 0 0).flag (connBase 3) Conn.rekeyDue = false ∧
    (timed 0 0).worn 3 = false ∧ (flds (connBase 3) [(Conn.phaseCnt, 2 ^ 31)] (timed 0 0)).worn 3 = true ∧
    awake.connState 3 ≠ 2 ∧ awake.up 4 = true := by decide

/-- A notice of 32 bytes waits for room. -/
def noteMsg : OutMsg := newMsg 3 true 0x10 32 (.data (zeros 32) [])
def staged : State := { up3 with x := { up3.x with out := [noteMsg] } }

theorem wit_TransportTimersKeepStreamsMoving_room :
    staged.x.out = [noteMsg] ∧ noteMsg.conn = 3 ∧ noteMsg.load = .data (zeros 32) [] ∧ noteMsg.len = 32 ∧ noteMsg.sent = 0 ∧
    noteMsg.begun = false ∧ noteMsg.live = none ∧ noteMsg.op = 0x10 ∧ staged.maySend 3 true 80 = true ∧
    (flds (connBase 3) [(Conn.rnrC, 1)] staged).maySend 3 true 80 = false := by decide

/-- ENABLE over levels 1 to 2 to node 7; over levels 3 to 2; to this chip's node; with a cipher and no key. -/
theorem wit_ConnectionEnableFollowsItsChecks :
    let bad (s : State) (v : Word) := bits v.toNat 31 16 = s.node % 65536 ∨ bits v.toNat 15 12 < bits v.toNat 11 8 ∨
      2 < bits v.toNat 11 8 ∨ bits v.toNat 15 12 < 1 ∨
      v.getLsbD 6 = true ∧ ¬ ((s.keySlot 3 false false).isSome = true ∧ (s.keySlot 3 true false).isSome = true ∧
        (s.keySlot 3 true true).isSome = true)
    awake.hasFlip .context (connBase 3 / 16) = false ∧ up3.hasFlip .context (connBase 3 / 16) = false ∧
    awake.pageReady 0x100 = true ∧ awake.ctx.wf = true ∧ (0x00072180 : Word).getLsbD 7 = true ∧
    awake.flag (connBase 3) Conn.enable = false ∧ up3.flag (connBase 3) Conn.enable = true ∧ ¬ bad awake 0x00072180 ∧
    bad awake 0x00072380 ∧ bad awake 0x00002180 ∧ bad awake 0x000721C0 ∧ up3.q.live = [] ∧ up3.x.rx = [] := by decide

/-- Region 65535 is FREE, VALID, revoking or REVOKED under tag 9, with INFLIGHT, and LENGTH staged for it. -/
def regionAt (state inflight : Nat) : State :=
  let s := flds (regionBase 0xFFFF) [(Region.state, state), (Region.tag, 9), (Region.inflight, inflight)] awake
  { s with x := { s.x with regionStage := some (0xFFFF, [(2, 0x20000), (4, 0x1000)]) } }

theorem wit_RegionIsRegisteredOnlyWhenFree :
    let ok (s : State) (v : Word) := bits v.toNat 7 6 = 1 ∧ (s.fld (regionBase 0xFFFF) Region.state = 0 ∨
      s.fld (regionBase 0xFFFF) Region.state = 3 ∧ bits v.toNat 31 16 ≠ s.fld (regionBase 0xFFFF) Region.tag)
    (∀ st ∈ [0, 1, 3], (regionAt st 0).pageReady 0x900 = true ∧ (regionAt st 0).ctx.wf = true ∧
      (regionAt st 0).x.regionStage = some (0xFFFF, [(2, 0x20000), (4, 0x1000)])) ∧
    (∀ g, g < 4 → (regionAt 1 0).hasFlip .context (regionBase 0xFFFF / 16 + g) = false) ∧
    (∀ p ∈ [(2, (0x20000 : Word)), (4, 0x1000)], 1 ≤ p.1 ∧ p.1 < 16) ∧ ([2, 4] : List Nat).Nodup ∧
    ok (regionAt 0 0) 0x00090078 ∧ ok (regionAt 3 0) 0x000A0078 ∧ ¬ ok (regionAt 3 0) 0x00090078 ∧
    ¬ ok (regionAt 1 0) 0x000A0078 := by decide

/-- A revocation is under way and another waits. -/
def revoking (waits : List (Nat × Nat)) : State :=
  let s := (flds (regionBase 5) [(Region.state, 1), (Region.tag, 6)] (regionAt 2 0)).setReg R.rmaRevokeStat 0x8000FFFF
  { s with x := { s.x with revokes := waits } }

theorem wit_RevocationKeysAndRoutesFollowTheirWrites :
    let s := regionAt 1 0
    s.ctx.wf = true ∧ s.pageReady 0x70 = true ∧ bits 0xFFFF0009 31 16 = 0xFFFF ∧
    (s.fld (regionBase 0xFFFF) Region.state = 1 ∧ s.fld (regionBase 0xFFFF) Region.tag = bits 0xFFFF0009 15 0) ∧
    ¬ (s.regBit R.rmaRevokeStat 31 = true) ∧ ¬ (s.fld (regionBase 0xFFFF) Region.tag = bits 0xFFFF0008 15 0) ∧
    (revoking []).regBit R.rmaRevokeStat 31 = true ∧ (revoking []).up 4 = true ∧
    ((revoking []).fld (regionBase 0xFFFF) Region.state = 2 ∧ (revoking []).fld (regionBase 0xFFFF) Region.inflight = 0) ∧
    (revoking []).x.revokes = [] ∧ (revoking [(5, 6)]).x.revokes ≠ [] ∧
    ¬ ((revoking [(5, 7)]).fld (regionBase 5) Region.tag = 7) ∧ (revoking [(5, 7)]).x.revokes = [(5, 7)] ∧
    (revoking [(5, 6)]).x.revokes = [(5, 6)] ∧
    (revoking [(5, 6)]).fld (regionBase 5) Region.state = 1 ∧ (revoking [(5, 6)]).fld (regionBase 5) Region.tag = 6 ∧
    ¬ ((regionAt 2 1).fld (regionBase 0xFFFF) Region.inflight = 0) ∧ (regionAt 2 1).x.revokes = [] := by decide

/-- Connection 3's TX key of phase 1 is selected and staged; its keys of both phases are present. -/
def keyed : State :=
  let s := regs [(R.secKeySel, 0x10003), (R.secKey 0, 0x11223344)] up3
  { s with x := { s.x with keys := [⟨3, false, false, zeros 32⟩, ⟨3, false, true, zeros 32⟩] } }

theorem wit_RevocationKeysAndRoutesFollowTheirWrites_keys :
    keyed.pageReady 0x78 = true ∧ keyed.locks.any (fun p => p.1 == 0x78) = false ∧
    (keyed.keySlot 3 false true).isSome = true ∧ keyed.x.out = [] ∧ bits (keyed.reg R.secKeySel) 14 0 = 3 ∧
    (keyed.reg R.secKeySel).testBit 16 = true ∧ (keyed.reg R.secKeySel).testBit 17 = false ∧
    keyed.connState 3 = 2 ∧ (up3.setReg R.secKeySel 0x10003).keySlot 3 false true = none ∧
    ({ keyed with locks := [(0x78, 1)] } : State).locks.any (fun p => p.1 == 0x78) = true ∧
    (3 : Word).getLsbD 0 = true ∧ (3 : Word).getLsbD 1 = true ∧ (4 : Word).getLsbD 2 = true ∧
    (staged.x.out ≠ []) ∧ keyed.flag (connBase 3) Conn.txPhase = false ∧
    keyed.pageReady 0xF60 = true ∧ keyed.hasFlip .context (routeBase 0xFFFF / 16) = false ∧
    ({ keyed with x := { keyed.x with routeStage := some (0xFFFF, 5) } } : State).x.routeStage = some (0xFFFF, 5) := by decide

/-- R267: the retransmit timer counts a round, and the eighth ends the connection. -/
theorem test_retx_timer : (ran (.retxTimer 3 false) (timed 0 0)).fld (connBase 3) Conn.retryD = 1 ∧
    (ran (.retxTimer 3 false) (timed 7 0)).fld (connBase 3) Conn.endStatus = 0x40 := by decide +kernel
theorem test_reorder_timer : (ran (.reorderTimer 3 false) (timed 0 0)).reg R.rmaNakTx = 1 := by decide +kernel
theorem test_ack_delay : ((ran (.ackDelay 3 false) (timed 0 0)).connX 3).advD = 0 := by decide +kernel
theorem test_rnr_timer : (ran (.rnrTimer 3 false) (timed 0 1)).flag (connBase 3) Conn.rnrD = false := by decide +kernel
theorem test_hello_period : (ran (.helloPeriod 3) helloState).fld (connBase 3) Conn.ackTxSeq = 1 := by decide +kernel
/-- R269: an unmarked connection's RATE rises by the step, 16. -/
theorem test_toll_period : ran .tollPeriod awake = awake := by decide +kernel
theorem test_rekey_due : (ran (.rekeyDue 3) up3).fld (connBase 3) Conn.phaseCnt = 2 ^ 30 := by decide +kernel
theorem test_staging_room : (ran (.stagingRoom 3) staged).x.out = [] ∧ (ran (.stagingRoom 3) staged).x.kept.length = 1 := by
  decide +kernel
/-- R251: to HELLO; refused with BOUNDS for levels 3 to 2. -/
theorem test_conn_enable : (ran (.connEnable 3 0x00072180) awake).fld (connBase 3) Conn.state = 1 ∧
    (ran (.connEnable 3 0x00072380) awake).fld (connBase 3) Conn.state = 0 ∧
    (ran (.connEnable 3 0x00072380) awake).reg (R.hdrErrFirst 0x70) = 0x80000023 := by decide +kernel
theorem test_conn_disable : (ran (.connDisable 3 0) (keptState 0)).x.kept = [] ∧
    (ran (.connDisable 3 0) (keptState 0)).fld (connBase 3) Conn.state = 0 := by decide +kernel
theorem test_region_register : (ran (.regionRegister 0xFFFF 0x00090078) (regionAt 0 0)).fld (regionBase 0xFFFF) Region.length =
    0x1000 ∧ (ran (.regionRegister 0xFFFF 0x00090078) (regionAt 3 0)).fld (regionBase 0xFFFF) Region.state = 3 := by
  decide +kernel
theorem test_rma_revoke : (ran (.rmaRevoke 0xFFFF0009) (regionAt 1 0)).fld (regionBase 0xFFFF) Region.state = 2 ∧
    (ran (.rmaRevoke 0xFFFF0008) (regionAt 1 0)).fld (regionBase 0xFFFF) Region.state = 1 := by decide +kernel
theorem test_revoke_done : (ran (.revokeDone 0xFFFF) (revoking [(5, 6)])).fld (regionBase 0xFFFF) Region.state = 3 ∧
    (ran (.revokeDone 0xFFFF) (revoking [(5, 6)])).fld (regionBase 5) Region.state = 2 := by decide +kernel
theorem test_key_commit : (ran (.secKeyCommit 1) keyed).keySlot 3 false true =
    some ([0x44, 0x33, 0x22, 0x11] ++ zeros 28) ∧ (ran (.secKeyCommit 1) keyed).reg (R.secKey 0) = 0 := by decide +kernel
/-- R278: COMMIT before ERASE leaves the slot empty, and the switch then has no key. -/
theorem test_key_bits : (ran (.secKeyCommit 7) keyed).keySlot 3 false true = none ∧
    (ran (.secKeyCommit 7) keyed).flag (connBase 3) Conn.txPhase = false := by decide +kernel
theorem test_key_erase : (ran (.secKeyErase 2) keyed).keySlot 3 false true = none := by decide +kernel
theorem test_tx_switch : (ran (.txSwitch 4) keyed).flag (connBase 3) Conn.txPhase = true := by decide +kernel
theorem test_route_write :
    leNat ((ran (.routeEntryWrite 0xFFFF 0x80000001) { awake with x := { awake.x with routeStage := some (0xFFFF, 5) } }).ctxRd
      (routeBase 0xFFFF) 8) = 0x8000000100000005 := by decide +kernel

/-! ### Links -/

/-- Port 0 is one link in a state, trained to a width on its lowest lanes; its cabling is not checked. -/
def linked (st width : Nat) : State :=
  regs [(R.hdrCtrl 0x40, 1), (R.portExp 0 0, 0x80000000),
    (R.portStat 0 0, st * 2 ^ 28 + width * 2 ^ 16 + (2 ^ width - 1))] awake
def capIn (ready hold split : Bool) : CapWord := ⟨1, 2, 7, split, hold, ready, 0xFF⟩
/-- Link 0 has been UP and has heard LANE_ID on every lane, a CAP and perhaps an IDENT. -/
def heard (s : State) (c : Option CapWord) (ident : Bool) : State :=
  s.setHalf 0 fun x => { x with cap := c, ident := ident, laneIds := (List.range 8).map fun i => (i, i, false), wasUp := true }
/-- The Deck routes node 7 by the table to half-port 0, and node 9 nowhere. -/
def switching : State :=
  regs [(R.deckMode, 1), (R.deckCtrl, 3)] (flds (routeBase 7) [(Route.valid, 1), (Route.ports, 1)] (linked 4 8))
def packetTo (dst : BitVec 20) : Packet := { pktM 1 [1, 2, 3] with dst := dst }
def frameRow (dst : BitVec 20) (vl hops : Nat) : Instr :=
  .frameReceive 0 ⟨frameWords ⟨0, vl, hops, false, packetTo dst⟩, false, []⟩

theorem wit_FramesArriveAndArePassedOn :
    let out (dst : Nat) := switching.chooseOut (switching.candidates (some 0) 2 dst)
    switching.up (37 + 0 / 2) = true ∧ 0 < switching.deck.ports.length ∧ switching.linkIsUp 0 = true ∧
    switching.islandReady 3 = true ∧ switching.islandReady 4 = true ∧ switching.node = 0 ∧ out 7 = some (0, 2) ∧
    out 9 = none ∧ switching.occupancy 0 2 + pktSize (packetTo 7) ≤ switching.vlBytes 0 2 31 24 ∧
    ¬ (switching.occupancy 0 6 + pktSize (packetTo 7) ≤ (switching.setReg (R.portVl 0 6) 0).vlBytes 0 6 31 24) ∧
    ¬ (switching.occupancy 0 2 + pktSize (packetTo 7) ≤ (switching.setReg (R.portVl 0 2) 0).vlBytes 0 2 31 24) ∧
    switching.regBits R.deckHopLimit 7 0 = 64 ∧ switching.deckRoom = true ∧ (switching.half 0).buffer = [] ∧
    (packetTo 7).payload.length ≤ 4096 ∧ (packetTo 7).tag.length ≤ 16 ∧ (packetTo 7).opcode ≠ 0x30 ∧
    wordGood (zeros 16) = false ∧ (linked 2 8).linkIsUp 0 = false := by decide +kernel

/-- A word that does not check and one of the reserved kind 11, on a link in TRAIN and on one in DETECT; a codeword that
was not corrected. -/
theorem wit_FramesArriveAndArePassedOn_words :
    (linked 2 8).halfExists 0 = true ∧ (linked 2 8).linkState 0 ∈ [2, 3, 5] ∧ (linked 1 0).linkState 0 ∉ [2, 3, 5] ∧
    wordGood (zeros 16) = false ∧ wordGood (linkWord 11 []) = true ∧ 10 < leAt (linkWord 11 []) 0 1 ∧
    wordGood (linkWord 10 []) = true ∧ leAt (linkWord 10 []) 0 1 = 10 ∧ codewordLost ⟨[(0, 15)], false⟩ = false ∧ codewordLost ⟨[(0, 15), (7, 1)], false⟩ = true ∧
    (switching.half 0).paused = 0 := by decide +kernel

theorem wit_LinkTrainingFollowsItsSteps :
    (∀ st ∈ [1, 2, 3, 6], (linked st 0).up 37 = true ∧ (linked st 0).halfExists 0 = true ∧
      (linked st 0).announced = true ∧ (linked st 0).mayTrain 0 = true ∧ (linked st 0).linkState 0 = st) ∧
    ({ linked 1 0 with scan := ⟨.extest, [], []⟩ } : State).mayTrain 0 = false := by decide

theorem wit_LinkTrainingFollowsItsSteps_checks :
    let s := heard (linked 2 0) (some (capIn true false false)) false
    let level (w : CapWord) := min 2 w.lvlMax.toNat
    let shared (w : CapWord) := max 1 w.lvlMin.toNat ≤ level w
    shared (capIn true false false) ∧ ¬ shared ⟨3, 3, 7, false, false, true, 0xFF⟩ ∧ (capIn true false true).split ≠ s.isSplit 0 ∧
    s.agreedRate 0 (capIn true false false) = some 0 ∧ chooseLanes (s.laneCount 0) (s.bothGood 0 (capIn true false false)) = 0xFF ∧
    (s.setReg (R.portExp 0 0) 0x40000000).cabled 0 = false ∧ s.cabled 0 = true ∧ (capIn true true false).hold = true ∧
    (s.half 0).trained = false ∧ (heard s none true).linkState 0 = 2 ∧ ((heard s none true).half 0).ident = true ∧
    (heard (linked 2 8) (some (capIn true false false)) true).regBits (portStatOf 0) 19 16 = 8 ∧
    chooseLanes 8 (s.bothGood 0 (capIn true false false) &&& ((0xFF : Byte).toNat ^^^ 0xFF)) = 0 ∧
    (s.setReg (R.portVl 0 0) 0x38383800).partitionBad 0 = true ∧ s.partitionBad 0 = false := by decide

/-- No rate, or no width, is shared; HOLD comes while the lanes retrain; the link is HELD; training has ended. -/
theorem wit_LinkTrainingFollowsItsSteps_rest :
    let s := heard (linked 2 8) (some (capIn true true false)) true
    s.agreedRate 0 ⟨1, 2, 0, false, false, true, 0xFF⟩ = none ∧
    chooseLanes (s.laneCount 0) (s.bothGood 0 ⟨1, 2, 7, false, false, true, 1⟩) = 0 ∧
    s.regBits (portStatOf 0) 19 16 ≠ 0 ∧ (s.half 0).ident = true ∧ s.cabled 0 = true ∧
    s.agreedRate 0 (capIn true true false) = some 0 ∧ chooseLanes (s.laneCount 0) (s.bothGood 0 (capIn true true false)) ≠ 0 ∧
    (linked 5 0).linkState 0 = 5 ∧ ((s.setHalf 0 fun x => { x with trained := true }).half 0).trained = true ∧
    (linked 2 8).linkState 0 = 2 ∧ ((linked 2 8).half 0).cap = none := by decide

theorem wit_LinkLossAndLaneFaultsAreHandled :
    let s := (heard (linked 4 8) (some (capIn true false false)) true).setReg (R.portDegrade 0) 0x10000
    let held := heard (linked 5 0) (some (capIn true false false)) true
    let u := s.setReg (R.portLaneFault 0) (s.reg (R.portLaneFault 0) ||| 1 <<< 7)
    s.up 37 = true ∧ s.halfExists 0 = true ∧ s.announced = true ∧ s.linkState 0 = 4 ∧
    s.pageReady (portPage 0) = true ∧ s.halfOfLane 0 7 = 0 ∧ s.regBits (R.portDegrade 0) 31 16 ≠ 0 ∧
    chooseLanes (s.laneCount 0) (u.bothGood 0 (capIn true false false)) = 0xF ∧
    (s.regBits (portStatOf 0) 7 0).testBit (7 - s.laneBase 0) = true ∧ (linked 2 0).regBits (portStatOf 0) 19 16 = 0 ∧
    (2 : Word).getLsbD (0 % 2) = false ∧ (2 : Word).getLsbD (1 - 0 % 2) = true ∧ s.halfExists (0 ^^^ 1) = false ∧
    (s.setReg (R.portCfg 0) 1).halfExists (0 ^^^ 1) = true ∧ (linked 6 8).laneInTest 0 7 = true ∧
    s.laneInTest 0 7 = false ∧ (linked 5 0).linkState 0 = 5 ∧ ((linked 5 0).half 0).cap = none ∧
    held.agreedRate 0 ⟨1, 2, 0, false, false, true, 0xFF⟩ = none ∧ held.linkState 0 = 5 ∧
    (held.writeFields (R.portExp 0 0) 0x80000000).cabled 0 = true ∧
    (held.writeFields (R.portExp 0 0) 0x40000000).cabled 0 = false ∧
    held.agreedRate 0 (capIn true false false) = some 0 ∧
    chooseLanes (held.laneCount 0) (held.bothGood 0 (capIn true false false)) ≠ 0 := by decide

/-- R295, R302: a frame for node 7 is forwarded one hop on; for node 9 it counts as unrouted; at the limit of 64 hops it
is discarded. -/
theorem test_frame_receive :
    (ran (frameRow 7 2 3) switching).deck.out = [⟨0, 2, 4, false, packetTo 7⟩] ∧
    (ran (frameRow 9 2 3) switching).reg R.deckNoroute = 1 ∧ (ran (frameRow 7 2 64) switching).reg R.deckHoplimit = 1 := by
  decide +kernel
theorem test_pause : ((ran (.pause 0 5) switching).half 0).paused = 5 := by decide
theorem test_pause_refresh : (ran (.pauseRefresh 0) switching).deck.linkOut.length = 1 := by decide +kernel
theorem test_detect_retry : (ran (.detectRetry 0 0xFF 0) (linked 1 0)).linkState 0 = 6 ∧
    (ran (.detectRetry 0 0x80 0x40) (linked 1 0)).linkState 0 = 2 ∧
    (ran (.detectRetry 0 0x80 0x40) (linked 1 0)).reg (R.portLaneFault 0) = 0x804000 := by decide +kernel
theorem test_lane_id : ((ran (.laneId 0 2 5 true) (linked 2 0)).half 0).laneIds = [(2, 5, true)] ∧
    (ran (.laneId 0 2 5 true) (linked 2 0)).linkReversed 0 = true := by decide +kernel
/-- R290, R291: the CAP that completes the exchange sets rate code 0, level 2 and eight lanes. -/
theorem test_cap : (ran (.cap 0 (capIn true false false)) (heard (linked 2 0) none true)).reg (R.portStat 0 0) =
    0x202800FF := by decide +kernel
theorem test_ident : (ran (.ident 0 3 true 0x12345) (heard (linked 2 0) none false)).reg (R.portSeen 0 0) = 0x80712345 := by
  decide +kernel
/-- R281: with lanes 0 and 4 failed the pair of lanes 2 and 3 is left. -/
theorem test_link_up :
    let s := heard (linked 2 8) (some (capIn true false false)) true
    (ran (.linkUp 0 0) s).linkState 0 = 4 ∧ (ran (.linkUp 0 0x11) s).regBits (portStatOf 0) 7 0 = 0xC := by decide +kernel
theorem test_link_signal_loss :
    let s := heard (linked 4 8) (some (capIn true false false)) true
    (ran (.linkSignalLoss 0) s).linkState 0 = 1 ∧ (ran (.linkSignalLoss 0) s).reg (R.portRetrains 0) = 1 := by decide +kernel
theorem test_train_timeout : (ran (.trainTimeout 0) (linked 2 0)).linkState 0 = 1 ∧
    (ran (.trainTimeout 0) (linked 2 8)).linkState 0 = 2 := by decide +kernel
theorem test_port_retrain : (ran (.portRetrain 0 1) (linked 4 8)).linkState 0 = 1 ∧
    (ran (.portRetrain 0 2) (linked 4 8)).linkState 0 = 4 := by decide +kernel
theorem test_lane_degraded :
    let s := (heard (linked 4 8) (some (capIn true false false)) true).setReg (R.portDegrade 0) 0x10000
    (ran (.laneDegraded 0 7) s).linkState 0 = 1 ∧ (ran (.laneDegraded 0 7) s).reg (R.portLaneFault 0) = 0x80 := by
  decide +kernel
theorem test_lane_short : (ran (.laneShort 0 7) (linked 4 8)).reg (R.portLaneFault 0) = 0x8000 := by decide
/-- R291: HELD with the cabling accepted goes back to TRAIN. -/
theorem test_port_exp_write :
    (ran (.portExpWrite 0 false 0x80000000) (heard (linked 5 0) (some (capIn true false false)) true)).linkState 0 = 2 ∧
    (ran (.portExpWrite 0 false 0x40000000) (heard (linked 5 0) (some (capIn true false false)) true)).linkState 0 = 5 := by
  decide +kernel

/-! ### The timebase and the barriers -/

/-- This chip follows the parent on half-port 0: an exchange numbered 5 has its t2, and so many exchanges were near. -/
def following (run : Nat) (locked : Bool) : State :=
  let s := regs [(R.timeParent, 0x80000000), (R.timeCtrl, 2)] (linked 4 8)
  { s with clock := { s.clock with tb := 0x100000, seq := 6, run := run, exchange := some ⟨5, 0x1000, some 0x2000, locked⟩ } }
def rooted : State := regs [(R.timeCtrl, 1), (R.timeSetLo, 9)] awake

theorem wit_TimebaseFollowsItsParent :
    let s := following 7 true
    s.linkIsUp 1 = false ∧ ((linked 2 8).setReg R.timeParent 0x80000000).parentLink = some 0 ∧ (linked 2 8).linkIsUp 0 = false ∧
    s.up 0 = true ∧ s.linkIsUp 0 = true ∧ s.parentLink = some 0 ∧ s.regBit R.timeCtrl 1 = true ∧ awake.parentLink = none ∧
    s.clock.exchange = some ⟨5, 0x1000, some 0x2000, true⟩ ∧ ((5 : BitVec 16).toNat = 5 ∧ (0x2000 : DWord).toNat = 0x2000) ∧
    s.pageReady 3 = true ∧ ¬ (s.regBit R.timeCtrl 0 = true) ∧ s.regBit R.timeStat 1 = false ∧
    ((s.setReg R.timeStat 3).regBit R.timeStat 1 = true ∧ (s.setReg R.timeStat 3).regBit R.timeStat 0 = true) ∧
    rooted.regBit R.timeCtrl 0 = true ∧ (5 : Word).getLsbD 2 = true ∧ (rooted.writeFields R.timeCtrl 5).regBit R.timeCtrl 0 = true := by
  decide

/-- A step or a slew, an exchange that is near and one that is not. -/
theorem wit_TimebaseFollowsItsParent_exchange :
    let s := following 7 true
    let offset2 (t3 t4 : DWord) : Int := (s.extendTs 0x2000 - s.extendTs 0x1000) - (s.extendTs t4 - s.extendTs t3)
    offset2 0x3000 0x4000 = 0 ∧ offset2 0x3000 0x9000 = -0x5000 ∧
    (offset2 0x3000 0x4000).natAbs * 1000 ≤ 2 * 65536 * s.reg R.timeLockPs ∧
    ¬ ((offset2 0x3000 0xF000000).natAbs * 1000 ≤ 2 * 65536 * s.reg R.timeLockPs) ∧
    ¬ ((offset2 0x3000 0xF000000 / 2).natAbs ≤ 1000 * 65536) := by decide

/-- Group 0 of three members at 0x5000 on nodes 9, 7 and 8; this chip has a rank and its node. -/
def group3 (rank : Nat) (bars : List Bar) : State :=
  let s := bytes 0x5000 ([9, 0, 0, 0, 0, 0, 0, 0, 7, 0, 0, 0, 0, 0, 0, 0, 8] ++ zeros 7)
    (flds (grpBase 0) [(Grp.nMembers, 3), (Grp.myRank, rank), (Grp.memberAddr, 0x5000)]
      (awake.setReg R.deckNode (nth [9, 7, 8] rank 0)))
  { s with clock := { s.clock with bars := bars } }
def barOf (live : Option Nat) (arrived : List Nat) (sent : Bool) (release : Option Nat) : Bar :=
  ⟨0, 0, 0, live, 2, 100, arrived, sent, release⟩
/-- Its BARRIER is outstanding. -/
def atBarrier (rank : Nat) (b : Bar) : State :=
  let s := group3 rank [b]
  { s with q := { s.q with nextId := 1, live := [⟨0, 0, 0, 0x0C, desc0, 0, none, false, false, .barrier⟩] } }

theorem wit_BarriersGatherAndRelease :
    let s := group3 0 []
    s.up 2 = true ∧ s.idsOk ∧ s.groupUsed 0 = true ∧ (∀ x ∈ [(0, 9), (1, 7), (2, 8)], s.memberNode 0 x.1 % 65536 = x.2) ∧
    ¬ (3 < s.fld (grpBase 0) Grp.nMembers) ∧ s.bar 0 0 0 = none ∧ s.clock.bars.length < 256 ∧
    (group3 0 (List.replicate 256 ⟨0, 1, 0, none, 0, 0, [], false, none⟩)).bar 0 0 0 = none ∧
    256 ≤ (group3 0 (List.replicate 256 ⟨0, 1, 0, none, 0, 0, [], false, none⟩)).clock.bars.length := by
  unfold State.idsOk; decide +kernel

/-- Rank 0 waits for ranks 1 and 2; rank 2 for nobody, and its parent is rank 0. -/
theorem wit_BarriersGatherAndRelease_found :
    let root := atBarrier 0 (barOf (some 0) [1] false none)
    let leaf (release : Option Nat) := atBarrier 2 (barOf (some 0) [] true release)
    root.idsOk ∧ (leaf none).idsOk ∧
    root.bar 0 0 0 = some (barOf (some 0) [1] false none) ∧ childrenOf 3 2 0 = [1, 2] ∧ childrenOf 3 2 2 = [] ∧
    insertN 2 [1] = [1, 2] ∧ root.now < (root.now + 100) % 2 ^ 64 ∧ (root.now + 0) % 2 ^ 64 ≤ root.now ∧ (group3 0 [barOf none [1] false none]).bar 0 0 0 = some (barOf none [1] false none) ∧
    (leaf none).bar 0 0 0 = some (barOf (some 0) [] true none) ∧ parentOf 2 2 = 0 ∧
    (leaf none).memberNode 0 0 % 65536 = (9 : BitVec 20).toNat % 65536 ∧ (leaf none).now = 0 ∧
    (leaf (some 7)).bar 0 0 0 = some (barOf (some 0) [] true (some 7)) := by
  unfold State.idsOk; decide +kernel

theorem wit_BarriersGatherAndRelease_inner :
    let inner := atBarrier 0 (barOf (some 0) [2] false (some 50))
    let late := { atBarrier 2 (barOf (some 0) [] true none) with clock := { (atBarrier 2 (barOf (some 0) [] true none)).clock with tb := 8 * 65536 } }
    inner.bar 0 0 0 = some (barOf (some 0) [2] false (some 50)) ∧ inner.idsOk ∧ inner.now < 50 ∧ (7 : DWord).toNat < late.now ∧
    late.idsOk ∧ late.bar 0 0 0 = some (barOf (some 0) [] true none) ∧ childrenOf 3 1 1 = [2] ∧ parentOf 1 1 = 0 := by
  unfold State.idsOk; decide +kernel

/-- R304: TSYNC_REQ is answered with both times. -/
theorem test_tsync_req : (ran (.tsyncReq 0 5 1 2 3) (linked 4 8)).deck.linkOut.length = 2 := by decide +kernel
theorem test_time_interval : (ran (.timeIntervalExpiry 0x77) (following 0 true)).clock.exchange = some ⟨6, 0x77, none, false⟩ := by
  decide +kernel
theorem test_tsync_t2 : (ran (.tsyncT2 0 false 5 0x2222) (following 0 true)).clock.exchange = some ⟨5, 0x1000, some 0x2222, false⟩ := by
  decide
/-- The worked example of R305: offset 0x6460 and delay 0x1420 in units of 2^-8 ns; the eighth near exchange locks. -/
theorem test_tsync_t3 :
    let u (ns milli : Nat) : DWord := BitVec.ofNat 64 (ns * 65536 + milli * 65536 / 1000)
    let s := following 7 true
    let t (run : Nat) := ran (.tsyncT3 0 5 (u 1000121 0) (u 1000040 750)) { s with clock := { s.clock with
      tb := 1000040 * 65536, run := run, exchange := some ⟨5, (u 1000000 0).toNat, some (u 1000120 500).toNat, true⟩ } }
    (t 7).reg R.timeOffset = 0x6460 ∧ (t 7).reg R.timeDelay = 0x1420 ∧
    (ran (.tsyncT3 0 5 0x3000 0x4000) s).regBit R.timeStat 0 = true := by decide +kernel
theorem test_holdover : (ran .holdover (following 0 true)).reg R.timeStat = 2 ∧
    (ran .holdover ((following 0 true).setReg R.timeStat 3)).reg R.timeUnlockCnt = 1 := by decide +kernel
theorem test_time_set : (ran (.timeCtrlSet 5) rooted).clock.tb = 9 * 65536 ∧
    (ran (.timeCtrlSet 4) awake).clock.tb = 0 := by decide +kernel
/-- R308: the last arrival at rank 0 sets the release 100 ns from now; an arrival from node 10 counts as discarded. -/
theorem test_bar_arrive :
    let s := atBarrier 0 (barOf (some 0) [1] false none)
    ((ran (.barArrive 8 0 0 2 0) s).bar 0 0 0).map (·.release) = some (some 100) ∧
    (ran (.barArrive 10 0 0 2 0) s).reg R.timeBarDrop = 1 := by decide +kernel
theorem test_bar_release :
    let s := atBarrier 2 (barOf (some 0) [] true none)
    ((ran (.barRelease 9 0 0 0 7) s).bar 0 0 0).map (·.release) = some (some 7) ∧
    (ran (.barRelease 8 0 0 0 7) s).reg R.timeBarDrop = 1 := by decide +kernel
theorem test_release_time : (ran (.releaseTimeReached 0 0 0) (atBarrier 2 (barOf (some 0) [] true (some 7)))).q.live = [] ∧
    (ran (.releaseTimeReached 0 0 0) (atBarrier 2 (barOf (some 0) [] true (some 7)))).now = 7 := by decide +kernel
/-- R308: BAR_ARRIVE is sent again; here no route leads to the parent. -/
theorem test_bar_resend : (ran (.barResend 0 0 0) (atBarrier 2 (barOf (some 0) [] true none))).reg R.deckNoroute = 1 ∧
    (ran (.barResend 0 0 0) (atBarrier 2 (barOf (some 0) [] false none))).reg R.deckNoroute = 0 := by decide +kernel
theorem test_bar_keep : (ran (.barKeepExpiry 0 0 0) (group3 2 [barOf none [] true (some 0)])).clock.bars = [] ∧
    (ran (.barKeepExpiry 0 0 0) (group3 2 [barOf none [] true none])).clock.bars.length = 1 := by decide +kernel

/-! ### Recovery and firmware -/

/-- Connection 3 to node 7 is UP, Caisson entry 0 is armed on it, and watch entry 63 watches it in a state with a count. -/
def watching (st missed : Nat) : State :=
  regs [(R.snapWatch 63, 2 ^ 31 + st * 2 ^ 28 + missed * 2 ^ 24 + 7), (R.snapCNode 0, 2 ^ 31 + 7), (R.snapCStat 0, 2 ^ 30)] up3
def beat (kstn : BitVec 2) : Heartbeat := ⟨7, kstn, 1, 0⟩

theorem wit_LostNodesAreWatchedAndDeclared :
    (∀ st ∈ [0, 1, 2, 3], (watching st 2).up 2 = true ∧ (watching st 2).watched 63 = true ∧
      (watching st 2).regBits (R.snapWatch 63) 19 0 = (7 : BitVec 20).toNat ∧ (watching st 2).watchState 63 = st) ∧
    (∀ k, k < 64 → k ≠ 63 → (watching 1 0).watched k = false) ∧ (∀ i, i < 64 → awake.watched i = false) ∧ awake.up 2 = true ∧
    (watching 1 0).regBits R.snapHbCfg 23 20 = 3 ∧ (watching 1 2).regBits (R.snapWatch 63) 27 24 = 2 ∧
    (beat 0).kstn = 0 ∧ ¬ ((beat 1).kstn = 0) ∧ awake.pageReady 6 = true ∧ awake.firmwareRuns = true ∧
    (7 : BitVec 20).toNat ≠ awake.node ∧ (0 : BitVec 20).toNat = awake.node ∧ (watching 1 0).q.live = [] ∧
    (watching 1 0).ctx.wf = true ∧ (watching 1 0).flag (connBase 3) Conn.enable = true ∧
    (watching 1 0).fld (connBase 3) Conn.remoteNode = (7 : BitVec 20).toNat ∧ (watching 1 0).connState 3 = 2 ∧
    (watching 1 0).regBit (R.snapCNode 0) 31 = true ∧ (watching 1 0).entryNode 0 = (7 : BitVec 20).toNat := by decide +kernel

/-- Firmware that waits to announce itself after a Keystone-only reset, with a command cut off; on its first way up. -/
def silent : State :=
  let s := awake.setReg R.kstnState 0x80000001
  { s with kstn := ⟨none, some 0x2A000001, []⟩ }
def comingUp : State :=
  let s := regs [(R.kstnState, 0x80000000), (R.bootStat, 0x40000000), (R.timeStat, 1)] awake
  { s with clock := { s.clock with up := 3000000 } }
/-- A command is asked with an argument, from half-port 0 UP; two detours are in place. -/
def asked (arg : Nat) : State :=
  let s := regs [(R.kstnMbArg 0, arg)] (linked 4 8)
  { s with snap := { s.snap with detours := [(7, 5), (8, 6)] } }

theorem wit_FirmwareServesMailboxAndArming :
    (asked 5).ctx.wf = true ∧ (asked 5).pageReady 1 = true ∧ ((asked 5).setReg R.kstnMbStat 0x80000000).regBit R.kstnMbStat 31 = true ∧
    (asked 5).regBit R.kstnMbStat 31 = false ∧ silent.announced = false ∧ silent.pageReady 1 = true ∧
    silent.regBit R.kstnMbStat 31 = false ∧ (asked 5).announced = true ∧
    (∀ n ∈ [0, 1, 2, 3, 4, 5, 6, 255], (BitVec.ofNat 32 (0x2A000000 + n)).toNat % 256 = n) ∧
    2 ^ 20 ≤ (asked 0x100000).reg (R.kstnMbArg 0) ∧ (asked 0xFFFFF).reg (R.kstnMbArg 0) < 2 ^ 20 ∧
    (asked 0).linkIsUp 0 = true ∧ (asked 63).linkIsUp 63 = false ∧ 64 ≤ (asked 64).reg (R.kstnMbArg 0) ∧
    silent.up 1 = true ∧ silent.mayAnnounce = true ∧ silent.kstn.duties = [] ∧ silent.kstn.command = none ∧
    silent.kstn.cutOff = some 0x2A000001 ∧ comingUp.mayAnnounce = true ∧ comingUp.bootState = 4 ∧ awake.mayAnnounce = false ∧
    comingUp.kstn.duties = [] ∧ comingUp.kstn.command = none := by decide +kernel

/-- Entry 0 has asked node 7, and this chip's feed is 3; OVERRIDE as given. -/
def arming (override : Nat) : State :=
  regs [(R.snapCNode 0, 2 ^ 31 + override * 2 ^ 30 + 7), (R.snapCStat 0, 2 ^ 29), (R.snapDomain, 3 * 2 ^ 20)] awake
def domainOf (answer : Bool) (feed : Nat) : DiscoverMsg := ⟨answer, 2, 1, 7, 1, BitVec.ofNat 32 (feed * 2 ^ 20), 0⟩

theorem wit_FirmwareServesMailboxAndArming_entries :
    (arming 0).up 2 = true ∧ (arming 0).firmwareRuns = true ∧ (arming 0).askingPartner 0 = true ∧
    (arming 0).entryNode 0 = (7 : BitVec 20).toNat ∧ (arming 0).entryNode 1 ≠ (7 : BitVec 20).toNat ∧
    bits (domainOf true 3).domain.toNat 31 20 = bits ((arming 0).reg R.snapDomain) 31 20 ∧
    bits (domainOf true 0).domain.toNat 31 20 = 0 ∧ (arming 0).regBit (R.snapCNode 0) 30 = false ∧
    (arming 0).askingPartner 1 = false ∧ (∀ e, e < 2 → awake.askingPartner e = false) ∧
    (arming 0).pageReady 6 = true ∧ (arming 0).locked 6 = false ∧ (arming 0).ctx.wf = true ∧
    ((arming 0).regBit (R.snapCNode 0) 31 = true ∧ awake.regBit (R.snapCNode 0) 31 = false) ∧
    (0x80000007 : Word).getLsbD 31 = true ∧ (7 : Word).getLsbD 31 = false ∧ (arming 0).q.live = [] ∧
    ({ awake with locks := [(6, 1)] } : State).locked 6 = true := by decide +kernel

/-- R333: WAIT becomes UP on a heartbeat; UP becomes KHOLD when the sender's firmware is in reset. -/
theorem test_heartbeat : (ran (.heartbeat 7 (beat 0)) (watching 0 0)).watchState 63 = 1 ∧
    (ran (.heartbeat 7 (beat 1)) (watching 1 2)).watchState 63 = 2 ∧
    (ran (.heartbeat 8 (beat 0)) (watching 0 0)).watchState 63 = 0 := by decide +kernel
theorem test_heartbeat_period : (ran .heartbeatPeriod (watching 1 0)).snap.hbSeq = 1 := by decide +kernel
theorem test_heartbeat_miss : (ran (.heartbeatMiss 63) (watching 1 1)).watchState 63 = 1 ∧
    (ran (.heartbeatMiss 63) (watching 1 2)).watchState 63 = 3 ∧
    (ran (.heartbeatMiss 63) (watching 1 2)).reg R.snapLostLast = 0x80000007 := by decide +kernel
theorem test_grace_expiry : (ran (.graceExpiry 63) (watching 2 0)).watchState 63 = 3 ∧
    (ran (.graceExpiry 63) (watching 1 0)).watchState 63 = 1 := by decide +kernel
theorem test_snap_watch_write : (ran (.snapWatchWrite 63 0x80000009) awake).reg (R.snapWatch 63) = 0x80000009 := by decide +kernel
/-- R334: the connection ends with PEER_LOST, 0x41, and the entry is LOST. -/
theorem test_declare_node_lost : (ran (.declareNodeLost 7) (watching 1 0)).fld (connBase 3) Conn.endStatus = 0x41 ∧
    (ran (.declareNodeLost 7) (watching 1 0)).entryState 0 = 4 := by decide +kernel
theorem test_firmware : (ran (.firmware 7 (some 0)) awake).q.selfLost = true ∧
    (ran (.firmware 8 (some 7)) (watching 1 0)).entryState 0 = 4 := by decide +kernel
/-- R378: PING returns its argument; SEQ 0x2A is in the answer. -/
theorem test_ping : (ran (.ping 0x2A000001) (asked 5)).reg (R.kstnMbData 0) = 5 ∧
    (ran (.ping 0x2A000001) (asked 5)).reg R.kstnMbStat = 0x402A0000 := by decide +kernel
theorem test_version : (ran (.version 2) ((asked 5).setReg R.bootFwVersion 0x777)).reg (R.kstnMbData 0) = 0x777 := by decide +kernel
theorem test_declare_lost : (ran (.declareLost 3) ((watching 1 0).setReg (R.kstnMbArg 0) 7)).entryState 0 = 4 ∧
    (ran (.declareLost 3) ((watching 1 0).setReg (R.kstnMbArg 0) 0x100000)).reg R.kstnMbStat = 0x40000023 := by decide +kernel
theorem test_route_clear : (ran (.routeClear 4) (asked 7)).snap.detours = [(8, 6)] ∧
    (ran (.routeClear 4) (asked 7)).reg (R.kstnMbData 0) = 1 := by decide +kernel
theorem test_time_reparent : (ran (.timeReparent 5) (asked 0)).reg R.timeParent = 0x80000000 := by decide +kernel
/-- R377: the announcement counts INCARNATION and answers what was cut off with INTERNAL, 0x7F. -/
theorem test_keystone_announce : (ran .keystoneAnnounce silent).reg R.kstnState = 0x20000002 ∧
    (ran .keystoneAnnounce silent).reg R.kstnMbStat = 0x402A007F ∧
    (ran .keystoneAnnounce comingUp).reg R.bootTime = 3 := by decide +kernel
/-- R314: REFUSED with SNAPSHOT_DOMAIN_CONFLICT; the rack and row tags are equal. -/
theorem test_discover : (ran (.discover 7 (domainOf true 3)) (arming 0)).reg (R.snapCStat 0) = 0x6C000060 := by decide +kernel
theorem test_discover_repeat : (ran (.discoverRepeat false) (arming 0)).reg R.deckNoroute = 1 := by decide +kernel
theorem test_caisson_arm : (ran (.caissonArm true 0x80000007) awake).entryState 1 = 1 := by decide +kernel
theorem test_caisson_disarm : (ran (.caissonDisarm false 7) (watching 1 0)).entryState 0 = 0 := by decide +kernel

/-! ### Supplies, clocks, temperature, resets and start-up -/

def withPwr (f : Pwr → Pwr) (s : State) : State := { s with pwr := f s.pwr }
/-- Island 6 dips on VDDH to 1700 mV since 5, had two resets, and moves to point 1; island 7 lies below its reset level. -/
def dipping : State :=
  let s := ({ awake with clock := { awake.clock with tb := 9 * 65536 } } : State).setIsland 6 fun x =>
    { x with dips := [(true, 1700, 5)], resets := [3, 4], ramp := some 1, asked := 1 }
  s.setIsland 7 fun x => { x with falls := [(true, 1600, 4)], ready := false, low := true }
/-- A trip of sensor 3, or the loss of the island clock, holds the islands down. -/
def tripped : State := withPwr (fun p => { p with tripAt := some (5, 3, 0x780) }) awake
def unclocked : State := withPwr (fun p => { p with clockLost := some 5 }) awake

/-- Each level of VDDH and of a VDDL of 750 mV, from both sides. -/
theorem wit_PowerEventsActOnTheirIslands :
    dipping.up 0 = true ∧ dipping.shaped = true ∧ eventOf true (dipping.island 6).dips = some (true, 1700, 5) ∧
    eventOf false (dipping.island 6).dips = none ∧ eventOf true (dipping.island 6).falls = none ∧
    eventOf true (dipping.island 7).falls = some (true, 1600, 4) ∧ eventOf (!true) (dipping.island 7).falls = none ∧
    (dipping.island 6).resetLevel true = 1620 ∧ (dipping.island 6).warnLevel true = 1710 ∧
    (awake.island 6).resetLevel false < (BitVec.ofNat 16 ((awake.island 6).warnLevel false)).toNat ∧
    (∀ i ∈ [0, 1, 2, 4, 5, 36, 68], i ≤ 68 ∧ (awake.island i).dips = [] ∧ (awake.island i).falls = []) ∧
    (69 : BitVec 7).toNat = 69 ∧ dipping.absorbed = false ∧ tripped.absorbed = true ∧ tripped.up 0 = true ∧ tripped.shaped = true ∧
    2 ≤ ((dipping.island 6).resets.filter fun u => decide (dipping.now < u + 1000000000)).length ∧
    ((awake.island 6).resets.length < 2) ∧ (dipping.island 7).ready = false ∧
    (dipping.setIsland 7 fun x => { x with low := false }).mayRun 7 = true ∧
    (dipping.island 6).ramp = some 1 ∧ (dipping.island 5).ramp = none ∧ 2 ≤ dipping.bootState ∧ State.reset.up 0 = true ∧
    State.reset.bootState = 0 ∧ State.reset.shaped = true ∧ awake.bootState = 5 ∧ awake.pageReady 2 = true := by
  decide +kernel

/-- VDDA group 7 below its warning or its reset level; the island selected; sensor 1 hot at 90 degrees. -/
def sagging (warn reset : Bool) : State := withPwr (fun p => { p with
  vddaWarn := if warn then [(7, 850, 2)] else [], vddaReset := if reset then [(7, 800, 2)] else [] }) awake
def hotSensor (n : Nat) : State :=
  withPwr (fun p => { p with sensors := p.sensors.set n ⟨true, 0x700, true, 0x720, 4⟩ }) awake

theorem wit_PowerEventsActOnTheirIslands_rest :
    ((sagging true false).pwr.vddaWarn.find? fun w => w.1 == 7) = some (7, 850, 2) ∧ (sagging true false).pwr.vddaReset = [] ∧
    ((sagging false true).pwr.vddaReset.find? fun w => w.1 == 7) = some (7, 800, 2) ∧ (sagging false true).pwr.vddaWarn = [] ∧
    (∀ x ∈ [(69, 0), (6, 3), (65, 2), (65, 3), (40, 0), (40, 1)],
      (awake.setReg R.pwrIslSel x.1).regBits R.pwrIslSel 6 0 = x.1 ∧ (awake.setReg R.pwrIslSel x.1).pageReady 2 = true) ∧
    pointsOf 6 = 4 ∧ pointsOf 65 = 3 ∧ pointsOf 40 = 1 ∧ (∀ s ∈ [sagging true false, sagging false true, hotSensor 1], s.up 0 = true ∧ s.shaped = true) ∧
    (810 : BitVec 16).toNat ≤ 810 ∧ 810 < (855 : BitVec 16).toNat ∧ (∀ i ∈ dvfsOf 1, (awake.island i).dips = []) ∧
    6 ∈ dvfsOf 0 ∧ (dipping.island 6).dips ≠ [] ∧
    awake.limit 8 ≤ (0x690 : BitVec 16).toInt ∧ ¬ (awake.limit 8 ≤ (0x68F : BitVec 16).toInt) ∧ (awake.sensor 1).hot = false ∧
    dvfsOf 1 ≠ [] ∧ dvfsOf 4 = [] ∧ ((hotSensor 1).sensor 1).hot = true ∧
    (0x600 : BitVec 16).toInt ≤ (hotSensor 1).limit 0 ∧ (hotSensor 1).limit 0 < (0x7FF : BitVec 16).toInt ∧
    (awake.island 6).ready = true ∧ (awake.island 6).ramp = none := by decide +kernel

/-- A command is under way; the watchdog runs; the self-test runs. -/
def serving : State := { awake with kstn := ⟨some 0x2A000001, none, []⟩ }
def dogged : State := awake.setReg R.pwrWdog 0x80000000
def testing : State := awake.setReg R.bootStat 0x10000000

theorem wit_ResetsAndStartUpFollowTheirStages :
    (∀ s ∈ [tripped, unclocked, serving, dogged, testing, State.reset], s.shaped = true ∧ s.memOk = true ∧
      s.up 0 = true ∧ s.pageReady 2 = true) ∧
    awake.absorbed = false ∧ tripped.absorbed = true ∧ unclocked.heldDown = true ∧ awake.heldDown = false ∧
    tripped.pwr.tripAt = some (5, 3, 0x780) ∧ tripped.cooled = true ∧ 2 ≤ awake.bootState ∧ State.reset.bootState < 2 ∧
    (withPwr (fun p => { p with sensors := p.sensors.set 3 ⟨true, 0x7FF, false, 0, 0⟩ }) tripped).cooled = false ∧
    tripped.pwr.clockLost = none ∧ awake.pwr.tripAt = none ∧ serving.kstn.command = some 0x2A000001 ∧
    awake.limit 24 ≤ (0x7D0 : BitVec 16).toInt ∧ (0x7CF : BitVec 16).toInt < awake.limit 24 ∧ unclocked.pwr.tripAt = none ∧
    unclocked.pwr.clockLost = some 5 ∧ awake.test = none ∧ awake.pwr.clockLost = none ∧
    (dogged.regBit R.pwrWdog 31 = true ∧ dogged.bootState = 5) ∧ ¬ ((awake.setReg R.pwrWdog 0).regBit R.pwrWdog 31 = true) ∧
    awake.islandReady 1 = true ∧ State.reset.islandReady 1 = false ∧ testing.bootState = 1 ∧ testing.heldDown = false ∧
    testing.pwr.verified = false ∧ silent.bootState ≠ 1 ∧ ¬ (silent.regBits R.kstnState 31 30 = 1) ∧
    (silent.setReg R.kstnState 0x40000001).regBits R.kstnState 31 30 = 1 ∧ (silent.island 1).oos = false := by
  decide +kernel

/-- An image of one block is loaded, with the base point of P-384 as its key. -/
def imageKey : Bytes := toBE 48 p384G.1 ++ toBE 48 p384G.2
def imageSig : Bytes := toBE 48 p384G.1 ++
  toBE 48 0x25d770c33aff489eba0a520bf8751d205801e881990622e5867f35abc5aafd84331b51248f1ace6c62728d0e507ff248
def booting : State :=
  withPwr (fun p => { p with
    digest := toBE 48 0xa19d4db171b582eb8052b0cfe555e17894aa22d1c8a9770950697dd8f796d2fa4bf0a56ad80006b7ea08e1191f814b65
    image := Memory.writeN [] 0 (toLE 4 0x46574B41 ++ [1, 2, 3, 0] ++ toLE 4 0x77 ++ toLE 4 64 ++ zeros 16 ++ imageKey ++ imageSig) })
    (regs [(R.bootStat, 0x20000000), (R.bootLoadPtr, 320)] awake)

/-- R361: the signed image passes every check; with another fused digest it fails with AUTH_FAIL. -/
theorem wit_ResetsAndStartUpFollowTheirStages_image :
    booting.shaped = true ∧ booting.memOk = true ∧ booting.upsets = [] ∧ (1 : Word).getLsbD 0 = true ∧ (3 : Word).getLsbD 1 = true ∧
    booting.reg R.bootLoadPtr % 16 = 0 ∧ (booting.setReg R.bootStat 0x30000000).bootState = 3 ∧ booting.heldDown = false ∧
    booting.pageReady 2 = true ∧ booting.islandReady 1 = true ∧
    booting.bootState = 2 ∧ booting.correctImage.verify = none ∧ awake.bootState ≠ 2 ∧ awake.bootState ≠ 6 ∧
    (withPwr (fun p => { p with digest := zeros 48 }) booting).correctImage.verify = some 0x42 ∧
    booting.reg R.bootLoadPtr + 4 ≤ 3 * 2 ^ 20 ∧ (booting.setReg R.bootLoadPtr 0x2FFFFC).reg R.bootLoadPtr + 4 ≤ 3 * 2 ^ 20 ∧
    ¬ ((booting.setReg R.bootLoadPtr 0x300000).reg R.bootLoadPtr + 4 ≤ 3 * 2 ^ 20) := by decide +kernel

/-- R342, R347: a deeper dip lowers the minimum, at 1.62 V the island is reset; a recovery logs it at 1.72 V; the third
reset in a second takes a Pier out. -/
theorem test_vdip : ((ran (.vdip 6 true 1621) dipping).island 6).dips = [(true, 1621, 5)] ∧
    ((ran (.vdip 6 true 1620) dipping).island 6).ready = false ∧
    ran (.vdip 5 true 1711) dipping = dipping := by decide +kernel
theorem test_vdip_recover : (ran (.vdipRecover 6 true 1720) dipping).reg (R.pwrLog 0 + 4) = 1700 ∧
    (ran (.vdipRecover 6 true 1720) dipping).reg (R.pwrLog 0) = 0x1000086 ∧
    (ran (.vdipRecover 6 true 1719) dipping).reg (R.pwrLog 0) = 0 := by decide +kernel
theorem test_vreset : ((ran (.vreset 6 false 500) dipping).island 6).oos = true ∧
    ((ran (.vreset 7 false 500) dipping).island 7).oos = false ∧ (ran (.vreset 3 false 500) awake).bootState = 1 := by
  decide +kernel
theorem test_island_reset_release : ((ran (.islandResetRelease 7) (ran (.vreset 7 false 500) awake)).island 7).ready = true := by
  decide +kernel
theorem test_dvfs_done : ((ran (.dvfsDone 6) dipping).island 6).point = 1 := by decide +kernel
theorem test_vdda_dip : (ran (.vddaDip 7 830) (sagging true false)).pwr.vddaWarn = [(7, 830, 2)] ∧
    (ran (.vddaDip 7 850) awake).reg R.pwrVddaDipCnt = 1 := by decide +kernel
theorem test_vdda_reset : (ran (.vddaReset 0 700) (linked 4 8)).linkState 0 = 1 := by decide +kernel
theorem test_vdda_recover : (ran (.vddaRecover 7) (sagging false true)).reg (R.pwrLog 0) = 0x5000007 ∧
    (ran (.vddaRecover 7) (sagging true false)).reg (R.pwrLog 0) = 0x4000007 := by decide +kernel
theorem test_supplies_qualified : (ran .suppliesQualified State.reset).bootState = 1 := by decide +kernel
theorem test_island_start : ((ran .islandStart (withPwr (fun p => { p with started := false })
    (awake.setIsland 40 fun x => { x with ready := false }))).island 40).ready = true := by decide +kernel
theorem test_die_to_die : ((ran .dieToDieFabricUp (withPwr (fun p => { p with dieFabric := false })
    (awake.setIsland 65 fun x => { x with ready := false }))).island 65).ready = true := by decide +kernel
theorem test_pwr_isl_opp : ((ran (.pwrIslOpp 3) (awake.setReg R.pwrIslSel 6)).island 6).ramp = some 3 ∧
    (ran (.pwrIslOpp 3) (awake.setReg R.pwrIslSel 65)).reg (R.hdrErrFirst 2) = 0x80000023 := by decide +kernel
theorem test_throttle : ((ran (.throttle 1 0x690) awake).sensor 1).hot = true ∧
    ((ran (.throttle 1 0x68F) awake).sensor 1).hot = false := by decide +kernel
theorem test_throttle_lift : ((ran (.throttleLift 1 0x600) (hotSensor 1)).sensor 1).hot = false ∧
    (ran (.throttleLift 1 0x600) (hotSensor 1)).reg (R.pwrLog 0) = 0x6000001 := by decide +kernel
theorem test_cold_reset : (ran .coldReset (bytes 9 [7] tripped)).mem = [(9, 7)] ∧ (ran .coldReset tripped).bootState = 0 := by
  decide +kernel
theorem test_supply_loss : (ran (.supplyLoss false) awake).bootState = 0 := by decide +kernel
theorem test_trip_clear : (ran (.tripClear 4) tripped).bootState = 1 ∧ (ran (.tripClear 4) tripped).reg (R.pwrLog 0) = 0x7000003 := by
  decide +kernel
theorem test_warm_reset : (ran (.warmReset 2) up3).ctx = [] ∧ (ran (.warmReset 2) tripped).pwr.tripAt = some (5, 3, 0x780) := by
  decide +kernel
theorem test_kstn_reset : (ran (.kstnReset 1) serving).kstn.cutOff = some 0x2A000001 ∧
    (ran (.kstnReset 1) serving).regBits R.kstnState 31 30 = 1 := by decide +kernel
theorem test_trip : (ran (.trip 3 0x7D0) awake).heldDown = true ∧ (ran (.trip 3 0x100) awake).heldDown = false := by decide +kernel
theorem test_refclk : (ran .refclk awake).heldDown = true := by decide +kernel
theorem test_refclk_return : ran .refclkReturn awake = awake := by decide +kernel
theorem test_port_refclk_loss : (ran (.portRefclkLoss 0) (linked 4 8)).linkState 0 = 1 := by decide +kernel
theorem test_port_refclk_return : (ran (.portRefclkReturn 0) (ran (.portRefclkLoss 0) awake)).pwr.portClock = [] := by decide +kernel
theorem test_wdog : ran .wdog (awake.setReg R.pwrWdog 0) = awake.setReg R.pwrWdog 0 := by decide +kernel
theorem test_wdog_restart : (ran .wdogRestart dipping).pwr.wdogAt = 9 := by decide +kernel
theorem test_boot_selftest_done : (ran (.bootSelftestDone ⟨some 5, []⟩) testing).reg R.bootStat = 0x60005105 ∧
    (ran (.bootSelftestDone ⟨none, [6]⟩) testing).bootState = 2 ∧
    ((ran (.bootSelftestDone ⟨none, [6]⟩) testing).island 6).oos = true := by decide +kernel
theorem test_boot_load : (ran (.bootLoad 1) booting).reg R.bootLoadPtr = 0 := by decide +kernel
/-- R361: GO begins VERIFY, and the start goes on with the image's FW_VERSION. -/
theorem test_boot_go : (ran (.bootGo 2) booting).bootState = 3 ∧
    (ran .islandStart (booting.setReg R.bootStat 0x30000000)).reg R.bootFwVersion = 0x77 ∧
    (ran .islandStart (booting.setReg R.bootStat 0x30000000)).bootState = 4 := by decide +kernel
theorem test_boot_load_data : (ran (.bootLoadData 0x01020304) booting).pwr.image.readN 320 4 = [4, 3, 2, 1] := by decide +kernel

/-! ### Test and diagnostics -/

/-- A test runs on an island; a target is selected, and Pier 1, island 6, is on hold. -/
def underTest (kind island : Nat) (abort : Bool) : State := { awake with test := some ⟨kind, island, abort⟩ }
def aimed (target : Nat) : State := regs [(R.testTarget, target), (R.hdrCtrl 0x11, 4)] awake
def passed : TestResult := ⟨true, 0, 0, 0, 0⟩
def failed : TestResult := ⟨false, 2, 0x1234, 5, 0xABCD⟩

theorem wit_TestsRunRecordAndOwnTheLanes :
    awake.shaped = true ∧ awake.pageReady 0x7C = true ∧ awake.locked 0x7C = false ∧ (aimed 6).targetHeld 6 = true ∧ (aimed 40).targetHeld 40 = true ∧
    (aimed 70).targetHeld 70 = false ∧ (aimed 70).regBits R.testTarget 6 0 = 70 ∧
    (aimed 6).regBits R.testTarget 6 0 = 6 ∧ ¬ (5 ≤ 40 ∧ 40 < 37) ∧ bits (0x11 : Word).toNat 7 4 = 1 ∧
    bits (0x21 : Word).toNat 7 4 = 2 ∧ awake.test = none ∧ awake.up 0 = true ∧ (∀ l ∈ awake.cb, abutOf (l.granule * 64) ≠ 0) ∧
    (∀ x ∈ [(0, 5), (0, 61), (0, 68), (1, 36)], (underTest x.1 x.2 false).test = some ⟨x.1, x.2, false⟩) ∧
    (underTest 0 6 true).test = some ⟨0, 6, true⟩ := by decide

/-- Lane 7 of port 0: its link in a state, its controls and its status. -/
def laneSet (link ctl stat : Nat) : State :=
  regs [(R.portLaneCtrl 0 7, ctl), (R.portLaneStat 0 7, stat)] (linked link 8)

/-- A write that is taken and one that is not; under lock, one that marks, one that keeps the lock and one that ends it. -/
theorem wit_TestsRunRecordAndOwnTheLanes_lanes :
    let s := laneSet 6 0x13 0x80000000
    s.shaped = true ∧ s.pageReady 0x40 = true ∧ s.laneInTest 0 7 = true ∧ (laneSet 4 0 0).laneInTest 0 7 = false ∧
    s.up 37 = true ∧ bits (0x33 : Word).toNat 5 4 = 3 ∧ bits (0x33 : Word).toNat 5 0 ≠ s.regBits (R.portLaneCtrl 0 7) 5 0 ∧
    s.regBit (R.portLaneStat 0 7) 31 = true ∧ (laneSet 6 0x13 0).regBit (R.portLaneStat 0 7) 31 = false ∧
    ((0x53 : Word).getLsbD 6 = true ∧ bits (0x53 : Word).toNat 5 0 = 0x13 ∧ bits (0x53 : Word).toNat 5 4 = 1 ∧
      (0x53 : Word).getLsbD 0 = true ∧ (0x53 : Word).getLsbD 1 = true) ∧
    (bits (0x11 : Word).toNat 5 0 ≠ s.regBits (R.portLaneCtrl 0 7) 5 0 ∧ (0x11 : Word).getLsbD 1 = false) ∧
    ((0x93 : Word).getLsbD 7 = true ∧ bits (0x93 : Word).toNat 5 0 = 0x13) ∧
    (laneSet 4 0 0).laneActive 0 7 = true ∧ s.regBit (R.portLaneCtrl 0 7) 1 = true ∧
    (laneSet 6 0 0).regBit (R.portLaneCtrl 0 7) 1 = false ∧ (0, 7) ∉ awake.deck.eyes ∧
    (0, 7) ∈ ({ awake with deck := { awake.deck with eyes := [(0, 7)] } } : State).deck.eyes ∧
    (List.replicate 384 true).length = 384 := by decide +kernel

theorem test_sram_self_test : (ran (.sramSelfTest 1) (aimed 6)).test = some ⟨0, 6, false⟩ ∧
    (ran (.sramSelfTest 1) (aimed 70)).reg R.testStat = 0x40002300 := by decide +kernel
theorem test_known_answer : (ran (.knownAnswerTest 0x11) (aimed 6)).test = some ⟨1, 6, false⟩ ∧
    (ran (.knownAnswerTest 0x11) (aimed 40)).reg R.testStat = 0x40002300 := by decide +kernel
theorem test_test_abort : (ran (.testAbort 2) (underTest 0 6 false)).test = some ⟨0, 6, true⟩ ∧
    (ran (.testAbort 1) (underTest 0 6 false)).reg R.testRefused = 1 := by decide +kernel
/-- R402: a failed SRAM test takes the island out of service; PASS is bit 29. -/
theorem test_test_done : ((ran (.testDone failed) (underTest 0 6 false)).island 6).oos = true ∧
    (ran (.testDone failed) (underTest 0 6 false)).reg R.testStat = 0x40005120 ∧
    (ran (.testDone passed) (underTest 0 6 false)).reg R.testStat = 0x60000000 := by decide +kernel
theorem test_lane_test_config : (ran (.laneTestConfig 0 7 0x13) (laneSet 6 0 0)).reg (R.portLaneCtrl 0 7) = 0x13 ∧
    (ran (.laneTestConfig 0 7 0x13) (laneSet 4 0 0)).reg (R.hdrErrFirst 0x40) = 0x80000023 := by decide +kernel
theorem test_inject : (ran (.inject 0 7 0x53) (laneSet 6 0x13 0x80000000)).reg64 (R.portLanePrbsErrLo 0 7) = 1 ∧
    (ran (.inject 0 7 0x53) (laneSet 6 0x13 0)).reg64 (R.portLanePrbsErrLo 0 7) = 0 := by decide +kernel
theorem test_eye_start : (ran (.eyeStart 0 7 0x80) (laneSet 4 0 0)).deck.eyes = [(0, 7)] := by decide +kernel
theorem test_prbs_lock : (ran (.prbsLock 0 7) (laneSet 6 0x13 0)).reg (R.portLaneStat 0 7) = 0x80000000 := by decide +kernel
theorem test_prbs_unlock : (ran (.prbsUnlock 0 7 1000 3) (laneSet 6 0x13 0x80000000)).reg64 (R.portLanePrbsBitsLo 0 7) = 1000 ∧
    (ran (.prbsUnlock 0 7 1000 3) (laneSet 6 0x13 0x80000000)).reg64 (R.portLanePrbsErrLo 0 7) = 3 := by decide +kernel
theorem test_eye_done :
    (ran (.eyeDone 0 7 4 5) { awake with deck := { awake.deck with eyes := [(0, 7)] } }).reg (R.portLaneEye 0 7) = 0x50004 := by
  decide +kernel
theorem test_bypass : (ran .bypass awake).scan.mode = .bypass := by decide
theorem test_sample : (ran (.samplePreload [true, false]) awake).scan.capture.take 3 = [true, false, false] := by
  decide +kernel
theorem test_extest : (ran (.extest [true] [false]) (linked 4 8)).linkState 0 = 1 ∧
    (ran (.extest [true] [false]) awake).scan.drive.take 2 = [true, false] := by decide +kernel
theorem test_extest_pulse : (ran (.extestPulse [true] [false]) awake).scan.mode = .pulse := by decide +kernel
theorem test_extest_train : (ran (.extestTrain [true] [false]) awake).scan.mode = .train := by decide +kernel

/-! ### Packets and words -/

theorem wit_PacketBytesSpellThePacket :
    (pktM 1 (zeros 4096)).payload.length ≤ 4096 ∧ (pktBytes (pktM 1 [1, 2])).length < 65536 ∧
    (Frame.mk 63 7 255 true (pktM 1 [1, 2])).vl < 256 ∧ (Frame.mk 63 7 255 true (pktM 1 [1, 2])).hops < 256 := by decide +kernel
theorem wit_CodeCorrectsOneFlipAndDetectsTwo :
    (2 ^ 128 - 1 : Nat) < 2 ^ 128 ∧ 0 < 136 ∧ 136 < 137 ∧ (2 ^ 137 : Nat).testBit 137 = true ∧ 63 < 64 := by decide

/-- R254: the first word of a header holds the version in its high nibble and the VL in bits [2:0] of byte 0. -/
theorem test_packet_bytes : (pktBytes (pktM 1 [1, 2])).length = 34 ∧ packetOf (pktBytes (pktM 1 [1, 2])) = some (pktM 1 [1, 2]) := by
  decide +kernel
theorem test_code : eccRead (eccWord 5 ^^^ 1 <<< 136) = .corrected 5 := by decide +kernel


/-! ### Flipped bits -/

/-- R32, R33, R70: one flipped bit of a word is corrected and counted; two are uncorrectable. -/
theorem test_flip_corrected :
    (State.checkWords .keystone [3402823669209384634633746074317682114567] 0 awake).2.2.reg (R.hdrErrCntCe 1) = 1 ∧
    eccRead 3402823669209384634633746074317682114566 = .uncorrectable 6 := by decide +kernel
theorem test_flip_words : eccWord 5 ^^^ 2 = 3402823669209384634633746074317682114567 ∧
    eccWord 5 ^^^ 3 = 3402823669209384634633746074317682114566 := by decide +kernel
/-- R285, R295: a bad header word stomps the frame; R266: a bad payload word of a frame for this chip poisons it. -/
theorem test_flip_frame :
    let f : Frame := ⟨localPort, 0, 0, false, pktM 1 (zeros 16)⟩
    (f.rewrite 0 (sub (pktBytes f.pkt) 0 16) true).stomp = true ∧ (f.rewrite 2 (zeros 16) true).pkt.poison = true ∧
    (f.rewrite 2 (zeros 16) true).stomp = false := by decide +kernel
/-- R190: a bad word is marked in the part of the span that holds it; R155: or spoils the master of its slot alone. -/
theorem test_flip_spoils :
    ({ span0 with hdr := zeros 64 } : Span).rewrite 2 (zeros 16) true = { span0 with hdr := zeros 64, bad := [(.header, 2)] } ∧
    (QState.reset.rewrite (.table 3 1) (zeros 16) true).tables.map (·.bad) = (List.replicate 16 false).set 3 true := by
  decide +kernel
end Sys2Proof.Tests
end

section
/-! Register reads and writes of the control window (R15, R16, R314, R365, R369, R373, R278): what a word of a register
page reads and takes, and the two statements of the chapter on scope about it. -/

namespace Sys2Proof.Machine

/-! ### Bit fields -/

theorem testBit_bits (n hi lo k : Nat) : (bits n hi lo).testBit k = (decide (k < hi + 1 - lo) && n.testBit (lo + k)) := by
  rw [bits, Nat.testBit_mod_two_pow, Nat.testBit_shiftRight]

/-- A field below a stored one reads as before. -/
theorem bits_setBits_below (n v : Nat) {hi lo hi' lo' : Nat} (h : lo ≤ hi + 1) (hb : hi' < lo) :
    bits (setBits n hi lo v) hi' lo' = bits n hi' lo' := by
  refine Nat.eq_of_testBit_eq fun k => ?_
  rw [testBit_bits, testBit_bits]
  by_cases hk : k < hi' + 1 - lo'
  · have hlow := congrArg (Nat.testBit · (lo' + k)) (setBits_low n v h)
    have hlt : lo' + k < lo := by omega
    simpa [Nat.testBit_mod_two_pow, hlt, hk] using hlow
  · simp [hk]

/-- The bits above a stored field stay. -/
theorem setBits_high (n v : Nat) {hi lo : Nat} (h : lo ≤ hi + 1) : setBits n hi lo v >>> (hi + 1) = n >>> (hi + 1) := by
  have hrest : (v % 2 ^ (hi + 1 - lo)) <<< lo + n % 2 ^ lo < 2 ^ (hi + 1) := by
    have hv : v % 2 ^ (hi + 1 - lo) + 1 ≤ 2 ^ (hi + 1 - lo) := Nat.mod_lt _ (Nat.two_pow_pos _)
    have hn : n % 2 ^ lo < 2 ^ lo := Nat.mod_lt _ (Nat.two_pow_pos _)
    calc (v % 2 ^ (hi + 1 - lo)) <<< lo + n % 2 ^ lo
        < (v % 2 ^ (hi + 1 - lo) + 1) * 2 ^ lo := by rw [Nat.shiftLeft_eq, Nat.add_mul, one_mul]; omega
      _ ≤ 2 ^ (hi + 1 - lo) * 2 ^ lo := Nat.mul_le_mul_right _ hv
      _ = 2 ^ (hi + 1) := by rw [← Nat.pow_add, Nat.sub_add_cancel h]
  rw [setBits, Nat.add_assoc, Nat.shiftRight_eq_div_pow, Nat.shiftLeft_eq, Nat.mul_comm,
    Nat.mul_add_div (Nat.two_pow_pos _), Nat.div_eq_of_lt hrest, Nat.add_zero]

/-- A field above a stored one reads as before. -/
theorem bits_setBits_above (n v : Nat) {hi lo hi' lo' : Nat} (h : lo ≤ hi + 1) (hb : hi < lo') :
    bits (setBits n hi lo v) hi' lo' = bits n hi' lo' := by
  have hlo : lo' = hi + 1 + (lo' - (hi + 1)) := by omega
  rw [bits, bits, hlo, Nat.shiftRight_add, setBits_high n v h, ← Nat.shiftRight_add]

/-! ### Register words -/

/-- The row of a register is one of the common header's or of its page's own. -/
theorem regRow_mem {a : Nat} {r : RegRow} (h : regRow a = some r) :
    r ∈ headerRows ∨ r ∈ pageRows (pageKind (a / 4096)) := by
  unfold regRow at h
  dsimp only at h
  split at h
  · cases h
  · cases h
  · split at h
    · exact .inl (List.mem_of_find?_eq_some h)
    · exact .inr (List.mem_of_find?_eq_some h)

theorem headerRows_reset_lt : ∀ r ∈ headerRows, r.reset < 2 ^ 32 := by decide

theorem pageRows_reset_lt (k : PageKind) : ∀ r ∈ pageRows k, r.reset < 2 ^ 32 := by
  cases k with
  | pier n => change ∀ r ∈ pierRows, _; decide
  | port n => change ∀ r ∈ portRows, _; decide
  | abut n => change ∀ r ∈ abutRows, _; decide
  | _ => decide

theorem regReset_lt (a : Nat) : regReset a < 2 ^ 32 := by
  have hrow : ((regRow a).map RegRow.reset).getD 0 < 2 ^ 32 := by
    cases h : regRow a with
    | none => decide
    | some r => exact (regRow_mem h).elim (headerRows_reset_lt r) (pageRows_reset_lt _ r)
  unfold regReset
  split
  · split
    · decide
    · exact hrow
  · exact hrow

/-- A register word has 32 bits. -/
theorem State.reg_lt (s : State) (a : Nat) : s.reg a < 2 ^ 32 := by
  unfold State.reg
  split
  · exact BitVec.isLt _
  · exact regReset_lt a

theorem State.reg_writeFields (s : State) (a v : Nat) (hv : v < 2 ^ 32) :
    (s.writeFields a v).reg a = (s.reg a &&& (0xFFFFFFFF ^^^ s.writable a)) ||| (v &&& s.writable a) := by
  rw [State.writeFields, State.reg_setReg_same]
  exact Nat.mod_eq_of_lt (Nat.or_lt_two_pow (Nat.and_le_left.trans_lt (s.reg_lt a)) (Nat.and_le_left.trans_lt hv))

theorem State.writable_of_row {a : Nat} {r : RegRow} (h : regRow a = some r) (s : State) :
    s.writable a = r.rw ||| (if s.locked (a / 4096) then 0 else r.rwl) := by
  rw [State.writable, h]

/-- R16: what a register with no action of its own holds after a write. -/
theorem State.reg_writePlain {a : Nat} {r : RegRow} (h : regRow a = some r) (s : State) (v : Word) :
    (s.writePlain a v).reg a =
      ((s.reg a &&& (0xFFFFFFFF ^^^ s.writable a)) ||| (v.toNat &&& s.writable a)) &&&
        (0xFFFFFFFF ^^^ (r.w1c &&& v.toNat)) := by
  rw [State.writePlain, h]
  dsimp only
  rw [State.reg_setReg_same, ← s.reg_writeFields a v.toNat v.isLt]
  exact Nat.mod_eq_of_lt (Nat.and_le_left.trans_lt (State.reg_lt _ a))

/-- A store into one register word touches nothing else. -/
theorem State.setReg_frame (s : State) (a v : Nat) : s.onlyRegs (s.setReg a v) ∧ s.regsBut (s.setReg a v) [a] :=
  ⟨rfl, fun _ hb => s.reg_setReg_other v fun e => hb (by simp [e])⟩

theorem State.writeFields_frame (s : State) (a v : Nat) :
    s.onlyRegs (s.writeFields a v) ∧ s.regsBut (s.writeFields a v) [a] := s.setReg_frame a _

theorem State.writePlain_frame (s : State) (a : Nat) (v : Word) :
    s.onlyRegs (s.writePlain a v) ∧ s.regsBut (s.writePlain a v) [a] := by
  unfold State.writePlain
  split
  · obtain ⟨-, hf⟩ := s.writeFields_frame a v.toNat
    obtain ⟨-, hs⟩ := (s.writeFields a v.toNat).setReg_frame a
      ((s.writeFields a v.toNat).reg a &&& (0xFFFFFFFF ^^^ (‹RegRow›.w1c &&& v.toNat)))
    exact ⟨rfl, fun b hb => (hs b hb).trans (hf b hb)⟩
  · exact ⟨rfl, fun _ _ => rfl⟩

/-! ### Register pages -/

theorem pageKind_pier {page : Nat} (h : 0x10 ≤ page ∧ page ≤ 0x2F) : pageKind page = .pier (page - 0x10) := by
  unfold pageKind
  rw [if_neg (by omega), if_pos h]

theorem pageKind_port {page : Nat} (h : 0x40 ≤ page ∧ page ≤ 0x57) : pageKind page = .port (page - 0x40) := by
  unfold pageKind
  rw [if_neg (by omega), if_neg (by omega), if_pos h]

theorem pageKind_abut {page : Nat} (h : 0x68 ≤ page ∧ page ≤ 0x6F) : pageKind page = .abut (page - 0x68) := by
  unfold pageKind
  rw [if_neg (by omega), if_neg (by omega), if_neg (by omega), if_pos h]

theorem ownRow_pier {page off : Nat} (h : 0x10 ≤ page ∧ page ≤ 0x2F) (ho : 0x40 ≤ off) :
    ownRow page off = [0x70, 0x98, 0xEC].contains off := by
  unfold ownRow
  iterate 10 rw [if_neg (by omega)]
  rw [if_pos h]

theorem ownRow_port {page off : Nat} (h : 0x40 ≤ page ∧ page ≤ 0x57) (ho : 0x40 ≤ off) :
    ownRow page off = ([0x44, 0x54, 0x58, 0xB8, 0x64C].contains off ||
      decide (0x400 ≤ off ∧ off < 0x600 ∧ off % 0x40 = 0)) := by
  unfold ownRow
  iterate 11 rw [if_neg (by omega)]
  rw [if_pos h]

theorem ownRow_abut {page off : Nat} (h : 0x68 ≤ page ∧ page ≤ 0x6F) (ho : 0x40 ≤ off) :
    ownRow page off = (off == 0x44) := by
  unfold ownRow
  iterate 13 rw [if_neg (by omega)]
  rw [if_pos h]

/-- R367: the register pages are thirteen single pages and the ranges of the Piers, ports and Abutments. -/
theorem regPage_cases {page : Nat} (h : regPage page = true) :
    (page = 0 ∨ page = 1 ∨ page = 2 ∨ page = 3 ∨ page = 4 ∨ page = 5 ∨ page = 6 ∨ page = 7 ∨ page = 8 ∨
      page = 0x60 ∨ page = 0x70 ∨ page = 0x78 ∨ page = 0x7C) ∨
    (0x10 ≤ page ∧ page ≤ 0x2F) ∨ (0x40 ≤ page ∧ page ≤ 0x57) ∨ (0x68 ≤ page ∧ page ≤ 0x6F) := by
  have := of_decide_eq_true h
  omega

/-- R16: on every register page a word without a row of its own, beside the two kinds with a check of their own and the
fields of an armed Caisson entry, takes the plain write. -/
theorem pageWrite_of_not_ownRow (s : State) {page off : Nat} (v : Word) (hp : regPage page = true)
    (ho : 0x40 ≤ off) (h4 : off % 4 = 0) (hr : ownRow page off = false) (ht : regAddr page off ≠ R.pwrThermLimits)
    (hk : ∀ i, i < 8 → regAddr page off ≠ R.secKey i) (ha : page = 6 → s.armedField off = false) :
    pageWrite page off v s = s.writePlain (regAddr page off) v := by
  have hoff : ¬ off < 0x40 := by omega
  unfold pageWrite
  rcases regPage_cases hp with fixed | pier | port | abut
  · have hlim : page = 2 → off ≠ 0x84 := fun hpage e => ht (by rw [hpage, e]; rfl)
    have hkey : page = 0x78 → ¬ (0x44 ≤ off ∧ off < 0x64) := fun hpage e =>
      hk ((off - 0x44) / 4) (by omega) (by rw [hpage, R.secKey, regAddr, regAddr]; omega)
    have hwatch : page = 6 → ¬ (0x100 ≤ off ∧ off < 0x200) := fun hpage e => by
      simp [ownRow, hoff, hpage, e] at hr
    rcases fixed with rfl | rfl | rfl | rfl | rfl | rfl | rfl | rfl | rfl | rfl | rfl | rfl | rfl <;>
      simp [ownRow, hoff] at hr <;> simp [pageKind, hr, hlim, hkey, hwatch, ha]
  · have hclear : off ≠ 0x70 ∧ off ≠ 0x98 ∧ off ≠ 0xEC := by simpa [ownRow_pier pier ho] using hr
    simp [pageKind_pier pier, hclear]
  · have hacts : (off ≠ 0x44 ∧ off ≠ 0x54 ∧ off ≠ 0x58 ∧ off ≠ 0xB8 ∧ off ≠ 0x64C) ∧
        (0x400 ≤ off → off < 0x600 → off % 0x40 ≠ 0) := by simpa [ownRow_port port ho] using hr
    have hlane : ¬ (0x400 ≤ off ∧ off < 0x600 ∧ off % 0x40 = 0) := fun ⟨h, h', h0⟩ => hacts.2 h h' h0
    simp only [pageKind_port port, hacts, hlane, or_self, if_false]
  · have hctrl : off ≠ 0x44 := by simpa [ownRow_abut abut ho] using hr
    simp [pageKind_abut abut, hctrl]

/-- A page of registers is neither reserved nor a window. -/
theorem pageKind_regPage {page : Nat} (h : regPage page = true) :
    pageKind page ≠ .reserved ∧ pageKind page ≠ .window := by
  rcases regPage_cases h with fixed | pier | port | abut
  · rcases fixed with rfl | rfl | rfl | rfl | rfl | rfl | rfl | rfl | rfl | rfl | rfl | rfl | rfl <;> decide
  · simp [pageKind_pier pier]
  · simp [pageKind_port port]
  · simp [pageKind_abut abut]

/-- An address of a register page lies below the context windows (R367, R379). -/
theorem State.winWord_regPage {a : Nat} (h : regPage (a / 4096) = true) (s : State) : s.winWord a = none := by
  have hp := of_decide_eq_true h
  rw [State.winWord, if_pos (by omega)]

theorem State.dead_of_pageReady {s : State} {page : Nat} (h : s.pageReady page = true) : s.pwr.dead = false := by
  rw [State.pageReady, Bool.and_eq_true, Bool.not_eq_true'] at h
  exact h.1

theorem regAddr_div_mod (a : Nat) : regAddr (a / 4096) (a % 4096) = a := Nat.div_add_mod' a 4096

/-- A whole-word write past the common header of a register page that answers. -/
theorem controlWrite_regPage (s : State) {addr : BitVec 24} (v : Word) (h4 : addr.toNat % 4 = 0)
    (hp : regPage (addr.toNat / 4096) = true) (ho : 0x40 ≤ addr.toNat % 4096)
    (hr : s.pageReady (addr.toNat / 4096) = true) :
    controlWrite addr v s = pageWrite (addr.toNat / 4096) (addr.toNat % 4096) v s := by
  have ha : addr.toNat / 4 * 4 = addr.toNat := by omega
  unfold controlWrite State.atPage
  dsimp only
  rw [ha, if_neg (pageKind_regPage hp).1, if_pos hr, State.winWord_regPage hp]
  exact if_neg (by omega)

/-- A control read of an aligned word of a register page that answers (R369). -/
theorem controlRead_regPage (s : State) {addr : BitVec 24} (bytes : BitVec 4) (h4 : addr.toNat % 4 = 0)
    (hp : regPage (addr.toNat / 4096) = true) (hr : s.pageReady (addr.toNat / 4096) = true) :
    controlRead addr bytes s = { (s.readReg addr.toNat).2 with
      lastRead := ⟨BitVec.ofNat 32 (s.readReg addr.toNat).1 &&& byteMask bytes, false⟩ } := by
  have ha : addr.toNat / 4 * 4 = addr.toNat := by omega
  have hd : ¬ s.pwr.dead = true := by simp [State.dead_of_pageReady hr]
  unfold controlRead
  dsimp only
  rw [ha, if_neg hd, if_neg (by simp [hr]), State.winWord_regPage hp]

/-! ### The pairs of R15 -/

/-- The _LO of a pair stands past the common header, and its _HI, the next word of the page, is no _LO. -/
theorem loOffsets_hi (k : PageKind) : ∀ off ∈ loOffsets k,
    0x40 ≤ off ∧ off + 4 < 4096 ∧ (loOffsets k).contains (off + 4) = false := by
  cases k with
  | pier n => change ∀ off ∈ loOffsets (.pier 0), _ ∧ _ ∧ (loOffsets (.pier 0)).contains _ = _; decide
  | port n => change ∀ off ∈ loOffsets (.port 0), _ ∧ _ ∧ (loOffsets (.port 0)).contains _ = _; decide
  | abut n => change ∀ off ∈ loOffsets (.abut 0), _ ∧ _ ∧ (loOffsets (.abut 0)).contains _ = _; decide
  | _ => decide

/-- No pair stands on AK_PWR, and that of AK_QMGR stands past the words whose reading takes a free value. -/
theorem loOffsets_unmeasured {k : PageKind} {off : Nat} (h : off ∈ loOffsets k) :
    k ≠ .pwr ∧ (k = .qmgr → 0x60 ≤ off) := by
  constructor
  · rintro rfl; simp [loOffsets] at h
  · rintro rfl; simp [loOffsets] at h; omega

/-- The words of AK_QMGR past the use counters are read without a free value. -/
theorem State.readQmgr_state {s : State} {off : Nat} (ho : 0x60 ≤ off) {r : Nat × State}
    (h : s.readQmgr off = some r) : r.2 = s := by
  unfold State.readQmgr at h
  split at h
  case h_5 => cases h; rfl
  case h_6 => cases h; rfl
  case h_7 => cases h
  all_goals omega

/-- Reading a register whose value is not measured changes nothing. -/
theorem State.readLive_state (s : State) {a : Nat} (hp : pageKind (a / 4096) ≠ .pwr)
    (hq : pageKind (a / 4096) = .qmgr → 0x60 ≤ a % 4096) : (s.readLive a).2 = s := by
  unfold State.readLive
  dsimp only
  split
  · split <;> rfl
  · split
    case h_2 hk => exact absurd hk hp
    case h_6 hk =>
      cases h : s.readQmgr (a % 4096) with
      | none => rfl
      | some r => exact State.readQmgr_state (hq hk) h
    case h_10 => split <;> rfl
    all_goals rfl

/-- R15: a read of _LO returns it and latches _HI. -/
theorem State.readReg_lo (s : State) {a : Nat} (h : a % 4096 ∈ loOffsets (pageKind (a / 4096))) :
    s.readReg a = (((s.compareAt a).readLive a).1,
      (s.compareAt a).setLatch (a + 4) ((s.compareAt a).readLive (a + 4)).1) := by
  obtain ⟨-, hlt, -⟩ := loOffsets_hi _ _ h
  obtain ⟨hp, hq⟩ := loOffsets_unmeasured h
  have hpage : (a + 4) / 4096 = a / 4096 := by omega
  have hlo : ((s.compareAt a).readLive a).2 = s.compareAt a := State.readLive_state _ hp hq
  have hhi : ((s.compareAt a).readLive (a + 4)).2 = s.compareAt a :=
    State.readLive_state _ (hpage ▸ hp) fun hk => by have := hq (hpage ▸ hk); omega
  rw [State.readReg, if_pos (List.contains_iff_mem.mpr h)]
  dsimp only
  rw [hhi, hlo]

/-- R15: a read of a register that is no _LO and has nothing latched returns its live value. -/
theorem State.readReg_live (s : State) {a : Nat} (h : (loOffsets (pageKind (a / 4096))).contains (a % 4096) = false)
    (hl : ∀ p ∈ s.latch, p.1 ≠ a) : s.readReg a = s.readLive a := by
  have hnone : (s.latch.find? fun p => p.1 == a) = none := by simpa [List.find?_eq_none] using hl
  rw [State.readReg, if_neg (by rw [h]; decide), hnone]

/-- R15: a read of a latched _HI returns the latched half. -/
theorem State.readReg_latched (s : State) {a : Nat} {w : Word}
    (h : (loOffsets (pageKind (a / 4096))).contains (a % 4096) = false)
    (hl : (s.latch.find? fun p => p.1 == a) = some (a, w)) : s.readReg a = (w.toNat, s.dropLatch a) := by
  rw [State.readReg, if_neg (by rw [h]; decide), hl]

theorem State.find_setLatch (s : State) (a v : Nat) :
    ((s.setLatch a v).latch.find? fun p => p.1 == a) = some (a, BitVec.ofNat 32 v) := by
  rw [State.setLatch, State.dropLatch, List.find?_append, find_filter_same]
  simp

/-- LO_READ of an aligned word of a register page that answers. -/
theorem exec_loRead_regPage (s : State) {addr : BitVec 24} (bytes : BitVec 4) (h4 : addr.toNat % 4 = 0)
    (hp : regPage (addr.toNat / 4096) = true) (hr : s.pageReady (addr.toNat / 4096) = true) :
    exec (.loRead ⟨addr, bytes⟩) s = .next { (s.readReg addr.toNat).2 with
      lastRead := ⟨BitVec.ofNat 32 (s.readReg addr.toNat).1 &&& byteMask bytes, false⟩ } := by
  rw [exec_loRead, execLoRead, controlRead_regPage s bytes h4 hp hr]

/-! ### The statements -/

/-- R15: the read of _LO, and the next read of _HI in any state with the same latches. -/
theorem loRead_then_hi (s : State) {addr : BitVec 24} (bytes : BitVec 4) (h4 : addr.toNat % 4 = 0)
    (hr : s.pageReady (addr.toNat / 4096) = true) (hp : regPage (addr.toNat / 4096) = true)
    (h : addr.toNat % 4096 ∈ loOffsets (pageKind (addr.toNat / 4096))) :
    ∃ t, exec (.loRead ⟨addr, bytes⟩) s = .next t ∧
      t.lastRead = ⟨BitVec.ofNat 32 ((s.compareAt addr.toNat).readLive addr.toNat).1 &&& byteMask bytes, false⟩ ∧
      ∀ u : State, u.latch = t.latch → u.pageReady (addr.toNat / 4096) = true →
        ∃ w, exec (.loRead ⟨addr + 4, bytes⟩) u = .next w ∧ w.lastRead =
          ⟨BitVec.ofNat 32 ((s.compareAt addr.toNat).readLive (addr.toNat + 4)).1 &&& byteMask bytes, false⟩ := by
  obtain ⟨-, hlt, hhi⟩ := loOffsets_hi _ _ h
  have hpp := of_decide_eq_true hp
  have hnext : (addr + 4).toNat = addr.toNat + 4 := by
    rw [BitVec.toNat_add]; exact Nat.mod_eq_of_lt (by simp; omega)
  have hpage : (addr.toNat + 4) / 4096 = addr.toNat / 4096 := by omega
  have hoff : (addr.toNat + 4) % 4096 = addr.toNat % 4096 + 4 := by omega
  refine ⟨_, exec_loRead_regPage s bytes h4 hp hr, ?_, fun u hu hur => ⟨_, exec_loRead_regPage u bytes (by omega)
    (by rwa [hnext, hpage]) (by rwa [hnext, hpage]), ?_⟩⟩
  · rw [s.readReg_lo h]
  · have hl : (u.latch.find? fun p => p.1 == addr.toNat + 4) =
        some (addr.toNat + 4, BitVec.ofNat 32 ((s.compareAt addr.toNat).readLive (addr.toNat + 4)).1) := by
      rw [hu, s.readReg_lo h]
      exact State.find_setLatch _ _ _
    rw [hnext, u.readReg_latched (by rwa [hpage, hoff]) hl]
    simp only [BitVec.ofNat_toNat, BitVec.setWidth_eq]

/-- Settles O14: a _LO read leaves the upper half in the latch, which the next read of _HI finds. -/
theorem lowReadLatchesTheHighWord : Obligations.LowReadLatchesTheHighWord := by
  intro s addr bytes h4 hr hp
  refine ⟨fun h => loRead_then_hi s bytes h4 hr hp (List.contains_iff_mem.mp h), fun h hl => ?_⟩
  refine ⟨_, exec_loRead_regPage s bytes h4 hp hr, ?_⟩
  rw [s.readReg_live h hl]

/-- R16: a write to a register with no action of its own is the plain write of its fields. -/
theorem exec_registerWrite_plain (s : State) {addr : BitVec 24} (v : Word) (h4 : addr.toNat % 4 = 0)
    (hp : regPage (addr.toNat / 4096) = true) (ho : 0x40 ≤ addr.toNat % 4096)
    (hr : s.pageReady (addr.toNat / 4096) = true) (hown : ownRow (addr.toNat / 4096) (addr.toNat % 4096) = false)
    (ht : addr.toNat ≠ R.pwrThermLimits) (hk : ∀ i, i < 8 → addr.toNat ≠ R.secKey i)
    (ha : addr.toNat / 4096 = 6 → s.armedField (addr.toNat % 4096) = false) :
    exec (.registerWrite addr v) s = .next (s.writePlain addr.toNat v) := by
  rw [exec_registerWrite, execRegisterWrite, controlWrite_regPage s v h4 hp ho hr,
    pageWrite_of_not_ownRow s v hp ho (by omega) hown (by rwa [regAddr_div_mod]) (by rwa [regAddr_div_mod]) ha,
    regAddr_div_mod]

/-- R314: a field of an armed Caisson entry ignores the write. -/
theorem pageWrite_armed (s : State) {off : Nat} (v : Word) (h : ownRow 6 off = false) (ho : 0x40 ≤ off)
    (ha : s.armedField off = true) : pageWrite 6 off v s = s := by
  have hoff : ¬ off < 0x40 := by omega
  have hacts : (off ≠ 0x44 ∧ off ≠ 0x74 ∧ off ≠ 0xC8) ∧ (0x100 ≤ off → 0x200 ≤ off) := by
    simpa [ownRow, hoff] using h
  have hwatch : ¬ (0x100 ≤ off ∧ off < 0x200) := by omega
  unfold pageWrite
  simp [pageKind, hacts, hwatch, ha]

/-- A field of a word n put back to what it was when its new value is above a limit (R365). -/
def keepOver (was n limit hi lo : Nat) : Nat := if limit < bits n hi lo then setBits n hi lo (bits was hi lo) else n

theorem bits_keepOver (was n limit : Nat) {hi lo : Nat} (h : lo ≤ hi + 1) :
    bits (keepOver was n limit hi lo) hi lo = if limit < bits n hi lo then bits was hi lo else bits n hi lo := by
  unfold keepOver
  split
  · rw [bits_setBits _ _ h]
    exact Nat.mod_eq_of_lt (Nat.mod_lt _ (Nat.two_pow_pos _))
  · rfl

theorem bits_keepOver_other (was n limit : Nat) {hi lo hi' lo' : Nat} (h : lo ≤ hi + 1) (hd : hi' < lo ∨ hi < lo') :
    bits (keepOver was n limit hi lo) hi' lo' = bits n hi' lo' := by
  unfold keepOver
  split
  · exact hd.elim (bits_setBits_below _ _ h) (bits_setBits_above _ _ h)
  · rfl

theorem keepOver_lt (was limit : Nat) {n k hi lo : Nat} (hn : n < 2 ^ k) (hk : hi + 1 ≤ k) (h : lo ≤ hi + 1) :
    keepOver was n limit hi lo < 2 ^ k := by
  unfold keepOver
  split
  · exact setBits_lt _ hn hk h
  · exact hn

/-- What a write of PWR_THERM_LIMITS stores (R365). -/
def limitsWord (was : Nat) (v : Word) : Nat := keepOver was (keepOver was v.toNat 0x7D 31 24) 0x69 15 8

theorem thermLimits_eq (v : Word) (s : State) :
    thermLimits v s = s.writeFields R.pwrThermLimits (limitsWord (s.reg R.pwrThermLimits) v) := rfl

theorem limitsWord_lt (was : Nat) (v : Word) : limitsWord was v < 2 ^ 32 :=
  keepOver_lt _ _ (keepOver_lt _ _ v.isLt (by decide) (by decide)) (by decide) (by decide)

theorem limitsWord_trip (was : Nat) (v : Word) : bits (limitsWord was v) 31 24 =
    if 0x7D < bits v.toNat 31 24 then bits was 31 24 else bits v.toNat 31 24 := by
  rw [limitsWord, bits_keepOver_other _ _ _ (by decide) (.inr (by decide)), bits_keepOver _ _ _ (by decide)]

theorem limitsWord_throttle (was : Nat) (v : Word) : bits (limitsWord was v) 15 8 =
    if 0x69 < bits v.toNat 15 8 then bits was 15 8 else bits v.toNat 15 8 := by
  rw [limitsWord, bits_keepOver _ _ _ (by decide), bits_keepOver_other _ _ _ (by decide) (.inl (by decide))]

/-- R365: while AK_PWR is not locked every bit of PWR_THERM_LIMITS is written. -/
theorem State.reg_thermLimits (s : State) (v : Word) (hl : s.locked 2 = false) :
    (thermLimits v s).reg R.pwrThermLimits = limitsWord (s.reg R.pwrThermLimits) v := by
  have hrow : regRow R.pwrThermLimits = some ⟨0x84, 1, 4, 0, 0xFFFFFFFF, 0, 0, 0x7D736964⟩ := by decide
  have hpage : R.pwrThermLimits / 4096 = 2 := by decide
  have hw : s.writable R.pwrThermLimits = 2 ^ 32 - 1 := by
    rw [State.writable_of_row hrow, hpage, hl]; decide
  have hlt := limitsWord_lt (s.reg R.pwrThermLimits) v
  rw [thermLimits_eq, s.reg_writeFields _ _ hlt, hw, Nat.and_two_pow_sub_one_of_lt_two_pow hlt]
  simp

theorem exec_registerWrite_thermLimits (s : State) (v : Word) (hr : s.pageReady 2 = true) :
    exec (.registerWrite (BitVec.ofNat 24 R.pwrThermLimits) v) s = .next (thermLimits v s) := by
  have ha : (BitVec.ofNat 24 R.pwrThermLimits).toNat = 0x2084 := by decide
  rw [exec_registerWrite, execRegisterWrite, controlWrite_regPage s v (by rw [ha]) (by rw [ha]; decide)
    (by rw [ha]; decide) (by rw [ha]; exact hr), ha]
  rfl

/-- R278: the word of AK_SEC past the selector is a staged key word. -/
theorem pageWrite_secKey (s : State) (v : Word) {i : Nat} (hi : i < 8) :
    pageWrite 0x78 (0x44 + 4 * i) v s = keyWord i v s := by
  have hcommit : 0x44 + 4 * i ≠ 0x64 := by omega
  have hkey : 0x44 ≤ 0x44 + 4 * i ∧ 0x44 + 4 * i < 0x64 := by omega
  have hindex : (0x44 + 4 * i - 0x44) / 4 = i := by omega
  calc pageWrite 0x78 (0x44 + 4 * i) v s
      = _ := if_neg hcommit
    _ = keyWord ((0x44 + 4 * i - 0x44) / 4) v s := if_pos hkey
    _ = keyWord i v s := by rw [hindex]

theorem exec_registerWrite_secKey (s : State) (v : Word) {i : Nat} (hi : i < 8) (hr : s.pageReady 0x78 = true) :
    exec (.registerWrite (BitVec.ofNat 24 (R.secKey i)) v) s = .next (keyWord i v s) := by
  have ha : (BitVec.ofNat 24 (R.secKey i)).toNat = 0x78044 + 4 * i := by
    rw [BitVec.toNat_ofNat, R.secKey, regAddr]; omega
  have hpage : (0x78044 + 4 * i) / 4096 = 0x78 := by omega
  have hoff : (0x78044 + 4 * i) % 4096 = 0x44 + 4 * i := by omega
  rw [exec_registerWrite, execRegisterWrite, controlWrite_regPage s v (by omega) (by rw [ha, hpage]; decide)
    (by omega) (by rwa [ha, hpage]), ha, hpage, hoff, pageWrite_secKey s v hi]

theorem keyWord_frame (i : Nat) (v : Word) (s : State) :
    s.onlyRegs (keyWord i v s) ∧ s.regsBut (keyWord i v s) [R.secKey i] := by
  unfold keyWord
  split
  · exact ⟨rfl, fun _ _ => rfl⟩
  · exact s.setReg_frame _ _

theorem reg_keyWord (i : Nat) (v : Word) (s : State) :
    (keyWord i v s).reg (R.secKey i) = if s.locked 0x78 then s.reg (R.secKey i) else v.toNat := by
  unfold keyWord
  split
  · rfl
  · rw [State.reg_setReg_same, Nat.mod_eq_of_lt v.isLt]

/-- Settles O17: the write reaches the plain write of the register's fields, the two limits or the key word. -/
theorem registerWriteReplacesItsFields : Obligations.RegisterWriteReplacesItsFields := by
  refine ⟨fun s addr v => ?_, fun s v => ⟨fun hr hl => ?_, fun i hi hr => ?_⟩⟩
  · intro a h4 hp ho hown ht hk hr
    refine ⟨fun h6 ha => ?_, fun ha => ⟨_, exec_registerWrite_plain s v h4 hp ho hr hown ht hk ha, ?_⟩⟩
    · rw [exec_registerWrite, execRegisterWrite, controlWrite_regPage s v h4 hp ho hr, h6,
        pageWrite_armed s v (h6 ▸ hown) ho ha]
    · obtain ⟨honly, hbut⟩ := s.writePlain_frame a v
      exact ⟨honly, hbut, fun r hrow => by rw [State.reg_writePlain hrow, State.writable_of_row hrow]⟩
  · obtain ⟨honly, hbut⟩ := s.writeFields_frame R.pwrThermLimits (limitsWord (s.reg R.pwrThermLimits) v)
    refine ⟨_, exec_registerWrite_thermLimits s v hr, honly, hbut, ?_, ?_⟩
    · rw [State.regBits, s.reg_thermLimits v hl, limitsWord_trip]; rfl
    · rw [State.regBits, s.reg_thermLimits v hl, limitsWord_throttle]; rfl
  · obtain ⟨honly, hbut⟩ := keyWord_frame i v s
    exact ⟨_, exec_registerWrite_secKey s v hi hr, honly, hbut, reg_keyWord i v s⟩

end Sys2Proof.Machine
end

section
/-! Host memory: the bytes that a write leaves, and the poison of its granules (R21, R36). -/

namespace Sys2Proof.Machine

theorem mem_insertN (x y : Nat) (l : List Nat) : x ∈ insertN y l ↔ x = y ∨ x ∈ l := by
  induction l with
  | nil => simp [insertN]
  | cons z l ih =>
    rw [insertN]
    split
    · simp
    · split
      · next h => simp [h]
      · simp [ih, or_left_comm]

theorem mem_insertRange (x a n : Nat) (l : List Nat) : x ∈ insertRange a n l ↔ (a ≤ x ∧ x < a + n) ∨ x ∈ l := by
  induction n with
  | zero => simp [insertRange]
  | succ n ih =>
    have hstep : insertRange a (n + 1) l = insertN (a + n) (insertRange a n l) := by
      rw [insertRange, List.range_succ, List.foldl_append]; rfl
    have hlast : (a ≤ x ∧ x < a + (n + 1)) ↔ x = a + n ∨ (a ≤ x ∧ x < a + n) := by omega
    rw [hstep, mem_insertN, ih, hlast, or_assoc]

/-- The 64-byte granules that a run of bytes touches are those that it reaches into (R36). -/
theorem mem_unitsOf (g a n : Nat) :
    ((unitsOf 64 a n).1 ≤ g ∧ g < (unitsOf 64 a n).1 + (unitsOf 64 a n).2) ↔
      n ≠ 0 ∧ a < (g + 1) * 64 ∧ g * 64 < a + n := by
  unfold unitsOf
  split <;> dsimp only <;> omega

theorem State.mem_memPoison_wr (s : State) (a : Nat) (bs : Bytes) (g : Nat) :
    g ∈ (s.wr a bs).memPoison ↔ g ∈ s.memPoison ∧ ¬ (a ≤ g * 64 ∧ (g + 1) * 64 ≤ a + bs.length) := by
  simp only [State.wr, List.mem_filter, Bool.not_eq_true', decide_eq_false_iff_not]

theorem State.mem_memPoison_markPoison (s : State) (a n g : Nat) :
    g ∈ (s.markPoison a n).memPoison ↔ (n ≠ 0 ∧ a < (g + 1) * 64 ∧ g * 64 < a + n) ∨ g ∈ s.memPoison := by
  rw [← mem_unitsOf, ← mem_insertRange, State.markPoison]

theorem State.memBut_wr (s : State) (a : Nat) (bs : Bytes) (h : s.mem.wf = true) : s.memBut (s.wr a bs) a bs.length :=
  fun _ hb => Memory.read_writeN_other h hb

theorem State.rd_wr_same (s : State) (a : Nat) (bs : Bytes) (h : s.mem.wf = true) : (s.wr a bs).rd a bs.length = bs :=
  Memory.readN_writeN a bs h

/-- Settles O5: the memory's own laws, and the granules of a poisoned write are those that its bytes reach. -/
theorem hostMemoryWriteReadsBack : Obligations.HostMemoryWriteReadsBack := by
  intro s a bs h
  refine ⟨s.mem_wf_wr a bs h, s.rd_wr_same a bs h, s.memBut_wr a bs h, s.mem_memPoison_wr a bs, fun g => ?_⟩
  rw [State.wrPoison, State.mem_memPoison_markPoison, State.mem_memPoison_wr, ne_eq, List.length_eq_zero_iff, or_comm]

end Sys2Proof.Machine
end

section
/-! The code of a protected word: the check is linear in the bits of the word, so flipped bits alone settle what it finds
(R30, R34, R69, R70). -/

namespace Sys2Proof.Machine

/-! ### The code of a protected word is linear (R69) -/

/-- The sum of the columns of a datum's set bits is linear in the datum and in where it starts. -/
theorem eccFold_xor (l : List (Nat × Nat)) (d e a b : Nat) :
    l.foldl (fun a p => if (d ^^^ e).testBit p.2 then a ^^^ p.1 else a) (a ^^^ b) =
      l.foldl (fun a p => if d.testBit p.2 then a ^^^ p.1 else a) a ^^^
      l.foldl (fun a p => if e.testBit p.2 then a ^^^ p.1 else a) b := by
  induction l generalizing a b with
  | nil => rfl
  | cons p l ih =>
    simp only [List.foldl_cons, ← ih, Nat.testBit_xor]
    congr 1
    cases d.testBit p.2 <;> cases e.testBit p.2 <;> simp [Nat.xor_comm, Nat.xor_left_comm]

theorem eccCheck_xor (d e : Nat) : eccCheck (d ^^^ e) = eccCheck d ^^^ eccCheck e := eccFold_xor _ d e 0 0

/-- A run of columns numbered from k, over a datum with one bit set, gives that bit's column. -/
theorem eccFold_single (l : List Nat) (k i a : Nat) :
    (l.zipIdx k).foldl (fun a p => if (1 <<< i).testBit p.2 then a ^^^ p.1 else a) a =
      a ^^^ if k ≤ i then (l[i - k]?).getD 0 else 0 := by
  induction l generalizing k a with
  | nil => simp
  | cons c l ih =>
    rw [List.zipIdx_cons, List.foldl_cons, ih, Nat.one_shiftLeft, Nat.testBit_two_pow]
    rcases Nat.lt_trichotomy i k with h | rfl | h
    · simp [show ¬ k ≤ i by omega, show ¬ k + 1 ≤ i by omega, show i ≠ k by omega]
    · simp
    · simp [show k ≤ i by omega, show k + 1 ≤ i by omega, show i ≠ k by omega,
        show i - k = (i - (k + 1)) + 1 by omega]

theorem eccCheck_single (i : Nat) : eccCheck (1 <<< i) = (eccColumns[i]?).getD 0 := by
  simpa [eccCheck] using eccFold_single eccColumns 0 i 0

/-! ### Parity -/

theorem parity_zero (n : Nat) : parity n 0 = 0 := rfl

theorem parity_succ (n w : Nat) : parity n (w + 1) = (parity n w + (n.testBit w).toNat) % 2 := by
  rw [parity, parity, popCount, popCount, List.range_succ, List.filter_append, List.length_append]
  cases h : n.testBit w <;> simp [h]

theorem parity_lt (n w : Nat) : parity n w < 2 := Nat.mod_lt _ (by decide)

theorem parity_xor (a b w : Nat) : parity (a ^^^ b) w = (parity a w + parity b w) % 2 := by
  induction w with
  | zero => rfl
  | succ w ih =>
    rw [parity_succ, parity_succ, parity_succ, ih, Nat.testBit_xor]
    cases a.testBit w <;> cases b.testBit w <;> simp <;> omega

theorem parity_add (n v w : Nat) : parity n (v + w) = (parity n v + parity (n >>> v) w) % 2 := by
  induction w with
  | zero => rw [Nat.add_zero, parity_zero, Nat.add_zero, Nat.mod_eq_of_lt (parity_lt n v)]
  | succ w ih =>
    rw [← Nat.add_assoc, parity_succ, parity_succ, ih, Nat.testBit_shiftRight]
    omega

/-- The parity of a number's low bits looks at no higher bit. -/
theorem parity_mod (n w : Nat) : parity (n % 2 ^ w) w = parity n w := by
  have hbits : (List.range w).filter (fun k => (n % 2 ^ w).testBit k) = (List.range w).filter fun k => n.testBit k :=
    List.filter_congr fun k hk => by simp [Nat.testBit_mod_two_pow, List.mem_range.mp hk]
  rw [parity, parity, popCount, popCount, hbits]

theorem parity_single (i w : Nat) : parity (1 <<< i) w = (decide (i < w)).toNat := by
  induction w with
  | zero => rfl
  | succ w ih =>
    rw [parity_succ, ih, Nat.one_shiftLeft, Nat.testBit_two_pow]
    rcases Nat.lt_trichotomy i w with h | rfl | h
    · simp [h, show i ≠ w by omega, show i < w + 1 by omega]
    · simp
    · simp [show ¬ i < w by omega, show i ≠ w by omega, show ¬ i < w + 1 by omega]

/-! ### The check of a word (R70) -/

theorem bits_xor (a b hi lo : Nat) : bits (a ^^^ b) hi lo = bits a hi lo ^^^ bits b hi lo :=
  Nat.eq_of_testBit_eq fun k => by
    simp only [testBit_bits, Nat.testBit_xor]
    cases decide (k < hi + 1 - lo) <;> simp

theorem bits_low (n k : Nat) : bits n k 0 = n % 2 ^ (k + 1) := rfl

/-- The check bits computed from a word's data against those stored in it (R70). -/
def eccSyndrome (word : Nat) : Nat := eccCheck (bits word 127 0) ^^^ bits word 135 128

/-- The verdict of R70 on a word's POISON bit, data, syndrome and parity. -/
def eccVerdict (poison : Bool) (data syn p : Nat) : EccResult :=
  if poison then .uncorrectable data
  else if syn = 0 then (if p = 0 then .good data else .corrected data)
  else if p = 0 then .uncorrectable data
  else if popCount syn 8 = 1 then .corrected data
  else match eccColumns.idxOf? syn with
    | some i => .corrected (data ^^^ (1 <<< i))
    | none => .uncorrectable data

theorem eccRead_eq (w : Nat) :
    eccRead w = eccVerdict (w.testBit 137) (bits w 127 0) (eccSyndrome w) (parity w 137) := rfl

theorem eccSyndrome_xor (a b : Nat) : eccSyndrome (a ^^^ b) = eccSyndrome a ^^^ eccSyndrome b := by
  simp only [eccSyndrome, bits_xor, eccCheck_xor, Nat.xor_assoc, Nat.xor_left_comm]

theorem eccColumns_lt : ∀ c ∈ eccColumns, c < 2 ^ 8 := fun c hc => by
  have := (List.mem_filter.mp (List.mem_of_mem_take hc)).1
  exact List.mem_range.mp this

/-- A sum of columns has eight bits. -/
theorem eccCheck_lt (d : Nat) : eccCheck d < 2 ^ 8 := by
  have hfold : ∀ (l : List (Nat × Nat)) (a : Nat), (∀ p ∈ l, p.1 < 2 ^ 8) → a < 2 ^ 8 →
      l.foldl (fun a p => if d.testBit p.2 then a ^^^ p.1 else a) a < 2 ^ 8 := by
    intro l
    induction l with
    | nil => exact fun a _ ha => ha
    | cons p l ih =>
      intro a hl ha
      rw [List.foldl_cons]
      refine ih _ (fun q hq => hl q (List.mem_cons_of_mem _ hq)) ?_
      split
      · exact Nat.xor_lt_two_pow ha (hl p List.mem_cons_self)
      · exact ha
  exact hfold _ 0 (fun p hp => eccColumns_lt _ (List.fst_mem_of_mem_zipIdx hp)) (by decide)

theorem eccWord_eq (data : Nat) : eccWord data =
    data + eccCheck data <<< 128 + ((parity data 128 + parity (eccCheck data) 8) % 2) <<< 136 := rfl

/-- The parts of a good word: its data, the check bits and the overall parity. -/
theorem eccWord_parts (data : Nat) : ∃ c p, c < 2 ^ 8 ∧ p < 2 ∧ c = eccCheck data ∧
    eccWord data = data + c * 2 ^ 128 + p * 2 ^ 136 ∧ p = (parity data 128 + parity (eccCheck data) 8) % 2 :=
  ⟨_, _, eccCheck_lt data, Nat.mod_lt _ (by decide), rfl, by rw [eccWord_eq, Nat.shiftLeft_eq, Nat.shiftLeft_eq], rfl⟩

section
variable {data : Nat} (hdata : data < 2 ^ 128)
include hdata

theorem eccWord_lt : eccWord data < 2 ^ 137 := by
  obtain ⟨c, p, hc, hp, -, h, -⟩ := eccWord_parts data
  omega

theorem bits_eccWord_data : bits (eccWord data) 127 0 = data := by
  obtain ⟨c, p, hc, hp, -, h, -⟩ := eccWord_parts data
  rw [bits, h, Nat.shiftRight_zero]
  omega

theorem bits_eccWord_check : bits (eccWord data) 135 128 = eccCheck data := by
  obtain ⟨c, p, hc, hp, hcheck, h, -⟩ := eccWord_parts data
  rw [bits, h, ← hcheck, Nat.shiftRight_eq_div_pow]
  omega

theorem eccWord_parityBit : eccWord data >>> 136 = (parity data 128 + parity (eccCheck data) 8) % 2 := by
  obtain ⟨c, p, hc, hp, -, h, hpar⟩ := eccWord_parts data
  rw [h, ← hpar, Nat.shiftRight_eq_div_pow]
  omega

theorem eccSyndrome_eccWord : eccSyndrome (eccWord data) = 0 := by
  rw [eccSyndrome, bits_eccWord_data hdata, bits_eccWord_check hdata, Nat.xor_self]

theorem parity_eccWord : parity (eccWord data) 137 = 0 := by
  have hlow : parity (eccWord data) 128 = parity data 128 := by
    rw [← parity_mod, ← bits_low, bits_eccWord_data hdata]
  have hcheck : parity (eccWord data >>> 128) 8 = parity (eccCheck data) 8 := by
    rw [← parity_mod, ← bits_eccWord_check hdata, bits]
  have htop : parity (eccWord data >>> 136) 1 = eccWord data >>> 136 := by
    rw [eccWord_parityBit hdata, parity_succ, parity_zero]
    rcases Nat.mod_two_eq_zero_or_one (parity data 128 + parity (eccCheck data) 8) with h | h <;> rw [h] <;> rfl
  calc parity (eccWord data) (128 + 8 + 1)
      = ((parity data 128 + parity (eccCheck data) 8) % 2 + (parity data 128 + parity (eccCheck data) 8) % 2) % 2 := by
        rw [parity_add, parity_add, hlow, hcheck, htop, eccWord_parityBit hdata]
    _ = 0 := by rw [← two_mul, Nat.mul_mod_right]

/-- R70: what the check of a good word with flipped bits finds turns on the flipped bits alone. -/
theorem eccRead_flipped (e : Nat) : eccRead (eccWord data ^^^ e) =
    eccVerdict (e.testBit 137) (data ^^^ bits e 127 0) (eccSyndrome e) (parity e 137) := by
  have hpoison : (eccWord data ^^^ e).testBit 137 = e.testBit 137 := by
    rw [Nat.testBit_xor, Nat.testBit_lt_two_pow (eccWord_lt hdata), Bool.false_xor]
  rw [eccRead_eq, hpoison, bits_xor, bits_eccWord_data hdata, eccSyndrome_xor, eccSyndrome_eccWord hdata,
    Nat.zero_xor, parity_xor, parity_eccWord hdata, Nat.zero_add, Nat.mod_eq_of_lt (parity_lt e 137)]

end

/-! ### Flipped bits -/

/-- What each of the 137 protected bits adds to the syndrome: its column for a data bit, itself for a check bit, and
nothing for the overall parity. -/
def eccFlipColumns : List Nat := eccColumns ++ (List.range 8).map (fun k => 1 <<< k) ++ [0]

theorem length_eccColumns : eccColumns.length = 128 := by decide +kernel

theorem length_eccFlipColumns : eccFlipColumns.length = 137 := by simp [eccFlipColumns, length_eccColumns]

theorem popCount_single {k : Nat} (h : k < 8) : popCount (1 <<< k) 8 = 1 := by
  revert k; decide

theorem eccColumns_popCount : ∀ c ∈ eccColumns, 3 ≤ popCount c 8 := fun c hc => by
  simpa using (List.mem_filter.mp (List.mem_of_mem_take hc)).2

theorem eccColumns_nodup : eccColumns.Nodup := (List.nodup_range.filter _).sublist (List.take_sublist _ _)

theorem eccFlipColumns_nodup : eccFlipColumns.Nodup := by decide +kernel

/-! ### The statement -/

theorem eccVerdict_poison (data syn p : Nat) : eccVerdict true data syn p = .uncorrectable data := rfl

theorem eccVerdict_good (data : Nat) : eccVerdict false data 0 0 = .good data := rfl

theorem eccVerdict_parity (data : Nat) : eccVerdict false data 0 1 = .corrected data := rfl

theorem eccVerdict_even {syn : Nat} (data : Nat) (h : syn ≠ 0) :
    eccVerdict false data syn 0 = .uncorrectable data := by
  simp [eccVerdict, h]

theorem eccVerdict_check {syn : Nat} (data : Nat) (h : syn ≠ 0) (h1 : popCount syn 8 = 1) :
    eccVerdict false data syn 1 = .corrected data := by
  simp [eccVerdict, h, h1]

/-- An odd syndrome that is a data bit's column corrects that bit. -/
theorem eccVerdict_data (data : Nat) {i : Nat} (hi : i < eccColumns.length) :
    eccVerdict false data eccColumns[i] 1 = .corrected (data ^^^ 1 <<< i) := by
  have hcount := eccColumns_popCount _ (List.getElem_mem hi)
  have hne : eccColumns[i] ≠ 0 := fun h => by rw [h] at hcount; exact absurd hcount (by decide)
  have hidx : eccColumns.idxOf? eccColumns[i] = some i := by
    refine List.idxOf?_eq_some_iff.mpr ⟨hi, rfl, fun j hj he => ?_⟩
    exact absurd (eccColumns_nodup.getElem_inj_iff.mp he) (by omega)
  simp [eccVerdict, hne, show popCount eccColumns[i] 8 ≠ 1 by omega, hidx]

theorem bits_single (i hi lo : Nat) : bits (1 <<< i) hi lo = if lo ≤ i ∧ i < hi + 1 then 1 <<< (i - lo) else 0 := by
  refine Nat.eq_of_testBit_eq fun k => ?_
  rw [testBit_bits, Nat.one_shiftLeft, Nat.testBit_two_pow]
  split
  · rw [Nat.one_shiftLeft, Nat.testBit_two_pow, ← Bool.decide_and]
    exact decide_eq_decide.mpr (by omega)
  · rw [Nat.zero_testBit, ← Bool.decide_and]
    exact decide_eq_false (by omega)

theorem eccSyndrome_dataBit {i : Nat} (h : i < eccColumns.length) : eccSyndrome (1 <<< i) = eccColumns[i] := by
  have hi := length_eccColumns ▸ h
  rw [eccSyndrome, bits_single, bits_single, if_pos (by omega), if_neg (by omega), Nat.xor_zero, Nat.sub_zero,
    eccCheck_single, List.getElem?_eq_getElem h, Option.getD_some]

theorem eccCheck_zero : eccCheck 0 = 0 := by simpa using eccCheck_xor 0 0

theorem eccSyndrome_checkBit {k : Nat} (h : k < 8) : eccSyndrome (1 <<< (128 + k)) = 1 <<< k := by
  rw [eccSyndrome, bits_single, bits_single, if_neg (by omega), if_pos (by omega), eccCheck_zero, Nat.zero_xor,
    Nat.add_sub_cancel_left]

theorem eccSyndrome_high {i : Nat} (h : 136 ≤ i) : eccSyndrome (1 <<< i) = 0 := by
  rw [eccSyndrome, bits_single, bits_single, if_neg (by omega), if_neg (by omega), eccCheck_zero, Nat.zero_xor]

/-- A flipped bit adds its column to the syndrome. -/
theorem eccSyndrome_single {i : Nat} (hi : i < eccFlipColumns.length) : eccSyndrome (1 <<< i) = eccFlipColumns[i] := by
  have hlt := length_eccFlipColumns ▸ hi
  simp only [eccFlipColumns, List.getElem_append, List.length_append, List.length_map, List.length_range,
    length_eccColumns]
  split
  · split
    · exact eccSyndrome_dataBit _
    · obtain ⟨k, rfl⟩ : ∃ k, i = 128 + k := ⟨i - 128, by omega⟩
      rw [eccSyndrome_checkBit (by omega)]
      simp
  · rw [eccSyndrome_high (by omega)]
    simp

/-- Two flipped bits never cancel. -/
theorem eccSyndrome_pair {i j : Nat} (hij : i < j) (hj : j < 137) : eccSyndrome (1 <<< i ^^^ 1 <<< j) ≠ 0 := by
  rw [← length_eccFlipColumns] at hj
  rw [eccSyndrome_xor, eccSyndrome_single (by omega), eccSyndrome_single hj]
  intro h
  have := eccFlipColumns_nodup.getElem_inj_iff.mp (Nat.xor_eq_zero_iff.mp h)
  omega

theorem testBit_single {i k : Nat} (h : i ≠ k) : (1 <<< i).testBit k = false := by
  rw [Nat.one_shiftLeft, Nat.testBit_two_pow, decide_eq_false h]

/-- Sums of different bits are their union. -/
theorem single_or_single {i j : Nat} (h : i ≠ j) : 1 <<< i ||| 1 <<< j = 1 <<< i ^^^ 1 <<< j := by
  refine Nat.eq_of_testBit_eq fun k => ?_
  simp only [Nat.testBit_or, Nat.testBit_xor, Nat.one_shiftLeft, Nat.testBit_two_pow]
  by_cases hi : i = k
  · subst hi; simp [h.symm]
  · simp [hi]

/-- R70: any one flipped bit is corrected. -/
theorem eccRead_oneFlip {data i : Nat} (hdata : data < 2 ^ 128) (hi : i < 137) :
    eccRead (eccWord data ^^^ 1 <<< i) = .corrected data := by
  rw [eccRead_flipped hdata, testBit_single (by omega), parity_single, decide_eq_true hi, bits_single]
  rcases Nat.lt_or_ge i 128 with hd | hd
  · have hcol : i < eccColumns.length := length_eccColumns ▸ hd
    rw [eccSyndrome_dataBit hcol, Bool.toNat_true, eccVerdict_data, if_pos (by omega), Nat.sub_zero, Nat.xor_assoc,
      Nat.xor_self, Nat.xor_zero]
  · rw [if_neg (by omega), Nat.xor_zero]
    rcases Nat.lt_or_ge i 136 with hc | hc
    · obtain ⟨k, rfl⟩ : ∃ k, i = 128 + k := ⟨i - 128, by omega⟩
      have hk : k < 8 := by omega
      rw [eccSyndrome_checkBit hk]
      exact eccVerdict_check data (by simp) (popCount_single hk)
    · rw [eccSyndrome_high hc]
      exact eccVerdict_parity data

/-- R70: any two flipped bits are detected. -/
theorem eccRead_twoFlips {data i j : Nat} (hdata : data < 2 ^ 128) (hij : i < j) (hj : j < 137) :
    ∃ d, eccRead (eccWord data ^^^ (1 <<< i ||| 1 <<< j)) = .uncorrectable d := by
  have hpar : parity (1 <<< i ^^^ 1 <<< j) 137 = 0 := by
    rw [parity_xor, parity_single, parity_single, decide_eq_true hj, decide_eq_true (hij.trans hj)]; rfl
  have hpoison : (1 <<< i ^^^ 1 <<< j).testBit 137 = false := by
    rw [Nat.testBit_xor, testBit_single (by omega), testBit_single (by omega)]; rfl
  rw [single_or_single (by omega), eccRead_flipped hdata, hpar, hpoison]
  exact ⟨_, eccVerdict_even _ (eccSyndrome_pair hij hj)⟩

/-- R34: a poisoned word is uncorrectable, its data as stored. -/
theorem eccRead_poisonWord {data : Nat} (hdata : data < 2 ^ 128) :
    eccRead (eccPoisonWord data) = .uncorrectable data := by
  rw [eccPoisonWord, Nat.xor_assoc, eccRead_flipped hdata]
  have hbits : bits (3 <<< 128 ^^^ 1 <<< 137) 127 0 = 0 := by decide
  have hpoison : (3 <<< 128 ^^^ 1 <<< 137).testBit 137 = true := by decide
  rw [hbits, hpoison, Nat.xor_zero, eccVerdict_poison]

theorem testBit_shiftLeft_low (r : Nat) {n k : Nat} (h : k < n) : (r <<< n).testBit k = false := by
  rw [Nat.testBit_shiftLeft, decide_eq_false (by omega), Bool.false_and]

theorem bits_shiftLeft_low (r : Nat) {n hi lo : Nat} (h : hi < n) : bits (r <<< n) hi lo = 0 := by
  refine Nat.eq_of_testBit_eq fun k => ?_
  rw [testBit_bits, Nat.zero_testBit]
  by_cases hk : k < hi + 1 - lo
  · rw [testBit_shiftLeft_low r (by omega), Bool.and_false]
  · rw [decide_eq_false hk, Bool.false_and]

theorem parity_shiftLeft_low (r : Nat) {n w : Nat} (h : w ≤ n) : parity (r <<< n) w = 0 := by
  induction w with
  | zero => rfl
  | succ w ih => rw [parity_succ, ih (by omega), testBit_shiftLeft_low r (by omega)]; rfl

/-- R30: the six reserved bits are ignored. -/
theorem eccRead_reserved {data : Nat} (r : Nat) (hdata : data < 2 ^ 128) :
    eccRead (eccWord data ||| r <<< 138) = .good data := by
  have hor : eccWord data ||| r <<< 138 = eccWord data ^^^ r <<< 138 := by
    refine Nat.eq_of_testBit_eq fun k => ?_
    rw [Nat.testBit_or, Nat.testBit_xor]
    rcases Nat.lt_or_ge k 138 with hk | hk
    · rw [testBit_shiftLeft_low r hk, Bool.or_false, Bool.xor_false]
    · have hlt : eccWord data < 2 ^ k :=
        (eccWord_lt hdata).trans_le (Nat.pow_le_pow_right (by decide) (by omega))
      rw [Nat.testBit_lt_two_pow hlt, Bool.false_or, Bool.false_xor]
  rw [hor, eccRead_flipped hdata, testBit_shiftLeft_low r (by decide), eccSyndrome, bits_shiftLeft_low r (by decide),
    bits_shiftLeft_low r (by decide), parity_shiftLeft_low r (by decide), eccCheck_zero, Nat.xor_zero, Nat.xor_zero]
  exact eccVerdict_good data

/-- A word whose POISON bit is set is uncorrectable (R34). -/
theorem eccRead_poison {w : Nat} (h : w.testBit 137 = true) : eccRead w = .uncorrectable (bits w 127 0) := by
  rw [eccRead_eq, h, eccVerdict_poison]

/-- Settles O60: the code is linear, so what a check finds depends on the flipped bits alone; one flipped bit gives its own
column, two give different columns. -/
theorem codeCorrectsOneFlipAndDetectsTwo : Obligations.CodeCorrectsOneFlipAndDetectsTwo := by
  intro data hdata
  refine ⟨?_, eccRead_poisonWord hdata, fun i hi => eccRead_oneFlip hdata hi,
    fun i j hij hj => eccRead_twoFlips hdata hij hj, fun w hw => ⟨_, eccRead_poison hw⟩,
    fun r _ => eccRead_reserved r hdata⟩
  have h := eccRead_reserved 0 hdata
  rwa [Nat.zero_shiftLeft, Nat.or_zero] at h

end Sys2Proof.Machine
end

section
/-! The completion of a descriptor: its credit, its record and its trigger counter (R22, R237, R242-R244). -/

namespace Sys2Proof.Machine

/-! ### Fields of the context tables and the bytes a change leaves -/

theorem State.fld_lt (s : State) (a : Nat) (f : Fld) : s.fld a f < 2 ^ (f.hi + 1 - f.lo) :=
  Nat.mod_lt _ (Nat.two_pow_pos _)

theorem State.ctxBut_refl (s : State) (a n : Nat) : s.ctxBut s a n := fun _ _ => rfl

theorem State.ctxBut_trans {s t u : State} {a n : Nat} (h : s.ctxBut t a n) (h' : t.ctxBut u a n) : s.ctxBut u a n :=
  fun b hb => (h' b hb).trans (h b hb)

theorem State.ctxBut_ctxWr (s : State) {a n b : Nat} {bs : Bytes} (h : s.ctx.wf = true) (hl : a ≤ b)
    (hr : b + bs.length ≤ a + n) : s.ctxBut (s.ctxWr b bs) a n :=
  fun _ hx => Memory.read_writeN_other h (by omega)

theorem State.ctxBut_setFld (s : State) {a n b : Nat} {f : Fld} (v : Nat) (h : s.ctx.wf = true) (hl : a ≤ b + f.off)
    (hr : b + f.off + f.len ≤ a + n) : s.ctxBut (s.setFld b f v) a n :=
  s.ctxBut_ctxWr h hl (by rwa [length_toLE])

/-- A field apart from the bytes that may differ reads as before. -/
theorem State.fld_of_ctxBut {s t : State} {a n b : Nat} {f : Fld} (hs : s.ctx.wf = true) (ht : t.ctx.wf = true)
    (h : s.ctxBut t a n) (hd : b + f.off + f.len ≤ a ∨ a + n ≤ b + f.off) : t.fld b f = s.fld b f := by
  have hread : t.ctxRd (b + f.off) f.len = s.ctxRd (b + f.off) f.len := by
    rw [State.ctxRd, State.ctxRd, Memory.readN_eq _ _ ht, Memory.readN_eq _ _ hs]
    refine List.map_congr_left fun i hi => h _ ?_
    have := List.mem_range.mp hi
    omega
  rw [State.fld, State.fld, hread]

theorem State.fld_congr {s t : State} (h : t.ctx = s.ctx) (a : Nat) (f : Fld) : t.fld a f = s.fld a f := by
  rw [State.fld, State.fld, State.ctxRd, State.ctxRd, h]

/-! ### Register words that an interrupt leaves -/

theorem State.regsBut_trans {s t u : State} {l : List Nat} (h : s.regsBut t l) (h' : t.regsBut u l) : s.regsBut u l :=
  fun a ha => (h' a ha).trans (h a ha)

theorem State.regsBut_mono {s t : State} {l l' : List Nat} (h : s.regsBut t l) (hl : ∀ a ∈ l, a ∈ l') :
    s.regsBut t l' := fun a ha => h a fun hm => ha (hl a hm)

theorem State.regsBut_setReg (s : State) {a : Nat} {l : List Nat} (v : Nat) (h : a ∈ l) :
    s.regsBut (s.setReg a v) l := fun _ hb => s.reg_setReg_other v fun e => hb (e ▸ h)

theorem State.regsBut_bump (s : State) {a : Nat} {l : List Nat} (n : Nat) (h : a ∈ l) :
    s.regsBut (s.bump a n) l := fun _ hb => s.reg_bump_other n fun e => hb (e ▸ h)

theorem State.sendVec_regsBut (s : State) (v : Nat) : s.regsBut (s.sendVec v) [R.topVecPendLo, R.topVecPendHi] := by
  unfold State.sendVec
  dsimp only
  split
  · exact s.regsBut_setReg _ (by split <;> simp)
  · exact fun _ _ => rfl

theorem State.pageMsg_regsBut (s : State) (page : Nat) :
    s.regsBut (s.pageMsg page) [R.topVecPendLo, R.topVecPendHi] := by
  unfold State.pageMsg
  dsimp only
  split
  · exact s.sendVec_regsBut _
  · exact fun _ _ => rfl

/-- Raising an interrupt of a page stores its IRQ_STAT and may send or mark its message (R374). -/
theorem State.raiseIrq_cases (s : State) (page mask : Nat) :
    let u := s.setReg (R.hdrIrqStat page) (s.reg (R.hdrIrqStat page) ||| mask)
    s.raiseIrq page mask = u ∨ s.raiseIrq page mask = u.pageMsg page := by
  unfold State.raiseIrq
  dsimp only
  split
  · exact .inr rfl
  · exact .inl rfl

theorem State.raiseIrq_regsBut (s : State) (page mask : Nat) : s.regsBut (s.raiseIrq page mask) (irqRegs page) := by
  have hset := s.regsBut_setReg (l := irqRegs page) (s.reg (R.hdrIrqStat page) ||| mask) List.mem_cons_self
  rcases s.raiseIrq_cases page mask with h | h <;> rw [h]
  · exact hset
  · exact State.regsBut_trans hset (State.regsBut_mono (State.pageMsg_regsBut _ _) fun _ => List.mem_cons_of_mem _)

/-- A raised interrupt stands in IRQ_STAT (R374). -/
theorem State.reg_raiseIrq_stat (s : State) {page mask : Nat} (hm : mask < 2 ^ 32) :
    (s.raiseIrq page mask).reg (R.hdrIrqStat page) = s.reg (R.hdrIrqStat page) ||| mask := by
  have hset := s.reg_setReg_same (R.hdrIrqStat page) (s.reg (R.hdrIrqStat page) ||| mask)
  rw [Nat.mod_eq_of_lt (Nat.or_lt_two_pow (s.reg_lt _) hm)] at hset
  rcases s.raiseIrq_cases page mask with h | h <;> rw [h]
  · exact hset
  · refine (State.pageMsg_regsBut _ page _ ?_).trans hset
    simp [R.hdrIrqStat, R.topVecPendLo, R.topVecPendHi, regAddr]
    omega

/-! ### The check of an entry's word -/

/-- The words of a page that count and record its errors (R33, R370). -/
def errRegs (page : Nat) : List Nat :=
  [R.hdrErrCntCe page, R.hdrErrCntUe page, R.hdrErrFirst page, R.hdrErrFirstInfo page]

theorem State.countUe_regsBut (s : State) (m : Sram) (g : Nat) : s.regsBut (s.countUe m g) (errRegs m.page) := by
  intro b hb
  simp only [errRegs, List.mem_cons, List.not_mem_nil, or_false, not_or] at hb
  obtain ⟨-, hue, hfirst, hinfo⟩ := hb
  rw [State.countUe, State.reg_errFirst_other _ _ _ (Ne.symm hfirst) (Ne.symm hinfo),
    State.reg_bump_other _ _ (Ne.symm hue)]

/-- What the check of a word may change: the record of its flips, and the words that count and record errors. -/
theorem State.checkWord_effect (s : State) (m : Sram) (g data : Nat) :
    ∃ (r : List (Nat × Word)) (u : List Upset), (s.checkWord m g data).2 = { s with regs := r, upsets := u } ∧
      s.regsBut (s.checkWord m g data).2 (errRegs m.page) := by
  unfold State.checkWord
  dsimp only
  split
  · exact ⟨_, _, rfl, fun _ _ => rfl⟩
  · obtain ⟨r, h⟩ := (s.freshWord m g).bump_effect (R.hdrErrCntCe m.page) 1
    exact ⟨r, _, h, (s.freshWord m g).regsBut_bump 1 List.mem_cons_self⟩
  · obtain ⟨r, h⟩ := (s.freshWord m g).countUe_effect m g
    exact ⟨r, _, h, (s.freshWord m g).countUe_regsBut m g⟩

/-- What the check of an entry's word may change: the word itself, its poison and flips, and the words that count and
record errors. -/
theorem State.ctxCheck_effect (s : State) (g : Nat) (h : s.ctx.wf = true) :
    let u := (s.ctxCheck g).2
    u = { s with regs := u.regs, ctx := u.ctx, ctxPoison := u.ctxPoison, upsets := u.upsets } ∧
    u.ctx.wf = true ∧ s.ctxBut u (g * 16) 16 ∧ s.regsBut u (errRegs (windowArray g).page) := by
  unfold State.ctxCheck
  dsimp only
  split
  · obtain ⟨r, hr⟩ := s.countUe_effect (windowArray g) g
    exact ⟨by rw [hr], by rw [hr]; exact h, by rw [hr]; exact s.ctxBut_refl _ _, s.countUe_regsBut _ _⟩
  · split
    · exact ⟨rfl, h, s.ctxBut_refl _ _, fun _ _ => rfl⟩
    · obtain ⟨r, f, he, hregs⟩ := s.checkWord_effect (windowArray g) g (leNat (s.ctxRd (g * 16) 16))
      have hbut := s.ctxBut_ctxWr (a := g * 16) (n := 16) (b := g * 16)
        (bs := toLE 16 (s.checkWord (windowArray g) g (leNat (s.ctxRd (g * 16) 16))).1.1) h (Nat.le_refl _) (by simp)
      generalize s.checkWord (windowArray g) g (leNat (s.ctxRd (g * 16) 16)) = c at he hregs hbut
      obtain ⟨⟨d, bad⟩, v⟩ := c
      subst he
      exact ⟨by split <;> rfl, by split <;> exact s.ctx_wf_ctxWr _ _ h, by split <;> exact hbut,
        by split <;> exact hregs⟩

theorem State.ctxCheck_poisoned (s : State) {g : Nat} (h : s.ctxPoison.contains g = true) :
    s.ctxCheck g = (false, s.countUe (windowArray g) g) := by
  rw [State.ctxCheck]; simp only [h, if_true]

theorem State.ctxCheck_clean (s : State) (g : Nat) (h : s.cleanTables = true) : s.ctxCheck g = (true, s) := by
  simp only [State.cleanTables, Bool.and_eq_true, List.isEmpty_iff] at h
  obtain ⟨hp, hu⟩ := h
  simp [State.ctxCheck, State.hasFlip, hp, hu]

/-- An entry of one word is used after the check of that word. -/
theorem State.ctxUse_word (s : State) (g : Nat) : s.ctxUse (16 * g) 16 = s.ctxCheck g := by
  have hunits : unitsOf 16 (16 * g) 16 = (g, 1) := by
    unfold unitsOf; rw [if_neg (by decide)]; exact Prod.ext (by dsimp only; omega) (by dsimp only; omega)
  rw [State.ctxUse, hunits]
  simp [List.range_one]

/-! ### A trigger counter raised -/

theorem ctrBase_eq (n : Nat) : ctrBase n = 16 * (0xD0000 + n) := by rw [ctrBase]; omega

theorem windowArray_ctr {n : Nat} (h : n < 65536) : (windowArray (0xD0000 + n)).page = 0x70 := by
  rw [windowArray, if_neg (by omega)]; rfl

/-- The test of the waiting descriptors may change WAITERS of its counter and the pre-posted store (R238). -/
theorem State.testSlots_effect (s : State) (c : Nat) (h : s.ctx.wf = true) :
    let u := s.testSlots c
    u = { s with ctx := u.ctx, q := { s.q with store := u.q.store } } ∧ u.ctx.wf = true ∧
    s.ctxBut u (ctrBase c + Ctr.waiters.off) Ctr.waiters.len := by
  unfold State.testSlots
  dsimp only
  split
  · exact ⟨rfl, h, s.ctxBut_refl _ _⟩
  · exact ⟨rfl, s.ctx_wf_setFld _ _ _ h, s.ctxBut_setFld _ h (Nat.le_refl _) (Nat.le_refl _)⟩

/-- An event on a counter writes its VALUE, adds one to its RAISES and tests the descriptors that wait on it (R237). -/
theorem State.ctrEvent_effect (s : State) {c : Nat} (v : Nat) (hc : c < 65536) (h : s.ctx.wf = true) :
    let u := s.ctrEvent c v
    u = { s with ctx := u.ctx, q := { s.q with store := u.q.store } } ∧ u.ctx.wf = true ∧
    s.ctxBut u (ctrBase c) 16 ∧ u.fld (ctrBase c) Ctr.value = v % 2 ^ 32 ∧
    u.fld (ctrBase c) Ctr.raises = (s.fld (ctrBase c) Ctr.raises + 1) % 2 ^ 32 := by
  unfold State.ctrEvent
  rw [Nat.mod_eq_of_lt hc]
  dsimp only
  generalize hb : ctrBase c = b
  generalize hs1 : s.setFld b Ctr.value (v % 2 ^ 32) = s1
  generalize hs2 : s1.setFld b Ctr.raises ((s1.fld b Ctr.raises + 1) % 2 ^ 32) = s2
  have h1 : s1.ctx.wf = true := hs1 ▸ s.ctx_wf_setFld _ _ _ h
  have h2 : s2.ctx.wf = true := hs2 ▸ s1.ctx_wf_setFld _ _ _ h1
  obtain ⟨heq, hwf, hbut⟩ := s2.testSlots_effect c h2
  rw [hb] at hbut
  have but1 : s.ctxBut s1 b 16 := hs1 ▸ s.ctxBut_setFld _ h (by simp [Ctr.value]) (by simp [Ctr.value])
  have but2 : s1.ctxBut s2 b 16 := hs2 ▸ s1.ctxBut_setFld _ h1 (by simp [Ctr.raises]) (by simp [Ctr.raises])
  have but3 : s2.ctxBut (s2.testSlots c) b 16 := fun x hx => hbut x (by simp [Ctr.waiters]; omega)
  have hraises : s1.fld b Ctr.raises = s.fld b Ctr.raises := by
    rw [← hs1, State.fld_setFld_other _ _ h (by simp [Ctr.value, Ctr.raises])]
  refine ⟨?_, hwf, State.ctxBut_trans (State.ctxBut_trans but1 but2) but3, ?_, ?_⟩
  · rw [heq, ← hs2, ← hs1]; rfl
  · rw [State.fld_of_ctxBut h2 hwf hbut (by simp [Ctr.waiters, Ctr.value]), ← hs2,
      State.fld_setFld_other _ _ h1 (by simp [Ctr.value, Ctr.raises]), ← hs1,
      State.fld_setFld_same _ _ _ h (by decide) (by decide)]
    exact Nat.mod_mod _ _
  · rw [State.fld_of_ctxBut h2 hwf hbut (by simp [Ctr.waiters, Ctr.raises]), ← hs2,
      State.fld_setFld_same _ _ _ h1 (by decide) (by decide), hraises]
    exact Nat.mod_mod _ _

/-- A counter is raised when the check of its word finds it good (R237, R244). -/
theorem State.ctrAdd_eq (s : State) {c : Nat} (n : Nat) (hc : c < 65536) :
    s.ctrAdd c n = if (s.ctxCheck (0xD0000 + c)).1 then
      (s.ctxCheck (0xD0000 + c)).2.ctrEvent c ((s.ctxCheck (0xD0000 + c)).2.fld (ctrBase c) Ctr.value + n)
    else (s.ctxCheck (0xD0000 + c)).2 := by
  unfold State.ctrAdd State.ctrTry
  dsimp only
  rw [Nat.mod_eq_of_lt hc, ctrBase_eq c, State.ctxUse_word]

/-- What raising a trigger counter may change (R237, R244). -/
theorem State.ctrAdd_effect (s : State) {c : Nat} (n : Nat) (hc : c < 65536) (h : s.ctx.wf = true) :
    let u := s.ctrAdd c n
    u = { s with regs := u.regs, ctx := u.ctx, ctxPoison := u.ctxPoison, upsets := u.upsets
                 q := { s.q with store := u.q.store } } ∧
    u.ctx.wf = true ∧ s.ctxBut u (ctrBase c) 16 ∧ s.regsBut u (errRegs 0x70) := by
  obtain ⟨heq, hwf, hbut, hregs⟩ := s.ctxCheck_effect (0xD0000 + c) h
  rw [windowArray_ctr hc] at hregs
  rw [Nat.mul_comm, ← ctrBase_eq] at hbut
  rw [s.ctrAdd_eq n hc]
  generalize s.ctxCheck (0xD0000 + c) = r at heq hwf hbut hregs
  obtain ⟨ok, v⟩ := r
  dsimp only at heq hwf hbut hregs ⊢
  split
  · obtain ⟨heq', hwf', hbut', -⟩ := v.ctrEvent_effect (v.fld (ctrBase c) Ctr.value + n) hc hwf
    refine ⟨?_, hwf', State.ctxBut_trans hbut hbut', fun a ha => ?_⟩
    · rw [heq', heq]
    · rw [heq']; exact hregs a ha
  · exact ⟨by rw [heq], hwf, hbut, hregs⟩

/-- R244: a counter whose entry is known to be uncorrectable keeps its VALUE. -/
theorem State.ctrAdd_poisoned (s : State) {c : Nat} (n : Nat) (hc : c < 65536)
    (hp : s.ctxPoison.contains (ctrBase c / 16) = true) : (s.ctrAdd c n).ctx = s.ctx := by
  have hg : ctrBase c / 16 = 0xD0000 + c := by rw [ctrBase_eq]; omega
  rw [s.ctrAdd_eq n hc, s.ctxCheck_poisoned (hg ▸ hp)]
  simp

/-- R237: a counter whose entry is good is raised, and its RAISES by one. -/
theorem State.ctrAdd_clean (s : State) {c : Nat} (n : Nat) (hc : c < 65536) (h : s.ctx.wf = true)
    (hclean : s.cleanTables = true) :
    (s.ctrAdd c n).fld (ctrBase c) Ctr.value = (s.fld (ctrBase c) Ctr.value + n) % 2 ^ 32 ∧
    (s.ctrAdd c n).fld (ctrBase c) Ctr.raises = (s.fld (ctrBase c) Ctr.raises + 1) % 2 ^ 32 := by
  have hadd : s.ctrAdd c n = s.ctrEvent c (s.fld (ctrBase c) Ctr.value + n) := by
    rw [s.ctrAdd_eq n hc, s.ctxCheck_clean _ hclean]
    rfl
  obtain ⟨-, -, -, hvalue, hraises⟩ := s.ctrEvent_effect (s.fld (ctrBase c) Ctr.value + n) hc h
  exact hadd ▸ ⟨hvalue, hraises⟩

/-! ### The record -/

/-- Where the next record of a completion queue stands (R243). -/
def State.recordAddr (s : State) (cq : Nat) : Nat :=
  s.fld (cqBase cq) Cq.base + 16 * (s.fld (cqBase cq) Cq.pi % 2 ^ s.fld (cqBase cq) Cq.log2Size)

/-- The phase bit of the next record of a completion queue (R243). -/
def State.recordPhase (s : State) (cq : Nat) : Bool :=
  decide (s.fld (cqBase cq) Cq.pi / 2 ^ s.fld (cqBase cq) Cq.log2Size % 2 = 0)

/-- A record stored, PI moved on and RECORDS raised, before any interrupt (R243). -/
def State.recordStored (s : State) (cq : Nat) (bs : Bytes) : State :=
  ((s.wr (s.recordAddr cq) bs).setFld (cqBase cq) Cq.pi ((s.fld (cqBase cq) Cq.pi + 1) % 2 ^ 20)).bumpFld
    (cqBase cq) Cq.records

/-- A record written is stored; its interrupt may move SINCE_IRQ and send a message (R243, R245). -/
theorem State.writeRecord_cases (s : State) (cq : Nat) (r : Result) (op tag : Nat) (prepost irq : Bool) :
    let u := s.recordStored cq (recordBytes r op tag (s.recordPhase cq) prepost)
    ∃ v, (v = u ∨ ∃ k, v = u.setFld (cqBase cq) Cq.sinceIrq k) ∧
      ∃ (g : List (Nat × Word)) (i : List (BitVec 6)),
        s.writeRecord cq r op tag prepost irq = { v with regs := g, irqOut := i } := by
  dsimp only
  generalize hu : s.recordStored cq (recordBytes r op tag (s.recordPhase cq) prepost) = u
  unfold State.recordStored State.recordAddr State.recordPhase at hu
  unfold State.writeRecord
  dsimp only
  rw [hu]
  split
  · split
    · obtain ⟨g, i, h⟩ := (u.setFld (cqBase cq) Cq.sinceIrq 0).sendVec_effect (u.fld (cqBase cq) Cq.vec)
      exact ⟨_, .inr ⟨_, rfl⟩, g, i, h⟩
    · exact ⟨_, .inr ⟨_, rfl⟩, _, _, rfl⟩
  · split
    · obtain ⟨g, i, h⟩ := u.sendVec_effect (u.fld (cqBase cq) Cq.vec)
      exact ⟨_, .inl rfl, g, i, h⟩
    · exact ⟨_, .inl rfl, _, _, rfl⟩
  · exact ⟨_, .inl rfl, _, _, rfl⟩

theorem State.recordStored_eq (s : State) (cq : Nat) (bs : Bytes) :
    ∃ k, s.recordStored cq bs = ((s.wr (s.recordAddr cq) bs).setFld (cqBase cq) Cq.pi
      ((s.fld (cqBase cq) Cq.pi + 1) % 2 ^ 20)).setFld (cqBase cq) Cq.records k := ⟨_, rfl⟩

/-- The counters at the end of a completion queue's entry stand apart from PI and RESV (R241). -/
theorem State.setFld_cqCounter (s : State) (b v : Nat) {f : Fld} (hf : 0x18 ≤ f.off ∧ f.off + f.len ≤ 64)
    (h : s.ctx.wf = true) :
    (s.setFld b f v).ctx.wf = true ∧ s.ctxBut (s.setFld b f v) b 64 ∧
    (s.setFld b f v).fld b Cq.pi = s.fld b Cq.pi ∧ (s.setFld b f v).fld b Cq.resv = s.fld b Cq.resv :=
  ⟨s.ctx_wf_setFld b f v h, s.ctxBut_setFld v h (by omega) (by omega),
    s.fld_setFld_other v h (by simp [Cq.pi]; omega), s.fld_setFld_other v h (by simp [Cq.resv]; omega)⟩

/-- What a record stored changes in its queue's entry (R242, R243). -/
theorem State.recordStored_effect (s : State) (cq : Nat) (bs : Bytes) (h : s.ctx.wf = true) :
    let u := s.recordStored cq bs
    u = { s.wr (s.recordAddr cq) bs with ctx := u.ctx } ∧ u.ctx.wf = true ∧ s.ctxBut u (cqBase cq) 64 ∧
    u.fld (cqBase cq) Cq.pi = (s.fld (cqBase cq) Cq.pi + 1) % 2 ^ 20 ∧
    u.fld (cqBase cq) Cq.resv = s.fld (cqBase cq) Cq.resv := by
  dsimp only
  obtain ⟨k, hk⟩ := s.recordStored_eq cq bs
  rw [hk]
  generalize hp : (s.fld (cqBase cq) Cq.pi + 1) % 2 ^ 20 = p
  generalize cqBase cq = b
  generalize hv : s.wr (s.recordAddr cq) bs = v
  have hctx : v.ctx = s.ctx := hv ▸ rfl
  have hwf : v.ctx.wf = true := hctx ▸ h
  have hpi : (v.setFld b Cq.pi p).fld b Cq.pi = p := by
    rw [State.fld_setFld_same _ _ _ hwf (by decide) (by decide)]
    exact Nat.mod_eq_of_lt (hp ▸ Nat.mod_lt _ (by decide))
  have hresv : (v.setFld b Cq.pi p).fld b Cq.resv = s.fld b Cq.resv := by
    rw [State.fld_setFld_other _ _ hwf (by simp [Cq.pi, Cq.resv]), State.fld_congr hctx]
  have hbut : s.ctxBut (v.setFld b Cq.pi p) b 64 := fun x hx =>
    (v.ctxBut_setFld (a := b) (n := 64) p hwf (by simp [Cq.pi]) (by simp [Cq.pi]) x hx).trans (by rw [hctx])
  obtain ⟨hwf', hbut', hpi', hresv'⟩ := (v.setFld b Cq.pi p).setFld_cqCounter b k (f := Cq.records) (by decide)
    (v.ctx_wf_setFld _ _ _ hwf)
  exact ⟨rfl, hwf', State.ctxBut_trans hbut hbut', hpi'.trans hpi, hresv'.trans hresv⟩

/-- What a record written changes (R242, R243, R245). -/
theorem State.writeRecord_effect (s : State) (cq : Nat) (r : Result) (op tag : Nat) (prepost irq : Bool)
    (h : s.ctx.wf = true) :
    let u := s.writeRecord cq r op tag prepost irq
    u = { s.wr (s.recordAddr cq) (recordBytes r op tag (s.recordPhase cq) prepost) with
      regs := u.regs, irqOut := u.irqOut, ctx := u.ctx } ∧ u.ctx.wf = true ∧ s.ctxBut u (cqBase cq) 64 ∧
    u.fld (cqBase cq) Cq.pi = (s.fld (cqBase cq) Cq.pi + 1) % 2 ^ 20 ∧
    u.fld (cqBase cq) Cq.resv = s.fld (cqBase cq) Cq.resv := by
  dsimp only
  obtain ⟨v, hv, g, i, hu⟩ := s.writeRecord_cases cq r op tag prepost irq
  generalize recordBytes r op tag (s.recordPhase cq) prepost = bs at hv ⊢
  obtain ⟨heq, hwf, hbut, hpi, hresv⟩ := s.recordStored_effect cq bs h
  rw [hu]
  rcases hv with rfl | ⟨k, rfl⟩
  · exact ⟨by rw [heq], hwf, hbut, hpi, hresv⟩
  · obtain ⟨hwf', hbut', hpi', hresv'⟩ :=
      (s.recordStored cq bs).setFld_cqCounter (cqBase cq) k (f := Cq.sinceIrq) (by decide) hwf
    exact ⟨by rw [heq]; rfl, hwf', State.ctxBut_trans hbut hbut', hpi'.trans hpi, hresv'.trans hresv⟩

/-- The bytes of a record whose fields all fit (R243). -/
theorem recordBytes_fit {r : Result} (op tag : Nat) (phase prepost : Bool) (hc : r.count < 2 ^ 40) :
    recordBytes r op tag phase prepost = toLE 1 r.status ++ toLE 1 op ++ toLE 1 (min r.passes 255) ++
      toLE 1 (b2n phase * 128 + b2n r.nf.isSome * 64 + b2n prepost * 32) ++ toLE 2 tag ++ toLE 5 r.count ++
      toLE 5 (r.nf.getD 0) := by
  have hsat : decide (r.count ≥ 2 ^ 40) = false := decide_eq_false (by omega)
  rw [recordBytes, hsat]
  simp [b2n, Nat.shiftLeft_eq]

theorem length_recordBytes (r : Result) (op tag : Nat) (phase prepost : Bool) :
    (recordBytes r op tag phase prepost).length = 16 := by simp [recordBytes]

/-- A memory that differs by one write reads the bytes written there, and reads as before everywhere else. -/
theorem State.rd_of_write {s t : State} {a n : Nat} {bs : Bytes} (h : s.mem.wf = true) (hl : bs.length = n)
    (ht : t.mem = s.mem.writeN a bs) : t.rd a n = bs ∧ s.memBut t a n := by
  subst hl
  exact ⟨by rw [State.rd, ht]; exact Memory.readN_writeN a bs h,
    fun x hx => by rw [ht]; exact Memory.read_writeN_other h hx⟩

/-- R242: a record discarded is counted and raises its interrupt. -/
theorem State.dropRecord_effect (s : State) :
    let u := s.dropRecord
    u = { s with regs := u.regs, irqOut := u.irqOut } ∧
    u.reg R.qmgrCqDropCnt = min (s.reg R.qmgrCqDropCnt + 1) 0xFFFFFFFF ∧ u.regBit (R.hdrIrqStat 7) 2 = true := by
  dsimp only
  unfold State.dropRecord
  obtain ⟨g, hg⟩ := s.bump_effect R.qmgrCqDropCnt 1
  obtain ⟨g', i, hi⟩ := (s.bump R.qmgrCqDropCnt).raiseIrq_effect 7 4
  refine ⟨by rw [hi, hg], ?_, ?_⟩
  · rw [(s.bump R.qmgrCqDropCnt).raiseIrq_regsBut 7 4 _ (by decide), State.reg_bump_same _ (by decide)]
  · rw [State.regBit, State.reg_raiseIrq_stat _ (by decide), Nat.testBit_or, show Nat.testBit 4 2 = true by decide,
      Bool.or_true]

/-! ### The completion -/

/-- A descriptor that completes is outstanding no longer and gives its credit back (R22, R242). -/
def State.retired (s : State) (l : Live) : State :=
  let u := { s with touched := s.touched.filter fun p => p.1 != l.id
                    q := { s.q with live := s.q.live.filter fun x => x.id != l.id } }
  if l.credit then u.setFld (cqBase l.desc.cq.toNat) Cq.resv (u.fld (cqBase l.desc.cq.toNat) Cq.resv - 1) else u

/-- ERR_ONLY keeps the record of a completion back (R242). -/
def Live.quiet (l : Live) (r : Result) : Bool := l.desc.errOnly && decide (r.status < 0x10)

/-- The record of a completion written, kept back or dropped (R242). -/
def State.reported (s : State) (l : Live) (r : Result) : State :=
  if l.quiet r then s
  else if l.credit then
    s.writeRecord l.desc.cq.toNat r l.op l.desc.tag.toNat (isPrepost l.desc) l.desc.irq
  else s.dropRecord

/-- A completion raises its DONE_CTR (R237). -/
def Live.raises (l : Live) (r : Result) : Bool := l.desc.doneEn && (l.desc.doneAny || decide (r.status < 0x10))

theorem State.cbRelease_empty {s : State} (id : Nat) (h : s.cb = []) : s.cbRelease id = s := by
  rw [State.cbRelease, h]
  exact congrArg (fun c => ({ s with cb := c } : State)) h.symm

/-- DONE_CTR of a completion raised, when it is to be (R237). -/
def State.doneRaised (s : State) (l : Live) (r : Result) : State :=
  if l.raises r then s.ctrAdd l.desc.doneCtr.toNat 1 else s

theorem State.completeOne_eq {s : State} (l : Live) (r : Result) (h : s.cb = []) :
    s.completeOne l r = ((s.retired l).reported l r).doneRaised l r := by
  unfold State.completeOne
  rw [State.cbRelease_empty _ h]
  rfl

theorem State.retired_effect (s : State) (l : Live) (h : s.ctx.wf = true) :
    let u := s.retired l
    let b := cqBase l.desc.cq.toNat
    u = { s with ctx := u.ctx, touched := s.touched.filter fun p => p.1 != l.id
                 q := { s.q with live := s.q.live.filter fun x => x.id != l.id } } ∧
    u.ctx.wf = true ∧ s.ctxBut u b 64 ∧ u.fld b Cq.resv = s.fld b Cq.resv - b2n l.credit ∧
    ∀ f : Fld, f.off + f.len ≤ Cq.resv.off → u.fld b f = s.fld b f := by
  unfold State.retired
  dsimp only
  generalize hw : ({ s with touched := s.touched.filter fun p => p.1 != l.id
                            q := { s.q with live := s.q.live.filter fun x => x.id != l.id } } : State) = w
  have hctx : w.ctx = s.ctx := hw ▸ rfl
  have hwf : w.ctx.wf = true := hctx ▸ h
  have hfld : ∀ b f, w.fld b f = s.fld b f := State.fld_congr hctx
  generalize cqBase l.desc.cq.toNat = b
  rw [← State.fld_congr hctx b Cq.resv]
  cases l.credit with
  | false => exact ⟨hw ▸ rfl, hwf, fun x _ => congrArg (fun m => m.read x) hctx, rfl, fun f _ => hfld b f⟩
  | true =>
    rw [if_pos rfl]
    refine ⟨hw ▸ rfl, w.ctx_wf_setFld _ _ _ hwf, fun x hx => ?_, ?_, fun f hf => ?_⟩
    · rw [← hctx]
      exact w.ctxBut_setFld (a := b) (n := 64) _ hwf (by simp [Cq.resv]) (by simp [Cq.resv]) x hx
    · rw [State.fld_setFld_same _ _ _ hwf (by decide) (by decide)]
      exact Nat.mod_eq_of_lt (Nat.sub_lt_of_lt (w.fld_lt b Cq.resv))
    · rw [State.fld_setFld_other _ _ hwf (.inl (by omega)), hfld]

section
variable (s : State) {l : Live} {r : Result}

theorem State.reported_quiet (hq : l.quiet r = true) : s.reported l r = s := by
  rw [State.reported, if_pos hq]

theorem State.reported_written (hq : l.quiet r = false) (hc : l.credit = true) : s.reported l r =
    s.writeRecord l.desc.cq.toNat r l.op l.desc.tag.toNat (isPrepost l.desc) l.desc.irq := by
  rw [State.reported, if_neg (by simp [hq]), if_pos hc]

theorem State.reported_dropped (hq : l.quiet r = false) (hc : l.credit = false) : s.reported l r = s.dropRecord := by
  rw [State.reported, if_neg (by simp [hq]), if_neg (by simp [hc])]

end

/-- What the report of a completion changes (R242, R243). -/
theorem State.reported_effect (s : State) (l : Live) (r : Result) (h : s.ctx.wf = true) :
    let u := s.reported l r
    let b := cqBase l.desc.cq.toNat
    u = { s with mem := u.mem, memPoison := u.memPoison, regs := u.regs, irqOut := u.irqOut, ctx := u.ctx } ∧
    u.ctx.wf = true ∧ s.ctxBut u b 64 ∧ u.fld b Cq.resv = s.fld b Cq.resv ∧
    (l.quiet r = true ∨ l.credit = false → u.mem = s.mem ∧ u.fld b Cq.pi = s.fld b Cq.pi) ∧
    (l.quiet r = false → l.credit = true →
      u.mem = (s.wr (s.recordAddr l.desc.cq.toNat)
        (recordBytes r l.op l.desc.tag.toNat (s.recordPhase l.desc.cq.toNat) (isPrepost l.desc))).mem ∧
      u.fld b Cq.pi = (s.fld b Cq.pi + 1) % 2 ^ 20) ∧
    (l.quiet r = false → l.credit = false →
      u.reg R.qmgrCqDropCnt = min (s.reg R.qmgrCqDropCnt + 1) 0xFFFFFFFF ∧
      u.regBit (R.hdrIrqStat 7) 2 = true) := by
  dsimp only
  cases hq : l.quiet r with
  | true =>
    rw [s.reported_quiet hq]
    exact ⟨rfl, h, s.ctxBut_refl _ _, rfl, fun _ => ⟨rfl, rfl⟩, nofun, nofun⟩
  | false =>
    cases hc : l.credit with
    | true =>
      obtain ⟨heq, hwf, hbut, hpi, hresv⟩ :=
        s.writeRecord_effect l.desc.cq.toNat r l.op l.desc.tag.toNat (isPrepost l.desc) l.desc.irq h
      rw [s.reported_written hq hc]
      exact ⟨heq.trans (by rw [heq]; rfl), hwf, hbut, hresv, nofun, fun _ _ => ⟨by rw [heq], hpi⟩, nofun⟩
    | false =>
      obtain ⟨heq, hcnt, hirq⟩ := s.dropRecord_effect
      have hctx : s.dropRecord.ctx = s.ctx := by rw [heq]
      rw [s.reported_dropped hq hc]
      exact ⟨heq.trans (by rw [heq]), hctx ▸ h, fun x _ => congrArg (fun m => m.read x) hctx, State.fld_congr hctx _ _,
        fun _ => ⟨by rw [heq], State.fld_congr hctx _ _⟩, nofun, fun _ _ => ⟨hcnt, hirq⟩⟩

/-- What the rise of DONE_CTR changes (R237, R244). -/
theorem State.doneRaised_effect (s : State) (l : Live) (r : Result) (h : s.ctx.wf = true) :
    let u := s.doneRaised l r
    let c := ctrBase l.desc.doneCtr.toNat
    u = { s with regs := u.regs, ctx := u.ctx, ctxPoison := u.ctxPoison, upsets := u.upsets
                 q := { s.q with store := u.q.store } } ∧
    u.ctx.wf = true ∧ s.ctxBut u c 16 ∧ s.regsBut u (errRegs 0x70) ∧
    (s.ctxPoison.contains (c / 16) = true → u.ctx = s.ctx) ∧
    (s.cleanTables = true → u.fld c Ctr.value = (s.fld c Ctr.value + b2n (l.raises r)) % 2 ^ 32 ∧
      u.fld c Ctr.raises = (s.fld c Ctr.raises + b2n (l.raises r)) % 2 ^ 32) := by
  have hc := l.desc.doneCtr.isLt
  unfold State.doneRaised
  cases l.raises r with
  | true =>
    obtain ⟨heq, hwf, hbut, hregs⟩ := s.ctrAdd_effect 1 hc h
    exact ⟨heq, hwf, hbut, hregs, s.ctrAdd_poisoned 1 hc, s.ctrAdd_clean 1 hc h⟩
  | false =>
    refine ⟨rfl, h, s.ctxBut_refl _ _, fun _ _ => rfl, fun _ => rfl, fun _ => ⟨?_, ?_⟩⟩
    · exact (Nat.mod_eq_of_lt (s.fld_lt _ Ctr.value)).symm
    · exact (Nat.mod_eq_of_lt (s.fld_lt _ Ctr.raises)).symm

/-- The entries of completion queues and of trigger counters stand apart (R379). -/
theorem cqBase_ctrBase_apart (cq : BitVec 12) (c : BitVec 16) : ctrBase c.toNat + 16 ≤ cqBase cq.toNat := by
  have := c.isLt
  rw [ctrBase, cqBase]
  omega

theorem qmgrCqDropCnt_not_errReg : R.qmgrCqDropCnt ∉ errRegs 0x70 := by decide

theorem qmgrIrqStat_not_errReg : R.hdrIrqStat 7 ∉ errRegs 0x70 := by decide

/-- Settles O25: the credit returns, the record is written, kept back or dropped, and then the counter is raised; the
entries of queues and counters stand apart. -/
theorem completionWritesItsRecordAndRaisesItsCounter :
    Obligations.CompletionWritesItsRecordAndRaisesItsCounter := by
  intro s l r hctx hmem hcb
  dsimp only
  rw [State.completeOne_eq l r hcb]
  obtain ⟨heq1, hwf1, hbut1, hresv1, hfld1⟩ := s.retired_effect l hctx
  obtain ⟨heq2, hwf2, hbut2, hresv2, hnone, hwritten, hdropped⟩ := (s.retired l).reported_effect l r hwf1
  obtain ⟨heq3, hwf3, hbut3, hregs, hbad, hgood⟩ := ((s.retired l).reported l r).doneRaised_effect l r hwf2
  have hsep := cqBase_ctrBase_apart l.desc.cq l.desc.doneCtr
  have hmem1 : (s.retired l).mem = s.mem := by rw [heq1]
  have hregs1 : (s.retired l).regs = s.regs := by rw [heq1]
  generalize s.retired l = u1 at *
  generalize u1.reported l r = u2 at *
  generalize u2.doneRaised l r = t at *
  have hpi1 := hfld1 Cq.pi (by decide)
  have haddr : u1.recordAddr l.desc.cq.toNat = s.recordAddr l.desc.cq.toNat := by
    rw [State.recordAddr, hpi1, hfld1 Cq.base (by decide), hfld1 Cq.log2Size (by decide), State.recordAddr]
  have hphase : u1.recordPhase l.desc.cq.toNat = s.recordPhase l.desc.cq.toNat := by
    rw [State.recordPhase, hpi1, hfld1 Cq.log2Size (by decide), State.recordPhase]
  have hmem3 : t.mem = u2.mem := by rw [heq3]
  have hcq3 (f : Fld) : t.fld (cqBase l.desc.cq.toNat) f = u2.fld (cqBase l.desc.cq.toNat) f :=
    State.fld_of_ctxBut hwf2 hwf3 hbut3 (.inr (by omega))
  have hctr2 (f : Fld) (hf : f.off + f.len ≤ 16) :
      u2.fld (ctrBase l.desc.doneCtr.toNat) f = s.fld (ctrBase l.desc.doneCtr.toNat) f :=
    State.fld_of_ctxBut hctx hwf2 (State.ctxBut_trans hbut1 hbut2) (.inl (by omega))
  have hpoison : u2.ctxPoison = s.ctxPoison := by rw [heq2, heq1]
  have hclean : u2.cleanTables = s.cleanTables := by rw [State.cleanTables, State.cleanTables, heq2, heq1]
  refine ⟨?_, fun hq hc hst hcnt => ?_, fun hn => ?_, fun hq hc => ?_, ?_, ?_, fun hp => ?_, fun hcl => ?_⟩
  · rw [heq3, heq2, heq1]
  · obtain ⟨hm, hpi⟩ := hwritten hq hc
    have hbytes := recordBytes_fit l.op l.desc.tag.toNat (s.recordPhase l.desc.cq.toNat) (isPrepost l.desc) hcnt
    have hlen := length_recordBytes r l.op l.desc.tag.toNat (s.recordPhase l.desc.cq.toNat) (isPrepost l.desc)
    have hstored : t.mem = s.mem.writeN (s.recordAddr l.desc.cq.toNat)
        (recordBytes r l.op l.desc.tag.toNat (s.recordPhase l.desc.cq.toNat) (isPrepost l.desc)) := by
      rw [hmem3, hm, haddr, hphase, State.wr, hmem1]
    obtain ⟨hread, hbut⟩ := State.rd_of_write hmem hlen hstored
    exact ⟨hread.trans hbytes, hbut, by rw [hcq3, hpi, hpi1]⟩
  · obtain ⟨hm, hpi⟩ := hnone hn
    exact ⟨by rw [hmem3, hm, hmem1], by rw [hcq3, hpi, hpi1]⟩
  · obtain ⟨hcnt, hirq⟩ := hdropped hq hc
    constructor
    · rw [hregs _ qmgrCqDropCnt_not_errReg, hcnt, State.reg, hregs1, ← State.reg]
    · rwa [State.regBit, hregs _ qmgrIrqStat_not_errReg]
  · rw [hcq3, hresv2, hresv1]
  · rw [heq3, heq2, heq1]
  · rw [State.fld_congr (hbad (hpoison ▸ hp)), hctr2 _ (by decide)]
  · obtain ⟨hvalue, hraises⟩ := hgood (hclean ▸ hcl)
    exact ⟨by rw [hvalue, hctr2 _ (by decide)]; rfl, by rw [hraises, hctr2 _ (by decide)]; rfl⟩

end Sys2Proof.Machine
end

section
/-! A descriptor dispatched: what its command begins with (R233, R234, R242). -/

namespace Sys2Proof.Machine

/-- Contexts outside the completion queues' entries read the same (R379). -/
def State.sameTables (s t : State) : Prop :=
  ∀ (b : Nat) (f : Fld), b + f.off + f.len ≤ 0xF00000 ∨ 0xF40000 ≤ b + f.off → t.fld b f = s.fld b f

theorem State.enter_spec (s : State) (op : Nat) (d : Desc) :
    (s.enter op d).1.op = op ∧ (s.enter op d).1.desc = d ∧
    ∃ (w : List Waiting) (n : Nat), (s.enter op d).2 = { s with q := { s.q with waiting := w, nextRead := n } } := by
  unfold State.enter
  split
  · next w hw =>
    have hfound := List.find?_some hw
    simp only [decide_eq_true_eq] at hfound
    exact ⟨hfound.1, hfound.2, s.q.waiting, s.q.nextRead, rfl⟩
  · split
    · exact ⟨rfl, rfl, s.q.waiting, s.q.nextRead, rfl⟩
    · exact ⟨rfl, rfl, _, _, rfl⟩

/-- What a dispatch changes: the queue island's lists of descriptors, the count of dispatches and the credit taken. -/
theorem State.dispatch_spec (s : State) (w : Waiting) (h : s.ctx.wf = true) :
    let l := (s.dispatch w).1
    let u := (s.dispatch w).2
    l.op = w.op ∧ l.desc = w.desc ∧
    u = { s with regs := u.regs, ctx := u.ctx, q := { s.q with
      waiting := u.q.waiting, store := u.q.store, live := u.q.live, nextId := u.q.nextId, lastChans := u.q.lastChans } } ∧
    u.ctx.wf = true ∧ s.ctxBut u (cqBase w.desc.cq.toNat) 64 ∧
    s.regsBut u [R.qmgrDispatchLo, R.qmgrDispatchLo + 4] := by
  unfold State.dispatch
  dsimp only
  generalize hv : ({ s with q := { s.q with
    waiting := s.q.waiting.filter fun x => x.order != w.order
    store := s.q.store.filter fun x => x.order != w.order
    live := s.q.live ++ [s.toLive w]
    nextId := s.q.nextId + 1
    lastChans := modNth s.q.lastChans w.desc.prio.toNat fun _ => w.desc.channel.toNat } } : State) = v
  have hctx : v.ctx = s.ctx := hv ▸ rfl
  have hregs : v.regs = s.regs := hv ▸ rfl
  have hreg (t : State) (ht : t.regs = v.regs) : s.regsBut (t.bump64 R.qmgrDispatchLo)
      [R.qmgrDispatchLo, R.qmgrDispatchLo + 4] := fun a ha => by
    simp only [List.mem_cons, List.not_mem_nil, or_false, not_or] at ha
    rw [State.reg_bump64_other _ _ (Ne.symm ha.1) (Ne.symm ha.2), State.reg, State.reg, ht, hregs]
  refine ⟨rfl, rfl, ?_⟩
  split
  · obtain ⟨g, hg⟩ := (v.setFld (cqBase w.desc.cq.toNat) Cq.resv
      (v.fld (cqBase w.desc.cq.toNat) Cq.resv + 1)).bump64_effect R.qmgrDispatchLo 1
    refine ⟨by rw [hg, ← hv]; rfl, by rw [hg]; exact v.ctx_wf_setFld _ _ _ (hctx ▸ h), fun x hx => ?_, hreg _ rfl⟩
    rw [hg, ← hctx]
    exact v.ctxBut_setFld (a := cqBase w.desc.cq.toNat) (n := 64) _ (hctx ▸ h) (by simp [Cq.resv])
      (by simp [Cq.resv]) x hx
  · obtain ⟨g, hg⟩ := v.bump64_effect R.qmgrDispatchLo 1
    exact ⟨by rw [hg, ← hv], by rw [hg, hctx]; exact h, fun x _ => by rw [hg, hctx], hreg _ rfl⟩

/-- What a descriptor's command begins with: its descriptor outstanding, and beside the lists of descriptors, the count
of dispatches and the credit taken all as it was. -/
structure State.Begins (s : State) (op : Nat) (d : Desc) : Prop where
  op_eq : (s.begun op d).1.op = op
  desc_eq : (s.begun op d).1.desc = d
  frame : ∃ (g : List (Nat × Word)) (c : Memory) (w : List Waiting) (n k : Nat) (x : List Slot) (l : List Live)
    (h : List Nat), (s.begun op d).2 = { s with regs := g, ctx := c, q := { s.q with
      waiting := w, nextRead := n, nextId := k, store := x, live := l, lastChans := h } }
  wf : (s.begun op d).2.ctx.wf = true
  tables : s.sameTables (s.begun op d).2
  regs : s.regsBut (s.begun op d).2 [R.qmgrDispatchLo, R.qmgrDispatchLo + 4]

theorem State.begins (s : State) (op : Nat) (d : Desc) (h : s.ctx.wf = true) : s.Begins op d := by
  obtain ⟨hop, hdesc, w, n, henter⟩ := s.enter_spec op d
  have hwf : (s.enter op d).2.ctx.wf = true := by rw [henter]; exact h
  obtain ⟨hlop, hldesc, heq, hwf', hbut, hregs⟩ := (s.enter op d).2.dispatch_spec (s.enter op d).1 hwf
  have hcq := (s.enter op d).1.desc.cq.isLt
  refine ⟨hlop.trans hop, hldesc.trans hdesc, ⟨_, _, _, _, _, _, _, _, heq.trans (by rw [henter])⟩, hwf',
    fun b f hd => ?_, fun a ha => (hregs a ha).trans (by rw [henter]; rfl)⟩
  rw [State.begun, State.fld_of_ctxBut hwf hwf' hbut (by rw [cqBase]; omega)]
  exact State.fld_congr (by rw [henter]) b f

/-- A descriptor that nothing holds and that has its turn is dispatched and begins (R233, R234). -/
theorem State.runDesc_goes {s : State} {op : Nat} {d : Desc} (start : Live → State → State) (h : s.goes op d = true) :
    s.atIsland 2 (runDesc op start d) = start (s.begun op d).1 (s.begun op d).2 := by
  simp only [State.goes, State.up, State.fresh, Bool.and_eq_true, Bool.not_eq_true'] at h
  obtain ⟨⟨⟨⟨⟨hdead, hready⟩, hlive, hstored⟩, hheld⟩, hcredit⟩, hturn⟩ := h
  rw [State.atIsland, hdead, hready, if_pos (by decide), runDesc, hlive, if_neg (by decide), hstored,
    if_neg (by decide)]
  dsimp only
  rw [hheld, if_neg (by decide), hcredit, if_neg (by decide), hturn, if_neg (by decide), State.begun]

end Sys2Proof.Machine
end

section
/-! A span held for room in the retained share (R29). -/

namespace Sys2Proof.Machine

theorem sortAsc_singleton {α : Type} (k : Nat) (key : α → Nat) (a : α) : sortAsc k key [a] = [a] := by
  unfold sortAsc
  induction List.range k with
  | nil => rfl
  | cons b t ih =>
    have hstep : [a].filter (fun x => !(key x).testBit b) ++ [a].filter (fun x => (key x).testBit b) = [a] := by
      cases h : (key a).testBit b <;> simp [h]
    rw [List.foldl_cons, hstep, ih]

theorem SendRole.setOwner_single {r : SendRole} {o : Owner} (h : r.owners = [o]) (f : Owner → Owner) :
    r.setOwner o.rank f = { r with owners := [f o] } := by
  simp [SendRole.setOwner, h]

/-- The one owner of the one outstanding send role: its span goes on when the share has room (R29). -/
theorem State.sendOwner_room {s : State} {l : Live} {r : SendRole} {o : Owner} {x : Span} (hlive : s.q.live = [l])
    (hphase : l.phase = .send r) (howners : r.owners = [o]) (hx : s.packedFor r.ctx o.rank = some x)
    (hroom : s.retainRoom x = true) :
    s.sendOwner l.id o.rank =
      let v := (s.retain r x).setPhase l.id
        (.send { r with owners := [{ o with sent := o.answer.isNone, held := false }] })
      if o.answer.isSome then v else v.giveSpan l r x := by
  have hrole : s.sendById l.id = some (l, r) := by simp [State.sendById, hlive, hphase]
  have howner : r.owners.find? (·.rank == o.rank) = some o := by simp [howners]
  unfold State.sendOwner
  rw [hrole]
  dsimp only
  rw [hx, howner]
  dsimp only
  rw [hroom, if_neg (by decide), SendRole.setOwner_single howners]

theorem retryRetained_single {s : State} {l : Live} {r : SendRole} {o : Owner} (hlive : s.q.live = [l])
    (hphase : l.phase = .send r) (howners : r.owners = [o]) (hheld : o.held = true) :
    retryRetained s = s.sendOwner l.id o.rank := by
  have hturn : s.inTurn = [l.id] := by rw [State.inTurn, hlive, sortAsc_singleton]; rfl
  have hrole : s.sendById l.id = some (l, r) := by simp [State.sendById, hlive, hphase]
  rw [retryRetained, hturn]
  simp [hrole, howners, hheld]

theorem exec_retainedRoom_single {s : State} {l : Live} {r : SendRole} {o : Owner} {x : Span} (hup : s.up 2 = true)
    (hlive : s.q.live = [l]) (hphase : l.phase = .send r) (howners : r.owners = [o]) (hheld : o.held = true)
    (hx : s.packedFor r.ctx o.rank = some x) (hroom : s.retainRoom x = true) :
    exec .retainedRoom s = .next (
      let v := (s.retain r x).setPhase l.id
        (.send { r with owners := [{ o with sent := o.answer.isNone, held := false }] })
      if o.answer.isSome then v else v.giveSpan l r x) := by
  rw [exec_retainedRoom, execRetainedRoom, State.atIsland,
    if_pos (show (!s.pwr.dead && s.islandReady 2) = true from hup), retryRetained_single hlive hphase howners hheld,
    State.sendOwner_room hlive hphase howners hx hroom]

end Sys2Proof.Machine
end

section
/-! Blocks read back and returned to the residual (R155, R190): what a return changes and what it counts. -/

namespace Sys2Proof.Machine

/-! ### What reading blocks back may change -/

/-- Only host memory, register words, the messages sent, decoder copies, the free values drawn and the context tables
differ: what a return of blocks may change. -/
def State.readsBack (s t : State) : Prop :=
  t = { s with mem := t.mem, memPoison := t.memPoison, regs := t.regs, irqOut := t.irqOut, piers := t.piers
               free := t.free, ctx := t.ctx }

theorem State.readsBack_refl (s : State) : s.readsBack s := rfl

theorem State.readsBack_trans {s t u : State} (h : s.readsBack t) (h' : t.readsBack u) : s.readsBack u := by
  unfold State.readsBack at *
  rw [h', h]

theorem State.readsBack_q {s t : State} (h : s.readsBack t) : t.q = s.q := by rw [h]

/-- A fold whose every step only reads back does so as a whole. -/
theorem State.readsBack_of_foldl {α β : Type} (st : β → State) {f : β → α → β} {l : List α} {b r : β}
    (hr : l.foldl f b = r) (h : ∀ b a, (st b).readsBack (st (f b a))) : (st b).readsBack (st r) := by
  subst hr
  induction l generalizing b with
  | nil => exact State.readsBack_refl _
  | cons a l ih => exact State.readsBack_trans (h b a) (ih (b := f b a))

theorem State.readsBack_foldl {α : Type} (s : State) (f : State → α → State) (l : List α)
    (h : ∀ (s : State) (a : α), s.readsBack (f s a)) : s.readsBack (l.foldl f s) := State.readsBack_of_foldl id rfl h

section
variable (s : State)

theorem State.readsBack_setReg (a v : Nat) : s.readsBack (s.setReg a v) := rfl

theorem State.readsBack_bump (a n : Nat) : s.readsBack (s.bump a n) := by
  obtain ⟨g, h⟩ := s.bump_effect a n
  rw [h]; rfl

theorem State.readsBack_countUe (m : Sram) (g : Nat) : s.readsBack (s.countUe m g) := by
  obtain ⟨r, h⟩ := s.countUe_effect m g
  rw [h]; rfl

theorem State.readsBack_raiseIrq (page mask : Nat) : s.readsBack (s.raiseIrq page mask) := by
  obtain ⟨g, i, h⟩ := s.raiseIrq_effect page mask
  rw [h]; rfl

theorem State.readsBack_freeBytes (n : Nat) : s.readsBack (s.freeBytes n).2 := rfl

theorem State.readsBack_putLog16 (cnt head first : Nat) (words : List Nat) :
    s.readsBack (s.putLog16 cnt head first words) := by
  unfold State.putLog16
  refine State.readsBack_trans ?_ (State.readsBack_bump _ cnt 1)
  exact State.readsBack_trans (s.readsBack_foldl _ words.zipIdx fun s _ => s.readsBack_setReg _ _)
    (State.readsBack_setReg _ _ _)

theorem State.readsBack_tblLog (e : TblLog) : s.readsBack (s.tblLog e) :=
  State.readsBack_trans (s.readsBack_putLog16 _ _ _ _) (State.readsBack_raiseIrq _ 5 1)

/-- A Pier may receive its copy of a table again (R155). -/
theorem State.readsBack_reload (p n : Nat) : s.readsBack (s.reload p n) := by
  unfold State.reload
  split
  · split
    · exact s.readsBack_refl
    · dsimp only
      split
      · exact State.readsBack_trans (s.readsBack_countUe _ _) (State.readsBack_countUe _ _ _)
      · exact State.readsBack_trans (s.readsBack_countUe (.pier p) (10 * n)) rfl
  · exact s.readsBack_refl

theorem State.readsBack_countDecode (p : Nat) (b : ReadBlock) : s.readsBack (s.countDecode p b) := by
  have hload : s.readsBack (if b.hdr.btype = 1 then s.reload p b.hdr.slot else s) := by
    split
    · exact s.readsBack_reload p _
    · exact s.readsBack_refl
  unfold State.countDecode
  generalize (if b.hdr.btype = 1 then s.reload p b.hdr.slot else s) = v at hload ⊢
  refine State.readsBack_trans hload ?_
  dsimp only
  split
  · exact v.readsBack_bump _ _
  · refine State.readsBack_trans (v.readsBack_bump (R.pierDecReject p) 1) ?_
    split
    · exact State.readsBack_bump _ _ _
    · split
      · exact State.readsBack_bump _ _ _
      · split
        · exact State.readsBack_bump _ _ _
        · exact State.readsBack_refl _

theorem State.readsBack_atPier (p : Option Nat) (f : Nat → State → State) (h : ∀ n, s.readsBack (f n s)) :
    s.readsBack (s.atPier p f) := by
  cases p with
  | none => exact s.readsBack_refl
  | some n => exact h n

theorem State.readsBack_returnPier : s.readsBack s.returnPier.2 := by
  unfold State.returnPier
  split
  · exact s.readsBack_refl
  · rfl

theorem State.readsBack_spanUe (n : Nat) : s.readsBack (s.spanUe n) :=
  s.readsBack_foldl _ _ fun s _ =>
    State.readsBack_trans (s.readsBack_freeBytes 4) (State.readsBack_countUe _ _ _)

theorem State.readsBack_returnBad (c : Stream) (lo : Nat) (es : List Nat) : s.readsBack (s.returnBad c lo es) :=
  s.readsBack_foldl _ es fun _ _ => rfl

theorem State.readsBack_returnOne (c : Stream) (lo i : Nat) (d : FV) : s.readsBack (s.returnOne c lo i d).2 := by
  unfold State.returnOne
  dsimp only
  split <;> rfl

end

/-! ### One block -/

theorem sub_eq (bs : Bytes) (off len : Nat) : sub bs off len = (List.range len).map fun i => (bs[off + i]?).getD 0 := by
  refine List.ext_getElem (by simp [sub, zeros]) fun i h _ => ?_
  simp only [sub, zeros, List.length_append, List.length_take, List.length_drop, List.length_replicate] at h
  simp only [sub, zeros, List.getElem_map, List.getElem_range, List.getElem_append, List.length_take,
    List.length_drop, List.getElem_take, List.getElem_drop, List.getElem_replicate]
  split
  · rw [List.getElem?_eq_getElem (by omega), Option.getD_some]
  · rw [List.getElem?_eq_none (by omega), Option.getD_none]

/-- Bytes of a run's bytes are bytes of the run. -/
theorem sub_sub (bs : Bytes) {a n off len : Nat} (h : off + len ≤ n) : sub (sub bs a n) off len = sub bs (a + off) len := by
  rw [sub_eq, sub_eq bs (a + off)]
  refine List.map_congr_left fun i hi => ?_
  have hlt := List.mem_range.mp hi
  rw [sub_eq, List.getElem?_map, List.getElem?_range (by omega), Option.map_some, Option.getD_some, Nat.add_assoc]

theorem sub_behind (pre bs : Bytes) (off len : Nat) : sub (pre ++ bs) (pre.length + off) len = sub bs off len := by
  rw [sub_eq, sub_eq]
  refine List.map_congr_left fun i _ => ?_
  rw [List.getElem?_append_right (by omega), Nat.add_assoc, Nat.add_sub_cancel_left]

/-- A block's COUNT read behind a header of 64 bytes. -/
theorem parseBlkHdr_count_behind (pre blk : Bytes) (h : pre.length = 64) :
    (parseBlkHdr (sub (pre ++ blk) 64 64)).count = (parseBlkHdr blk).count := by
  have hsub : sub (sub (pre ++ blk) 64 64) 6 2 = sub blk 6 2 := by
    rw [sub_sub _ (by decide), ← h, sub_behind]
  simp only [parseBlkHdr, leAt, hsub]

/-- A block returned counts its COUNT, whether its check passes or not (R190). -/
theorem State.returnBlock_count (s : State) (c : Stream) (lo mode mag : Nat) (h : SpanHdr) (blk : Bytes) (bad : Bool) :
    (s.returnBlock c lo mode mag h blk bad).1.count = (parseBlkHdr blk).count := by
  have hcount := parseBlkHdr_count_behind (zeros 64) blk (by simp [zeros])
  unfold State.returnBlock
  dsimp only
  split
  · split <;> exact hcount
  · exact hcount

theorem State.readsBack_returnBlock (s : State) (c : Stream) (lo mode mag : Nat) (h : SpanHdr) (blk : Bytes)
    (bad : Bool) : s.readsBack (s.returnBlock c lo mode mag h blk bad).2 := by
  unfold State.returnBlock
  dsimp only
  have hpier := s.readsBack_returnPier
  generalize s.returnPier = r at hpier ⊢
  obtain ⟨p, v⟩ := r
  refine State.readsBack_trans hpier ?_
  generalize checkBlock _ _ _ _ _ = b
  have hcount : v.readsBack (v.atPier p fun p s => s.countDecode p b) :=
    v.readsBack_atPier p _ fun n => v.readsBack_countDecode n b
  generalize v.atPier p (fun p s => s.countDecode p b) = w at hcount ⊢
  refine State.readsBack_trans hcount ?_
  dsimp only
  split
  · have hlog (e : TblLog) : w.readsBack ((w.freeBytes 4).2.tblLog e) :=
      State.readsBack_trans (w.readsBack_freeBytes 4) (State.readsBack_tblLog _ e)
    split
    · exact State.readsBack_trans (hlog _)
        (State.readsBack_trans (State.readsBack_spanUe _ 1) (State.readsBack_returnBad _ c lo _))
    · exact hlog _
  · generalize hr : List.foldl _ (0, false, 0, w) _ = r
    have hfold := State.readsBack_of_foldl (fun a : Nat × Bool × Nat × State => a.2.2.2) hr fun acc e => by
      dsimp only
      exact State.readsBack_returnOne _ c lo _ _
    refine State.readsBack_trans hfold ?_
    dsimp only
    refine r.2.2.2.readsBack_atPier p _ fun n => ?_
    exact r.2.2.2.readsBack_bump (R.pierFlush n) r.2.2.1

/-! ### Blocks, spans and chunks returned -/

/-- The entries that blocks hold by their headers. -/
def blockEntries (bs : List Bytes) : Nat := (bs.map fun k => (parseBlkHdr k).count).sum

theorem State.readsBack_bumpFld (s : State) (a : Nat) (f : Fld) (n : Nat) : s.readsBack (s.bumpFld a f n) := by
  obtain ⟨c, h⟩ := s.bumpFld_effect a f n
  rw [h]; rfl

/-- One step of a return of blocks (R190). -/
def State.returnStep (c : Stream) (free : Bool) (lo mode mag : Nat) (h : SpanHdr) (bad : List Nat)
    (acc : Returned × State) (b : Bytes) : Returned × State :=
  if free then (acc.1.join ⟨(parseBlkHdr b).count, (parseBlkHdr b).count, []⟩, acc.2)
  else
    let r := acc.2.returnBlock c lo mode mag h b (bad.contains (parseBlkHdr b).base)
    (acc.1.join r.1, r.2)

theorem State.returnStep_count (c : Stream) (free : Bool) (lo mode mag : Nat) (h : SpanHdr) (bad : List Nat)
    (acc : Returned × State) (b : Bytes) :
    (State.returnStep c free lo mode mag h bad acc b).1.count = acc.1.count + (parseBlkHdr b).count := by
  unfold State.returnStep
  split
  · rfl
  · exact congrArg (acc.1.count + ·) (State.returnBlock_count _ c lo mode mag h b _)

theorem State.readsBack_returnStep (c : Stream) (free : Bool) (lo mode mag : Nat) (h : SpanHdr) (bad : List Nat)
    (acc : Returned × State) (b : Bytes) : acc.2.readsBack (State.returnStep c free lo mode mag h bad acc b).2 := by
  unfold State.returnStep
  split
  · exact acc.2.readsBack_refl
  · exact acc.2.readsBack_returnBlock c lo mode mag h b _

theorem State.returnSteps_count (c : Stream) (free : Bool) (lo mode mag : Nat) (h : SpanHdr) (bad : List Nat)
    (bs : List Bytes) (acc : Returned × State) :
    (bs.foldl (State.returnStep c free lo mode mag h bad) acc).1.count = acc.1.count + blockEntries bs := by
  induction bs generalizing acc with
  | nil => rfl
  | cons b bs ih =>
    rw [List.foldl_cons, ih, State.returnStep_count, Nat.add_assoc, blockEntries, blockEntries, List.map_cons, List.sum_cons]

/-- Blocks that are freed leave the machine as it is and count their entries for DROP_CNT. -/
theorem State.returnSteps_free (c : Stream) (lo mode mag : Nat) (h : SpanHdr) (bad : List Nat) (bs : List Bytes)
    (r : Returned) (s : State) :
    bs.foldl (State.returnStep c true lo mode mag h bad) (r, s) =
      (⟨r.count + blockEntries bs, r.drops + blockEntries bs, r.status⟩, s) := by
  induction bs generalizing r with
  | nil => rfl
  | cons b bs ih =>
    rw [List.foldl_cons, State.returnStep, if_pos rfl, ih]
    simp [Returned.join, blockEntries, Nat.add_assoc]

/-- The state in which the blocks of a return are read: the scale's flush counted (R45). -/
def State.scaleRead (s : State) (free : Bool) (h : SpanHdr) (blks : List Bytes) : State :=
  if free || blks.isEmpty then s
  else s.atPier s.freePiers.head? fun p s => s.bump (R.pierFlush p) (scaleFlush h.scale)

theorem State.returnBlocks_eq (s : State) (c : Stream) (discard : Bool) (mode mag : Nat) (h : SpanHdr)
    (blks : List Bytes) (bad : List Nat) :
    s.returnBlocks c discard mode mag h blks bad =
      let free := discard || c.resFmt == 0
      let r := blks.foldl (State.returnStep c free (s.resOrigin c) mode mag h bad)
        (⟨0, 0, []⟩, s.scaleRead free h blks)
      (r.1, r.2.bumpFld (grpBase c.group) Grp.dropCnt r.1.drops) := rfl

theorem State.readsBack_scaleRead (s : State) (free : Bool) (h : SpanHdr) (blks : List Bytes) :
    s.readsBack (s.scaleRead free h blks) := by
  unfold State.scaleRead
  split
  · exact s.readsBack_refl
  · refine s.readsBack_atPier _ _ fun n => ?_
    exact s.readsBack_bump _ _

/-- A return of blocks reports the entries of their headers (R190). -/
theorem State.returnBlocks_count (s : State) (c : Stream) (discard : Bool) (mode mag : Nat) (h : SpanHdr)
    (blks : List Bytes) (bad : List Nat) :
    (s.returnBlocks c discard mode mag h blks bad).1.count = blockEntries blks := by
  rw [State.returnBlocks_eq]
  exact (State.returnSteps_count c _ _ mode mag h bad blks _).trans (Nat.zero_add _)

theorem State.readsBack_returnBlocks (s : State) (c : Stream) (discard : Bool) (mode mag : Nat) (h : SpanHdr)
    (blks : List Bytes) (bad : List Nat) : s.readsBack (s.returnBlocks c discard mode mag h blks bad).2 := by
  rw [State.returnBlocks_eq]
  dsimp only
  generalize hr : blks.foldl _ _ = r
  have hfold := State.readsBack_of_foldl (fun a : Returned × State => a.2) hr fun acc b =>
    State.readsBack_returnStep c _ _ mode mag h bad acc b
  exact State.readsBack_trans (s.readsBack_scaleRead _ h blks) (State.readsBack_trans hfold (State.readsBack_bumpFld _ _ _ _))

/-- R190: under DISCARD, and for a stream without a residual, blocks are freed: their entries count in DROP_CNT. -/
theorem State.returnBlocks_free (s : State) {c : Stream} {discard : Bool} (mode mag : Nat) (h : SpanHdr)
    (blks : List Bytes) (bad : List Nat) (hf : (discard || c.resFmt == 0) = true) :
    s.returnBlocks c discard mode mag h blks bad =
      (⟨blockEntries blks, blockEntries blks, []⟩, s.bumpFld (grpBase c.group) Grp.dropCnt (blockEntries blks)) := by
  rw [State.returnBlocks_eq, hf]
  dsimp only
  rw [State.returnSteps_free, State.scaleRead, Bool.true_or, if_pos rfl, Nat.zero_add]

end Sys2Proof.Machine
end

section
/-! The packs that COMPRESS left (R177): which functions of the model leave them as they are. -/

namespace Sys2Proof.Machine

/-- A fold keeps what each of its steps keeps. -/
theorem foldl_keeps {α β γ : Type} (g : β → γ) (f : β → α → β) (l : List α) (b : β) (h : ∀ b a, g (f b a) = g b) :
    g (l.foldl f b) = g b := by
  induction l generalizing b with
  | nil => rfl
  | cons a l ih => exact (ih (f b a)).trans (h b a)

section
variable (s : State)

/-! ### Checks, counts and records -/

@[simp] theorem State.wrP_q (p : Bool) (a : Nat) (bs : Bytes) : (s.wrP p a bs).q = s.q := by
  unfold State.wrP
  split <;> rfl

@[simp] theorem State.abutBump_q (r : Nat → Nat) (a n : Nat) : (s.abutBump r a n).q = s.q := s.bump_q _ n

@[simp] theorem State.abutBump64_q (r : Nat → Nat) (a n : Nat) : (s.abutBump64 r a n).q = s.q := s.bump64_q _ n

@[simp] theorem State.checkWord_q (m : Sram) (g data : Nat) : (s.checkWord m g data).2.q = s.q := by
  unfold State.checkWord
  dsimp only
  split <;> simp [State.freshWord]

@[simp] theorem State.ctxCheck_q (g : Nat) : (s.ctxCheck g).2.q = s.q := by
  unfold State.ctxCheck
  dsimp only
  split
  · simp
  · split
    · rfl
    · split <;> simp

@[simp] theorem State.ctxUse_q (a n : Nat) : (s.ctxUse a n).2.q = s.q := by
  unfold State.ctxUse
  exact foldl_keeps (fun r : Bool × State => r.2.q) _ _ (true, s) fun r g => by simp

@[simp] theorem State.testSlots_packs (c : Nat) : (s.testSlots c).q.packs = s.q.packs := by
  unfold State.testSlots
  dsimp only
  split <;> simp

@[simp] theorem State.ctrEvent_packs (c v : Nat) : (s.ctrEvent c v).q.packs = s.q.packs := by simp [State.ctrEvent]

@[simp] theorem State.ctrAdd_packs (c n : Nat) : (s.ctrAdd c n).q.packs = s.q.packs := by
  unfold State.ctrAdd State.ctrTry
  dsimp only
  split <;> simp

@[simp] theorem State.writeRecord_q (cq : Nat) (r : Result) (op tag : Nat) (prepost irq : Bool) :
    (s.writeRecord cq r op tag prepost irq).q = s.q := by
  unfold State.writeRecord
  dsimp only
  split
  · split <;> simp
  · split <;> simp
  · simp

/-! ### The coalescing buffer -/

@[simp] theorem State.cbWriteBack_q (l : CbLine) : (s.cbWriteBack l).q = s.q := by
  have hread : (s.cbRead l).q = s.q := by
    unfold State.cbRead
    split
    · exact foldl_keeps State.q _ _ s fun _ _ => by simp
    · rfl
  unfold State.cbWriteBack
  split <;> simp [hread]

@[simp] theorem State.cbRelease_q (id : Nat) : (s.cbRelease id).q = s.q := by
  unfold State.cbRelease
  dsimp only
  exact foldl_keeps State.q _ _ _ fun s p => s.cbWriteBack_q p.1

@[simp] theorem State.cbRoom_q (a : Nat) : (s.cbRoom a).q = s.q := by
  unfold State.cbRoom
  split
  · rfl
  · split
    · rfl
    · simp

@[simp] theorem State.touch_q (id g : Nat) : (s.touch id g).q = s.q := by
  unfold State.touch
  split <;> rfl

@[simp] theorem State.cbTouch_q (id a : Nat) (load : Bool) : (s.cbTouch id a load).q = s.q := by
  unfold State.cbTouch
  dsimp only
  split <;> simp

@[simp] theorem State.putGranule_q (a : Nat) (bs : Bytes) (p : Bool) : (s.putGranule a bs p).q = s.q := by
  unfold State.putGranule
  dsimp only
  split <;> simp

@[simp] theorem State.abLoad_q (id a w : Nat) : (s.abLoad id a w).2.q = s.q := by
  unfold State.abLoad
  dsimp only
  split <;> split <;> simp

/-! ### Completion -/

@[simp] theorem State.retired_packs (l : Live) : (s.retired l).q.packs = s.q.packs := by
  unfold State.retired
  dsimp only
  split <;> simp

@[simp] theorem State.reported_packs (l : Live) (r : Result) : (s.reported l r).q.packs = s.q.packs := by
  unfold State.reported State.dropRecord
  split
  · rfl
  · split <;> simp

theorem State.completeOne_released (l : Live) (r : Result) :
    s.completeOne l r = (((s.cbRelease l.id).retired l).reported l r).doneRaised l r := rfl

@[simp] theorem State.completeOne_packs (l : Live) (r : Result) : (s.completeOne l r).q.packs = s.q.packs := by
  rw [State.completeOne_released, State.doneRaised]
  split <;> simp

@[simp] theorem State.settle_packs (n : Nat) : (s.settle n).q.packs = s.q.packs := by
  induction n generalizing s with
  | zero => rfl
  | succ n ih =>
    unfold State.settle
    split
    · simp [ih]
    · rfl

@[simp] theorem State.finish_packs (l : Live) (r : Result) : (s.finish l r).q.packs = s.q.packs := by
  simp [State.finish]

@[simp] theorem State.endWith_packs (l : Live) (st : Nat) : (s.endWith l st).q.packs = s.q.packs :=
  s.finish_packs l _

@[simp] theorem State.setPhase_packs (id : Nat) (p : Phase) : (s.setPhase id p).q.packs = s.q.packs := rfl

@[simp] theorem State.setInst_packs (id : Nat) (i : Inst) : (s.setInst id i).q.packs = s.q.packs := rfl

@[simp] theorem State.takeRetained_packs (p : Span → Bool) : (s.takeRetained p).2.q.packs = s.q.packs := rfl

/-! ### Messages sent -/

@[simp] theorem State.rekeyCheck_q (c : Nat) : (s.rekeyCheck c).q = s.q := by
  unfold State.rekeyCheck
  dsimp only
  split <;> simp

@[simp] theorem State.countSent_q (c : Nat) : (s.countSent c).q = s.q := by
  have hbump := s.bump64_q R.rmaPktTxLo 1
  unfold State.countSent
  dsimp only
  by_cases h : ((s.bump64 R.rmaPktTxLo).connX c).pkts + 1 < 65536
  · rw [if_pos h]
    exact (State.setConnX_q _ c _).trans hbump
  · rw [if_neg h]
    exact (State.rekeyCheck_q _ c).trans ((State.setFld_q _ _ _ _).trans ((State.setConnX_q _ c _).trans hbump))

@[simp] theorem State.enqueue_q (f : Frame) : (s.enqueue f).q = s.q := by
  unfold State.enqueue
  dsimp only
  split <;> simp

@[simp] theorem State.emit_q (p : Packet) : (s.emit p).q = s.q := by
  unfold State.emit State.route
  dsimp only
  split
  · simp
  · split <;> simp [State.noRoute]

@[simp] theorem State.noteAwait_q (m : OutMsg) (esn : Nat) (p : Bool) : (s.noteAwait m esn p).q = s.q := by
  unfold State.noteAwait
  split <;> rfl

@[simp] theorem State.relayCheck_packs (id : Nat) : (s.relayCheck id).q.packs = s.q.packs := by
  unfold State.relayCheck
  split
  · split
    · split <;> simp
    · rfl
  · rfl

@[simp] theorem State.jobDone_packs (j : Job) : (s.jobDone j).q.packs = s.q.packs := by
  unfold State.jobDone
  dsimp only
  split
  · rfl
  · split <;> simp

@[simp] theorem State.jobHanded_packs (m : OutMsg) : (s.jobHanded m).q.packs = s.q.packs := by
  unfold State.jobHanded
  split
  · split <;> simp
  · rfl

@[simp] theorem State.handed_packs (m : OutMsg) : (s.handed m).q.packs = s.q.packs := by
  unfold State.handed
  split
  · split <;> simp
  · split
    · rfl
    · split
      · split <;> simp
      · simp
      · split <;> simp
      · split <;> simp
      · rfl

@[simp] theorem State.sendPart_packs (i : Nat) (m : OutMsg) (part : Nat × Bytes × Bool) :
    (s.sendPart i m part).q.packs = s.q.packs := by
  unfold State.sendPart
  dsimp only
  split
  · rfl
  · split <;> simp

@[simp] theorem State.pumpStream_packs (c : Nat) (control : Bool) (n : Nat) :
    (s.pumpStream c control n).q.packs = s.q.packs := by
  induction n generalizing s with
  | zero => rfl
  | succ n ih =>
    unfold State.pumpStream
    split
    · rfl
    · split
      · rfl
      · split
        · simp [ih]
        · rfl

@[simp] theorem State.post_packs (m : OutMsg) : (s.post m).q.packs = s.q.packs := by
  unfold State.post State.pump
  split <;> simp

@[simp] theorem State.notice_packs (c channel seq : Nat) (payload : Bytes) (live : Option Nat) :
    (s.notice c channel seq payload live).q.packs = s.q.packs := s.post_packs _

@[simp] theorem State.sendCheck_packs (l : Live) (r : SendRole) : (s.sendCheck l r).q.packs = s.q.packs := by
  unfold State.sendCheck
  split <;> simp

end

end Sys2Proof.Machine
end

section
/-! The packs' owners and their marks (R177): what the work of a send role and of a reduction keeps of them. -/

namespace Sys2Proof.Machine

/-- The contexts of packs and whether each is taken. -/
def packTags (l : List Pack) : List (Nat × Bool) := l.map fun p => (p.ctx, p.taken)

/-- An update of packs that leaves the context and the mark of each keeps their tags. -/
theorem packTags_map {l : List Pack} {f : Pack → Pack} (hc : ∀ p, (f p).ctx = p.ctx)
    (ht : ∀ p, (f p).taken = p.taken) : packTags (l.map f) = packTags l := by
  simp [packTags, hc, ht]

section
variable (s : State)

/-! ### Blocks returned and read -/

@[simp] theorem State.freeBytes_q (n : Nat) : (s.freeBytes n).2.q = s.q := rfl

@[simp] theorem State.countDecode_q (p : Nat) (b : ReadBlock) : (s.countDecode p b).q = s.q :=
  State.readsBack_q (s.readsBack_countDecode p b)

@[simp] theorem State.spanUe_q (n : Nat) : (s.spanUe n).q = s.q := State.readsBack_q (s.readsBack_spanUe n)

@[simp] theorem State.logReject_q (op st : Nat) (d : SpanData) (off base : Nat) :
    (s.logReject op st d off base).q = s.q := State.readsBack_q (s.readsBack_tblLog _)

@[simp] theorem State.policy_q (r : SendRole) (xs : List Span) : (s.policy r xs).q = s.q :=
  foldl_keeps State.q _ xs s fun s _ => State.readsBack_q (s.readsBack_returnBlocks _ _ _ _ _ _ _)

@[simp] theorem State.takePiers_q (n : Nat) : (State.takePiers n s).2.q = s.q := by
  induction n generalizing s with
  | zero => rfl
  | succ n ih => exact ih s.takePier.2

@[simp] theorem State.pickPiers_q (v : Nat) (d : SpanData) : (s.pickPiers v d).2.2.q = s.q := s.takePiers_q _

/-! ### Addends added to an accumulator -/

@[simp] theorem State.cross_q (n data : Nat) : (s.cross n data).2.q = s.q := by
  unfold State.cross
  split <;> simp

@[simp] theorem State.crossAll_q (at' : Nat → Nat) (xs : List (Nat × Bool)) : (s.crossAll at' xs).2.q = s.q := by
  unfold State.crossAll
  split
  · rfl
  · refine foldl_keeps (fun r : List (Nat × Bool) × State => r.2.q) _ _ ([], s) fun r x => ?_
    dsimp only
    split <;> simp

@[simp] theorem State.carry_q (i : Inst) (h : SpanHdr) (es : List (Nat × Nat)) : (s.carry i h es).2.q = s.q := by
  simp [State.carry]

@[simp] theorem State.addInt_q (id a : Nat) (v : Int) (bad : Bool) : (s.addInt id a v bad).2.2.q = s.q := by
  unfold State.addInt
  dsimp only
  split <;> simp

@[simp] theorem State.addPair_q (id a b : Nat) (v : FV) (bad : Bool) : (s.addPair id a b v bad).2.2.q = s.q := by
  unfold State.addPair
  dsimp only
  split <;> simp

@[simp] theorem State.addBlock_q (id : Nat) (i : Inst) (h : SpanHdr) (es : List (Nat × Nat)) :
    (s.addBlock id i h es).2.q = s.q := by
  unfold State.addBlock
  dsimp only
  rw [foldl_keeps (fun r : Added × State => r.2.q)]
  · simp
  · intro r x
    split <;> simp

/-! ### Notices at this chip -/

@[simp] theorem State.unsend_packTags (l : Live) (r : SendRole) (rank : Nat) :
    packTags (s.unsend l r rank).2.q.packs = packTags s.q.packs :=
  packTags_map (fun p => by split <;> rfl) (fun p => by split <;> rfl)

@[simp] theorem State.noticeAt_packTags (kind status group channel seq node base : Nat) :
    packTags (s.noticeAt kind status group channel seq node base).q.packs = packTags s.q.packs := by
  unfold State.noticeAt
  split
  · rfl
  · split <;> simp

@[simp] theorem State.answer_packTags (l : Live) (i : Inst) (conn : Option Nat) (kind status base : Nat) :
    packTags (s.answer l i conn kind status base).q.packs = packTags s.q.packs := by
  unfold State.answer
  dsimp only
  split <;> simp

@[simp] theorem State.rejected_packTags (l : Live) (i : Inst) (ib : Inbound) (kind status base : Nat) :
    packTags (s.rejected l i ib kind status base).q.packs = packTags s.q.packs := by
  simp [State.rejected]

/-! ### A reduction at work -/

@[simp] theorem State.sumUp_packTags (id rank : Nat) (ib : Inbound) :
    packTags (s.sumUp id rank ib).q.packs = packTags s.q.packs := by
  unfold State.sumUp
  dsimp only
  generalize hv : List.foldl _ _ _ = v
  have hkeep : packTags v.q.packs = packTags s.q.packs := by
    rw [← hv, foldl_keeps fun t : State => packTags t.q.packs]
    · split <;> simp
    · intro t x
      split
      · rfl
      · split
        · simp
        · split <;> simp
  split
  · exact hkeep
  · exact hkeep

@[simp] theorem State.letIn_packTags (l : Live) (i : Inst) (ib : Inbound) :
    packTags (s.letIn l i ib).q.packs = packTags s.q.packs := by
  unfold State.letIn
  dsimp only
  split
  · simp
  · split
    · simp
    · split
      · simp
      · split <;> simp

@[simp] theorem State.takeInbound_packTags (id : Nat) (ib : Inbound) :
    packTags (s.takeInbound id ib).q.packs = packTags s.q.packs := by
  unfold State.takeInbound
  split
  · rfl
  · split
    · split <;> simp
    · split <;> simp

@[simp] theorem State.drain_packTags (id : Nat) (all : Bool) (rs : List Nat) :
    packTags (State.drain id all rs s).q.packs = packTags s.q.packs := by
  induction rs generalizing s with
  | nil => rfl
  | cons r rs ih =>
    unfold State.drain
    split
    · rfl
    · split
      · exact ih s
      · split
        · simp [ih]
        · split
          · exact ih s
          · rfl

@[simp] theorem State.closeInst_packTags (l : Live) (i : Inst) :
    packTags (s.closeInst l i).q.packs = packTags s.q.packs := by
  unfold State.closeInst
  dsimp only
  rw [State.finish_packs, foldl_keeps fun t : State => packTags t.q.packs]
  · split <;> simp
  · intro t r
    split <;> simp

@[simp] theorem State.closeCheck_packTags (id : Nat) : packTags (s.closeCheck id).q.packs = packTags s.q.packs := by
  unfold State.closeCheck
  dsimp only
  split
  · rfl
  · split
    · simp
    · split
      · split <;> simp
      · rfl

@[simp] theorem State.serve_packTags (id : Nat) : packTags (s.serve id).q.packs = packTags s.q.packs := by
  unfold State.serve
  dsimp only
  split
  · rfl
  · split
    · rfl
    · rw [State.closeCheck_packTags, State.drain_packTags, foldl_keeps fun t : State => packTags t.q.packs]
      intro t x
      exact t.takeInbound_packTags id x

@[simp] theorem State.place_packTags (ib : Inbound) : packTags (s.place ib).q.packs = packTags s.q.packs := by
  unfold State.place
  dsimp only
  split
  · simp
  · split
    · rfl
    · split <;> simp

/-! ### A send role at work -/

@[simp] theorem State.retain_packTags (r : SendRole) (x : Span) :
    packTags (s.retain r x).q.packs = packTags s.q.packs :=
  packTags_map (fun p => by split <;> rfl) (fun p => by split <;> rfl)

@[simp] theorem State.giveSpan_packTags (l : Live) (r : SendRole) (x : Span) :
    packTags (s.giveSpan l r x).q.packs = packTags s.q.packs := by
  unfold State.giveSpan
  dsimp only
  split
  · simp
  · split <;> simp

@[simp] theorem State.sendOwner_packTags (id rank : Nat) :
    packTags (s.sendOwner id rank).q.packs = packTags s.q.packs := by
  unfold State.sendOwner
  split
  · rfl
  · split
    · split
      · split <;> simp
      · split <;> simp
    · rfl

@[simp] theorem State.sendSkips_packTags (l : Live) (r : SendRole) (step status : Nat) :
    packTags (s.sendSkips l r step status).q.packs = packTags s.q.packs := by
  unfold State.sendSkips
  dsimp only
  generalize hv : List.foldl _ _ _ = v
  have hkeep : packTags v.q.packs = packTags s.q.packs := by
    rw [← hv, foldl_keeps fun t : State => packTags t.q.packs]
    intro t o
    split
    · simp
    · split <;> simp
  split <;> simp [hkeep]

end

end Sys2Proof.Machine
end

section
/-! What a dispatched descriptor's command reads as the machine stood: its stream context and its exchange group (R168,
R169, R177). -/

namespace Sys2Proof.Machine

/-! ### The entries of the tables -/

section
variable {s u : State} (ht : s.sameTables u)
include ht

theorem State.sameTables.strm {n : Nat} {f : Fld} (hn : n < 2 ^ 14) (hf : f.off + f.len ≤ 256) :
    u.fld (strmBase n) f = s.fld (strmBase n) f := ht _ _ (.inl (by unfold strmBase; omega))

theorem State.sameTables.grp {g : Nat} {f : Fld} (hg : g < 2 ^ 12) (hf : f.off + f.len ≤ 256) :
    u.fld (grpBase g) f = s.fld (grpBase g) f := ht _ _ (.inl (by unfold grpBase; omega))

theorem State.sameTables.conn (c : Nat) (f : Fld) : u.fld (connBase c) f = s.fld (connBase c) f :=
  ht _ _ (.inr (by unfold connBase; omega))

theorem State.sameTables.groupUsed {g : Nat} (hg : g < 2 ^ 12) : u.groupUsed g = s.groupUsed g := by
  simp only [State.groupUsed, ht.grp (f := Grp.nMembers) hg (by decide), ht.grp (f := Grp.myRank) hg (by decide)]

theorem State.sameTables.chainDeep (n : Nat) {g : Nat} (hg : g < 2 ^ 12) : u.chainDeep n g = s.chainDeep n g := by
  have hflag (g : Nat) (hg : g < 2 ^ 12) : u.flag (grpBase g) Grp.parentEn = s.flag (grpBase g) Grp.parentEn := by
    rw [State.flag, State.flag, ht.grp hg (by decide)]
  induction n generalizing g with
  | zero => rw [State.chainDeep, State.chainDeep, hflag g hg]
  | succ n ih =>
    rw [State.chainDeep, State.chainDeep, hflag g hg, ht.grp (f := Grp.parent) hg (by decide)]
    rw [ih (s.fld_lt _ Grp.parent)]

theorem State.sameTables.groupFits {g : Nat} (hg : g < 2 ^ 12) : u.groupFits g = s.groupFits g := by
  rw [State.groupFits, State.groupFits, ht.groupUsed hg, ht.chainDeep 6 hg]

theorem State.sameTables.membersPoisoned {g : Nat} (hg : g < 2 ^ 12) (hp : u.memPoison = s.memPoison) :
    u.membersPoisoned g = s.membersPoisoned g := by
  simp only [State.membersPoisoned, State.poisoned, hp, ht.grp (f := Grp.memberAddr) hg (by decide),
    ht.grp (f := Grp.nMembers) hg (by decide)]

variable (hm : u.mem = s.mem)
include hm

theorem State.sameTables.memberConn {g : Nat} (r : Nat) (hg : g < 2 ^ 12) : u.memberConn g r = s.memberConn g r := by
  rw [State.memberConn, State.memberConn, State.rdN, State.rdN, State.rd, State.rd, hm,
    ht.grp (f := Grp.memberAddr) hg (by decide)]

theorem State.sameTables.membersOk {g : Nat} (hg : g < 2 ^ 12) : u.membersOk g = s.membersOk g := by
  simp only [State.membersOk, ht.memberConn hm _ hg, ht.grp (f := Grp.nMembers) hg (by decide),
    ht.grp (f := Grp.myRank) hg (by decide)]

theorem State.sameTables.levelOneMember {g : Nat} (hg : g < 2 ^ 12) : u.levelOneMember g = s.levelOneMember g := by
  simp only [State.levelOneMember, State.connState, ht.conn, ht.memberConn hm _ hg,
    ht.grp (f := Grp.nMembers) hg (by decide), ht.grp (f := Grp.myRank) hg (by decide)]

theorem State.sameTables.endedOwners {g : Nat} (hg : g < 2 ^ 12) : u.endedOwners g = s.endedOwners g := by
  rw [State.endedOwners, State.endedOwners, ht.grp (f := Grp.nMembers) hg (by decide)]
  refine List.filterMap_congr fun r _ => ?_
  rw [ht.memberConn hm r hg, ht.grp (f := Grp.myRank) hg (by decide)]
  cases s.memberConn g r with
  | none => rfl
  | some c =>
    dsimp only
    rw [State.connState, State.connState, ht.conn, ht.conn]

end

/-! ### What a dispatch leaves -/

section
variable {s : State} {op : Nat} {d : Desc} (h : s.Begins op d)
include h

theorem State.Begins.mem : (s.begun op d).2.mem = s.mem := by
  obtain ⟨g, c, w, n, k, x, l, o, hu⟩ := h.frame
  rw [hu]

theorem State.Begins.memPoison : (s.begun op d).2.memPoison = s.memPoison := by
  obtain ⟨g, c, w, n, k, x, l, o, hu⟩ := h.frame
  rw [hu]

theorem State.Begins.packs : (s.begun op d).2.q.packs = s.q.packs := by
  obtain ⟨g, c, w, n, k, x, l, o, hu⟩ := h.frame
  rw [hu]

theorem State.Begins.retained : (s.begun op d).2.q.retained = s.q.retained := by
  obtain ⟨g, c, w, n, k, x, l, o, hu⟩ := h.frame
  rw [hu]

theorem State.Begins.held : (s.begun op d).2.q.held = s.q.held := by
  obtain ⟨g, c, w, n, k, x, l, o, hu⟩ := h.frame
  rw [hu]

theorem State.Begins.cleanTables : (s.begun op d).2.cleanTables = s.cleanTables := by
  obtain ⟨g, c, w, n, k, x, l, o, hu⟩ := h.frame
  rw [hu]
  rfl

/-- The Piers that may take work are the same: no register that says so is among those a dispatch writes. -/
theorem State.Begins.freePiers : (s.begun op d).2.freePiers = s.freePiers := by
  have hctrl : ∀ n < 32, R.hdrCtrl (0x10 + n) ∉ [R.qmgrDispatchLo, R.qmgrDispatchLo + 4] := by decide
  have hregs := h.regs
  obtain ⟨g, c, w, n, k, x, l, o, hu⟩ := h.frame
  refine List.filter_congr fun n hn => ?_
  have hreg := hregs _ (hctrl n (List.mem_range.mp hn))
  simp only [State.pierFree, State.regBit, hreg]
  rw [hu]
  rfl

end

/-- A check of words none of which has flipped or is poisoned finds them usable and changes nothing (R31). -/
theorem State.ctxUse_clean {s : State} (a n : Nat) (h : s.cleanTables = true) : s.ctxUse a n = (true, s) := by
  unfold State.ctxUse
  dsimp only
  generalize List.range _ = l
  induction l with
  | nil => rfl
  | cons i l ih => simpa [s.ctxCheck_clean _ h] using ih

end Sys2Proof.Machine
end

section
/-! The send role (R177): the descriptor that it ends at once, and the pack that it takes. -/

namespace Sys2Proof.Machine

/-- The packs of a context marked taken (R177). -/
def State.markTaken (s : State) (ctx : Nat) : State :=
  { s with q := { s.q with packs := s.q.packs.map fun p => if p.ctx = ctx then { p with taken := true } else p } }

/-- Every pack of a context is taken. -/
def State.allTaken (s : State) (ctx : Nat) : Prop := ∀ x ∈ s.q.packs, x.ctx = ctx → x.taken = true

theorem State.allTaken_markTaken (s : State) (ctx : Nat) : (s.markTaken ctx).allTaken ctx := by
  intro x hx hctx
  obtain ⟨p, -, rfl⟩ := List.mem_map.mp hx
  by_cases hp : p.ctx = ctx
  · rw [if_pos hp]
  · rw [if_neg hp] at hctx
    exact absurd hctx hp

/-- What keeps the packs' contexts and marks keeps a context's packs taken. -/
theorem State.allTaken_of_packTags {s t : State} {ctx : Nat} (h : packTags t.q.packs = packTags s.q.packs)
    (hs : s.allTaken ctx) : t.allTaken ctx := by
  intro x hx hctx
  have hmem : (x.ctx, x.taken) ∈ packTags s.q.packs := h ▸ List.mem_map_of_mem hx
  obtain ⟨y, hy, he⟩ := List.mem_map.mp hmem
  obtain ⟨hyctx, hytaken⟩ := Prod.mk.inj he
  exact hytaken ▸ hs y hy (hyctx.trans hctx)

section
variable {u : State} {l : Live} (hfree : u.streamHeld l = false) (hclean : u.cleanTables = true)
  (hmode : modeFits l.op (u.fld (strmBase (opBits l.desc 0x20 2 13 0)) Strm.mode) = true)
include hfree hclean hmode

/-- A step that is not the context's ends the send role with BOUNDS (R177). -/
theorem startSendRole_otherStep
    (hstep : u.fld (strmBase (opBits l.desc 0x20 2 13 0)) Strm.compressStep ≠ opd l.desc 0x24 4) :
    startSendRole l u = u.endWith l 0x23 := by
  unfold startSendRole
  simp [hfree, State.streamUse, State.ctxUse_clean _ _ hclean, hmode, hstep]

/-- A send role that passes its checks takes its context's one pack (R177). -/
theorem startSendRole_takes {k : Pack}
    (hstep : u.fld (strmBase (opBits l.desc 0x20 2 13 0)) Strm.compressStep = opd l.desc 0x24 4)
    (hgroup : let g := u.fld (strmBase (opBits l.desc 0x20 2 13 0)) Strm.group
      u.groupFits g = true ∧ u.membersOk g = true ∧ u.membersPoisoned g = false ∧ u.levelOneMember g = false ∧
        u.endedOwners g = [])
    (hk : k ∈ u.q.packs) (hkctx : k.ctx = opBits l.desc 0x20 2 13 0) (hkstep : k.step = opd l.desc 0x24 4)
    (htaken : k.taken = false) (hwork : k.skip = true ∨ k.spans ≠ [])
    (honly : ∀ x ∈ u.q.packs, x.ctx = opBits l.desc 0x20 2 13 0 → x = k) :
    (startSendRole l u).allTaken (opBits l.desc 0x20 2 13 0) := by
  obtain ⟨hfits, hmembers, hpoison, hlevel, hended⟩ := hgroup
  have hmark := u.allTaken_markTaken (opBits l.desc 0x20 2 13 0)
  have hfind : (u.q.packs.find? fun p => decide (p.ctx = opBits l.desc 0x20 2 13 0 ∧ p.step = opd l.desc 0x24 4) &&
      !p.taken) = some k := by
    obtain ⟨p, hp⟩ : ∃ p, (u.q.packs.find? fun p =>
        decide (p.ctx = opBits l.desc 0x20 2 13 0 ∧ p.step = opd l.desc 0x24 4) && !p.taken) = some p :=
      Option.isSome_iff_exists.mp (List.find?_isSome.mpr ⟨k, hk, by simp [hkctx, hkstep, htaken]⟩)
    have hsat := List.find?_some hp
    simp only [Bool.and_eq_true, decide_eq_true_eq] at hsat
    rw [hp, honly p (List.mem_of_find?_eq_some hp) hsat.1.1]
  unfold startSendRole
  dsimp only
  rw [if_neg (by simp [hfree]), State.streamUse, State.ctxUse_clean _ _ hclean]
  dsimp only
  rw [if_neg (by decide), if_neg (by simp [hmode]), if_neg (by simp [hstep]), if_neg (by simp [hfits, hmembers]),
    if_neg (by simp [hpoison]), if_neg (by simp [hlevel]), hfind]
  dsimp only
  rw [hended]
  dsimp only [List.find?_nil]
  change (if k.skip = true then ((u.markTaken _).sendSkips _ _ _ _) else _).allTaken _
  split
  · exact State.allTaken_of_packTags (State.sendSkips_packTags _ _ _ _ _) hmark
  · rename_i hskip
    rw [if_neg (by simp [hwork.resolve_left hskip])]
    generalize hv : List.foldl _ _ _ = v
    have hkeep : packTags v.q.packs = packTags (u.markTaken (opBits l.desc 0x20 2 13 0)).q.packs := by
      rw [← hv, foldl_keeps fun t : State => packTags t.q.packs]
      · rfl
      · intro t o
        exact t.sendOwner_packTags _ _
    refine State.allTaken_of_packTags ?_ hmark
    split <;> simp [hkeep]

end

end Sys2Proof.Machine
end

section
/-! RESIDUAL_RETURN (R190): the retained spans and held-back blocks that it takes out, and what it counts. -/

namespace Sys2Proof.Machine

/-! ### Returns in turn -/

/-- Spans or chunks returned one after another, their counts joined. -/
def returnEach {α : Type} (ret : State → α → Returned × State) (l : List α) (acc : Returned × State) :
    Returned × State :=
  l.foldl (fun acc x => (acc.1.join (ret acc.2 x).1, (ret acc.2 x).2)) acc

theorem returnEach_count {α : Type} {ret : State → α → Returned × State} {n : α → Nat}
    (h : ∀ s x, (ret s x).1.count = n x) (l : List α) (acc : Returned × State) :
    (returnEach ret l acc).1.count = acc.1.count + (l.map n).sum := by
  induction l generalizing acc with
  | nil => rfl
  | cons x l ih =>
    refine (ih _).trans ?_
    simp [Returned.join, h, Nat.add_assoc]

theorem readsBack_returnEach {α : Type} {ret : State → α → Returned × State}
    (h : ∀ (s : State) x, s.readsBack (ret s x).2) (l : List α) (acc : Returned × State) :
    acc.2.readsBack (returnEach ret l acc).2 :=
  State.readsBack_of_foldl (fun a : Returned × State => a.2) rfl fun a x => h a.2 x

/-- Only the context tables differ, the stream contexts read the same, and DROP_CNT of a group is n more (R190). -/
structure State.Drops (s : State) (g n : Nat) (t : State) : Prop where
  frame : t = { s with ctx := t.ctx }
  wf : t.ctx.wf = true
  strm : ∀ (ctx : Nat) (f : Fld), ctx < 2 ^ 14 → f.off + f.len ≤ 256 → t.fld (strmBase ctx) f = s.fld (strmBase ctx) f
  count : t.fld (grpBase g) Grp.dropCnt = min (s.fld (grpBase g) Grp.dropCnt + n) 0xFFFFFFFF

theorem State.drops_zero (s : State) (g : Nat) (h : s.ctx.wf = true) : s.Drops g 0 s := by
  have hlt : s.fld (grpBase g) Grp.dropCnt < 2 ^ 32 := s.fld_lt _ Grp.dropCnt
  exact ⟨rfl, h, fun _ _ _ _ => rfl, by omega⟩

theorem State.Drops.bump {s t : State} {g n : Nat} (k : Nat) (h : s.Drops g n t) :
    s.Drops g (n + k) (t.bumpFld (grpBase g) Grp.dropCnt k) := by
  obtain ⟨hframe, hwf, hstrm, hcount⟩ := h
  unfold State.bumpFld
  split
  · next hk => exact ⟨hframe, hwf, hstrm, by rw [hcount, hk, Nat.add_zero]⟩
  · refine ⟨by rw [hframe]; rfl, t.ctx_wf_setFld _ _ _ hwf, fun ctx f hc hf => ?_, ?_⟩
    · rw [t.fld_setFld_other _ hwf (.inl (by unfold strmBase grpBase; omega)), hstrm ctx f hc hf]
    · rw [t.fld_setFld_same _ _ hwf (by decide) (by decide), hcount]
      show min _ _ % 2 ^ 32 = _
      omega

/-- Returns that free their entries add them to DROP_CNT and report no failure. -/
theorem returnEach_drops {α : Type} {ret : State → α → Returned × State} {n : α → Nat} {s : State} {g : Nat}
    {l : List α} (h : ∀ t k, s.Drops g k t → ∀ x ∈ l,
      ret t x = (⟨n x, n x, []⟩, t.bumpFld (grpBase g) Grp.dropCnt (n x))) {acc : Returned × State} {k : Nat}
    (hst : acc.1.status = []) (hacc : s.Drops g k acc.2) :
    (returnEach ret l acc).1.status = [] ∧ s.Drops g (k + (l.map n).sum) (returnEach ret l acc).2 := by
  induction l generalizing acc k with
  | nil => exact ⟨hst, hacc⟩
  | cons x l ih =>
    have hx := h acc.2 k hacc x (List.mem_cons_self ..)
    have := ih (fun t k hk y hy => h t k hk y (List.mem_cons_of_mem _ hy))
      (acc := (acc.1.join (ret acc.2 x).1, (ret acc.2 x).2)) (k := k + n x)
      (by rw [hx]; simp [Returned.join, hst]) (by rw [hx]; exact hacc.bump (n x))
    rwa [Nat.add_assoc, ← List.sum_cons, ← List.map_cons] at this

/-! ### What RESIDUAL_RETURN takes -/

/-- The stream of a RESIDUAL_RETURN. -/
def returnCtx (d : Desc) : Nat := opBits d 0x20 2 13 0

/-- RESIDUAL_RETURN names a retained span: its stream and operation, and its owner or every one (R190). -/
def returnsSpan (d : Desc) (x : Span) : Bool :=
  decide (x.ctx = returnCtx d ∧ x.channel = d.channel.toNat ∧ x.seq = d.seq.toNat) &&
    (opBit d 0x2B 7 || x.rank == opBits d 0x28 4 16 0)

/-- RESIDUAL_RETURN names a held-back chunk: its stream and step (R190). -/
def returnsHeld (d : Desc) (h : Held) : Bool := decide (h.ctx = returnCtx d ∧ h.step = opd d 0x24 4)

/-- The blocks of a named chunk that go back, and the chunk without them. -/
def heldPart (d : Desc) (h : Held) : List Bytes × Held := h.part (opBit d 0x2B 7) (opBits d 0x28 4 16 0)

/-- A return ended with a status and the count of its entries. -/
def State.returned (r : Returned × State) (l : Live) : State :=
  r.2.finish l ⟨firstStatus r.1.status, r.1.count, 0, none⟩

section
variable {u : State} {l : Live}

/-- With no Pier that may work a return that is no DISCARD waits (R190, R372). -/
theorem startResidualReturn_waits (hd : opBit l.desc 0x22 1 = false) (hp : u.freePiers = []) :
    startResidualReturn l u = u := by
  unfold startResidualReturn
  simp [hd, hp]

variable (hfree : u.streamHeld l = false) (hclean : u.cleanTables = true)
  (hworks : opBit l.desc 0x22 1 = true ∨ u.freePiers ≠ [])
include hfree hclean hworks

theorem startResidualReturn_retained (hb : opBit l.desc 0x22 0 = false) :
    startResidualReturn l u =
      let xs := u.q.retained.filter (returnsSpan l.desc)
      let w : State := { u with q := { u.q with retained := u.q.retained.filter fun x => !returnsSpan l.desc x } }
      if xs.isEmpty then w.endWith l 0x23
      else State.returned (returnEach (fun s x => s.returnSpan (opBit l.desc 0x22 1) x) xs (⟨0, 0, []⟩, w)) l := by
  have hgo : (u.streamHeld l || !opBit l.desc 0x22 1 && u.freePiers.isEmpty) = false := by
    rcases hworks with h | h <;> simp [hfree, h]
  unfold startResidualReturn
  dsimp only
  rw [hgo, State.streamUse, State.ctxUse_clean _ _ hclean, hb]
  rfl

/-- With no span of its own in the share RESIDUAL_RETURN ends with BOUNDS (R190). -/
theorem startResidualReturn_noSpan (hb : opBit l.desc 0x22 0 = false)
    (hnone : u.q.retained.filter (returnsSpan l.desc) = []) : startResidualReturn l u = u.endWith l 0x23 := by
  have hall : (u.q.retained.filter fun x => !returnsSpan l.desc x) = u.q.retained :=
    List.filter_eq_self.mpr fun x hx => by simpa using List.filter_eq_nil_iff.mp hnone x hx
  rw [startResidualReturn_retained hfree hclean hworks hb]
  dsimp only
  rw [hnone, if_pos List.isEmpty_nil, hall]

theorem startResidualReturn_held (hb : opBit l.desc 0x22 0 = true) :
    startResidualReturn l u =
      let hs := u.q.held.filter (returnsHeld l.desc)
      let rest := (hs.map fun h => (heldPart l.desc h).2).filter fun h => !h.blocks.isEmpty
      let w : State := { u with q := { u.q with held := (u.q.held.filter fun h => !returnsHeld l.desc h) ++ rest } }
      if hs.all fun h => (heldPart l.desc h).1.isEmpty then u.endWith l 0x23
      else State.returned (returnEach
        (fun s h => s.returnHeld (s.stream (returnCtx l.desc)) (opBit l.desc 0x22 1) h (heldPart l.desc h).1)
        hs (⟨0, 0, []⟩, w)) l := by
  have hgo : (u.streamHeld l || !opBit l.desc 0x22 1 && u.freePiers.isEmpty) = false := by
    rcases hworks with h | h <;> simp [hfree, h]
  have hpairs : startResidualReturn l u =
      let hs := (u.q.held.filter (returnsHeld l.desc)).map fun h => (h, heldPart l.desc h)
      let rest := (hs.map (·.2.2)).filter fun h => !h.blocks.isEmpty
      let w : State := { u with q := { u.q with held := (u.q.held.filter fun h => !returnsHeld l.desc h) ++ rest } }
      if hs.all fun x => x.2.1.isEmpty then u.endWith l 0x23
      else State.returned (returnEach
        (fun s x => s.returnHeld (s.stream (returnCtx l.desc)) (opBit l.desc 0x22 1) x.1 x.2.1) hs (⟨0, 0, []⟩, w)) l := by
    unfold startResidualReturn
    dsimp only
    rw [hgo, State.streamUse, State.ctxUse_clean _ _ hclean, hb]
    rfl
  rw [hpairs]
  dsimp only
  rw [List.map_map, List.all_map, returnEach, List.foldl_map]
  rfl

end

/-! ### What a return leaves -/

/-- Returns in turn end with the count of their entries, and those that free their entries end with OK. -/
theorem returned_returnEach {α : Type} {ret : State → α → Returned × State} {n : α → Nat} {u w : State} {g : Nat}
    {xs : List α} {frees : Prop} (l : Live) (hcount : ∀ s x, (ret s x).1.count = n x)
    (hread : ∀ (s : State) x, s.readsBack (ret s x).2) (hw : w = { u with q := w.q }) (hwf : w.ctx.wf = true)
    (hfrees : frees → ∀ t k, w.Drops g k t → ∀ x ∈ xs,
      ret t x = (⟨n x, n x, []⟩, t.bumpFld (grpBase g) Grp.dropCnt (n x))) :
    ∃ (v : State) (st : Nat),
      State.returned (returnEach ret xs (⟨0, 0, []⟩, w)) l = v.finish l ⟨st, (xs.map n).sum, 0, none⟩ ∧ v.q = w.q ∧
      v = { u with mem := v.mem, memPoison := v.memPoison, regs := v.regs, irqOut := v.irqOut, piers := v.piers
                   free := v.free, ctx := v.ctx, q := v.q } ∧
      (frees → st = 0 ∧ v = { u with ctx := v.ctx, q := v.q } ∧
        v.fld (grpBase g) Grp.dropCnt = min (u.fld (grpBase g) Grp.dropCnt + (xs.map n).sum) 0xFFFFFFFF) := by
  have hsum := returnEach_count hcount xs (⟨0, 0, []⟩, w)
  have hback := readsBack_returnEach hread xs (⟨0, 0, []⟩, w)
  have hdrop (hf : frees) := returnEach_drops (hfrees hf) (acc := (⟨0, 0, []⟩, w)) rfl (w.drops_zero g hwf)
  generalize returnEach ret xs (⟨0, 0, []⟩, w) = r at hsum hback hdrop ⊢
  have hfld : w.fld (grpBase g) Grp.dropCnt = u.fld (grpBase g) Grp.dropCnt := State.fld_congr (by rw [hw]) _ _
  refine ⟨r.2, firstStatus r.1.status, ?_, State.readsBack_q hback, ?_, fun hf => ?_⟩
  · rw [State.returned, hsum, Nat.zero_add]
  · rw [show r.2 = _ from hback, hw]
  · obtain ⟨hst, hframe, -, -, hdropped⟩ := hdrop hf
    refine ⟨by rw [hst]; rfl, by rw [hframe, hw], ?_⟩
    rw [hdropped, hfld, Nat.zero_add]

/-- Blocks of a stream as it was named are freed under DISCARD or without a residual. -/
theorem State.Drops.returnBlocks {s t : State} {g k ctx : Nat} {discard : Bool} (h : s.Drops g k t)
    (hctx : ctx < 2 ^ 14) (hg : s.fld (strmBase ctx) Strm.group = g)
    (hf : discard = true ∨ s.fld (strmBase ctx) Strm.resFmt = 0) (mode mag : Nat) (hdr : SpanHdr) (blks : List Bytes)
    (bad : List Nat) : t.returnBlocks (t.stream ctx) discard mode mag hdr blks bad =
      (⟨blockEntries blks, blockEntries blks, []⟩, t.bumpFld (grpBase g) Grp.dropCnt (blockEntries blks)) := by
  have hgroup : (t.stream ctx).group = g := (h.strm ctx Strm.group hctx (by decide)).trans hg
  have hres : (t.stream ctx).resFmt = s.fld (strmBase ctx) Strm.resFmt := h.strm ctx Strm.resFmt hctx (by decide)
  rw [State.returnBlocks_free t mode mag hdr blks bad (by rcases hf with hf | hf <;> simp [hf, hres]), hgroup]

end Sys2Proof.Machine
end

section
/-! The send role and RESIDUAL_RETURN from their dispatch on (R177, R190). -/

namespace Sys2Proof.Machine

/-- The send role of ACCUM and ACCUM_SPARSE begins with its dispatch (R177). -/
theorem exec_sendRole {s : State} {d : Desc} {p : Instr × Nat}
    (hp : p ∈ [(Instr.accum d, 0x13), (Instr.accumSparse d, 0x14)]) (hgo : s.goes p.2 d = true)
    (hctx : s.ctx.wf = true) (hb : opBit d 0x22 0 = false) :
    exec p.1 s = .next (startSendRole (s.begun p.2 d).1 (s.begun p.2 d).2) := by
  have hrole : startRole (s.begun p.2 d).1 (s.begun p.2 d).2 =
      startSendRole (s.begun p.2 d).1 (s.begun p.2 d).2 := by
    rw [startRole, (s.begins p.2 d hctx).desc_eq, if_neg (by simp [hb])]
  simp only [List.mem_cons, List.not_mem_nil, or_false] at hp
  rcases hp with rfl | rfl
  · rw [exec_accum, execAccum, State.runDesc_goes _ hgo, startAccum, hrole]
  · rw [exec_accumSparse, execAccumSparse, State.runDesc_goes _ hgo, startAccumSparse, hrole]

theorem exec_residualReturn_goes {s : State} {d : Desc} (hgo : s.goes 0x22 d = true) :
    exec (.residualReturn d) s = .next (startResidualReturn (s.begun 0x22 d).1 (s.begun 0x22 d).2) := by
  rw [exec_residualReturn, execResidualReturn, State.runDesc_goes _ hgo]

theorem returnCtx_lt (d : Desc) : returnCtx d < 2 ^ 14 := Nat.mod_lt _ (Nat.two_pow_pos _)

section
variable {s : State} {d : Desc} (hctx : s.ctx.wf = true)
include hctx

section
variable (hclean : s.cleanTables = true)
include hclean

/-- A send role whose step is not its context's ends with BOUNDS (R177). -/
theorem exec_sendRole_otherStep {p : Instr × Nat} (hp : p ∈ [(Instr.accum d, 0x13), (Instr.accumSparse d, 0x14)])
    (hgo : s.goes p.2 d = true) (hb : opBit d 0x22 0 = false)
    (hfree : (s.begun p.2 d).2.streamHeld (s.begun p.2 d).1 = false)
    (hmode : modeFits p.2 (s.fld (strmBase (returnCtx d)) Strm.mode) = true)
    (hstep : s.fld (strmBase (returnCtx d)) Strm.compressStep ≠ opd d 0x24 4) :
    exec p.1 s = .next ((s.begun p.2 d).2.finish (s.begun p.2 d).1 ⟨0x23, 0, 0, none⟩) := by
  have hbeg := s.begins p.2 d hctx
  have hdesc := hbeg.desc_eq
  have hstrm (f : Fld) (hf : f.off + f.len ≤ 256) : (s.begun p.2 d).2.fld (strmBase (opBits d 0x20 2 13 0)) f =
    s.fld (strmBase (returnCtx d)) f := hbeg.tables.strm (returnCtx_lt d) hf
  rw [exec_sendRole hp hgo hctx hb]
  refine congrArg _ (startSendRole_otherStep hfree (hbeg.cleanTables.trans hclean) ?_ ?_)
  · rw [hbeg.op_eq, hdesc, hstrm Strm.mode (by decide)]
    exact hmode
  · rw [hdesc, hstrm Strm.compressStep (by decide)]
    exact hstep

/-- A send role that passes its checks takes its context's one pack (R177). -/
theorem exec_sendRole_takes {p : Instr × Nat} {k : Pack} {g : Nat}
    (hp : p ∈ [(Instr.accum d, 0x13), (Instr.accumSparse d, 0x14)]) (hgo : s.goes p.2 d = true)
    (hb : opBit d 0x22 0 = false) (hfree : (s.begun p.2 d).2.streamHeld (s.begun p.2 d).1 = false)
    (hmode : modeFits p.2 (s.fld (strmBase (returnCtx d)) Strm.mode) = true)
    (hstep : s.fld (strmBase (returnCtx d)) Strm.compressStep = opd d 0x24 4)
    (hg : s.fld (strmBase (returnCtx d)) Strm.group = g)
    (hgroup : s.groupFits g = true ∧ s.membersOk g = true ∧ s.membersPoisoned g = false ∧
      s.levelOneMember g = false ∧ s.endedOwners g = [])
    (hk : k ∈ s.q.packs) (hkctx : k.ctx = returnCtx d) (hkstep : k.step = opd d 0x24 4) (htaken : k.taken = false)
    (hwork : k.skip = true ∨ k.spans ≠ []) (honly : ∀ x ∈ s.q.packs, x.ctx = returnCtx d → x = k) :
    ∃ t, exec p.1 s = .next t ∧ t.allTaken (returnCtx d) := by
  have hbeg := s.begins p.2 d hctx
  have hdesc := hbeg.desc_eq
  have hstrm (f : Fld) (hf : f.off + f.len ≤ 256) : (s.begun p.2 d).2.fld (strmBase (opBits d 0x20 2 13 0)) f =
    s.fld (strmBase (returnCtx d)) f := hbeg.tables.strm (returnCtx_lt d) hf
  have hlt : g < 2 ^ 12 := hg ▸ s.fld_lt _ Strm.group
  have hbegun := startSendRole_takes (k := k) hfree (hbeg.cleanTables.trans hclean)
  simp only [hdesc, hbeg.op_eq, hbeg.packs, hstrm Strm.mode (by decide), hstrm Strm.compressStep (by decide),
    hstrm Strm.group (by decide), hg, hbeg.tables.groupFits hlt, hbeg.tables.membersOk hbeg.mem hlt,
    hbeg.tables.membersPoisoned hlt hbeg.memPoison, hbeg.tables.levelOneMember hbeg.mem hlt,
    hbeg.tables.endedOwners hbeg.mem hlt] at hbegun
  exact ⟨_, exec_sendRole hp hgo hctx hb, hbegun hmode hstep hgroup hk hkctx hkstep htaken hwork honly⟩

end

/-! ### RESIDUAL_RETURN -/

/-- A return that takes entries out: it completes with their count, and one that frees them counts them in DROP_CNT
(R190). -/
def State.returnsAs (s : State) (d : Desc) (n : Nat) (q : QState) : Prop :=
  ∃ (v : State) (st : Nat),
    exec (.residualReturn d) s = .next (v.finish (s.begun 0x22 d).1 ⟨st, n, 0, none⟩) ∧ v.q = q ∧
    v = { (s.begun 0x22 d).2 with
      mem := v.mem, memPoison := v.memPoison, regs := v.regs, irqOut := v.irqOut, piers := v.piers
      free := v.free, ctx := v.ctx, q := v.q } ∧
    (opBit d 0x22 1 = true ∨ s.fld (strmBase (returnCtx d)) Strm.resFmt = 0 →
      st = 0 ∧ v = { (s.begun 0x22 d).2 with ctx := v.ctx, q := v.q } ∧
      v.fld (grpBase (s.fld (strmBase (returnCtx d)) Strm.group)) Grp.dropCnt =
        min (s.fld (grpBase (s.fld (strmBase (returnCtx d)) Strm.group)) Grp.dropCnt + n) 0xFFFFFFFF)

variable (hgo : s.goes 0x22 d = true)
include hgo

theorem exec_residualReturn_waits (hd : opBit d 0x22 1 = false) (hp : s.freePiers = []) :
    exec (.residualReturn d) s = .next (s.begun 0x22 d).2 := by
  have hbeg := s.begins 0x22 d hctx
  rw [exec_residualReturn_goes hgo, startResidualReturn_waits (by rw [hbeg.desc_eq]; exact hd)
    (hbeg.freePiers.trans hp)]

/-- Returns in turn from the queue state that RESIDUAL_RETURN leaves. -/
theorem returnsAs_of_returnEach {α : Type} {ret : State → α → Returned × State} {n : α → Nat} {xs : List α}
    {q : QState} (hcount : ∀ s x, (ret s x).1.count = n x) (hread : ∀ (s : State) x, s.readsBack (ret s x).2)
    (hfrees : ∀ (w t : State) g k, w.Drops g k t → w.fld (strmBase (returnCtx d)) Strm.group = g →
      (opBit d 0x22 1 = true ∨ w.fld (strmBase (returnCtx d)) Strm.resFmt = 0) → ∀ x ∈ xs,
      ret t x = (⟨n x, n x, []⟩, t.bumpFld (grpBase g) Grp.dropCnt (n x)))
    (hrun : startResidualReturn (s.begun 0x22 d).1 (s.begun 0x22 d).2 =
      State.returned (returnEach ret xs (⟨0, 0, []⟩, { (s.begun 0x22 d).2 with q := q })) (s.begun 0x22 d).1) :
    s.returnsAs d (xs.map n).sum q := by
  have hbeg := s.begins 0x22 d hctx
  have hstrm (f : Fld) (hf : f.off + f.len ≤ 256) :
      ({ (s.begun 0x22 d).2 with q := q } : State).fld (strmBase (returnCtx d)) f = s.fld (strmBase (returnCtx d)) f :=
    (State.fld_congr (by rfl) _ f).trans (hbeg.tables.strm (returnCtx_lt d) hf)
  have hgrp := hbeg.tables.grp (g := s.fld (strmBase (returnCtx d)) Strm.group) (f := Grp.dropCnt)
    (s.fld_lt _ Strm.group) (by decide)
  obtain ⟨v, st, hexec, hq, hframe, hdrop⟩ := returned_returnEach (u := (s.begun 0x22 d).2)
    (w := { (s.begun 0x22 d).2 with q := q }) (g := s.fld (strmBase (returnCtx d)) Strm.group) (xs := xs)
    (frees := opBit d 0x22 1 = true ∨ s.fld (strmBase (returnCtx d)) Strm.resFmt = 0) (s.begun 0x22 d).1
    hcount hread rfl hbeg.wf fun hf t k hd => hfrees _ t _ k hd (hstrm Strm.group (by decide))
      (hf.imp_right (hstrm Strm.resFmt (by decide)).trans)
  refine ⟨v, st, ?_, hq, hframe, fun hf => ?_⟩
  · rw [exec_residualReturn_goes hgo, hrun, hexec]
  · obtain ⟨hst, hfreed, hcnt⟩ := hdrop hf
    exact ⟨hst, hfreed, by rw [hcnt, hgrp]⟩

variable (hclean : s.cleanTables = true) (hfree : (s.begun 0x22 d).2.streamHeld (s.begun 0x22 d).1 = false)
  (hworks : opBit d 0x22 1 = true ∨ s.freePiers ≠ [])
include hclean hfree hworks

/-- RESIDUAL_RETURN of retained spans (R190). -/
theorem exec_residualReturn_retained (hb : opBit d 0x22 0 = false) :
    (s.q.retained.filter (returnsSpan d) = [] →
      exec (.residualReturn d) s = .next ((s.begun 0x22 d).2.finish (s.begun 0x22 d).1 ⟨0x23, 0, 0, none⟩)) ∧
    (s.q.retained.filter (returnsSpan d) ≠ [] →
      s.returnsAs d ((s.q.retained.filter (returnsSpan d)).map fun x => blockEntries x.blocks).sum
        { (s.begun 0x22 d).2.q with retained := s.q.retained.filter fun x => !returnsSpan d x }) := by
  have hbeg := s.begins 0x22 d hctx
  have hrun := startResidualReturn_retained (l := (s.begun 0x22 d).1) hfree (hbeg.cleanTables.trans hclean)
  have hempty := startResidualReturn_noSpan (l := (s.begun 0x22 d).1) hfree (hbeg.cleanTables.trans hclean)
  simp only [hbeg.desc_eq, hbeg.freePiers, hbeg.retained] at hrun hempty
  constructor
  · intro hnone
    rw [exec_residualReturn_goes hgo, hempty hworks hb hnone]
    rfl
  · intro hsome
    have hstart := hrun hworks hb
    rw [if_neg (by simpa using hsome)] at hstart
    refine returnsAs_of_returnEach hctx hgo (fun t x => ?_) (fun t x => ?_) (fun w t g k hd hg hf x hx => ?_)
      hstart
    · exact t.returnBlocks_count _ _ _ _ _ _ _
    · exact t.readsBack_returnBlocks _ _ _ _ _ _ _
    · have hmine := (List.mem_filter.mp hx).2
      simp only [returnsSpan, Bool.and_eq_true, decide_eq_true_eq] at hmine
      obtain ⟨⟨hxctx, -, -⟩, -⟩ := hmine
      unfold State.returnSpan
      rw [hxctx]
      exact hd.returnBlocks (returnCtx_lt d) hg hf _ _ _ _ _

/-- RESIDUAL_RETURN of held-back blocks (R190). -/
theorem exec_residualReturn_held (hb : opBit d 0x22 0 = true) :
    let hs := s.q.held.filter (returnsHeld d)
    ((∀ h ∈ hs, (heldPart d h).1 = []) →
      exec (.residualReturn d) s = .next ((s.begun 0x22 d).2.finish (s.begun 0x22 d).1 ⟨0x23, 0, 0, none⟩)) ∧
    ((∃ h ∈ hs, (heldPart d h).1 ≠ []) →
      s.returnsAs d (hs.map fun h => blockEntries (heldPart d h).1).sum
        { (s.begun 0x22 d).2.q with held := (s.q.held.filter fun h => !returnsHeld d h) ++
            (hs.map fun h => (heldPart d h).2).filter fun h => !h.blocks.isEmpty }) := by
  have hbeg := s.begins 0x22 d hctx
  have hrun := startResidualReturn_held (l := (s.begun 0x22 d).1) hfree (hbeg.cleanTables.trans hclean)
  simp only [hbeg.desc_eq, hbeg.freePiers, hbeg.held] at hrun
  have hstart := hrun hworks hb
  constructor
  · intro hnone
    rw [exec_residualReturn_goes hgo, hstart, if_pos (List.all_eq_true.mpr fun h hh => List.isEmpty_iff.mpr (hnone h hh))]
    rfl
  · intro hsome
    obtain ⟨h, hh, hne⟩ := hsome
    rw [if_neg fun hall => hne (List.isEmpty_iff.mp (List.all_eq_true.mp hall h hh))] at hstart
    refine returnsAs_of_returnEach hctx hgo (fun t x => ?_) (fun t x => ?_) (fun w t g k hd hg hf x hx => ?_)
      hstart
    · exact t.returnBlocks_count _ _ _ _ _ _ _
    · exact t.readsBack_returnBlocks _ _ _ _ _ _ _
    · exact hd.returnBlocks (returnCtx_lt d) hg hf _ _ _ _ _

end

/-- Settles O35: the send role by what keeps the packs' marks, RESIDUAL_RETURN by its returns in turn, and the room in
the retained share by the one owner's turn. -/
theorem sendRolesTakeAndReturnTheirSpans : Obligations.SendRolesTakeAndReturnTheirSpans := by
  unfold Obligations.SendRolesTakeAndReturnTheirSpans
  intro s d hctx
  refine ⟨fun hclean p hp hgo hb hfree hmode => ⟨fun hstep => ?_, fun k hk hstep hfits hmembers hpoison hlevel hkctx
    hkstep htaken hwork honly hended => ?_⟩, fun hclean hgo hfree => ⟨fun hwaits => ?_, fun hworks hb => ?_,
    fun hworks hb => ?_⟩, fun l r o x hup hlive hphase howners hheld hx hroom => ?_⟩
  · exact exec_sendRole_otherStep hctx hclean hp hgo hb hfree hmode hstep
  · exact exec_sendRole_takes hctx hclean hp hgo hb hfree hmode hstep rfl
      ⟨hfits, hmembers, hpoison, hlevel, hended⟩ hk hkctx hkstep htaken hwork honly
  · rw [not_or, Bool.not_eq_true, not_not] at hwaits
    exact exec_residualReturn_waits hctx hgo hwaits.1 hwaits.2
  · exact exec_residualReturn_retained hctx hgo hclean hfree hworks hb
  · have hheld := exec_residualReturn_held hctx hgo hclean hfree hworks hb
    dsimp only
    rw [List.map_map, List.map_map]
    refine ⟨fun hnone => hheld.1 fun h hh => hnone _ (List.mem_map_of_mem hh), fun hsome => hheld.2 ?_⟩
    obtain ⟨y, hy, hne⟩ := hsome
    obtain ⟨h, hh, rfl⟩ := List.mem_map.mp hy
    exact ⟨h, hh, hne⟩
  · exact exec_retainedRoom_single hup hlive hphase howners hheld hx hroom

end Sys2Proof.Machine
end

section
/-! The seed registers of AK_RNG (R60, R61, R63): staging, COMMIT, the seed that a dispatch takes, and the test
evaluation. -/

namespace Sys2Proof.Machine

/-! ### The active seed -/

/-- The seed is the two active words' alone: an update that leaves them leaves it (R61). -/
theorem State.seed_of_regsBut {s t : State} {l : List Nat} (h : s.regsBut t l) (hlo : R.rngActiveLo ∉ l)
    (hhi : R.rngActiveHi ∉ l) : t.seed = s.seed := by
  rw [State.seed, State.seed, h _ hlo, h _ hhi]

/-- A change of register words alone leaves every descriptor, and the seed it took at dispatch. -/
theorem State.q_of_onlyRegs {s t : State} (h : s.onlyRegs t) : t.q = s.q := by
  unfold State.onlyRegs at h
  rw [h]

theorem State.pageReady_of_onlyRegs {s t : State} (h : s.onlyRegs t) (page : Nat) :
    t.pageReady page = s.pageReady page := by
  unfold State.onlyRegs at h
  rw [h]
  rfl

/-- R61: a descriptor becomes outstanding with the seed active at its dispatch. -/
theorem State.seed_dispatch (s : State) (w : Waiting) : (s.dispatch w).1.seed = s.seed := rfl

/-! ### The staged words -/

/-- Where the two staged words stand: aligned words of AK_RNG past the header, with no action of their own. -/
theorem seedRegs_place : ∀ a ∈ [R.rngSeedLo, R.rngSeedHi], (BitVec.ofNat 24 a).toNat = a ∧ a % 4 = 0 ∧ a / 4096 = 4 ∧
    0x40 ≤ a % 4096 ∧ ownRow 4 (a % 4096) = false ∧ a ≠ R.pwrThermLimits ∧ R.rngActiveLo ≠ a ∧ R.rngActiveHi ≠ a := by
  decide

/-- R63: software reads and writes all bits of a staged word, until the page is locked. -/
theorem seedRegs_row : ∀ a ∈ [R.rngSeedLo, R.rngSeedHi],
    regRow a = some ⟨a % 4096, 1, 4, 0, 0xFFFFFFFF, 0, 0, 0⟩ := by decide

theorem State.readPlain_seedRegs (s : State) {a : Nat} (ha : a ∈ [R.rngSeedLo, R.rngSeedHi]) :
    s.readPlain a = s.reg a := by
  have hall : s.reg a &&& 0xFFFFFFFF = s.reg a := Nat.and_two_pow_sub_one_of_lt_two_pow (s.reg_lt a)
  rw [State.readPlain, seedRegs_row a ha]
  simp [hall]

/-- With nothing latched, a staged word reads as it is stored (R61, R15). -/
theorem State.readReg_seedRegs (s : State) {a : Nat} (ha : a ∈ [R.rngSeedLo, R.rngSeedHi]) (hl : s.latch = []) :
    (s.readReg a).1 = s.reg a := by
  have hplain := s.readPlain_seedRegs ha
  rcases List.mem_pair.mp ha with rfl | rfl
  · rw [s.readReg_lo (by decide)]
    exact hplain
  · rw [s.readReg_live (by decide) (by simp [hl])]
    exact hplain

/-- While the page is not locked a staged word takes the whole written word (R61, R373). -/
theorem State.reg_writePlain_seedRegs (s : State) {a : Nat} (v : Word) (ha : a ∈ [R.rngSeedLo, R.rngSeedHi])
    (hl : s.locked 4 = false) : (s.writePlain a v).reg a = v.toNat := by
  obtain ⟨-, -, hpage, -⟩ := seedRegs_place a ha
  have hw : s.writable a = 2 ^ 32 - 1 := by rw [State.writable_of_row (seedRegs_row a ha), hpage, hl]; simp
  have hall : v.toNat &&& 0xFFFFFFFF = v.toNat := Nat.and_two_pow_sub_one_of_lt_two_pow (n := 32) v.isLt
  rw [State.reg_writePlain (seedRegs_row a ha), hw]
  simp [hall]

theorem exec_registerWrite_seedRegs (s : State) {a : Nat} (v : Word) (ha : a ∈ [R.rngSeedLo, R.rngSeedHi])
    (hr : s.pageReady 4 = true) : exec (.registerWrite (BitVec.ofNat 24 a) v) s = .next (s.writePlain a v) := by
  obtain ⟨haddr, h4, hpage, hoff, hown, hlimits, -⟩ := seedRegs_place a ha
  have hkey : ∀ i, i < 8 → a ≠ R.secKey i := fun i _ => by rw [R.secKey, regAddr]; omega
  rw [exec_registerWrite_plain s v (by rwa [haddr]) (by rw [haddr, hpage]; decide) (by rwa [haddr])
    (by rwa [haddr, hpage]) (by rwa [haddr, hpage]) (by rwa [haddr]) (by rwa [haddr])
    (by rw [haddr, hpage]; omega), haddr]

/-- R61: a read of a staged word returns what is staged. -/
theorem exec_loRead_seedRegs (s : State) {a : Nat} (ha : a ∈ [R.rngSeedLo, R.rngSeedHi]) (hr : s.pageReady 4 = true)
    (hl : s.latch = []) : ∃ u, exec (.loRead ⟨BitVec.ofNat 24 a, 0xF⟩) s = .next u ∧
      u.lastRead.data = BitVec.ofNat 32 (s.reg a) := by
  obtain ⟨haddr, h4, hpage, -⟩ := seedRegs_place a ha
  have hmask : byteMask 0xF = BitVec.allOnes 32 := by decide
  refine ⟨_, exec_loRead_regPage s 0xF (by rwa [haddr]) (by rw [haddr, hpage]; decide) (by rwa [haddr, hpage]), ?_⟩
  rw [haddr, s.readReg_seedRegs ha hl, hmask, BitVec.and_allOnes]

/-! ### COMMIT and the test evaluation -/

theorem exec_rngCtrlCommit_ready {s : State} (v : Word) (hr : s.pageReady 4 = true) :
    exec (.rngCtrlCommit v) s = .next (rngControl v s) := by
  rw [exec_rngCtrlCommit, execRngCtrlCommit, State.atPage, if_pos hr]

theorem exec_rngTest_ready {s : State} (v : Word) (hr : s.pageReady 4 = true) :
    exec (.rngTest v) s = .next (rngTest v s) := by
  rw [exec_rngTest, execRngTest, State.atPage, if_pos hr]

theorem rngControl_frame (v : Word) (s : State) :
    s.onlyRegs (rngControl v s) ∧ s.regsBut (rngControl v s) [R.rngActiveLo, R.rngActiveHi] := by
  unfold rngControl
  split
  · exact ⟨rfl, State.regsBut_trans (s.regsBut_setReg _ (by simp)) (State.regsBut_setReg _ _ (by simp))⟩
  · exact ⟨rfl, fun _ _ => rfl⟩

/-- R61: COMMIT moves both staged words into the active ones at once. -/
theorem seed_rngControl (v : Word) (s : State) : (rngControl v s).seed =
    if v.getLsbD 0 then BitVec.ofNat 64 (s.reg R.rngSeedLo + s.reg R.rngSeedHi * 2 ^ 32) else s.seed := by
  unfold rngControl
  split
  · have hne : R.rngActiveHi ≠ R.rngActiveLo := by decide
    rw [State.seed, State.reg_setReg_other _ _ hne, State.reg_setReg_same, State.reg_setReg_same,
      Nat.mod_eq_of_lt (s.reg_lt _), Nat.mod_eq_of_lt (s.reg_lt _)]
  · rfl

theorem rngTest_frame (v : Word) (s : State) :
    s.onlyRegs (rngTest v s) ∧ s.regsBut (rngTest v s) [R.rngTestIndexHi, R.rngTestOut] :=
  ⟨rfl, State.regsBut_trans (s.regsBut_setReg _ (by simp)) (State.regsBut_setReg _ _ (by simp))⟩

/-- Eight bits of the index stand in the high word (R63). -/
theorem reg_setReg_testIndexHi (v : Word) (s : State) :
    (s.setReg R.rngTestIndexHi (v.toNat % 256)).reg R.rngTestIndexHi = v.toNat % 256 := by
  rw [State.reg_setReg_same]
  omega

theorem reg_rngTest_indexHi (v : Word) (s : State) : (rngTest v s).reg R.rngTestIndexHi = v.toNat % 256 := by
  rw [rngTest, State.reg_setReg_other _ _ (by decide), reg_setReg_testIndexHi]

/-- R63, R60: the test evaluates the Trestle under the active seed, with the index that the write completes. -/
theorem reg_rngTest_out (v : Word) (s : State) : (rngTest v s).reg R.rngTestOut =
    (trestle s.seed (BitVec.ofNat 32 (s.reg R.rngTestStep)) (BitVec.ofNat 24 (s.reg R.rngTestStream))
      (BitVec.ofNat 40 (s.reg R.rngTestIndexLo + v.toNat % 256 * 2 ^ 32))).toNat := by
  have hbut := s.regsBut_setReg (v.toNat % 256) (List.mem_singleton_self R.rngTestIndexHi)
  rw [rngTest]
  rw [State.reg_setReg_same, Nat.mod_eq_of_lt (BitVec.isLt _), State.seed_of_regsBut hbut (by decide) (by decide),
    reg_setReg_testIndexHi, hbut R.rngTestStep (by decide), hbut R.rngTestStream (by decide),
    hbut R.rngTestIndexLo (by decide)]

/-- Settles O19: the staged words take the plain write, COMMIT copies them over the active ones, which alone make the
seed, and the test reads the seed and its own registers. -/
theorem seedCommitTakesTheStagedSeed : Obligations.SeedCommitTakesTheStagedSeed := by
  unfold Obligations.SeedCommitTakesTheStagedSeed
  refine ⟨fun s v hr => ⟨fun a ha => ?staged, ?commit⟩, fun s v hr => ?test⟩
  case staged =>
    obtain ⟨-, -, -, -, -, -, hlo, hhi⟩ := seedRegs_place a ha
    obtain ⟨honly, hbut⟩ := s.writePlain_frame a v
    have hready : (s.writePlain a v).pageReady 4 = true := (State.pageReady_of_onlyRegs honly 4).trans hr
    exact ⟨_, exec_registerWrite_seedRegs s v ha hr,
      State.seed_of_regsBut hbut (by simpa using hlo) (by simpa using hhi), s.reg_writePlain_seedRegs v ha,
      State.q_of_onlyRegs honly, exec_loRead_seedRegs _ ha hready⟩
  case commit =>
    obtain ⟨honly, hbut⟩ := rngControl_frame v s
    exact ⟨_, exec_rngCtrlCommit_ready v hr, honly, hbut, seed_rngControl v s,
      congrArg QState.live (State.q_of_onlyRegs honly), State.seed_dispatch _⟩
  case test =>
    obtain ⟨honly, hbut⟩ := rngTest_frame v s
    exact ⟨_, exec_rngTest_ready v hr, honly, hbut, reg_rngTest_indexHi v s, reg_rngTest_out v s⟩

end Sys2Proof.Machine
end

section
/-! What a computation on the Piers begins with and may count: a descriptor dispatched over any machine, the pages whose
registers differ, and the Piers that take the work (R73, R231). -/

namespace Sys2Proof.Machine

/-! ### A dispatched descriptor -/

/-- A dispatched descriptor's command begins over host memory as it was, whatever stands in the context tables. -/
theorem State.begun_memory (s : State) (op : Nat) (d : Desc) :
    (s.begun op d).1.desc = d ∧ (s.begun op d).2.mem = s.mem ∧ (s.begun op d).2.memPoison = s.memPoison := by
  obtain ⟨-, hdesc, w, n, henter⟩ := s.enter_spec op d
  refine ⟨hdesc, ?_, ?_⟩ <;> unfold State.begun State.dispatch <;> dsimp only <;> split <;> simp [henter]

/-! ### The pages whose registers differ -/

section
variable {s t u : State} {p : Nat → Bool}

theorem State.regsIn_trans (h : s.regsIn t p) (h' : t.regsIn u p) : s.regsIn u p :=
  fun a ha => (h' a ha).trans (h a ha)

theorem State.regsIn_of_regs (h : t.regs = s.regs) : s.regsIn t p := fun a _ => by rw [State.reg, State.reg, h]

theorem State.regsIn_of_regsBut {l : List Nat} (h : s.regsBut t l) (hl : ∀ a ∈ l, p (a / 4096) = true) :
    s.regsIn t p := fun a ha => h a fun hm => by simp [hl a hm] at ha

theorem State.regsIn_setReg (v : Nat) {a : Nat} (h : p (a / 4096) = true) : s.regsIn (s.setReg a v) p :=
  State.regsIn_of_regsBut (s.regsBut_setReg v (List.mem_singleton_self a)) (by simpa using h)

theorem State.regsIn_bump (n : Nat) {a : Nat} (h : p (a / 4096) = true) : s.regsIn (s.bump a n) p :=
  State.regsIn_of_regsBut (s.regsBut_bump n (List.mem_singleton_self a)) (by simpa using h)

theorem State.regsIn_bump64 (n : Nat) {a : Nat} (h : p (a / 4096) = true) (h' : p ((a + 4) / 4096) = true) :
    s.regsIn (s.bump64 a n) p := fun b hb =>
  s.reg_bump64_other n (fun e => by simp [← e, h] at hb) (fun e => by simp [← e, h'] at hb)

theorem State.regsIn_foldl {α : Type} {f : State → α → State} (l : List α) (s : State)
    (h : ∀ (s : State) (a : α), a ∈ l → s.regsIn (f s a) p) : s.regsIn (l.foldl f s) p := by
  induction l generalizing s with
  | nil => exact fun _ _ => rfl
  | cons a l ih =>
    exact State.regsIn_trans (h s a List.mem_cons_self) (ih _ fun s x hx => h s x (List.mem_cons_of_mem a hx))

end

/-- A register of a Pier's page lies in it. -/
theorem pierPage_regAddr {n off : Nat} (hn : n < 32) (ho : off < 4096) :
    pierPage (regAddr (0x10 + n) off / 4096) = true := by
  rw [regAddr, pierPage, decide_eq_true_eq]
  omega

/-! ### The Piers that take the work -/

theorem State.freePiers_lt (s : State) : ∀ n ∈ s.freePiers, n < 32 := fun _ h =>
  List.mem_range.mp (List.mem_of_mem_filter h)

/-- The Pier that takes a chunk or block is one of the 32 (R73). -/
theorem State.takePier_lt (s : State) : s.takePier.1 < 32 := by
  unfold State.takePier nth
  dsimp only
  generalize Config.pickPier s.free % max s.freePiers.length 1 = i
  cases hn : s.freePiers[i]? with
  | none => simp
  | some n => exact s.freePiers_lt n (List.mem_of_getElem? hn)

end Sys2Proof.Machine
end

section
/-! Clears (R94, R120, R167, R202, R225, R276, R309, R365): the registers that each zeroes, and the lines that an
Abutment writes back. -/

namespace Sys2Proof.Machine

/-! ### Registers zeroed -/

/-- Zeroed by a first clear or by a second one. -/
theorem ite_zero_or (p q : Bool) (n : Nat) : (if q then 0 else if p then 0 else n) = if p || q then 0 else n := by
  cases p <;> cases q <;> rfl

section
variable {s t u : State} {p q : Nat → Bool}

theorem State.cleared_trans (h : s.cleared t p) (h' : t.cleared u q) : s.cleared u fun a => p a || q a := by
  obtain ⟨ht, hp⟩ := h
  obtain ⟨hu, hq⟩ := h'
  exact ⟨by rw [State.onlyRegs, hu, ht], fun a => by rw [hq, hp]; exact ite_zero_or (p a) (q a) _⟩

theorem State.cleared_congr (h : s.cleared t p) (hpq : ∀ a, p a = q a) : s.cleared t q :=
  ⟨h.1, fun a => by rw [h.2, hpq]⟩

/-- A clear that its bit commands. -/
theorem State.cleared_cond (b : Bool) (h : s.cleared t p) : s.cleared (if b then t else s) fun a => b && p a := by
  cases b with
  | true => exact h
  | false => exact ⟨rfl, fun _ => rfl⟩

theorem State.cleared_setReg (s : State) (a : Nat) : s.cleared (s.setReg a 0) (· == a) :=
  ⟨rfl, fun b => by simp [State.reg_setReg]⟩

theorem State.cleared_foldl {α : Type} {f : State → α → State} {r : α → Nat → Bool} (l : List α) (s : State)
    (h : ∀ (s : State), ∀ x ∈ l, s.cleared (f s x) (r x)) :
    s.cleared (l.foldl f s) fun a => l.any fun x => r x a := by
  induction l generalizing s with
  | nil => exact ⟨rfl, fun _ => rfl⟩
  | cons x l ih =>
    exact State.cleared_congr (State.cleared_trans (h s x List.mem_cons_self)
      (ih _ fun s y hy => h s y (List.mem_cons_of_mem x hy))) fun a => rfl

end

/-- The words of a run of registers are those that its walk in words of 4 bytes meets. -/
theorem any_words_eq_inRegs {page first last : Nat} (hf : first % 4 = 0) (hl : last % 4 = 0) (h : first ≤ last)
    (a : Nat) :
    ((List.range ((last - first) / 4 + 1)).any fun i => a == regAddr page (first + 4 * i)) =
      inRegs page first last a := by
  rw [Bool.eq_iff_iff, inRegs, decide_eq_true_eq]
  simp only [List.any_eq_true, List.mem_range, beq_iff_eq, regAddr]
  constructor
  · rintro ⟨i, hi, rfl⟩
    omega
  · intro hin
    exact ⟨(a - (page * 4096 + first)) / 4, by omega, by omega⟩

theorem State.cleared_zeroRegs (s : State) {page first last : Nat} (hf : first % 4 = 0) (hl : last % 4 = 0)
    (h : first ≤ last) : s.cleared (s.zeroRegs page first last) (inRegs page first last) :=
  State.cleared_congr (State.cleared_foldl _ s fun s _ _ => s.cleared_setReg _) (any_words_eq_inRegs hf hl h)

theorem State.atPage_ready {s : State} {page : Nat} (f : State → State) (h : s.pageReady page = true) :
    s.atPage page f = f s := if_pos h

theorem State.atRegPage_port {s : State} {page off : Nat} (v : Word) (f : State → State)
    (hp : 0x40 ≤ page ∧ page ≤ 0x57)
    (h : s.pageReady page = true) : s.atRegPage page off v f = f s := by
  rw [State.atRegPage, pageKind_port hp, State.atPage_ready f h]

/-! ### The clears of each page -/

/-- R94, R120, R167: the three clears of a Pier. -/
theorem pierClears_clear {s : State} (v : Word) (n : BitVec 5) (h : s.pageReady (0x10 + n.toNat) = true) :
    (∃ t, exec (.pierSelClear n v) s = .next t ∧
      s.cleared t fun a => v.getLsbD 0 && inRegs (0x10 + n.toNat) 0x40 0x60 a) ∧
    (∃ t, exec (.pierCmpClear n v) s = .next t ∧
      s.cleared t fun a => v.getLsbD 0 && (inRegs (0x10 + n.toNat) 0x80 0x94 a || a == R.pierFlush n.toNat)) ∧
    (∃ t, exec (.pierTblClear n v) s = .next t ∧
      s.cleared t fun a => v.getLsbD 0 && inRegs (0x10 + n.toNat) 0xC0 0xE8 a) := by
  refine ⟨⟨_, ?_, State.cleared_cond _ (s.cleared_zeroRegs (by decide) (by decide) (by decide))⟩,
    ⟨_, ?_, State.cleared_cond _ (State.cleared_trans (s.cleared_zeroRegs (by decide) (by decide) (by decide))
      (State.cleared_setReg _ _))⟩,
    ⟨_, ?_, State.cleared_cond _ (s.cleared_zeroRegs (by decide) (by decide) (by decide))⟩⟩
  · rw [exec_pierSelClear, execPierSelClear, State.atPage_ready _ h, pierSelClear]
  · rw [exec_pierCmpClear, execPierCmpClear, State.atPage_ready _ h, pierCmpClear]
  · rw [exec_pierTblClear, execPierTblClear, State.atPage_ready _ h, pierTblClear]

/-- R309, R399: the two clears of a port. -/
theorem portClears_clear {s : State} (v : Word) (p : BitVec 5) (hp : p.toNat < 24)
    (h : s.pageReady (0x40 + p.toNat) = true) :
    (∃ t, exec (.portClear p v) s = .next t ∧
      s.cleared t fun a => v.getLsbD 0 && inRegs (0x40 + p.toNat) 0x88 0xB4 a) ∧
    (∃ t, exec (.portTclear p v) s = .next t ∧
      s.cleared t fun a => v.getLsbD 0 && (inRegs (0x40 + p.toNat) 0x600 0x648 a ||
        (List.range 8).any fun l => inRegs (0x40 + p.toNat) (0x408 + 0x40 * l) (0x41C + 0x40 * l) a)) := by
  have hlanes : s.cleared ((List.range 8).foldl (fun (s : State) i =>
      s.zeroRegs (0x40 + p.toNat) (0x408 + 0x40 * i) (0x41C + 0x40 * i)) s) fun a =>
      (List.range 8).any fun l => inRegs (0x40 + p.toNat) (0x408 + 0x40 * l) (0x41C + 0x40 * l) a :=
    State.cleared_foldl _ s fun s i _ => s.cleared_zeroRegs (by omega) (by omega) (by omega)
  have hport := State.cleared_trans hlanes
    (State.cleared_zeroRegs _ (page := 0x40 + p.toNat) (first := 0x600) (last := 0x648)
      (by decide) (by decide) (by decide))
  refine ⟨⟨_, ?_, State.cleared_cond _ (s.cleared_zeroRegs (by decide) (by decide) (by decide))⟩,
    ⟨_, ?_, State.cleared_cond _ (State.cleared_congr hport fun a => Bool.or_comm _ _)⟩⟩
  · rw [exec_portClear, execPortClear, State.atRegPage_port v _ (by omega) h, portClear]
  · rw [exec_portTclear, execPortTclear, State.atRegPage_port v _ (by omega) h, portTclr]

/-- R311, R341, R404: a clear of one run of counters. -/
theorem pageClears_clear (s : State) (v : Word) :
    (s.pageReady 3 = true → ∃ t, exec (.timeClear v) s = .next t ∧
      s.cleared t fun a => v.getLsbD 0 && inRegs 3 0x74 0x80 a) ∧
    (s.pageReady 6 = true → ∃ t, exec (.snapClear v) s = .next t ∧
      s.cleared t fun a => v.getLsbD 0 && inRegs 6 0xB4 0xC4 a) ∧
    (s.pageReady 0x7C = true → ∃ t, exec (.testClear v) s = .next t ∧
      s.cleared t fun a => v.getLsbD 0 && inRegs 0x7C 0x54 0x5C a) := by
  refine ⟨fun h => ⟨_, ?_, State.cleared_cond _ (s.cleared_zeroRegs (by decide) (by decide) (by decide))⟩,
    fun h => ⟨_, ?_, State.cleared_cond _ (s.cleared_zeroRegs (by decide) (by decide) (by decide))⟩,
    fun h => ⟨_, ?_, State.cleared_cond _ (s.cleared_zeroRegs (by decide) (by decide) (by decide))⟩⟩
  · rw [exec_timeClear, execTimeClear, State.atPage_ready _ h, timeClear]
  · rw [exec_snapClear, execSnapClear, State.atPage_ready _ h, snapClear]
  · rw [exec_testClear, execTestClear, State.atPage_ready _ h, testClear]

/-- R246: the queue manager's counters and the count of orphans. -/
theorem qmgrClear_clears {s : State} (v : Word) (h : s.pageReady 7 = true) : ∃ t, exec (.qmgrClear v) s = .next t ∧
    s.cleared t fun a => v.getLsbD 0 && (inRegs 7 0x6C 0x80 a || a == R.qmgrOrphanCnt) := by
  refine ⟨_, ?_, State.cleared_cond _ (State.cleared_trans
    (s.cleared_zeroRegs (by decide) (by decide) (by decide)) (State.cleared_setReg _ _))⟩
  rw [exec_qmgrClear, execQmgrClear, State.atPage_ready _ h, qmgrClearCounters]

/-- A log emptied: its words, its count and its head. -/
theorem State.cleared_log (s : State) {page first last : Nat} (cnt head : Nat) (hf : first % 4 = 0) (hl : last % 4 = 0)
    (h : first ≤ last) : s.cleared (((s.zeroRegs page first last).setReg cnt 0).setReg head 0)
      fun a => inRegs page first last a || a == cnt || a == head :=
  State.cleared_trans (State.cleared_trans (s.cleared_zeroRegs hf hl h)
    (State.cleared_setReg _ _)) (State.cleared_setReg _ _)

/-- R276: the transport's counters and its log, as the two bits say. -/
theorem rmaControl_clears (s : State) (v : Word) : s.cleared (rmaControl v s) fun a =>
    (v.getLsbD 0 && inRegs 0x70 0x70 0xA0 a) ||
      (v.getLsbD 1 && (inRegs 0x70 0x200 0x3FC a || a == R.rmaLogCnt || a == R.rmaLogHead)) :=
  State.cleared_trans (State.cleared_cond _ (s.cleared_zeroRegs (by decide) (by decide) (by decide)))
    (State.cleared_cond _ (State.cleared_log _ _ _ (by decide) (by decide) (by decide)))

/-- R166: the table page's log. -/
theorem clearTblLog_clears (s : State) (v : Word) : s.cleared (clearTblLog v s) fun a =>
    v.getLsbD 0 && (inRegs 5 0x200 0x3FC a || a == R.tblLogCnt || a == R.tblLogHead) :=
  State.cleared_cond _ (s.cleared_log _ _ (by decide) (by decide) (by decide))

/-- The power controller's page with the island's counters zeroed (R365). -/
def State.pwrCounters (s : State) : State :=
  let s := (s.zeroRegs 2 0x64 0x78).setReg R.pwrWdogCnt 0
  { s with pwr := { s.pwr with islands := s.pwr.islands.map fun (i : Island) => { i with vdips := 0, vrsts := 0 } } }

theorem State.pwrCounters_clear (s : State) (b : Bool) :
    let t := if b then s.pwrCounters else s
    s.onlyPwr t ∧ t.irqOut = s.irqOut ∧
    t.pwr = { s.pwr with islands := if b then
      (s.pwr.islands.map fun (i : Island) => { i with vdips := 0, vrsts := 0 }) else s.pwr.islands } ∧
    ∀ a, t.reg a = if b && (inRegs 2 0x64 0x78 a || a == R.pwrWdogCnt) then 0 else s.reg a := by
  cases b with
  | false => exact ⟨rfl, rfl, rfl, fun _ => rfl⟩
  | true =>
    obtain ⟨honly, hreg⟩ := State.cleared_trans (s.cleared_zeroRegs (page := 2) (first := 0x64) (last := 0x78)
      (by decide) (by decide) (by decide)) (State.cleared_setReg _ R.pwrWdogCnt)
    simp only [if_pos, State.pwrCounters]
    generalize (s.zeroRegs 2 0x64 0x78).setReg R.pwrWdogCnt 0 = c at honly hreg
    refine ⟨?_, ?_, ?_, fun a => hreg a⟩ <;> rw [honly]
    rfl

/-- R365: the power controller's counters, of its registers and of every island, and its log. -/
theorem pwrClear_clears (s : State) (v : Word) :
    s.onlyPwr (pwrClear v s) ∧ (pwrClear v s).irqOut = s.irqOut ∧
    (pwrClear v s).pwr = { s.pwr with islands := if v.getLsbD 0 then
      (s.pwr.islands.map fun (i : Island) => { i with vdips := 0, vrsts := 0 }) else s.pwr.islands } ∧
    ∀ a, (pwrClear v s).reg a = if (v.getLsbD 0 && (inRegs 2 0x64 0x78 a || a == R.pwrWdogCnt)) ||
      (v.getLsbD 1 && (inRegs 2 0x200 0x2FC a || a == R.pwrLogCnt || a == R.pwrLogHead)) then 0 else s.reg a := by
  obtain ⟨honly, hirq, hpwr, hreg⟩ := s.pwrCounters_clear (v.getLsbD 0)
  unfold pwrClear
  rw [← State.pwrCounters]
  generalize (if v.getLsbD 0 then s.pwrCounters else s) = c at honly hirq hpwr hreg ⊢
  obtain ⟨honly', hreg'⟩ := State.cleared_cond (v.getLsbD 1)
    (c.cleared_log (page := 2) (first := 0x200) (last := 0x2FC)
    R.pwrLogCnt R.pwrLogHead (by decide) (by decide) (by decide))
  dsimp only
  refine ⟨by rw [State.onlyPwr, honly', honly], by rw [honly']; exact hirq, by rw [honly']; exact hpwr, fun a => ?_⟩
  rw [hreg', hreg]
  exact ite_zero_or _ _ _

/-! ### The lines of an Abutment -/

theorem State.reg64_lt (s : State) (lo : Nat) : s.reg64 lo < 2 ^ 64 := by
  have h := s.reg_lt lo
  have h' := s.reg_lt (lo + 4)
  rw [State.reg64]
  omega

theorem State.reg64_mod (s : State) (lo : Nat) : (s.reg64 lo + 0) % 2 ^ 64 = s.reg64 lo := by
  rw [Nat.add_zero, Nat.mod_eq_of_lt (s.reg64_lt lo)]

theorem State.reg64_bump64 (s : State) (lo n : Nat) : (s.bump64 lo n).reg64 lo = (s.reg64 lo + n) % 2 ^ 64 := by
  unfold State.bump64
  split
  · next h => rw [h, s.reg64_mod]
  · dsimp only
    rw [State.reg64, State.reg_setReg_other _ _ (by omega), State.reg_setReg_same, State.reg_setReg_same, State.reg64]
    omega

theorem State.reg64_of_regsBut {s t : State} {l : List Nat} {lo : Nat} (h : s.regsBut t l) (h1 : lo ∉ l)
    (h2 : lo + 4 ∉ l) : t.reg64 lo = s.reg64 lo := by
  rw [State.reg64, State.reg64, h _ h1, h _ h2]

/-- Reading a line counts its poisoned words at its Abutment's page, and changes nothing else (R33, R34). -/
theorem State.cbRead_frame (s : State) (l : CbLine) :
    s.onlyRegs (s.cbRead l) ∧ s.regsBut (s.cbRead l) (errRegs (0x68 + abutOf (l.granule * 64))) := by
  unfold State.cbRead
  split
  · refine List.foldlRecOn (motive := fun t => s.onlyRegs t ∧ s.regsBut t _) (List.range 4) _
      ⟨rfl, fun _ _ => rfl⟩ fun t ⟨honly, hregs⟩ i _ =>
        ⟨?_, State.regsBut_trans hregs (t.countUe_regsBut _ _)⟩
    obtain ⟨r, h⟩ := t.countUe_effect (.coalesce (abutOf (l.granule * 64))) (l.granule * 4 + i)
    rw [State.onlyRegs, h, honly]
  · exact ⟨rfl, fun _ _ => rfl⟩

@[simp] theorem State.wrP_mem (s : State) (p : Bool) (a : Nat) (bs : Bytes) :
    (s.wrP p a bs).mem = s.mem.writeN a bs := by
  unfold State.wrP
  split <;> rfl

theorem State.wrP_effect (s : State) (p : Bool) (a : Nat) (bs : Bytes) :
    ∃ g, s.wrP p a bs = { s with mem := s.mem.writeN a bs, memPoison := g } := by
  unfold State.wrP
  split <;> exact ⟨_, rfl⟩

/-- What the lines written back may leave otherwise: bytes of host memory, its poison, and registers. -/
def State.writesBack (s t : State) : Prop := t = { s with mem := t.mem, memPoison := t.memPoison, regs := t.regs }

/-- A line written back (R202): a dirty one's data stand in memory and are counted at its Abutment. -/
theorem State.cbWriteBack_spec (s : State) (l : CbLine) :
    s.writesBack (s.cbWriteBack l) ∧
    (s.cbWriteBack l).mem = (if l.dirty then s.mem.writeN (l.granule * 64) l.data else s.mem) ∧
    (s.cbWriteBack l).reg64 (R.abutCbWbLo (abutOf (l.granule * 64))) =
      (s.reg64 (R.abutCbWbLo (abutOf (l.granule * 64))) + b2n l.dirty) % 2 ^ 64 := by
  unfold State.cbWriteBack
  cases l.dirty with
  | false => exact ⟨rfl, rfl, by rw [if_neg (by decide), b2n, if_neg (by decide), s.reg64_mod]⟩
  | true =>
    obtain ⟨honly, hregs⟩ := s.cbRead_frame l
    obtain ⟨g, hw⟩ := (s.cbRead l).wrP_effect l.poison (l.granule * 64) l.data
    obtain ⟨r, hb⟩ := ((s.cbRead l).wrP l.poison (l.granule * 64) l.data).bump64_effect
      (R.abutCbWbLo (abutOf (l.granule * 64))) 1
    have hmem : (s.cbRead l).mem = s.mem := by rw [honly]
    refine ⟨?_, ?_, ?_⟩
    · rw [State.writesBack, if_pos rfl, hb, hw, honly]
    · rw [if_pos rfl, if_pos rfl, State.bump64_mem, State.wrP_mem, hmem]
    · rw [if_pos rfl, State.reg64_bump64, hw, ← State.reg64_of_regsBut hregs ?_ ?_]
      · rfl
      all_goals simp [errRegs, R.abutCbWbLo, R.hdrErrCntCe, R.hdrErrCntUe, R.hdrErrFirst, R.hdrErrFirstInfo, regAddr]

/-- Lines of one Abutment written back: each dirty one is counted. -/
theorem State.writeBacks_count {k : Nat} (ls : List CbLine) (s : State)
    (hk : ∀ l ∈ ls, abutOf (l.granule * 64) = k) :
    s.writesBack (ls.foldl State.cbWriteBack s) ∧
    (ls.foldl State.cbWriteBack s).reg64 (R.abutCbWbLo k) =
      (s.reg64 (R.abutCbWbLo k) + (ls.filter (·.dirty)).length) % 2 ^ 64 := by
  induction ls generalizing s with
  | nil => exact ⟨rfl, by rw [List.filter_nil, List.length_nil, s.reg64_mod]; rfl⟩
  | cons l ls ih =>
    obtain ⟨hframe, -, hreg⟩ := s.cbWriteBack_spec l
    obtain ⟨hframe', hreg'⟩ := ih (s.cbWriteBack l) fun x hx => hk x (List.mem_cons_of_mem l hx)
    rw [hk l List.mem_cons_self] at hreg
    refine ⟨by rw [State.writesBack, List.foldl_cons, hframe', hframe], ?_⟩
    have hcount : ((l :: ls).filter (·.dirty)).length = b2n l.dirty + (ls.filter (·.dirty)).length := by
      rw [List.filter_cons]
      cases l.dirty with
      | false => exact (Nat.zero_add _).symm
      | true => exact Nat.add_comm _ 1
    rw [List.foldl_cons, hreg', hreg, hcount, Nat.mod_add_mod, Nat.add_assoc]

theorem State.writeBacks_wf (ls : List CbLine) (s : State) (h : s.mem.wf = true) :
    (ls.foldl State.cbWriteBack s).mem.wf = true :=
  List.foldlRecOn (motive := fun t : State => t.mem.wf = true) ls _ h fun t ht l _ => by
    rw [(t.cbWriteBack_spec l).2.1]
    split
    · exact Memory.wf_writeN _ _ ht
    · exact ht

/-- Lines of other granules written back leave the bytes of a granule. -/
theorem State.writeBacks_other {g : Nat} (ls : List CbLine) (s : State) (h : s.mem.wf = true)
    (hlen : ∀ l ∈ ls, l.data.length = 64) (hg : ∀ l ∈ ls, l.granule ≠ g) :
    (ls.foldl State.cbWriteBack s).rd (g * 64) 64 = s.rd (g * 64) 64 := by
  refine (List.foldlRecOn (motive := fun t : State => t.mem.wf = true ∧ t.rd (g * 64) 64 = s.rd (g * 64) 64) ls _
    ⟨h, rfl⟩ fun t ⟨ht, hrd⟩ l hl => ?_).2
  obtain ⟨-, hmem, -⟩ := t.cbWriteBack_spec l
  have hne := hg l hl
  have hlen := hlen l hl
  rw [State.rd, hmem]
  split
  · exact ⟨Memory.wf_writeN _ _ ht, (Memory.readN_writeN_other ht (by omega)).trans hrd⟩
  · exact ⟨ht, hrd⟩

/-- Lines of granules of their own written back: each dirty one's data stand in memory (R202). -/
theorem State.writeBacks_data (ls : List CbLine) (s : State) (h : s.mem.wf = true)
    (hlen : ∀ l ∈ ls, l.data.length = 64)
    (hnodup : (ls.map (·.granule)).Nodup) : ∀ l ∈ ls, l.dirty = true →
      (ls.foldl State.cbWriteBack s).rd (l.granule * 64) 64 = l.data := by
  induction ls generalizing s with
  | nil => nofun
  | cons x ls ih =>
    intro l hl hdirty
    obtain ⟨-, hmem, -⟩ := s.cbWriteBack_spec x
    obtain ⟨hx, hnodup⟩ := List.nodup_cons.mp hnodup
    have hwf : (s.cbWriteBack x).mem.wf = true := s.writeBacks_wf [x] h
    have htail : ∀ y ∈ ls, y.data.length = 64 := fun y hy => hlen y (List.mem_cons_of_mem x hy)
    rw [List.foldl_cons]
    rcases List.mem_cons.mp hl with rfl | hl
    · have hother : ∀ y ∈ ls, y.granule ≠ l.granule := fun y hy e => hx (List.mem_map.mpr ⟨y, hy, e⟩)
      rw [State.writeBacks_other ls _ hwf htail hother, State.rd, hmem, if_pos hdirty, ← hlen l List.mem_cons_self]
      exact Memory.readN_writeN _ _ h
    · exact ih _ hwf htail hnodup l hl hdirty

/-! ### ABUT_CTRL -/

/-- An Abutment's line. -/
def CbLine.of (k : Nat) (l : CbLine) : Bool := abutOf (l.granule * 64) == k

/-- R225: without CB_FLUSH, CLEAR zeroes the Abutment's counters. -/
theorem abutControl_clears (s : State) (k : BitVec 3) (v : Word) (h : v.getLsbD 1 = false) :
    s.cleared (abutControl k v s) fun a =>
      v.getLsbD 0 && (inRegs (0x68 + k.toNat) 0x50 0x88 a || a == R.abutFlush k.toNat) := by
  unfold abutControl
  rw [h]
  exact State.cleared_cond _ (State.cleared_trans (s.cleared_zeroRegs (by decide) (by decide) (by decide))
    (State.cleared_setReg _ _))

/-- R202: CB_FLUSH alone writes the Abutment's lines back and keeps them, clean. -/
theorem abutControl_flush (s : State) (k : BitVec 3) (v : Word) (h : v.getLsbD 1 = true) (h0 : v.getLsbD 0 = false) :
    abutControl k v s = { (s.cb.filter (CbLine.of k.toNat)).foldl State.cbWriteBack s with
      cb := s.cb.map fun l => if l.of k.toNat then { l with dirty := false } else l } := by
  have hcb : ((s.cb.filter (CbLine.of k.toNat)).foldl State.cbWriteBack s).cb = s.cb :=
    foldl_keeps State.cb _ _ s fun s l => by rw [(s.cbWriteBack_spec l).1]
  unfold abutControl
  rw [h, h0]
  exact congrArg (fun c => ({ (s.cb.filter (CbLine.of k.toNat)).foldl State.cbWriteBack s with
    cb := c.map fun l => if l.of k.toNat then { l with dirty := false } else l } : State)) hcb

/-- What CB_FLUSH leaves (R202, R225). -/
theorem abutControl_flush_effect (s : State) (k : BitVec 3) (v : Word) (h : v.getLsbD 1 = true)
    (h0 : v.getLsbD 0 = false) (hwf : s.mem.wf = true) :
    let t := abutControl k v s
    t = { s with mem := t.mem, memPoison := t.memPoison, regs := t.regs, cb := t.cb, free := t.free } ∧
    t.cb = (s.cb.map fun l => if l.of k.toNat then { l with dirty := false } else l) ∧
    t.reg64 (R.abutCbWbLo k.toNat) =
      (s.reg64 (R.abutCbWbLo k.toNat) + (s.cb.filter fun l => l.of k.toNat && l.dirty).length) % 2 ^ 64 ∧
    ((s.cb.map fun l => l.granule).Nodup → (∀ l ∈ s.cb, l.data.length = 64) →
      ∀ l ∈ s.cb, l.of k.toNat = true → l.dirty = true → l.poison = false →
        t.rd (l.granule * 64) 64 = l.data) := by
  obtain ⟨hframe, hcount⟩ := State.writeBacks_count (k := k.toNat) (s.cb.filter (CbLine.of k.toNat)) s fun l hl =>
    beq_iff_eq.mp (List.mem_filter.mp hl).2
  dsimp only
  rw [abutControl_flush s k v h h0]
  refine ⟨by rw [hframe], rfl, ?_, fun hnodup hlen l hl hmine hdirty _ => ?_⟩
  · refine hcount.trans ?_
    rw [List.filter_filter]
    simp only [Bool.and_comm]
  · refine State.writeBacks_data _ s hwf (fun x hx => hlen x (List.mem_of_mem_filter hx))
      (hnodup.sublist (List.filter_sublist.map _)) l (List.mem_filter.mpr ⟨hl, hmine⟩) hdirty

theorem exec_abutControl {s : State} {k : BitVec 3} {v : Word} (hr : s.pageReady (0x68 + k.toNat) = true) :
    ∀ c ∈ [Instr.abutClear k v, Instr.abutCbFlush k v], exec c s = .next (abutControl k v s) := by
  intro c hc
  simp only [List.mem_cons, List.not_mem_nil, or_false] at hc
  rcases hc with rfl | rfl
  · rw [exec_abutClear, execAbutClear, State.atPage_ready _ hr]
  · rw [exec_abutCbFlush, execAbutCbFlush, State.atPage_ready _ hr]

theorem exec_rmaControl {s : State} {v : Word} (hr : s.pageReady 0x70 = true) :
    ∀ c ∈ [Instr.rmaClear v, Instr.rmaLogClear v], exec c s = .next (rmaControl v s) := by
  intro c hc
  simp only [List.mem_cons, List.not_mem_nil, or_false] at hc
  rcases hc with rfl | rfl
  · rw [exec_rmaClear, execRmaClear, State.atPage_ready _ hr]
  · rw [exec_rmaLogClear, execRmaLogClear, State.atPage_ready _ hr]

theorem exec_pwrClears {s : State} {v : Word} (hr : s.pageReady 2 = true) :
    ∀ c ∈ [Instr.pwrClear v, Instr.pwrLogClear v], exec c s = .next (pwrClear v s) := by
  intro c hc
  simp only [List.mem_cons, List.not_mem_nil, or_false] at hc
  rcases hc with rfl | rfl
  · rw [exec_pwrClear, execPwrClear, State.atPage_ready _ hr]
  · rw [exec_pwrLogClear, execPwrLogClear, State.atPage_ready _ hr]

/-- Settles O6: each clear zeroes runs of register words one after another, and a flush writes lines of granules of their
own back. -/
theorem clearsZeroExactlyTheirCountersAndLogs : Obligations.ClearsZeroExactlyTheirCountersAndLogs := by
  unfold Obligations.ClearsZeroExactlyTheirCountersAndLogs
  refine ⟨fun s v => ⟨fun n => pierClears_clear v n, fun p => portClears_clear v p, ?pages⟩,
    fun s v => ⟨fun h c hc => ⟨_, exec_rmaControl h c hc, rmaControl_clears s v⟩,
      fun h => ⟨_, ?tbl, clearTblLog_clears s v⟩,
      fun h c hc => ⟨_, exec_pwrClears h c hc, pwrClear_clears s v⟩⟩,
    fun s k v h c hc => ⟨fun h1 => ⟨_, exec_abutControl h c hc, abutControl_clears s k v h1⟩, fun h1 h0 hwf =>
      ⟨_, exec_abutControl h c hc, abutControl_flush_effect s k v h1 h0 hwf⟩⟩⟩
  case pages =>
    obtain ⟨htime, hsnap, htest⟩ := pageClears_clear s v
    exact ⟨htime, hsnap, htest, fun h => qmgrClear_clears v h⟩
  case tbl => rw [exec_tblLogClear, execTblLogClear, State.atPage_ready _ h]

end Sys2Proof.Machine
end

section
/-! Ranks of a selection (R72, R74, R76, R77): the keys fit 31 bits, the sort ranks them, the first places are as many as
they are, and the shares of k add up to k. -/

namespace Sys2Proof.Machine

/-! ### Keys (R74) -/

theorem shiftLeft_lt_two_pow {m a b d : Nat} (h : m < 2 ^ a) (hab : a + d ≤ b) : m <<< d < 2 ^ b := by
  rw [Nat.shiftLeft_eq]
  calc m * 2 ^ d < 2 ^ a * 2 ^ d := Nat.mul_lt_mul_of_pos_right h (Nat.two_pow_pos d)
    _ = 2 ^ (a + d) := (Nat.pow_add 2 a d).symm
    _ ≤ 2 ^ b := Nat.pow_le_pow_right (by decide) hab

theorem shiftRight_lt_two_pow {m a b d : Nat} (h : m < 2 ^ a) (hab : a ≤ b + d) : m >>> d < 2 ^ b := by
  rw [Nat.shiftRight_eq_div_pow, Nat.div_lt_iff_lt_mul (Nat.two_pow_pos d), ← Nat.pow_add]
  exact Nat.lt_of_lt_of_le h (Nat.pow_le_pow_right (by decide) hab)

/-- The encoding of a magnitude in FP32 (R39). -/
theorem encodeF_fp32_magnitude {m : Nat} (hm : m ≠ 0) (e : Int) : encodeF .fp32 (.fin false m e) =
    if (Nat.log2 m : Int) + e < -126 then (if 0 ≤ e + 149 then m <<< (e + 149).toNat else m >>> (-(e + 149)).toNat)
    else ((Nat.log2 m : Int) + e + 127).toNat * 2 ^ 23 +
      ((if Nat.log2 m ≤ 23 then m <<< (23 - Nat.log2 m) else m >>> (Nat.log2 m - 23)) - 2 ^ 23) := by
  have hd : e - (VFmt.fp32.emin - (VFmt.fp32.man : Nat)) = e + 149 := by
    rw [show VFmt.fp32.emin - ((VFmt.fp32.man : Nat) : Int) = -149 from rfl]; omega
  have hemin : VFmt.fp32.emin = -126 := rfl
  have hbias : ((VFmt.fp32.bias : Nat) : Int) = 127 := rfl
  have hman : VFmt.fp32.man = 23 := rfl
  unfold encodeF
  dsimp only
  rw [if_neg hm, hd, hemin, hbias, hman]
  simp [b2n, Nat.shiftLeft_eq]

/-- The magnitude of a value that lies below 2^128 fits the 31 bits below the sign of FP32. -/
theorem encodeF_fp32_lt {m : Nat} {e : Int} (h : m ≠ 0 → (Nat.log2 m : Int) + e ≤ 127) :
    encodeF .fp32 (.fin false m e) < 2 ^ 31 := by
  by_cases hm : m = 0
  · subst hm; simp [encodeF, b2n]
  have hlt : m < 2 ^ (Nat.log2 m + 1) := Nat.lt_log2_self
  have h := h hm
  rw [encodeF_fp32_magnitude hm]
  split
  · split
    · exact shiftLeft_lt_two_pow hlt (by omega)
    · exact shiftRight_lt_two_pow hlt (by omega)
  · have hfrac : (if Nat.log2 m ≤ 23 then m <<< (23 - Nat.log2 m) else m >>> (Nat.log2 m - 23)) < 2 ^ 24 := by
      split
      · exact shiftLeft_lt_two_pow hlt (by omega)
      · exact shiftRight_lt_two_pow hlt (by omega)
    have hexp : ((Nat.log2 m : Int) + e + 127).toNat ≤ 254 := by omega
    omega

/-- A finite value that an operation reads from BF16, FP16 or FP32 lies below 2^128 (R39, R45). -/
theorem decodeRaw_fin_lt {f : VFmt} (hf : f = .bf16 ∨ f = .fp16 ∨ f = .fp32) {w m : Nat} {e : Int} {s : Bool}
    (h : decodeRaw f w = .fin s m e) (hm : m ≠ 0) : (Nat.log2 m : Int) + e ≤ 127 := by
  have hfmt : f ≠ .e8m10 ∧ f ≠ .e4m3 ∧ 2 ^ f.expW ≤ f.bias + 129 ∧ 1 ≤ f.bias := by
    rcases hf with rfl | rfl | rfl <;> decide
  obtain ⟨h8, h4, hbias, hone⟩ := hfmt
  have hfrac : w % 2 ^ f.man < 2 ^ f.man := Nat.mod_lt _ (Nat.two_pow_pos _)
  have hexp : (w >>> f.man) % 2 ^ f.expW < 2 ^ f.expW := Nat.mod_lt _ (Nat.two_pow_pos _)
  have hlog : m < 2 ^ (f.man + 1) → Nat.log2 m < f.man + 1 := (Nat.log2_lt hm).mpr
  simp only [decodeRaw, if_neg h8, h4, ne_eq, not_false_eq_true, and_true, false_and, if_false] at h
  generalize (w >>> f.man) % 2 ^ f.expW = ex at h hexp
  generalize w % 2 ^ f.man = frac at h hfrac
  split at h
  · split at h <;> cases h
  · split at h
    · cases h
      have := hlog (by rw [Nat.pow_succ]; omega)
      simp only [VFmt.emin]
      omega
    · cases h
      have := hlog (by rw [Nat.pow_succ]; omega)
      omega

theorem decodeF_fin_lt {f : VFmt} (hf : f = .bf16 ∨ f = .fp16 ∨ f = .fp32) {w m : Nat} {e : Int} {s : Bool}
    (h : (decodeF f w).1 = .fin s m e) (hm : m ≠ 0) : (Nat.log2 m : Int) + e ≤ 127 := by
  unfold decodeF at h
  cases hraw : decodeRaw f w with
  | nan => rw [hraw] at h; cases h
  | inf s => rw [hraw] at h; cases h
  | fin s' m' e' =>
    rw [hraw] at h
    dsimp only at h
    by_cases hflush : m' ≠ 0 ∧ f.subn = false ∧ (w >>> (if f = .e8m10 then 23 else f.man)) % 2 ^ f.expW = 0
    · rw [if_pos hflush] at h
      cases h
      exact absurd rfl hm
    · rw [if_neg hflush] at h
      cases h
      exact decodeRaw_fin_lt hf hraw hm

/-- The key of a finite value that SELECT reads fits 31 bits (R74, R87). -/
theorem keyOf_decodeF_lt {f : VFmt} (hf : f = .bf16 ∨ f = .fp16 ∨ f = .fp32) {w : Nat}
    (h : (decodeF f w).1.isFin = true) : keyOf (decodeF f w).1 < 2 ^ 31 := by
  cases hv : (decodeF f w).1 with
  | nan => rw [hv] at h; cases h
  | inf s => rw [hv] at h; cases h
  | fin s m e => exact encodeF_fp32_lt fun hm => decodeF_fin_lt hf hv hm

theorem keyOfInt_int32_lt (w : Nat) : keyOfInt (int32Of w) < 2 ^ 31 := by
  have hmag : (int32Of w).natAbs < 2 ^ 32 := by unfold int32Of; split <;> omega
  unfold keyOfInt
  generalize (int32Of w).natAbs = m at hmag ⊢
  dsimp only
  split
  · decide
  · next hm =>
    refine encodeF_fp32_lt fun hs => ?_
    have hl : Nat.log2 m < 32 := (Nat.log2_lt hm).mpr hmag
    have hs : Nat.log2 (m >>> (Nat.log2 m - 23)) < 32 :=
      (Nat.log2_lt hs).mpr (Nat.lt_of_le_of_lt (Nat.shiftRight_le _ _) hmag)
    omega

/-! ### The sort -/

section
variable {α : Type} (key : α → Nat)

/-- The low bits of a key with one bit more. -/
theorem mod_two_pow_succ (n k : Nat) : n % 2 ^ (k + 1) = n % 2 ^ k + (if n.testBit k then 2 ^ k else 0) := by
  rw [Nat.mod_pow_succ, Nat.testBit_eq_decide_div_mod_eq]
  rcases Nat.mod_two_eq_zero_or_one (n / 2 ^ k) with h | h <;> simp [h]

theorem sortDesc_succ (k : Nat) (l : List α) : sortDesc (k + 1) key l =
    (sortDesc k key l).filter (fun x => (key x).testBit k) ++ (sortDesc k key l).filter fun x => !(key x).testBit k := by
  rw [sortDesc, List.range_succ, List.foldl_append]
  rfl

theorem sortDesc_perm (k : Nat) (l : List α) : (sortDesc k key l).Perm l := by
  induction k with
  | zero => exact .refl l
  | succ k ih => rw [sortDesc_succ]; exact (List.filter_append_perm _ _).trans ih

theorem sortAsc_perm (k : Nat) (l : List α) : (sortAsc k key l).Perm l := by
  induction k with
  | zero => exact .refl l
  | succ k ih =>
    rw [sortAsc, List.range_succ, List.foldl_append]
    refine (List.perm_append_comm.trans ?_).trans ih
    exact List.filter_append_perm (fun x => (key x).testBit k) _

/-- What stands before what after a sort by the low k bits of a key: the greater key first, equal keys as they stood. -/
def RanksBefore (k : Nat) (first : α → α → Prop) (a b : α) : Prop :=
  key b % 2 ^ k < key a % 2 ^ k ∨ key a % 2 ^ k = key b % 2 ^ k ∧ first a b

theorem sortDesc_pairwise (k : Nat) {first : α → α → Prop} {l : List α} (h : l.Pairwise first) :
    (sortDesc k key l).Pairwise (RanksBefore key k first) := by
  induction k with
  | zero => exact h.imp fun hab => .inr ⟨by simp [Nat.mod_one], hab⟩
  | succ k ih =>
    have hsame : ∀ {a b : α}, (key a).testBit k = (key b).testBit k → RanksBefore key k first a b →
        RanksBefore key (k + 1) first a b := by
      intro a b hbit hab
      unfold RanksBefore at hab ⊢
      rw [mod_two_pow_succ, mod_two_pow_succ, hbit]
      exact hab.imp (fun h => Nat.add_lt_add_right h _) fun h => ⟨congrArg (· + _) h.1, h.2⟩
    rw [sortDesc_succ, List.pairwise_append]
    refine ⟨?_, ?_, fun a ha b hb => .inl ?_⟩
    · refine (ih.filter _).imp_of_mem fun ha hb => hsame ?_
      simp only [List.mem_filter] at ha hb
      rw [ha.2, hb.2]
    · refine (ih.filter _).imp_of_mem fun ha hb => hsame ?_
      simp only [List.mem_filter, Bool.not_eq_true'] at ha hb
      rw [ha.2, hb.2]
    · simp only [List.mem_filter, Bool.not_eq_true'] at ha hb
      have := Nat.mod_lt (key b) (Nat.two_pow_pos k)
      rw [mod_two_pow_succ, mod_two_pow_succ, ha.2, hb.2, if_pos rfl, if_neg (by decide)]
      omega

end

/-! ### The first places (R76, R77) -/

/-- An entry (index, key) ranks no later than another (R76). -/
def ranksNoLater (exact : Bool) (last p : Nat × Nat) : Bool :=
  decide (rankKey exact last.2 < rankKey exact p.2) ||
  (rankKey exact p.2 == rankKey exact last.2 && decide (p.1 ≤ last.1))

/-- Of entries that stand in rank order, those that rank no later than the last of the first s places are these s. -/
theorem filter_ranksNoLater_length {exact : Bool} {s : Nat} {ranked : List (Nat × Nat)} (h0 : 0 < s)
    (hs : s ≤ ranked.length)
    (hr : ranked.Pairwise fun a b => rankKey exact b.2 < rankKey exact a.2 ∨
      rankKey exact a.2 = rankKey exact b.2 ∧ a.1 < b.1) :
    (ranked.filter (ranksNoLater exact (nth ranked (s - 1) (0, 0)))).length = s := by
  have hlast : nth ranked (s - 1) (0, 0) = ranked[s - 1] := by
    rw [nth, List.getElem?_eq_getElem (by omega)]; rfl
  rw [List.pairwise_iff_getElem] at hr
  have hin : ∀ p ∈ ranked.take s, ranksNoLater exact (nth ranked (s - 1) (0, 0)) p = true := by
    intro p hp
    obtain ⟨i, hi, rfl⟩ := List.mem_take_iff_getElem.mp hp
    rw [hlast, ranksNoLater]
    rcases Nat.lt_or_ge i (s - 1) with h | h
    · have := hr i (s - 1) (by omega) (by omega) h
      simp only [Bool.or_eq_true, Bool.and_eq_true, decide_eq_true_eq, beq_iff_eq]
      omega
    · have : i = s - 1 := by omega
      subst this
      simp
  have hout : ∀ p ∈ ranked.drop s, ¬ ranksNoLater exact (nth ranked (s - 1) (0, 0)) p = true := by
    intro p hp
    obtain ⟨i, hi, rfl⟩ := List.mem_drop_iff_getElem.mp hp
    have := hr (s - 1) (s + i) (by omega) (by omega) (by omega)
    rw [hlast, ranksNoLater]
    simp only [Bool.or_eq_true, Bool.and_eq_true, decide_eq_true_eq, beq_iff_eq]
    omega
  calc (ranked.filter (ranksNoLater exact (nth ranked (s - 1) (0, 0)))).length
      = ((ranked.take s ++ ranked.drop s).filter (ranksNoLater exact (nth ranked (s - 1) (0, 0)))).length := by
        rw [List.take_append_drop]
    _ = s := by
        rw [List.filter_append, List.filter_eq_self.mpr hin, List.filter_eq_nil_iff.mpr hout, List.append_nil,
          List.length_take, Nat.min_eq_left hs]

/-- The valid entries of a chunk as the selection ranks them. -/
def validKeys (es : List Elem) : List (Nat × Nat) := (es.filter Elem.valid).map fun e => (e.idx, e.key)

section
variable (exact : Bool) (k : Nat) (valid : List (Nat × Nat))

theorem pick_s : (pick exact k valid).s = min k valid.length := rfl

/-- The last selected entry (R77). -/
def lastPicked : Nat × Nat :=
  nth (sortDesc 31 (fun p : Nat × Nat => rankKey exact p.2) valid) ((pick exact k valid).s - 1) (0, 0)

theorem pick_key : (pick exact k valid).key = rankKey exact (lastPicked exact k valid).2 := rfl

theorem pick_idx : (pick exact k valid).idx = (lastPicked exact k valid).1 := by simp only [lastPicked, pick]

end

/-- A chunk whose entries stand in index order gives the selection its share of them, or all valid ones (R77). -/
theorem pick_has_length (exact : Bool) (k : Nat) {es : List Elem} (hidx : es.Pairwise fun a b => a.idx < b.idx)
    (hkey : ∀ e ∈ es, e.valid = true → rankKey exact e.key < 2 ^ 31) :
    (es.filter ((pick exact k (validKeys es)).has exact)).length = (pick exact k (validKeys es)).s := by
  generalize hvalid : validKeys es = valid
  have hs := pick_s exact k valid
  rcases Nat.eq_zero_or_pos (pick exact k valid).s with h0 | h0
  · rw [h0, List.length_eq_zero_iff, List.filter_eq_nil_iff]
    intro e _
    simp [Picked.has, h0]
  have hperm := sortDesc_perm (fun p : Nat × Nat => rankKey exact p.2) 31 valid
  have hkeys : ∀ p ∈ valid, rankKey exact p.2 % 2 ^ 31 = rankKey exact p.2 := by
    intro p hp
    obtain ⟨e, he, rfl⟩ := List.mem_map.mp (hvalid ▸ hp)
    obtain ⟨he, hv⟩ := List.mem_filter.mp he
    exact Nat.mod_eq_of_lt (hkey e he hv)
  have horder : (sortDesc 31 (fun p : Nat × Nat => rankKey exact p.2) valid).Pairwise fun a b =>
      rankKey exact b.2 < rankKey exact a.2 ∨ rankKey exact a.2 = rankKey exact b.2 ∧ a.1 < b.1 := by
    have hrising : valid.Pairwise fun a b => a.1 < b.1 := by
      rw [← hvalid]
      exact List.pairwise_map.mpr (hidx.filter _)
    refine (sortDesc_pairwise (fun p : Nat × Nat => rankKey exact p.2) 31 hrising).imp_of_mem fun ha hb hab => ?_
    rwa [RanksBefore, hkeys _ (hperm.mem_iff.mp ha), hkeys _ (hperm.mem_iff.mp hb)] at hab
  have hhas : ∀ e, (pick exact k valid).has exact e =
      (ranksNoLater exact (lastPicked exact k valid) (e.idx, e.key) && e.valid) := by
    intro e
    rw [Picked.has, decide_eq_true h0, Bool.and_true, pick_key, pick_idx, Bool.and_comm, ranksNoLater]
  calc (es.filter ((pick exact k valid).has exact)).length
      = ((es.filter Elem.valid).filter fun e =>
          ranksNoLater exact (lastPicked exact k valid) (e.idx, e.key)).length := by
        rw [List.filter_filter, funext hhas]
    _ = (valid.filter (ranksNoLater exact (lastPicked exact k valid))).length := by
        rw [← hvalid, validKeys, List.filter_map, List.length_map]; rfl
    _ = ((sortDesc 31 (fun p : Nat × Nat => rankKey exact p.2) valid).filter
          (ranksNoLater exact (lastPicked exact k valid))).length := ((hperm.filter _).length_eq).symm
    _ = (pick exact k valid).s :=
        filter_ranksNoLater_length h0 (by rw [hperm.length_eq, hs]; exact Nat.min_le_right _ _) horder

/-! ### Shares of k (R72) -/

theorem sum_zipIdx_firsts (l : List Nat) (n rest : Nat) :
    ((l.zipIdx n).map fun p => if p.2 < rest then p.1 + 1 else p.1).sum = l.sum + min (rest - n) l.length := by
  induction l generalizing n with
  | nil => simp
  | cons a l ih =>
    rw [List.zipIdx_cons, List.map_cons, List.sum_cons, ih, List.sum_cons, List.length_cons]
    split <;> omega

theorem sum_floors (k total : Nat) (l : List Nat) :
    total * (l.map fun c => k * c / total).sum ≤ k * l.sum ∧
    (0 < total → k * l.sum ≤ total * (l.map fun c => k * c / total).sum + total * l.length) := by
  induction l with
  | nil => simp
  | cons a l ih =>
    obtain ⟨hle, hge⟩ := ih
    have hdiv := Nat.div_add_mod (k * a) total
    simp only [List.map_cons, List.sum_cons, List.length_cons, Nat.mul_add, Nat.mul_one]
    refine ⟨by omega, fun h => ?_⟩
    have hlt := Nat.mod_lt (k * a) h
    have := hge h
    omega

/-- The shares of k add up to k (R72). -/
theorem sum_sharesOfK (k : Nat) {cs : List Chunk} (h : 0 < (cs.map (·.len)).sum) : (sharesOfK k cs).sum = k := by
  obtain ⟨hle, hge⟩ := sum_floors k (cs.map (·.len)).sum (cs.map (·.len))
  unfold sharesOfK
  dsimp only
  rw [List.map_map, List.length_map] at hge
  rw [List.map_map] at hle
  rw [sum_zipIdx_firsts, List.length_map, Nat.sub_zero]
  change _ * (cs.map fun c => k * c.len / _).sum ≤ _ at hle
  change _ → _ ≤ _ * (cs.map fun c => k * c.len / _).sum + _ at hge
  generalize (cs.map fun c => k * c.len / (cs.map (·.len)).sum).sum = floors at hle hge ⊢
  generalize (cs.map (·.len)).sum = total at hle hge h ⊢
  have hfloors : floors ≤ k := by
    refine Nat.le_of_mul_le_mul_left ?_ h
    rwa [Nat.mul_comm total k]
  have hrest : k ≤ floors + cs.length := by
    refine Nat.le_of_mul_le_mul_left ?_ h
    rw [Nat.mul_add, Nat.mul_comm total k]
    exact hge h
  omega

theorem length_sharesOfK (k : Nat) (cs : List Chunk) : (sharesOfK k cs).length = cs.length := by
  simp [sharesOfK]

end Sys2Proof.Machine
end

section
/-! SELECT (R73, R86-R90): what it reads, what its Piers count, and the list that it writes. -/

namespace Sys2Proof.Machine

/-! ### Work counted at the Piers -/

/-- Registers of Piers count, and free values are drawn: what a computation leaves before its output is written. -/
def State.countsAtPiers (s t : State) : Prop := t = { s with regs := t.regs, free := t.free } ∧ s.regsIn t pierPage

section
variable {s t u : State}

theorem State.countsAtPiers_refl (s : State) : s.countsAtPiers s := ⟨rfl, fun _ _ => rfl⟩

theorem State.countsAtPiers_trans (h : s.countsAtPiers t) (h' : t.countsAtPiers u) : s.countsAtPiers u :=
  ⟨by rw [h'.1, h.1], State.regsIn_trans h.2 h'.2⟩

theorem State.countsAtPiers_takePier (s : State) : s.countsAtPiers s.takePier.2 := ⟨rfl, fun _ _ => rfl⟩

theorem State.countsAtPiers_bump (s : State) {n off : Nat} (k : Nat) (hn : n < 32) (ho : off < 4096) :
    s.countsAtPiers (s.bump (regAddr (0x10 + n) off) k) := by
  obtain ⟨r, h⟩ := s.bump_effect (regAddr (0x10 + n) off) k
  exact ⟨by rw [h], State.regsIn_bump k (pierPage_regAddr hn ho)⟩

theorem State.countsAtPiers_bump64 (s : State) {n off : Nat} (k : Nat) (hn : n < 32) (ho : off + 4 < 4096) :
    s.countsAtPiers (s.bump64 (regAddr (0x10 + n) off) k) := by
  obtain ⟨r, h⟩ := s.bump64_effect (regAddr (0x10 + n) off) k
  refine ⟨by rw [h], State.regsIn_bump64 k (pierPage_regAddr hn (Nat.lt_of_add_right_lt ho)) ?_⟩
  have hnext := pierPage_regAddr hn ho
  rwa [regAddr, ← Nat.add_assoc, ← regAddr] at hnext

/-- A chunk's counts stand at its Pier (R94). -/
theorem State.countsAtPiers_countPick (s : State) {n : Nat} (p : Picked) (k h : Nat) (hn : n < 32) :
    s.countsAtPiers (s.countPick n p k h) := by
  have hchunks := s.countsAtPiers_bump64 (off := 0x40) 1 hn (by decide)
  have hreads := State.countsAtPiers_trans hchunks
    (State.countsAtPiers_bump64 _ (off := 0x48) (p.reads h) hn (by decide))
  have hrefine := State.countsAtPiers_trans hreads (State.countsAtPiers_bump _ (off := 0x50) p.refine hn (by decide))
  have hmulti := State.countsAtPiers_trans hrefine
    (State.countsAtPiers_bump _ (off := 0x54) (b2n (decide (1 < p.wins))) hn (by decide))
  have hpartial := State.countsAtPiers_trans hmulti
    (State.countsAtPiers_bump _ (off := 0x58) (b2n (decide (p.s < k))) hn (by decide))
  exact State.countsAtPiers_trans hpartial (State.countsAtPiers_bump _ (off := 0x5C) (b2n p.ties) hn (by decide))

/-- What a computation that counted at Piers and wrote host memory has changed. -/
theorem State.countsAtPiers.computes_wr (h : s.countsAtPiers t) (a : Nat) (bs : Bytes) :
    s.computes (t.wr a bs) ∧ s.regsIn (t.wr a bs) pierPage ∧ (t.wr a bs).cb = s.cb := by
  obtain ⟨heq, hregs⟩ := h
  refine ⟨⟨?_, fun u hu => ?_⟩, State.regsIn_trans hregs fun _ _ => rfl, ?_⟩
  · rw [heq]; rfl
  · rw [heq] at hu; exact hu
  · rw [heq]; rfl

theorem State.countsAtPiers.computes (h : s.countsAtPiers t) : s.computes t := by
  obtain ⟨heq, -⟩ := h
  exact ⟨by rw [heq], fun u hu => by rw [heq] at hu; exact hu⟩

end

/-- A chunk with no poison counts at its Pier and keeps what it picked (R90, R94). -/
theorem State.selChunk_clean (s : State) (exact abort : Bool) {c : PickedChunk} (h : c.elems.any (·.poison) = false) :
    (s.selChunk exact abort c).1 = c ∧ s.countsAtPiers (s.selChunk exact abort c).2 := by
  have hn := s.takePier_lt
  have hflush := State.countsAtPiers_trans s.countsAtPiers_takePier
    (State.countsAtPiers_bump _ (off := 0x9C) ((c.elems.map (·.flush)).sum) hn (by decide))
  unfold State.selChunk
  dsimp only
  cases abort with
  | true =>
    refine ⟨rfl, State.countsAtPiers_trans hflush ?_⟩
    exact State.countsAtPiers_trans (State.countsAtPiers_bump64 _ (off := 0x40) 1 hn (by decide))
      (State.countsAtPiers_bump64 _ (off := 0x48) 1 hn (by decide))
  | false =>
    simp only [h, Bool.false_eq_true, if_false]
    exact ⟨trivial, State.countsAtPiers_trans hflush (State.countsAtPiers_countPick _ _ _ _ hn)⟩

/-- One more chunk of a selection. -/
def selStep (exact abort : Bool) (r : List PickedChunk × State) (c : PickedChunk) : List PickedChunk × State :=
  (r.1 ++ [(r.2.selChunk exact abort c).1], (r.2.selChunk exact abort c).2)

/-- The chunks of a selection with no poison count at their Piers in turn and keep what they picked. -/
theorem selSteps_clean (exact abort : Bool) (cs : List PickedChunk) (done : List PickedChunk) (s : State)
    (h : ∀ c ∈ cs, c.elems.any (·.poison) = false) :
    ∃ v, s.countsAtPiers v ∧ cs.foldl (selStep exact abort) (done, s) = (done ++ cs, v) := by
  induction cs generalizing done s with
  | nil => exact ⟨s, s.countsAtPiers_refl, by simp⟩
  | cons c cs ih =>
    obtain ⟨hc, hv⟩ := s.selChunk_clean exact abort (h c List.mem_cons_self)
    obtain ⟨v, hv', heq⟩ := ih (done ++ [c]) (s.selChunk exact abort c).2 fun x hx => h x (List.mem_cons_of_mem c hx)
    refine ⟨v, State.countsAtPiers_trans hv hv', ?_⟩
    rw [List.foldl_cons, selStep, hc, heq, List.append_assoc]
    rfl

/-! ### The elements of a chunk -/

theorem State.poisoned_of_clean {s : State} (h : s.memPoison = []) (a n : Nat) : s.poisoned a n = false := by
  rw [State.poisoned, h]
  rfl

theorem selElem_poison (int32 : Bool) (f : VFmt) (p : Bool) (i w : Nat) : (selElem int32 f p i w).poison = p := by
  unfold selElem; split <;> rfl

theorem selElem_idx (int32 : Bool) (f : VFmt) (p : Bool) (i w : Nat) : (selElem int32 f p i w).idx = i := by
  unfold selElem; split <;> rfl

/-- What a passed check says of the operands (R87). -/
theorem selectCheck_none {d : Desc} (h : selectCheck d = none) :
    (opBit d 0x35 4 = true ∨ VFmt.ofCode (opBits d 0x35 1 3 0) ∈ [.bf16, .fp16, .fp32]) ∧
    0 < opd d 0x30 5 ∧ 0 < opd d 0x36 2 := by
  unfold selectCheck at h
  dsimp only at h
  split at h
  · cases h
  · next hfmt =>
    split at h
    · cases h
    · next hbounds =>
      refine ⟨?_, by omega, by omega⟩
      generalize opBits d 0x35 1 3 0 = f at hfmt ⊢
      cases hint : opBit d 0x35 4 with
      | true => exact .inl rfl
      | false =>
        have hf : f = 6 ∨ f = 7 ∨ f = 8 := by simpa [hint, Classical.or_iff_not_imp_left] using hfmt
        rcases hf with rfl | rfl | rfl <;> exact .inr (by decide)

theorem State.selRead_elem {s : State} {d : Desc} {c : Chunk} {e : Elem} (h : e ∈ s.selRead d c) :
    ∃ p i w, e = selElem (opBit d 0x35 4) (VFmt.ofCode (opBits d 0x35 1 3 0)) p i w ∧
      (s.memPoison = [] → p = false) := by
  obtain ⟨x, -, rfl⟩ := List.mem_map.mp h
  refine ⟨_, _, _, rfl, fun hp => State.poisoned_of_clean hp _ _⟩

theorem State.selRead_pairwise (s : State) (d : Desc) (c : Chunk) :
    (s.selRead d c).Pairwise fun a b => a.idx < b.idx := by
  unfold State.selRead
  dsimp only
  rw [List.pairwise_iff_getElem]
  intro i j hi hj hij
  simp only [List.getElem_map, List.getElem_zipIdx, selElem_idx]
  omega

/-- The rank key of a valid element fits the 31 bits that the sort ranks (R74, R76). -/
theorem State.rankKey_selRead_lt {s : State} {d : Desc} {c : Chunk} (hcheck : selectCheck d = none) (exact : Bool)
    {e : Elem} (h : e ∈ s.selRead d c) (hv : e.valid = true) : rankKey exact e.key < 2 ^ 31 := by
  cases exact with
  | false => exact Nat.lt_trans (Nat.mod_lt _ (Nat.two_pow_pos 12)) (by decide)
  | true =>
    obtain ⟨p, i, w, rfl, -⟩ := State.selRead_elem h
    obtain ⟨hfmt, -, -⟩ := selectCheck_none hcheck
    cases hint : opBit d 0x35 4 with
    | true => exact keyOfInt_int32_lt w
    | false =>
      have hf := hfmt.resolve_left (by simp [hint])
      simp only [List.mem_cons, List.not_mem_nil, or_false] at hf
      simp only [hint, selElem, Elem.valid, Bool.false_eq_true, if_false, Bool.and_eq_true, Bool.not_eq_true',
        Bool.not_eq_false'] at hv
      exact keyOf_decodeF_lt hf hv.1.2

/-- A range that is not empty has elements in its chunks. -/
theorem chunksOfRange_sum_pos {len lc : Nat} (hlen : 0 < len) (hlc : 0 < lc) :
    0 < ((chunksOfRange 0 len lc).map (·.len)).sum := by
  have hfirst : (⟨0, 0, min len lc⟩ : Chunk) ∈ chunksOfRange 0 len lc := by
    rw [chunksOfRange, if_neg (by omega)]
    exact List.mem_map.mpr ⟨0, by simp, by simp⟩
  have hle := List.le_sum_of_mem (List.mem_map_of_mem (f := (·.len)) hfirst)
  exact Nat.lt_of_lt_of_le (Nat.lt_min.mpr ⟨hlen, hlc⟩) hle

theorem leastOf_foldl_some (l : List Nat) (a : Nat) :
    (l.foldl (fun a i => minOpt a (some i)) (some a)).isSome = true := by
  induction l generalizing a with
  | nil => rfl
  | cons b l ih => exact ih (min a b)

theorem leastOf_eq_none {l : List Nat} : leastOf l = none ↔ l = [] := by
  cases l with
  | nil => simp [leastOf]
  | cons a l =>
    have h := leastOf_foldl_some l a
    refine ⟨fun hn => ?_, fun hn => by cases hn⟩
    change l.foldl (fun a i => minOpt a (some i)) (some a) = none at hn
    rw [hn] at h
    cases h

/-- The first index that a test picks is none when the test picks no entry. -/
theorem leastOf_filter_eq_none {α : Type} (p : α → Bool) (f : α → Nat) (l : List α) :
    leastOf ((l.filter p).map f) = none ↔ ∀ e ∈ l, p e = false := by
  simp [leastOf_eq_none]

/-! ### The selection -/

/-- What each chunk of SELECT's input picks (R86). -/
def State.selAll (s : State) (d : Desc) : List PickedChunk :=
  let cs := chunksOfRange 0 (opd d 0x30 5) (opd d 0x36 2 * 1024)
  (cs.zip (sharesOfK (opd d 0x38 4) cs)).map fun p =>
    ⟨p.1, p.2, s.selRead d p.1, pick (opBit d 0x35 5) p.2 (validKeys (s.selRead d p.1))⟩

section
variable {s : State} {d : Desc}

theorem State.selAll_spec {c : PickedChunk} (h : c ∈ s.selAll d) :
    (∃ ch, c.elems = s.selRead d ch) ∧ c.pick = pick (opBit d 0x35 5) c.k (validKeys c.elems) := by
  obtain ⟨p, -, rfl⟩ := List.mem_map.mp h
  exact ⟨⟨p.1, rfl⟩, rfl⟩

theorem State.selAll_elems (s : State) (d : Desc) :
    (s.selAll d).map (·.elems) = (chunksOfRange 0 (opd d 0x30 5) (opd d 0x36 2 * 1024)).map (s.selRead d) := by
  rw [State.selAll, List.map_map]
  calc _ = ((List.zip _ _).map Prod.fst).map (s.selRead d) := by rw [List.map_map]; rfl
    _ = _ := by rw [List.map_fst_zip (Nat.le_of_eq (length_sharesOfK _ _).symm)]

/-- The shares of the chunks add up to K (R72). -/
theorem State.selAll_shares (s : State) (h : selectCheck d = none) : ((s.selAll d).map (·.k)).sum = opd d 0x38 4 := by
  obtain ⟨-, hlen, hki⟩ := selectCheck_none h
  have hshares := List.map_snd_zip (l₁ := chunksOfRange 0 (opd d 0x30 5) (opd d 0x36 2 * 1024))
    (Nat.le_of_eq (length_sharesOfK (opd d 0x38 4) _))
  have hk : (s.selAll d).map (·.k) =
      sharesOfK (opd d 0x38 4) (chunksOfRange 0 (opd d 0x30 5) (opd d 0x36 2 * 1024)) := by
    rw [State.selAll, List.map_map]; exact hshares
  rw [hk, sum_sharesOfK _ (chunksOfRange_sum_pos hlen (by omega))]

theorem State.selAll_clean (h : s.memPoison = []) {c : PickedChunk} (hc : c ∈ s.selAll d) :
    c.elems.any (·.poison) = false := by
  obtain ⟨⟨ch, hch⟩, -⟩ := State.selAll_spec hc
  rw [List.any_eq_false, hch]
  intro e he
  obtain ⟨p, i, w, rfl, hp⟩ := State.selRead_elem he
  rw [selElem_poison, hp h]
  decide

/-- A chunk's chosen entries are as many as it picked (R77). -/
theorem State.selAll_chosen (hcheck : selectCheck d = none) {c : PickedChunk} (hc : c ∈ s.selAll d) :
    (c.elems.filter (c.pick.has (opBit d 0x35 5))).length = c.pick.s := by
  obtain ⟨⟨ch, hch⟩, hpick⟩ := State.selAll_spec hc
  rw [hpick, hch]
  exact pick_has_length _ _ (s.selRead_pairwise d ch) fun e he hv => State.rankKey_selRead_lt hcheck _ he hv

theorem State.selAll_pick_le {c : PickedChunk} (hc : c ∈ s.selAll d) : c.pick.s ≤ c.k := by
  obtain ⟨-, hpick⟩ := State.selAll_spec hc
  rw [hpick, pick_s]
  exact Nat.min_le_left _ _

/-- The chosen entries of all chunks. -/
def chosenOf (exact : Bool) (cs : List PickedChunk) : List Elem :=
  (cs.map fun c => c.elems.filter (c.pick.has exact)).flatten

/-- The chunks that held fewer entries than their share. -/
def shortOf (cs : List PickedChunk) : List PickedChunk := cs.filter fun c => decide (c.pick.s < c.k)

/-- SELECT chooses at most K entries, and K when every chunk held its share (R72, R86). -/
theorem State.selAll_chosen_length (s : State) (hcheck : selectCheck d = none) :
    (chosenOf (opBit d 0x35 5) (s.selAll d)).length ≤ opd d 0x38 4 ∧
    (shortOf (s.selAll d) = [] → (chosenOf (opBit d 0x35 5) (s.selAll d)).length = opd d 0x38 4) := by
  have hlen : (chosenOf (opBit d 0x35 5) (s.selAll d)).length = ((s.selAll d).map (·.pick.s)).sum := by
    rw [chosenOf, List.length_flatten, List.map_map]
    exact congrArg List.sum (List.map_congr_left fun c hc => State.selAll_chosen hcheck hc)
  rw [hlen, ← s.selAll_shares hcheck]
  refine ⟨List.sum_le_sum fun c hc => State.selAll_pick_le hc, fun hshort => ?_⟩
  refine congrArg List.sum (List.map_congr_left fun c hc => Nat.le_antisymm (State.selAll_pick_le hc) ?_)
  simpa using List.filter_eq_nil_iff.mp hshort c hc

/-- The first non-finite index of what a selection reads (R90). -/
def firstNf (cs : List PickedChunk) : Option Nat :=
  leastOf ((((cs.map (·.elems)).flatten).filter (·.nf)).map (·.idx))

theorem State.firstNf_selAll (s : State) (d : Desc) : firstNf (s.selAll d) = none ↔
    ∀ c ∈ chunksOfRange 0 (opd d 0x30 5) (opd d 0x36 2 * 1024), ∀ e ∈ s.selRead d c, e.nf = false := by
  rw [firstNf, leastOf_filter_eq_none, State.selAll_elems]
  simp only [List.mem_flatten, List.mem_map]
  exact ⟨fun h c hc e he => h e ⟨_, ⟨c, hc, rfl⟩, he⟩,
    fun h e ⟨_, ⟨c, hc, heq⟩, he⟩ => h c hc e (heq ▸ he)⟩

end

/-! ### A list in memory (R88, R89) -/

/-- Bytes that begin with a count of n and hold a summary and n entries. -/
def ListBytes (n : Nat) (bs : Bytes) : Prop := bs.length = 64 + 16 * n ∧ ∃ rest, bs = toLE 5 n ++ rest

theorem listBytes_summary {α : Type} (l : List α) (idx val : α → Nat) (tally : Nat) (sums : Sums)
    (thresh events excluded kind : Nat) :
    ListBytes l.length (listSummary l.length tally sums thresh events excluded kind ++
      (l.map fun x => listEntry (idx x) (val x)).flatten) := by
  have hentries : (l.map fun x => listEntry (idx x) (val x)).flatten.length = 16 * l.length := by
    induction l with
    | nil => rfl
    | cons x l ih =>
      rw [List.map_cons, List.flatten_cons, List.length_append, ih, List.length_cons]
      simp [listEntry, zeros]
      omega
  refine ⟨?_, ?_⟩
  · rw [List.length_append, hentries]
    simp [listSummary, Sums.bytes, Pair.bytes, zeros]
  · simp only [listSummary, List.append_assoc]
    exact ⟨_, rfl⟩

/-- A list that is written states its number of entries, and only its bytes change. -/
theorem State.wr_list (s : State) (a : Nat) {n : Nat} {bs : Bytes} (h : s.mem.wf = true) (hbs : ListBytes n bs)
    (hn : n < 2 ^ 40) : leNat ((s.wr a bs).rd a 5) = n ∧ s.memBut (s.wr a bs) a (64 + 16 * n) := by
  obtain ⟨hlen, rest, rfl⟩ := hbs
  refine ⟨?_, hlen ▸ s.memBut_wr a _ h⟩
  have hprefix : (s.wr a (toLE 5 n ++ rest)).rd a 5 = toLE 5 n := by
    have hall := s.rd_wr_same a (toLE 5 n ++ rest) h
    have hwf := s.mem_wf_wr a (toLE 5 n ++ rest) h
    rw [State.rd, Memory.readN_eq _ _ hwf] at hall ⊢
    have htake := congrArg (List.take 5) hall
    rwa [← List.map_take, List.take_range, List.take_left' (length_toLE 5 n),
      Nat.min_eq_left (by rw [hlen]; omega)] at htake
  rw [hprefix, leNat_toLE]
  exact Nat.mod_eq_of_lt hn

/-! ### SELECT -/

/-- A SELECT of good values that Piers take: they count, and then it ends for its first non-finite value, or its list is
written (R86-R90). -/
theorem startSelect_clean {s : State} {l : Live} (hp : s.memPoison = []) (hcheck : selectCheck l.desc = none)
    (hpier : s.freePiers ≠ []) : ∃ v passes bs, s.countsAtPiers v ∧
      ListBytes (chosenOf (opBit l.desc 0x35 5) (s.selAll l.desc)).length bs ∧
      startSelect l s = if (firstNf (s.selAll l.desc)).isSome && !opBit l.desc 0x35 6 then
          v.finish l ⟨0x10, 0, 1, firstNf (s.selAll l.desc)⟩
        else (v.wr (opd l.desc 0x28 8) bs).finish l ⟨if (shortOf (s.selAll l.desc)).length = 0 then 0 else 1,
          (chosenOf (opBit l.desc 0x35 5) (s.selAll l.desc)).length, passes, firstNf (s.selAll l.desc)⟩ := by
  have hclean : ∀ c ∈ s.selAll l.desc, c.elems.any (·.poison) = false := fun c hc => State.selAll_clean hp hc
  have hbad : ((s.selAll l.desc).map (·.elems)).flatten.any (·.poison) = false := by
    rw [List.any_flatten, List.any_map, List.any_eq_false]
    exact fun c hc => Bool.eq_false_iff.mp (hclean c hc)
  obtain ⟨v, hv, hfold⟩ := selSteps_clean (opBit l.desc 0x35 5)
    ((firstNf (s.selAll l.desc)).isSome && !opBit l.desc 0x35 6) (s.selAll l.desc) [] s hclean
  unfold startSelect
  dsimp only
  rw [hcheck]
  dsimp only
  rw [if_neg hpier]
  generalize hall : List.map _ (List.zip _ _) = all
  replace hall : s.selAll l.desc = all := hall
  rw [hall] at hfold hbad
  generalize hdone : List.foldl _ ([], s) all = done
  obtain rfl : done = (all, v) := hdone.symm.trans hfold
  dsimp only
  rw [hbad, if_neg Bool.false_ne_true, hall]
  exact ⟨v, _, _, hv, listBytes_summary _ Elem.idx Elem.enc _ _ _ _ _ _, rfl⟩

end Sys2Proof.Machine
end

section
/-! MERGE (R73, R91-R93), and what O28 states of SELECT and MERGE. -/

namespace Sys2Proof.Machine

/-! ### SELECT -/

/-- An operand field fits its bytes. -/
theorem opd_lt (d : Desc) (off len : Nat) : opd d off len < 2 ^ (8 * len) := by
  refine Nat.lt_of_lt_of_le (leNat_lt _) (Nat.pow_le_pow_right (by decide) (Nat.mul_le_mul_left 8 ?_))
  simp only [sub, zeros, List.length_append, List.length_take, List.length_replicate]
  omega

/-- A SELECT that Piers take and no non-finite value ends: what it writes and how it completes (R86-R90). -/
theorem startSelect_writes {s : State} {l : Live} (hp : s.memPoison = []) (hwf : s.mem.wf = true)
    (hcheck : selectCheck l.desc = none) (hpier : s.freePiers ≠ [])
    (h : firstNf (s.selAll l.desc) = none ∨ opBit l.desc 0x35 6 = true) :
    ∃ v n passes st, startSelect l s = v.finish l ⟨st, n, passes, firstNf (s.selAll l.desc)⟩ ∧
      s.computes v ∧ s.regsIn v pierPage ∧ v.cb = s.cb ∧ n ≤ opd l.desc 0x38 4 ∧ (st = 0 ∨ st = 1) ∧
      (st = 0 → n = opd l.desc 0x38 4) ∧ leNat (v.rd (opd l.desc 0x28 8) 5) = n ∧
      s.memBut v (opd l.desc 0x28 8) (64 + 16 * n) := by
  obtain ⟨v, passes, bs, hv, hbs, hstart⟩ := startSelect_clean hp hcheck hpier
  obtain ⟨hle, hfull⟩ := s.selAll_chosen_length hcheck
  have hk : opd l.desc 0x38 4 < 2 ^ 32 := opd_lt l.desc 0x38 4
  have hmem : v.mem = s.mem := by rw [hv.1]
  have hgoes : ((firstNf (s.selAll l.desc)).isSome && !opBit l.desc 0x35 6) = false := by
    rcases h with h | h <;> simp [h]
  rw [hgoes, if_neg Bool.false_ne_true] at hstart
  obtain ⟨hcomp, hregs, hcb⟩ := hv.computes_wr (opd l.desc 0x28 8) bs
  obtain ⟨hcount, hbut⟩ := v.wr_list (opd l.desc 0x28 8) (hmem ▸ hwf) hbs (by omega)
  refine ⟨_, _, passes, _, hstart, hcomp, hregs, hcb, hle, ?_, fun hst => hfull ?_, hcount, fun b hb => ?_⟩
  · split <;> simp
  · by_contra hne
    simp [hne] at hst
  · rw [hbut b hb, hmem]

/-- A SELECT that a non-finite value ends writes nothing (R90). -/
theorem startSelect_aborts {s : State} {l : Live} (hp : s.memPoison = []) (hcheck : selectCheck l.desc = none)
    (hpier : s.freePiers ≠ []) (h : firstNf (s.selAll l.desc) ≠ none) (hkeep : opBit l.desc 0x35 6 = false) :
    ∃ v nf, startSelect l s = v.finish l ⟨0x10, 0, 1, some nf⟩ ∧ s.computes v ∧ s.regsIn v pierPage ∧
      v.mem = s.mem := by
  obtain ⟨v, passes, bs, hv, -, hstart⟩ := startSelect_clean hp hcheck hpier
  obtain ⟨nf, hnf⟩ := Option.ne_none_iff_exists'.mp h
  rw [hnf, hkeep] at hstart
  exact ⟨v, nf, hstart, hv.computes, hv.2, by rw [hv.1]⟩

theorem startSelect_refuses {s : State} {l : Live} {st : Nat} (h : selectCheck l.desc = some st) :
    startSelect l s = s.finish l ⟨st, 0, 0, none⟩ := by
  unfold startSelect
  dsimp only
  rw [h]
  rfl

theorem startSelect_waits {s : State} {l : Live} (h : selectCheck l.desc = none) (hpier : s.freePiers = []) :
    startSelect l s = s := by
  unfold startSelect
  dsimp only
  rw [h]
  dsimp only
  rw [if_pos hpier]

/-! ### The lists that MERGE reads (R91, R93) -/

theorem inOrderPart_mem {l : List MergeIn} {x : MergeIn} (h : x ∈ (inOrderPart l).1 ∨ (inOrderPart l).2 = some x) :
    x ∈ l := by
  induction l with
  | nil => simp [inOrderPart] at h
  | cons a l ih =>
    cases l with
    | nil => simpa [inOrderPart] using h
    | cons b t =>
      rw [inOrderPart] at h
      split at h
      · rcases h with h | h
        · simp only [List.mem_singleton] at h; simp [h]
        · cases h; simp
      · rcases h with h | h
        · rcases List.mem_cons.mp h with rfl | h
          · exact List.mem_cons_self
          · exact List.mem_cons_of_mem _ (ih (.inl h))
        · exact List.mem_cons_of_mem _ (ih (.inr h))

theorem inOrderPart_of_rising {l : List MergeIn} (h : l.Pairwise fun a b => a.idx < b.idx) :
    inOrderPart l = (l, none) := by
  induction l with
  | nil => rfl
  | cons a l ih =>
    cases l with
    | nil => rfl
    | cons b t =>
      obtain ⟨hfirst, hrest⟩ := List.pairwise_cons.mp h
      have hab := hfirst b List.mem_cons_self
      rw [inOrderPart, if_neg (by omega), ih hrest]

theorem mergeGroup_poison (int32 : Bool) (g : List MergeIn) : (mergeGroup int32 g).poison = g.any (·.poison) := by
  unfold mergeGroup
  split
  · rfl
  · split <;> rfl

theorem mergeGroups_poison (int32 : Bool) (n : Nat) {l : List MergeIn} (h : ∀ x ∈ l, x.poison = false) :
    ∀ o ∈ mergeGroups int32 n l, o.poison = false := by
  induction n generalizing l with
  | zero => intro o ho; simp [mergeGroups] at ho
  | succ n ih =>
    cases l with
    | nil => intro o ho; simp [mergeGroups] at ho
    | cons e t =>
      intro o ho
      rw [mergeGroups] at ho
      rcases List.mem_cons.mp ho with rfl | ho
      · rw [mergeGroup_poison, List.any_eq_false]
        intro x hx
        rw [h x ?_]
        · decide
        · exact (List.mem_cons.mp hx).elim (fun hx => hx ▸ List.mem_cons_self)
            fun hx => List.mem_cons_of_mem e ((List.takeWhile_prefix _).subset hx)
      · exact ih (fun x hx => h x (List.mem_cons_of_mem e (List.mem_of_mem_drop hx))) o ho

theorem mergeGroups_length_le (int32 : Bool) (n : Nat) (l : List MergeIn) : (mergeGroups int32 n l).length ≤ n := by
  induction n generalizing l with
  | zero => simp [mergeGroups]
  | succ n ih =>
    cases l with
    | nil => simp [mergeGroups]
    | cons e t =>
      rw [mergeGroups, List.length_cons]
      exact Nat.succ_le_succ (ih _)

/-- The entries of MERGE's i-th input list. -/
def State.mergeSrc (s : State) (d : Desc) (i : Nat) : List MergeIn :=
  s.mergeList i (s.rdN (opd d 0x20 8 + 16 * i) 8) (leNat (s.rd (opd d 0x20 8 + 16 * i + 8) 5))

/-- The checks of MERGE (R91, R93). -/
def State.mergeRight (s : State) (d : Desc) : Prop :=
  1 ≤ opBits d 0x30 1 6 0 ∧ opBits d 0x30 1 6 0 ≤ 64 ∧ opd d 0x20 8 % 64 = 0 ∧ opd d 0x28 8 % 64 = 0 ∧
    ∀ i, i < opBits d 0x30 1 6 0 → s.rdN (opd d 0x20 8 + 16 * i) 8 % 16 = 0

/-- Each input list up to the first entry out of order, and that entry. -/
def State.mergeParts (s : State) (d : Desc) : List (List MergeIn × Option MergeIn) :=
  (List.range (opBits d 0x30 1 6 0)).map fun i => inOrderPart (s.mergeSrc d i)

/-- The least index of an entry out of order. -/
def mergeStop (parts : List (List MergeIn × Option MergeIn)) : Option Nat :=
  leastOf ((parts.filterMap (·.2)).map (·.idx))

/-- The entries that MERGE takes: those below the first index out of order (R93). -/
def mergeIns (parts : List (List MergeIn × Option MergeIn)) : List MergeIn :=
  match mergeStop parts with
  | some e => (parts.map (·.1)).flatten.filter fun x => decide (x.idx < e)
  | none => (parts.map (·.1)).flatten

theorem mem_mergeIns {parts : List (List MergeIn × Option MergeIn)} {x : MergeIn} (h : x ∈ mergeIns parts) :
    ∃ p ∈ parts, x ∈ p.1 := by
  have hx : x ∈ (parts.map (·.1)).flatten := by
    unfold mergeIns at h
    split at h
    · exact List.mem_of_mem_filter h
    · exact h
  simpa using hx

section
variable {s : State} {d : Desc}

theorem State.mergeParts_clean (hp : s.memPoison = []) {p : List MergeIn × Option MergeIn} (h : p ∈ s.mergeParts d)
    {x : MergeIn} (hx : x ∈ p.1 ∨ p.2 = some x) : x.poison = false := by
  obtain ⟨i, -, rfl⟩ := List.mem_map.mp h
  obtain ⟨j, -, rfl⟩ := List.mem_map.mp (inOrderPart_mem hx)
  exact State.poisoned_of_clean hp _ _

/-- Lists that rise throughout are taken whole. -/
theorem State.mergeIns_of_rising
    (h : ∀ i, i < opBits d 0x30 1 6 0 → (s.mergeSrc d i).Pairwise fun a b => a.idx < b.idx) :
    mergeStop (s.mergeParts d) = none ∧
    (mergeIns (s.mergeParts d)).length =
      ((List.range (opBits d 0x30 1 6 0)).map fun i => (s.mergeSrc d i).length).sum := by
  have hparts : s.mergeParts d = (List.range (opBits d 0x30 1 6 0)).map fun i => (s.mergeSrc d i, none) :=
    List.map_congr_left fun i hi => inOrderPart_of_rising (h i (List.mem_range.mp hi))
  have hstop : mergeStop (s.mergeParts d) = none := by
    rw [mergeStop, hparts, leastOf_eq_none, List.map_eq_nil_iff, List.filterMap_eq_nil_iff]
    intro p hp
    obtain ⟨i, -, rfl⟩ := List.mem_map.mp hp
    rfl
  refine ⟨hstop, ?_⟩
  rw [mergeIns, hstop]
  dsimp only
  rw [List.length_flatten, hparts, List.map_map, List.map_map]
  rfl

/-- No entry that MERGE looks at is poisoned. -/
theorem State.merge_good (s : State) (d : Desc) (hp : s.memPoison = []) :
    ((mergeIns (s.mergeParts d)).any (·.poison) || ((s.mergeParts d).filterMap (·.2)).any fun x =>
      some x.idx == mergeStop (s.mergeParts d) && x.poison) = false := by
  rw [Bool.or_eq_false_iff, List.any_eq_false, List.any_eq_false]
  refine ⟨fun x hx => ?_, fun x hx => ?_⟩
  · obtain ⟨p, hpart, hx⟩ := mem_mergeIns hx
    simp [State.mergeParts_clean hp hpart (.inl hx)]
  · obtain ⟨p, hpart, hx⟩ := List.mem_filterMap.mp hx
    simp [State.mergeParts_clean hp hpart (.inr hx)]

/-- MERGE forms good entries, no more than it takes. -/
theorem State.mergeGroups_spec (s : State) (d : Desc) (int32 : Bool) (hp : s.memPoison = []) {groups : List MergeOut}
    (h : mergeGroups int32 (mergeIns (s.mergeParts d)).length (sortAsc 40 (·.idx) (mergeIns (s.mergeParts d))) =
      groups) : (∀ o ∈ groups, o.poison = false) ∧ groups.length ≤ (mergeIns (s.mergeParts d)).length := by
  subst h
  refine ⟨mergeGroups_poison int32 _ fun x hx => ?_, mergeGroups_length_le int32 _ _⟩
  obtain ⟨p, hpart, hx⟩ := mem_mergeIns ((sortAsc_perm _ 40 _).mem_iff.mp hx)
  exact State.mergeParts_clean hp hpart (.inl hx)

/-- Good entries that stop short, or do not (R93). -/
theorem firstStatus_short (short : Bool) :
    firstStatus [0, if short then 0x23 else 0] = 0 ∨ firstStatus [0, if short then 0x23 else 0] = 0x23 := by
  cases short <;> decide

/-- The output entries with no poison mark none. -/
theorem State.mark_clean (s : State) (a : Nat) {l : List (MergeOut × Nat)} (h : ∀ p ∈ l, p.1.poison = false) :
    l.foldl (fun s p => if p.1.poison then s.markPoison (a + 16 * p.2) 16 else s) s = s := by
  induction l with
  | nil => rfl
  | cons p l ih =>
    rw [List.foldl_cons, h p List.mem_cons_self, if_neg Bool.false_ne_true]
    exact ih fun q hq => h q (List.mem_cons_of_mem p hq)

end

/-! ### MERGE -/

/-- The addresses and lengths of MERGE's input lists. -/
def State.mergeRecs (s : State) (d : Desc) : List (Nat × Nat) :=
  (List.range (opBits d 0x30 1 6 0)).map fun i =>
    (s.rdN (opd d 0x20 8 + 16 * i) 8, leNat (s.rd (opd d 0x20 8 + 16 * i + 8) 5))

section
variable {s : State} {l : Live}

theorem State.mergeRecs_any (s : State) (d : Desc) : (s.mergeRecs d).any (fun r => r.1 % 16 != 0) = false ↔
    ∀ i, i < opBits d 0x30 1 6 0 → s.rdN (opd d 0x20 8 + 16 * i) 8 % 16 = 0 := by
  simp [State.mergeRecs, List.any_eq_false]

theorem State.mergeRecs_parts (s : State) (d : Desc) :
    ((s.mergeRecs d).zipIdx.map fun p => inOrderPart (s.mergeList p.2 p.1.1 p.1.2)) = s.mergeParts d := by
  refine List.ext_getElem (by simp [State.mergeRecs, State.mergeParts]) fun i h _ => ?_
  simp [State.mergeRecs, State.mergeParts, State.mergeSrc]

theorem startMerge_refuses (hp : s.memPoison = []) (h : ¬ s.mergeRight l.desc) :
    startMerge l s = s.finish l ⟨0x23, 0, 0, none⟩ := by
  unfold startMerge
  dsimp only
  by_cases hplaced : opBits l.desc 0x30 1 6 0 = 0 ∨ 64 < opBits l.desc 0x30 1 6 0 ∨ opd l.desc 0x20 8 % 64 ≠ 0 ∨
      opd l.desc 0x28 8 % 64 ≠ 0
  · rw [if_pos hplaced]; rfl
  · have hclean : s.poisoned (opd l.desc 0x20 8) (16 * opBits l.desc 0x30 1 6 0) = false := by
      rw [State.poisoned, hp]; rfl
    have hany : (s.mergeRecs l.desc).any (fun r => r.1 % 16 != 0) = true := by
      rw [← Bool.not_eq_false, State.mergeRecs_any]
      exact fun hall => h ⟨by omega, by omega, by omega, by omega, hall⟩
    rw [if_neg hplaced, State.poisoned_of_clean hp, if_neg Bool.false_ne_true]
    exact if_pos hany

theorem startMerge_waits (hp : s.memPoison = []) (h : s.mergeRight l.desc) (hpier : s.freePiers = []) :
    startMerge l s = s := by
  obtain ⟨hpos, hmax, htable, hdst, hall⟩ := h
  have hany := (s.mergeRecs_any l.desc).mpr hall
  unfold startMerge
  dsimp only
  rw [if_neg (by omega), State.poisoned_of_clean hp, if_neg Bool.false_ne_true]
  exact (if_neg (Bool.eq_false_iff.mp hany)).trans (if_pos hpier)

/-- A MERGE of good lists that a Pier takes: it counts, and its list is written; the status is OK when no list is out of
order and the union fits (R91-R93). -/
theorem startMerge_clean (hp : s.memPoison = []) (h : s.mergeRight l.desc) (hpier : s.freePiers ≠ []) :
    ∃ v bs n nf st, s.countsAtPiers v ∧ ListBytes n bs ∧ n ≤ opd l.desc 0x34 4 ∧
      startMerge l s = (v.wr (opd l.desc 0x28 8) bs).finish l ⟨st, 0, 0, nf⟩ ∧ (st = 0 ∨ st = 0x23) ∧
      (mergeStop (s.mergeParts l.desc) = none →
        (mergeIns (s.mergeParts l.desc)).length ≤ opd l.desc 0x34 4 → st = 0) := by
  obtain ⟨hpos, hmax, htable, hdst, hall⟩ := h
  have hany := (s.mergeRecs_any l.desc).mpr hall
  have hparts := s.mergeRecs_parts l.desc
  unfold startMerge
  dsimp only
  rw [if_neg (by omega), State.poisoned_of_clean hp, if_neg Bool.false_ne_true]
  generalize hrecs : List.map _ (List.range _) = recs
  replace hrecs : s.mergeRecs l.desc = recs := hrecs
  rw [hrecs] at hany hparts
  rw [hany, if_neg Bool.false_ne_true, if_neg hpier, hparts]
  generalize hgroups : mergeGroups _ _ _ = groups
  generalize hbad : (List.any _ _ || List.any _ _) = bad
  obtain rfl : bad = false := hbad.symm.trans (s.merge_good l.desc hp)
  obtain ⟨hgood, hlen⟩ := s.mergeGroups_spec l.desc _ hp hgroups
  rw [State.mark_clean _ _ fun p h => hgood p.1 (List.mem_of_mem_take (List.fst_mem_of_mem_zipIdx h))]
  have hcount := State.countsAtPiers_trans s.countsAtPiers_takePier (State.countsAtPiers_bump _ (off := 0x9C)
    (((groups.take (opd l.desc 0x34 4)).map (·.flush)).sum) s.takePier_lt (by decide))
  refine ⟨_, _, _, _, _, hcount, listBytes_summary _ MergeOut.idx MergeOut.val _ _ _ _ _ _, List.length_take_le _ _,
    rfl, ?_, fun hnone hfit => ?_⟩
  · exact firstStatus_short _
  · change leastOf _ = none at hnone
    rw [hnone, List.length_take, Nat.min_eq_right (by omega)]
    simp [firstStatus]

end

/-! ### Over the memory that the command found -/

section
variable {s t : State}

/-- States with one memory and one poison have the same lists for MERGE. -/
theorem State.mergeSrc_congr (h : t.mem = s.mem) (hp : t.memPoison = s.memPoison) (d : Desc) (i : Nat) :
    t.mergeSrc d i = s.mergeSrc d i := by
  simp only [State.mergeSrc, State.mergeList, State.rdN, State.rd, State.poisoned, h, hp]

theorem State.mergeRight_congr (h : t.mem = s.mem) (d : Desc) : t.mergeRight d ↔ s.mergeRight d := by
  simp only [State.mergeRight, State.rdN, State.rd, h]

theorem State.memBut_congr {a n : Nat} {v : State} (h : t.mem = s.mem) (hv : t.memBut v a n) : s.memBut v a n :=
  fun b hb => by rw [hv b hb, h]

end

/-- A MERGE that a Pier takes, as its list stands afterwards. -/
theorem startMerge_writes {s : State} {l : Live} (hp : s.memPoison = []) (hwf : s.mem.wf = true)
    (h : s.mergeRight l.desc) (hpier : s.freePiers ≠ []) :
    ∃ v st nf, startMerge l s = v.finish l ⟨st, 0, 0, nf⟩ ∧
      s.computes v ∧ s.regsIn v pierPage ∧ v.cb = s.cb ∧
      v.memPoison = [] ∧ (st = 0 ∨ st = 0x23) ∧ leNat (v.rd (opd l.desc 0x28 8) 5) ≤ opd l.desc 0x34 4 ∧
      s.memBut v (opd l.desc 0x28 8) (64 + 16 * opd l.desc 0x34 4) ∧
      ((∀ i, i < opBits l.desc 0x30 1 6 0 → (s.mergeSrc l.desc i).Pairwise fun a b => a.idx < b.idx) →
        ((List.range (opBits l.desc 0x30 1 6 0)).map fun i => (s.mergeSrc l.desc i).length).sum ≤ opd l.desc 0x34 4 →
        st = 0) := by
  obtain ⟨v, bs, n, nf, st, hv, hbs, hn, hstart, hst, hok⟩ := startMerge_clean hp h hpier
  have hcap : opd l.desc 0x34 4 < 2 ^ 32 := opd_lt l.desc 0x34 4
  have hmem : v.mem = s.mem := by rw [hv.1]
  have hpoison : v.memPoison = [] := by rw [hv.1]; exact hp
  obtain ⟨hcomp, hregs, hcb⟩ := hv.computes_wr (opd l.desc 0x28 8) bs
  obtain ⟨hcount, hbut⟩ := v.wr_list (opd l.desc 0x28 8) (hmem ▸ hwf) hbs (by omega)
  refine ⟨_, st, nf, hstart, hcomp, hregs, hcb, ?_, hst, hcount ▸ hn, fun b hb => ?_, fun hrise hfit => ?_⟩
  · rw [State.wr, hpoison]; rfl
  · rw [hbut b (by omega), hmem]
  · obtain ⟨hstop, hlen⟩ := State.mergeIns_of_rising hrise
    exact hok hstop (hlen ▸ hfit)

/-- Settles O28: each command begins over the memory that it found; SELECT picks from each chunk as many entries as its
share of K or as the chunk has (`pick_has_length`, `sum_sharesOfK`), and MERGE forms no more entries than it takes. -/
theorem selectAndMergeWriteTheirLists : Obligations.SelectAndMergeWriteTheirLists := by
  intro s d hp hwf
  refine ⟨fun hgo => ?_, fun hgo => ?_⟩
  · have hexec : exec (.select d) s = .next (startSelect (s.begun 0x03 d).1 (s.begun 0x03 d).2) := by
      rw [exec_select, execSelect, State.runDesc_goes _ hgo]
    obtain ⟨hdesc, hmem, hpoison⟩ := s.begun_memory 0x03 d
    generalize (s.begun 0x03 d).1 = l at hexec hdesc ⊢
    generalize (s.begun 0x03 d).2 = u at hexec hmem hpoison ⊢
    subst hdesc
    rw [hp] at hpoison
    dsimp only
    rw [hexec, ← State.firstNf_selAll]
    refine ⟨fun st h => by rw [startSelect_refuses h], fun h hpier => by rw [startSelect_waits h hpier],
      fun h hpier hgood => ?_, fun h hpier hnf hkeep => ?_⟩
    · obtain ⟨v, n, passes, st, hstart, hcomp, hregs, hcb, hle, hst, hfull, hcount, hbut⟩ :=
        startSelect_writes hpoison (hmem ▸ hwf) h hpier hgood
      exact ⟨v, n, passes, st, _, by rw [hstart], hcomp, hregs, hcb, Iff.rfl, hle, hst, hfull, hcount,
        State.memBut_congr hmem hbut⟩
    · obtain ⟨v, nf, hstart, hcomp, hregs, hkept⟩ := startSelect_aborts hpoison h hpier hnf hkeep
      exact ⟨v, nf, by rw [hstart], hcomp, hregs, hkept.trans hmem⟩
  · have hexec : exec (.merge d) s = .next (startMerge (s.begun 0x05 d).1 (s.begun 0x05 d).2) := by
      rw [exec_merge, execMerge, State.runDesc_goes _ hgo]
    obtain ⟨hdesc, hmem, hpoison⟩ := s.begun_memory 0x05 d
    generalize (s.begun 0x05 d).1 = l at hexec hdesc ⊢
    generalize (s.begun 0x05 d).2 = u at hexec hmem hpoison ⊢
    subst hdesc
    have hright := State.mergeRight_congr hmem l.desc
    have hsrc := State.mergeSrc_congr hmem hpoison l.desc
    rw [hp] at hpoison
    dsimp only
    rw [hexec]
    refine ⟨fun h => by rw [startMerge_refuses hpoison (fun hr => h (hright.mp hr))],
      fun h hpier => by rw [startMerge_waits hpoison (hright.mpr h) hpier], fun h hpier => ?_⟩
    obtain ⟨v, st, nf, hstart, hcomp, hregs, hcb, hclean, hst, hcount, hbut, hok⟩ :=
      startMerge_writes hpoison (hmem ▸ hwf) (hright.mpr h) hpier
    simp only [hsrc] at hok
    exact ⟨v, st, nf, by rw [hstart], hcomp, hregs, hcb, hclean, hst, hcount, State.memBut_congr hmem hbut, hok⟩

end Sys2Proof.Machine
end

section
/-! EXPAND over a coded block whose table has gone bad both at its Pier and in the context SRAM (R33, R155): the master's
uncorrectable word is counted on AK_RMA's page, so registers of a page that is no Pier's, nor AK_TBL's, change. -/

namespace Sys2Proof.Machine

/-! ### The registers that the reading of a block changes -/

/-- The pages whose registers EXPAND is said to change: the Piers', the table page and the top page. -/
def expandPage (n : Nat) : Bool := pierPage n || n == 5 || n == 0

theorem expandPage_pierReg {n off : Nat} (hn : n < 32) (ho : off < 4096) :
    expandPage (regAddr (0x10 + n) off / 4096) = true := by
  rw [expandPage, pierPage_regAddr hn ho]; rfl

theorem State.regsIn_putLog16 (s : State) {p : Nat → Bool} {cnt head first : Nat} {words : List Nat}
    (hc : p (cnt / 4096) = true) (hh : p (head / 4096) = true)
    (hw : ∀ h i, h < 16 → i < words.length → p ((first + 4 * words.length * h + 4 * i) / 4096) = true) :
    s.regsIn (s.putLog16 cnt head first words) p := by
  have hwords : s.regsIn (words.zipIdx.foldl (fun (t : State) x =>
      t.setReg (first + 4 * words.length * (s.reg head % 16) + 4 * x.2) x.1) s) p :=
    State.regsIn_foldl _ s fun t x hx => State.regsIn_setReg _ <|
      hw _ _ (Nat.mod_lt _ (by decide)) (by simpa using List.snd_lt_of_mem_zipIdx hx)
  exact State.regsIn_trans hwords (State.regsIn_trans (State.regsIn_setReg _ hh) (State.regsIn_bump 1 hc))

/-- A rejection is logged on AK_TBL, and its message may stay pending (R156, R166). -/
theorem State.regsIn_logReject (s : State) (op st : Nat) (d : SpanData) (off base : Nat) :
    s.regsIn (s.logReject op st d off base) expandPage := by
  refine State.regsIn_trans (s.regsIn_putLog16 (by decide) (by decide) fun h i hh hi => ?_)
    (State.regsIn_of_regsBut (State.raiseIrq_regsBut _ 5 1) (by decide))
  have hpage : (R.tblLog 0 + 4 * 8 * h + 4 * i) / 4096 = 5 := by
    have hi : i < 8 := hi
    simp only [R.tblLog, regAddr]
    omega
  exact congrArg expandPage hpage

/-- Beyond the copy that a coded block may have its Pier read again, a block counts at its Pier and may be logged. -/
theorem State.regsIn_noteBlock (s : State) (op : Nat) (d : SpanData) {n : Nat} (b : ReadBlock) (hn : n < 32) :
    (if b.hdr.btype = 1 then s.reload n b.hdr.slot else s).regsIn (s.noteBlock op d n b) expandPage := by
  unfold State.noteBlock State.countDecode
  dsimp only
  generalize (if b.hdr.btype = 1 then s.reload n b.hdr.slot else s) = v
  have hbump (t : State) {off : Nat} (ho : off < 4096) : t.regsIn (t.bump (regAddr (0x10 + n) off)) expandPage :=
    State.regsIn_bump 1 (expandPage_pierReg hn ho)
  cases b.res with
  | ok es => exact hbump v (off := 0xD4) (by decide)
  | error st =>
    refine State.regsIn_trans ?_ (State.regsIn_logReject _ op st d b.off b.hdr.base)
    refine State.regsIn_trans (hbump v (off := 0xD8) (by decide)) ?_
    dsimp only
    split
    · exact hbump _ (off := 0xDC) (by decide)
    · split
      · exact hbump _ (off := 0xE0) (by decide)
      · split
        · exact hbump _ (off := 0xE4) (by decide)
        · exact fun _ _ => rfl

/-- R33, R155: a copy that went bad is counted at its Pier; a master that went bad too, at the context SRAM. -/
theorem State.reg_reload_bothBad (s : State) {n k : Nat} {c : TblSlot} (hn : n < 32)
    (hc : (nth s.piers n [])[k]? = some c) (hbad : c.bad = true) (hm : (s.tbl k).bad = true) :
    (s.reload n k).reg (R.hdrErrCntUe 0x70) = min (s.reg (R.hdrErrCntUe 0x70) + 1) 0xFFFFFFFF := by
  have hpier : (s.countUe (.pier n) (10 * k)).reg (R.hdrErrCntUe 0x70) = s.reg (R.hdrErrCntUe 0x70) := by
    refine s.countUe_regsBut _ _ _ ?_
    simp only [errRegs, Sram.page, R.hdrErrCntCe, R.hdrErrCntUe, R.hdrErrFirst, R.hdrErrFirstInfo, regAddr,
      List.mem_cons, List.not_mem_nil, or_false, not_or]
    omega
  have htbl : ((s.countUe (.pier n) (10 * k)).tbl k).bad = true := by rw [State.tbl, State.countUe_q]; exact hm
  unfold State.reload
  rw [hc]
  dsimp only
  rw [hbad, if_neg (by decide), htbl, if_pos rfl, State.countUe, State.reg_errFirst_other _ _ _ (by decide) (by decide)]
  exact (State.reg_bump_same _ (by decide)).trans (congrArg (fun x => min (x + 1) 0xFFFFFFFF) hpier)

/-! ### EXPAND of a span of one block -/

/-- What is read of a span whose header names one block. -/
theorem readBlocks_single (a : Accept) {d : SpanData} (h : (parseSpanHdr d.raw).blockCount = 1) :
    readBlocks a d = [checkBlock a (parseSpanHdr d.raw) d 0 64] := by
  rw [readBlocks, h, walkBlocks]
  split <;> rfl

/-- The state in which a block of EXPAND is counted and noted at its Pier (R157, R167). -/
def State.expandNoted (s : State) (op : Nat) (d : SpanData) (n : Nat) (b : ReadBlock) (vals : List OutVal) : State :=
  ((s.bump (R.pierFlush n) ((vals.map (·.flush)).sum)).bump (R.pierExpSat n) ((vals.filter (·.sat)).length)).noteBlock
    op d n b

/-- All of a state but host memory. -/
def State.offMemory (s : State) : State := { s with mem := [], memPoison := [] }

theorem State.fields_of_offMemory {s t : State} (h : s.offMemory = t.offMemory) :
    s.regs = t.regs ∧ s.q = t.q ∧ s.cb = t.cb :=
  ⟨(congrArg State.regs h :), (congrArg State.q h :), (congrArg State.cb h :)⟩

/-- EXPAND of a span of one block finishes in a state that differs in host memory alone from the one that noted the
block, but for a flush counted at the Pier. -/
theorem State.expandRun_single (s : State) (l : Live) {d : SpanData} (out : Nat) (level1 fill : Bool) (dst : Nat)
    (hb : d.blocks = 1) (hc : (parseSpanHdr d.raw).blockCount = 1) :
    ∃ (w : State) (r : Result) (b : ReadBlock) (vals : List OutVal) (k : Nat),
      s.expandRun l d out level1 fill dst = w.finish l r ∧ b.hdr = parseBlkHdr (sub d.raw 64 64) ∧
      w.offMemory = ((s.takePier.2.expandNoted l.op d s.takePier.1 b vals).bump
        (R.pierFlush s.takePier.1) k).offMemory := by
  have hpick (n : Nat) : s.pickPiers n d =
      (⟨n, [s.takePier.1].map s.takePier.2.pierTables⟩, [s.takePier.1], s.takePier.2) := by
    rw [State.pickPiers, hb]; rfl
  unfold State.expandRun
  simp only [hpick, readBlocks_single _ hc, List.zip_cons_cons, List.zip_nil_right, List.foldl_cons, List.foldl_nil]
  generalize hblock : checkBlock _ _ d 0 64 = b
  refine ⟨_, _, b, (blockOut (parseSpanHdr d.raw) out b).map (·.2),
    if out = 0 then 0 else scaleFlush (parseSpanHdr d.raw).scale, rfl, hblock ▸ rfl, ?_⟩
  refine (foldl_keeps State.offMemory _ _ _ ?_).trans (foldl_keeps State.offMemory _ _ _ ?_)
  all_goals exact fun _ _ => rfl

theorem State.readsBack_noteBlock (s : State) (op : Nat) (d : SpanData) (n : Nat) (b : ReadBlock) :
    s.readsBack (s.noteBlock op d n b) := by
  unfold State.noteBlock
  dsimp only
  cases b.res with
  | ok es => exact s.readsBack_countDecode n b
  | error st => exact State.readsBack_trans (s.readsBack_countDecode n b) (State.readsBack_tblLog _ _)

theorem State.readsBack_expandNoted (s : State) (op : Nat) (d : SpanData) (n : Nat) (b : ReadBlock)
    (vals : List OutVal) : s.readsBack (s.expandNoted op d n b vals) :=
  State.readsBack_trans (s.readsBack_bump (R.pierFlush n) _)
    (State.readsBack_trans (State.readsBack_bump _ (R.pierExpSat n) _) (State.readsBack_noteBlock _ op d n b))

/-- A coded block whose Pier's copy and master are both bad is counted at the context SRAM's page. -/
theorem State.reg_expandNoted_bothBad (s : State) (op : Nat) (d : SpanData) {n k : Nat} {b : ReadBlock} {c : TblSlot}
    (vals : List OutVal) (hn : n < 32) (hcoded : b.hdr.btype = 1) (hslot : b.hdr.slot = k)
    (hc : (nth s.piers n [])[k]? = some c) (hbad : c.bad = true) (hm : (s.tbl k).bad = true) :
    (s.expandNoted op d n b vals).reg (R.hdrErrCntUe 0x70) = min (s.reg (R.hdrErrCntUe 0x70) + 1) 0xFFFFFFFF := by
  unfold State.expandNoted
  generalize hv : State.bump (State.bump s _ _) _ _ = v
  have hreg : v.reg (R.hdrErrCntUe 0x70) = s.reg (R.hdrErrCntUe 0x70) := by
    subst hv
    exact State.regsIn_trans (State.regsIn_bump _ (expandPage_pierReg hn (by decide)))
      (State.regsIn_bump _ (expandPage_pierReg hn (by decide))) _ (by decide)
  have hpiers : v.piers = s.piers := by subst hv; simp
  have hq : v.q = s.q := by subst hv; simp
  have hload := v.reg_reload_bothBad hn (hpiers ▸ hc) hbad (by rw [State.tbl, hq]; exact hm)
  rw [v.regsIn_noteBlock op d b hn _ (by decide), if_pos hcoded, hslot, hload, hreg]

/-! ### The counterexample -/

/-- A loaded table a word of which is uncorrectable. -/
def spoiledSlot : TblSlot := ⟨.loaded, 1, 0, 258, 0, List.replicate 258 8, [], true⟩

/-- A span of one BF16 element in one block coded with slot 0. -/
def codedSpan : Bytes :=
  let h : SpanHdr :=
    { version := 2, kind := 1, mode := 1, fmt := 6, owner := false, nf := false, partly := false, stoch := false
      scale := 0x3F800000, length := 1, mag := 0, chunkKi := 1, k := 1, blockCount := 1, group := 0, channel := 0
      step := 0, seq := 0, node := 0, outCount := 0, slot := 0, coded := true, gen := 1, rowLen := 0, outOff := 0
      bytes := 144 }
  let b : BlkHdr :=
    { version := 2, kind := 2, last := true, sparse := false, btype := 1, fmt := 6, slot := 0, gen := 1, w := 0
      count := 1, base := 0, expSize := 2, coded := 16, subLen := 1 :: List.replicate 15 0, rawLen := 1 }
  h.toBytes ++ b.seal (zeros 16)

/-- Every island runs, the span lies at 0x2000, and the copy of slot 0 at every Pier and its master are bad. -/
def spoiledState : State :=
  { State.reset with
    mem := Memory.writeN [] 0x2000 codedSpan
    regs := [(R.kstnState, 0x20000001)]
    piers := List.replicate 32 [spoiledSlot]
    q := { QState.reset with tables := spoiledSlot :: List.replicate 15 ⟨.free, 0, 0, 0, 0, [], [], false⟩ }
    pwr := { Pwr.reset with islands := List.replicate 69 (Island.reset true) } }

/-- EXPAND of the span at 0x2000 to one FP32 element at 0x9000, without a counter. -/
def spoiledDesc : Desc :=
  { src := .ring 0, prio := 0, fencePrev := false, irq := false, errOnly := false, group := 0, channel := 0, cq := 0
    seq := 0, trigThresh := 0, trigCtr := 0, doneCtr := 0, trigEn := false, doneEn := false, doneAny := false, tag := 0
    ppSlot := 0, ops := toLE 32 (0x2000 + 0x9000 * 2 ^ 64 + 2 ^ 128 + 0x80 * 2 ^ 168) }

/-- The outstanding descriptor of the counterexample and the state it begins in. -/
def spoiledLive : Live := (spoiledState.begun 0x04 spoiledDesc).1
def spoiledBegun : State := (spoiledState.begun 0x04 spoiledDesc).2

theorem spoiledState_goes : spoiledState.goes 0x04 spoiledDesc = true := by decide +kernel

theorem spoiledSpan_passes : checkSpanHdr (spoiledState.accept 2) (spoiledState.hostSpan 0x2000) = none ∧
    expandShape (parseSpanHdr (spoiledState.hostSpan 0x2000).raw) false false false 8 1 = none := by decide +kernel

theorem spoiledDesc_operands : opd spoiledDesc 0x20 8 = 0x2000 ∧ opd spoiledDesc 0x28 8 = 0x9000 ∧
    opBits spoiledDesc 0x35 1 7 4 = 8 ∧ opd spoiledDesc 0x30 5 = 1 ∧ opBit spoiledDesc 0x35 3 = false ∧
    opBit spoiledDesc 0x35 2 = false := by decide +kernel

theorem spoiledSpan_block : (spoiledState.hostSpan 0x2000).blocks = 1 ∧
    (parseSpanHdr (spoiledState.hostSpan 0x2000).raw).blockCount = 1 ∧
    (parseBlkHdr (sub (spoiledState.hostSpan 0x2000).raw 64 64)).btype = 1 ∧
    (parseBlkHdr (sub (spoiledState.hostSpan 0x2000).raw 64 64)).slot = 0 := by decide +kernel

theorem spoiledBegun_fields : spoiledBegun.freePiers ≠ [] ∧ spoiledBegun.cb = [] ∧ spoiledBegun.ctx = [] ∧
    spoiledBegun.q.live = [spoiledLive] ∧ (spoiledBegun.tbl 0).bad = true ∧
    spoiledBegun.piers = List.replicate 32 [spoiledSlot] ∧ spoiledBegun.reg (R.hdrErrCntUe 0x70) = 0 ∧
    spoiledLive.op = 0x04 ∧ spoiledLive.desc = spoiledDesc ∧ spoiledLive.credit = false := by decide +kernel

/-- A descriptor outstanding alone, without a credit and a counter, completes with a record dropped or kept back: of the
registers it leaves all but those of the drop (R242). -/
theorem State.reg_finish_alone {s : State} {l : Live} (r : Result) {a : Nat} (hcb : s.cb = []) (hlive : s.q.live = [l])
    (hcredit : l.credit = false) (hdone : l.desc.doneEn = false) (ha : a ∉ R.qmgrCqDropCnt :: irqRegs 7) :
    (s.finish l r).reg a = s.reg a := by
  have hraises : l.raises r = false := by rw [Live.raises, hdone]; rfl
  have hretired : s.retired l = { s with touched := s.touched.filter fun p => p.1 != l.id
                                         q := { s.q with live := [] } } := by
    unfold State.retired
    rw [hcredit, hlive]
    simp
  have hcomplete : s.completeOne l r = (s.retired l).reported l r := by
    rw [State.completeOne_eq l r hcb, State.doneRaised, hraises]; rfl
  have hreported : (s.retired l).regsBut ((s.retired l).reported l r) (R.qmgrCqDropCnt :: irqRegs 7) ∧
      ((s.retired l).reported l r).q = (s.retired l).q := by
    cases hq : l.quiet r with
    | true => rw [State.reported_quiet _ hq]; exact ⟨fun _ _ => rfl, rfl⟩
    | false =>
      rw [State.reported_dropped _ hq hcredit]
      exact ⟨State.regsBut_trans (State.regsBut_bump _ 1 List.mem_cons_self)
        (State.regsBut_mono (State.raiseIrq_regsBut _ 7 4) fun _ => List.mem_cons_of_mem _),
      by simp [State.dropRecord]⟩
  have hnone : (s.completeOne l r).q.live.length = 0 := by rw [hcomplete, hreported.2, hretired]; rfl
  unfold State.finish
  dsimp only
  rw [hnone, State.settle, hcomplete, hreported.1 a ha, hretired]
  rfl

theorem exec_spoiledExpand : exec (.expand spoiledDesc) spoiledState =
    .next (spoiledBegun.startRead spoiledLive false) := by
  rw [exec_expand, execExpand, State.runDesc_goes startExpand spoiledState_goes]
  rfl

/-- The span that the counterexample reads. -/
def spoiledSpan : SpanData := spoiledState.hostSpan 0x2000

theorem spoiledBegun_reads : spoiledBegun.hostSpan 0x2000 = spoiledSpan ∧
    spoiledBegun.accept 2 = spoiledState.accept 2 := by decide +kernel

/-- The checks of the counterexample's EXPAND pass, and it runs. -/
theorem spoiledExpand_runs : spoiledBegun.startRead spoiledLive false =
    spoiledBegun.expandRun spoiledLive spoiledSpan 8 false false 0x9000 := by
  obtain ⟨haddr, hdst, hout, hcap, hlevel, hfill⟩ := spoiledDesc_operands
  obtain ⟨hfree, -, -, -, -, -, -, -, hdesc, -⟩ := spoiledBegun_fields
  obtain ⟨hspan, haccept⟩ := spoiledBegun_reads
  obtain ⟨hheader, hshape⟩ := spoiledSpan_passes
  unfold State.startRead
  simp only [hdesc, haddr, hdst, hout, hcap, hlevel, hfill, hspan, Bool.false_eq_true, if_false, haccept]
  simp [hfree, spoiledSpan, hheader, hshape]

/-- The counterexample's EXPAND reads its block, which is counted at the context SRAM's page. -/
theorem spoiledExpand_counts : ∃ (w : State) (r : Result),
    spoiledBegun.startRead spoiledLive false = w.finish spoiledLive r ∧ w.cb = [] ∧ w.q.live = [spoiledLive] ∧
    w.reg (R.hdrErrCntUe 0x70) = 1 := by
  obtain ⟨hblocks, hcount, hcoded, hslot⟩ := spoiledSpan_block
  obtain ⟨-, hcb, -, hlive, hmaster, hpiers, hzero, -, -, -⟩ := spoiledBegun_fields
  obtain ⟨w, r, b, vals, k, hrun, hhdr, hw⟩ :=
    spoiledBegun.expandRun_single spoiledLive (d := spoiledSpan) 8 false false 0x9000 hblocks hcount
  have hlt := spoiledBegun.takePier_lt
  generalize spoiledBegun.takePier.1 = n at hw hlt
  generalize hv : State.expandNoted _ _ _ _ _ _ = v at hw
  have hcopy : (nth spoiledBegun.takePier.2.piers n [])[0]? = some spoiledSlot := by
    rw [show spoiledBegun.takePier.2.piers = spoiledBegun.piers from rfl, hpiers, nth]
    rw [List.getElem?_replicate, if_pos hlt]
    rfl
  have hreg := spoiledBegun.takePier.2.reg_expandNoted_bothBad spoiledLive.op spoiledSpan vals hlt
    (hhdr ▸ hcoded) (hhdr ▸ hslot) hcopy rfl hmaster
  have hback := spoiledBegun.takePier.2.readsBack_expandNoted spoiledLive.op spoiledSpan n b vals
  rw [hv] at hreg hback
  obtain ⟨hregs', hq', hcb'⟩ := State.fields_of_offMemory hw
  refine ⟨w, r, spoiledExpand_runs.trans hrun, ?_, ?_, ?_⟩
  · calc w.cb = v.cb := hcb'.trans (v.bump_cb _ k)
      _ = [] := by rw [hback]; exact hcb
  · calc w.q.live = v.q.live := congrArg QState.live (hq'.trans (v.bump_q _ k))
      _ = [spoiledLive] := by rw [hback]; exact hlive
  · calc w.reg (R.hdrErrCntUe 0x70) = (v.bump (R.pierFlush n) k).reg (R.hdrErrCntUe 0x70) := by
          rw [State.reg, State.reg, hregs']
      _ = v.reg (R.hdrErrCntUe 0x70) := State.regsIn_bump k (expandPage_pierReg hlt (by decide)) _ (by decide)
      _ = min (spoiledBegun.reg (R.hdrErrCntUe 0x70) + 1) 0xFFFFFFFF := hreg
      _ = 1 := by rw [hzero]; rfl

/-- Refutes O30: of a coded block whose Pier's copy and master are both bad the master's word is counted in ERR_CNT_UE of
AK_RMA's page, which is no Pier's, nor AK_TBL's, nor the top page. -/
theorem not_expandLoadAndSaveStayWithinTheirOutput : ¬ Obligations.ExpandLoadAndSaveStayWithinTheirOutput := by
  unfold Obligations.ExpandLoadAndSaveStayWithinTheirOutput
  intro h
  obtain ⟨haddr, hdst, hout, hcap, hlevel, hfill⟩ := spoiledDesc_operands
  obtain ⟨hfree, hcb, -, hlive, -, -, hzero, -, hdesc, hcredit⟩ := spoiledBegun_fields
  obtain ⟨hheader, hshape⟩ := spoiledSpan_passes
  have hdone : spoiledLive.desc.doneEn = false := by rw [hdesc]; rfl
  obtain ⟨hexpand, -⟩ := h spoiledState spoiledDesc false
  obtain ⟨-, -, -, hread⟩ := hexpand spoiledState_goes
  simp only [haddr, hdst, hout, hcap, hlevel, hfill] at hread
  obtain ⟨-, -, hends⟩ := hread (by decide) (by decide) hfree
  obtain ⟨v, st, n, nf, hexec, hcomputes, hregs, hvcb, -⟩ := hends hheader hshape
  obtain ⟨w, r, hw, hwcb, hwlive, hone⟩ := spoiledExpand_counts
  have hsame : w.finish spoiledLive r = v.finish spoiledLive ⟨st, n, 0, nf⟩ := by
    rw [← hw]
    exact Host.Outcome.next.inj (exec_spoiledExpand.symm.trans hexec)
  have hvlive : v.q.live = [spoiledLive] := by rw [hcomputes.1]; exact hlive
  have hv := State.reg_finish_alone (a := R.hdrErrCntUe 0x70) ⟨st, n, 0, nf⟩ (hvcb.trans hcb)
    hvlive hcredit hdone (by decide)
  have hw' := State.reg_finish_alone (a := R.hdrErrCntUe 0x70) r hwcb hwlive hcredit hdone (by decide)
  have hkept : v.reg (R.hdrErrCntUe 0x70) = 0 := (hregs _ (by decide)).trans hzero
  rw [hsame, hv, hkept, hone] at hw'
  exact absurd hw' (by decide)

end Sys2Proof.Machine
end

section
/-! The statistics slots (R117): STAT_SEL copies one into the read buffer, STAT_CLEAR zeroes one or all. -/

namespace Sys2Proof.Machine

theorem zeroBins_all : zeroBins.all (· == 0) = true := List.all_replicate.trans rfl

/-- The listed entry of slot n among those that pass a test of the slot: all of them when n passes, else none. -/
theorem find?_slot_filter (l : List StatSlot) (p : Nat → Bool) (n : Nat) :
    (l.filter fun x => p x.slot).find? (fun x => x.slot == n) =
      if p n then l.find? (fun x => x.slot == n) else none := by
  rw [List.find?_filter]
  split
  · next hp =>
    refine List.find?_congr fun x _ => ?_
    by_cases hx : x.slot = n <;> simp [hx, hp]
  · next hp =>
    rw [List.find?_eq_none]
    rintro x - hx
    simp only [beq_iff_eq, decide_eq_true_eq] at hx
    exact hp (hx.2 ▸ hx.1)

/-- A slot set to zero is listed no longer and reads as zero; every other slot reads as before. -/
theorem State.statBins_setStat_zero (s : State) (slot n : Nat) :
    (s.setStat slot zeroBins).statBins n = if n = slot then zeroBins else s.statBins n := by
  have hstats : (s.setStat slot zeroBins).q.stats =
      ((s.q.stats.filter fun x => x.slot != slot).filter fun x => decide (x.slot < slot)) ++
      ((s.q.stats.filter fun x => x.slot != slot).filter fun x => decide (slot < x.slot)) := by
    simp only [State.setStat, zeroBins_all, if_true, List.append_nil]
  unfold State.statBins
  rw [hstats, List.find?_append, find?_slot_filter _ (fun k => decide (k < slot)),
    find?_slot_filter _ (fun k => decide (slot < k)), find?_slot_filter _ (· != slot)]
  rcases Nat.lt_trichotomy n slot with h | h | h
  · simp [h, Nat.ne_of_lt h, Nat.lt_asymm h]
  · simp [h]
  · simp [h, Nat.ne_of_gt h, Nat.lt_asymm h]

/-- STAT_CLEAR changes the slots' counters alone: every one under ALL, else the one named (R117). -/
theorem clearStat_spec (v : Word) (s : State) :
    clearStat v s = { s with q := { s.q with stats := (clearStat v s).q.stats } } ∧
    ∀ n, (clearStat v s).statBins n = if v.getLsbD 31 || n == v.toNat % 64 then zeroBins else s.statBins n := by
  unfold clearStat
  cases v.getLsbD 31 with
  | true => exact ⟨rfl, fun _ => rfl⟩
  | false => exact ⟨rfl, fun n => (s.statBins_setStat_zero _ n).trans (by simp)⟩

theorem exec_statClear_ready {s : State} {v : Word} {c : Instr} (hc : c ∈ [Instr.statClearSlot v, Instr.statClearAll v])
    (hr : s.pageReady 8 = true) : exec c s = .next (clearStat v s) := by
  rcases List.mem_pair.mp hc with rfl | rfl
  · rw [exec_statClearSlot, execStatClearSlot, State.atPage_ready _ hr]
  · rw [exec_statClearAll, execStatClearAll, State.atPage_ready _ hr]

/-- Settles O8: STAT_SEL stores the slot's number and copies its counters; a cleared slot is listed no longer. -/
theorem statisticsSlotsCopyAndClear : Obligations.StatisticsSlotsCopyAndClear := by
  unfold Obligations.StatisticsSlotsCopyAndClear
  intro s v hr
  refine ⟨⟨selectStat v s, ?_, rfl, rfl, ?_, ?_⟩, fun c hc => ⟨clearStat v s, exec_statClear_ready hc hr, clearStat_spec v s⟩⟩
  · rw [exec_statSel, execStatSel, State.atPage_ready _ hr]
  · exact (s.reg_setReg_same R.statSel _).trans (Nat.mod_eq_of_lt (by omega))
  · exact s.regsBut_setReg _ (List.mem_singleton_self _)

end Sys2Proof.Machine
end

section
/-! A receive role on a channel past a group's 32 (R172, R230): what it reads as LAST_SEQ lies behind the group's
context, here in a completion queue's credits, and its dispatch takes one of those. -/

namespace Sys2Proof.Machine

/-- Fields of an entry stored one after another. -/
def State.setFlds (s : State) (base : Nat) (l : List (Fld × Nat)) : State :=
  l.foldl (fun s x => s.setFld base x.1 x.2) s

/-- Every island runs, group 4095 has this chip as its one member, stream 0 is one of its dense streams of four
elements, and completion queue 0 is enabled with room for two records. -/
def lastGroupState : State :=
  let s : State := { State.reset with
    regs := [(R.kstnState, 0x20000001)]
    pwr := { Pwr.reset with islands := List.replicate 69 (Island.reset true) } }
  let s := s.setFlds (grpBase 4095) [(Grp.nMembers, 1)]
  let s := s.setFlds (strmBase 0) [(Strm.mode, 1), (Strm.gFmt, 8), (Strm.codeFmt, 6), (Strm.scaleSrc, 2),
    (Strm.group, 4095), (Strm.length, 4), (Strm.chunkKi, 1)]
  s.setFlds (cqBase 0) [(Cq.enable, 1), (Cq.log2Size, 1)]

/-- The receive role of ACCUM on channel 53 of group 4095, 2^31 sequences past LAST_SEQ, which reports to completion
queue 0. -/
def pastChannelDesc : Desc :=
  { src := .ring 0, prio := 0, fencePrev := false, irq := false, errOnly := false, group := 4095, channel := 53, cq := 0
    seq := 0x80000001, trigThresh := 0, trigCtr := 0, doneCtr := 0, trigEn := false, doneEn := false, doneAny := false
    tag := 0, ppSlot := 0, ops := toLE 32 (5 * 2 ^ 16 + 0x7000 * 2 ^ 64) }

/-- What channel 53 of group 4095 has as LAST_SEQ is RESV of completion queue 0. -/
theorem lastSeq_pastChannel : grpBase 4095 + (Grp.lastSeq 53).off = cqBase 0 + Cq.resv.off := rfl

/-- The outstanding descriptor of the counterexample and the state it begins in. -/
def pastChannelLive : Live := (lastGroupState.begun 0x13 pastChannelDesc).1
def pastChannelBegun : State := (lastGroupState.begun 0x13 pastChannelDesc).2

theorem pastChannel_goes : lastGroupState.cleanTables = true ∧ lastGroupState.ctx.wf = true ∧
    lastGroupState.q.live = [] ∧ lastGroupState.q.inbound = [] ∧ lastGroupState.goes 0x13 pastChannelDesc = true ∧
    opBit pastChannelDesc 0x22 0 = true := by decide +kernel

theorem pastChannel_passes :
    recvFormatOk 0x13 (recvOps pastChannelDesc) (lastGroupState.stream (recvOps pastChannelDesc).ctx) = true ∧
    lastGroupState.recvBoundsOk pastChannelDesc (recvOps pastChannelDesc)
      (lastGroupState.stream (recvOps pastChannelDesc).ctx) = true ∧
    lastGroupState.membersPoisoned 4095 = false ∧ lastGroupState.levelOneMember 4095 = false := by decide +kernel

/-- The credit that the dispatch takes moves what the descriptor is held against: it lay behind, and lies ahead. -/
theorem pastChannel_seqGap : lastGroupState.seqGap pastChannelDesc = 2 ^ 31 ∧
    pastChannelBegun.seqGap pastChannelDesc = 2 ^ 31 - 1 := by decide +kernel

/-- The receive role stays outstanding, where one that ends with BOUNDS would not. -/
theorem pastChannel_outstanding : (startAccum pastChannelLive pastChannelBegun).q.live.length = 1 ∧
    (pastChannelBegun.finish pastChannelLive ⟨0x23, 0, 0, none⟩).q.live.length = 0 := by decide +kernel

/-- Refutes O34: a descriptor's channel may be any of 16 bits, and only its reading from a ring refuses one past 31
(R230). On channel 53 of group 4095 the sequence lies behind as the machine stands, but what stands for LAST_SEQ is RESV
of completion queue 0, which the dispatch raises: the descriptor then lies ahead and waits. -/
theorem not_receiveRolesOpenInSequence : ¬ Obligations.ReceiveRolesOpenInSequence := by
  unfold Obligations.ReceiveRolesOpenInSequence
  intro h
  obtain ⟨hclean, hwf, hlive, hinbound, hgo, hrecv⟩ := pastChannel_goes
  obtain ⟨hformat, hbounds, hmembers, hlevel⟩ := pastChannel_passes
  obtain ⟨hwaits, hends⟩ := pastChannel_outstanding
  have hids : lastGroupState.idsOk := by simp [State.idsOk, hlive]
  obtain ⟨hroles, -⟩ := h lastGroupState pastChannelDesc hclean hwf hids hinbound
  obtain ⟨-, -, hpass⟩ := hroles (.accum pastChannelDesc, 0x13) List.mem_cons_self hgo hrecv
  obtain ⟨hbehind, -⟩ := hpass hformat hbounds hmembers hlevel
  have hexec : exec (.accum pastChannelDesc) lastGroupState = .next (startAccum pastChannelLive pastChannelBegun) := by
    rw [exec_accum, execAccum, State.runDesc_goes startAccum hgo]
    rfl
  have hsame : startAccum pastChannelLive pastChannelBegun =
      pastChannelBegun.finish pastChannelLive ⟨0x23, 0, 0, none⟩ :=
    Host.Outcome.next.inj (hexec.symm.trans (hbehind pastChannel_seqGap.1.ge))
  rw [hsame, hends] at hwaits
  exact absurd hwaits (by decide)

end Sys2Proof.Machine
end

section
/-! What the work on a stream changes: host memory, free values and the Piers' counts while its chunks are read, and the
words of its own entry (R73, R96, R106, R114). -/

namespace Sys2Proof.Machine

/-! ### Work at Piers that may write host memory -/

/-- Host memory is written, registers of Piers count, and free values are drawn: what reading the chunks of a stream
leaves. -/
def State.worksAtPiers (s t : State) : Prop :=
  t = { s with mem := t.mem, memPoison := t.memPoison, regs := t.regs, free := t.free } ∧ s.regsIn t pierPage

section
variable {s t u : State}

theorem State.worksAtPiers_refl (s : State) : s.worksAtPiers s := ⟨rfl, fun _ _ => rfl⟩

theorem State.worksAtPiers_trans (h : s.worksAtPiers t) (h' : t.worksAtPiers u) : s.worksAtPiers u :=
  ⟨by rw [h'.1, h.1], State.regsIn_trans h.2 h'.2⟩

theorem State.countsAtPiers.works (h : s.countsAtPiers t) : s.worksAtPiers t := ⟨by rw [h.1], h.2⟩

theorem State.worksAtPiers_wr (s : State) (a : Nat) (bs : Bytes) : s.worksAtPiers (s.wr a bs) := ⟨rfl, fun _ _ => rfl⟩

theorem State.worksAtPiers_markPoison (s : State) (a n : Nat) : s.worksAtPiers (s.markPoison a n) :=
  ⟨rfl, fun _ _ => rfl⟩

theorem State.worksAtPiers_wrP (s : State) (p : Bool) (a : Nat) (bs : Bytes) : s.worksAtPiers (s.wrP p a bs) := by
  cases p <;> exact ⟨rfl, fun _ _ => rfl⟩

theorem State.worksAtPiers_freeBytes (s : State) (n : Nat) : s.worksAtPiers (s.freeBytes n).2 := ⟨rfl, fun _ _ => rfl⟩

theorem State.worksAtPiers_foldl {α : Type} (f : State → α → State) (l : List α) (s : State)
    (h : ∀ (s : State) (a : α), a ∈ l → s.worksAtPiers (f s a)) : s.worksAtPiers (l.foldl f s) :=
  List.foldlRecOn (motive := s.worksAtPiers) l f s.worksAtPiers_refl fun t ht a ha =>
    State.worksAtPiers_trans ht (h t a ha)

end

/-- A chunk read once counts at its Pier (R120). -/
theorem State.countsAtPiers_countRead (s : State) {n : Nat} (es : List SElem) (reads : Nat) (hn : n < 32) :
    s.countsAtPiers (s.countRead n es reads) := by
  have helems := s.countsAtPiers_bump64 (off := 0x80) (es.length * reads) hn (by decide)
  have hchunks := State.countsAtPiers_trans helems (State.countsAtPiers_bump _ (off := 0x88) 1 hn (by decide))
  have hnf := State.countsAtPiers_trans hchunks
    (State.countsAtPiers_bump _ (off := 0x8C) (b2n (es.any (·.e.nf))) hn (by decide))
  exact State.countsAtPiers_trans hnf
    (State.countsAtPiers_bump _ (off := 0x9C) ((es.map (·.e.flush)).sum) hn (by decide))

/-! ### Words of one entry -/

/-- Of the tables only bytes [lo, lo + n) of the entry at b are written, and the poison of result words. -/
structure State.WritesEntry (s : State) (b lo n : Nat) (t : State) : Prop where
  frame : t = { s with ctx := t.ctx, resPoison := t.resPoison }
  wf : t.ctx.wf = true
  but : s.ctxBut t (b + lo) n

namespace State.WritesEntry

theorem refl {s : State} (b lo n : Nat) (h : s.ctx.wf = true) : s.WritesEntry b lo n s :=
  ⟨rfl, h, s.ctxBut_refl _ _⟩

variable {s t u : State} {b lo n : Nat}

theorem trans (h : s.WritesEntry b lo n t) (h' : t.WritesEntry b lo n u) : s.WritesEntry b lo n u :=
  ⟨by rw [h'.frame, h.frame], h'.wf, State.ctxBut_trans h.but h'.but⟩

theorem ctxWr (h : s.WritesEntry b lo n t) {off : Nat} {bs : Bytes} (hlo : lo ≤ off)
    (hhi : off + bs.length ≤ lo + n) : s.WritesEntry b lo n (t.ctxWr (b + off) bs) :=
  h.trans ⟨rfl, t.ctx_wf_ctxWr _ _ h.wf, t.ctxBut_ctxWr h.wf (by omega) (by omega)⟩

theorem setFld (h : s.WritesEntry b lo n t) (f : Fld) (v : Nat) (hlo : lo ≤ f.off) (hhi : f.off + f.len ≤ lo + n) :
    s.WritesEntry b lo n (t.setFld b f v) :=
  h.trans ⟨rfl, t.ctx_wf_setFld _ _ _ h.wf, t.ctxBut_setFld _ h.wf (by omega) (by omega)⟩

theorem markResult (h : s.WritesEntry b lo n t) (ctx off len : Nat) (bad : Bool) :
    s.WritesEntry b lo n (t.markResult ctx off len bad) := by
  refine h.trans ?_
  unfold State.markResult
  dsimp only
  cases bad <;> exact ⟨rfl, h.wf, fun _ _ => rfl⟩

/-- A field of the entry that no byte written meets reads as before. -/
theorem fld_eq (h : s.WritesEntry b lo n t) (hs : s.ctx.wf = true) {f : Fld}
    (hd : f.off + f.len ≤ lo ∨ lo + n ≤ f.off) : t.fld b f = s.fld b f :=
  State.fld_of_ctxBut hs h.wf h.but (by omega)

theorem mono (h : s.WritesEntry b lo n t) {lo' n' : Nat} (hlo : lo' ≤ lo) (hhi : lo + n ≤ lo' + n') :
    s.WritesEntry b lo' n' t :=
  ⟨h.frame, h.wf, fun x hx => h.but x (by omega)⟩

end State.WritesEntry

@[simp] theorem State.fld_markResult (s : State) (ctx off len : Nat) (bad : Bool) (b : Nat) (f : Fld) :
    (s.markResult ctx off len bad).fld b f = s.fld b f := by
  unfold State.markResult
  cases bad <;> rfl

/-- A field of the same bytes above a stored one reads as before. -/
theorem State.fld_setFld_above (s : State) (a v : Nat) {f g : Fld} (h : s.ctx.wf = true) (hoff : g.off = f.off)
    (hlen : g.len = f.len) (hlo : f.lo ≤ f.hi + 1) (hfit : f.hi + 1 ≤ 8 * f.len) (habove : f.hi < g.lo) :
    (s.setFld a f v).fld a g = s.fld a g := by
  have hold : leNat (s.ctxRd (a + f.off) f.len) < 2 ^ (8 * f.len) := by
    have := leNat_lt (s.ctxRd (a + f.off) f.len)
    rwa [State.ctxRd, Memory.length_readN] at this
  have hread := s.ctxRd_ctxWr_same (a + f.off) (toLE f.len (setBits (leNat (s.ctxRd (a + f.off) f.len)) f.hi f.lo v)) h
  rw [length_toLE] at hread
  rw [State.fld, State.fld, hoff, hlen, State.setFld, hread, leNat_toLE, Nat.mod_eq_of_lt (setBits_lt v hold hfit hlo),
    bits_setBits_above _ _ hlo habove]

/-! ### Both -/

/-- What a command of the stream whose entry stands at b changes before it completes (R96, R106, R114). -/
structure State.WorksOnStream (s : State) (b : Nat) (t : State) : Prop where
  frame : t = { s with
    mem := t.mem, memPoison := t.memPoison, regs := t.regs, free := t.free, ctx := t.ctx, resPoison := t.resPoison
    q := { s.q with stats := t.q.stats, packs := t.q.packs, held := t.q.held } }
  regs : s.regsIn t pierPage
  but : s.ctxBut t b 256

namespace State.WorksOnStream

variable {s t u : State} {b : Nat}

theorem trans (h : s.WorksOnStream b t) (h' : t.WorksOnStream b u) : s.WorksOnStream b u :=
  ⟨by rw [h'.frame, h.frame], State.regsIn_trans h.regs h'.regs, State.ctxBut_trans h.but h'.but⟩

theorem streams (h : s.WorksOnStream b t) : s.streams t := by rw [State.streams, h.frame]

theorem cb (h : s.WorksOnStream b t) : t.cb = s.cb := by rw [h.frame]

theorem of_queue (h : t = { s with q := { s.q with stats := t.q.stats, packs := t.q.packs, held := t.q.held } }) :
    s.WorksOnStream b t :=
  ⟨by rw [h], State.regsIn_of_regs (by rw [h]), fun _ _ => by rw [h]⟩

end State.WorksOnStream

theorem State.worksAtPiers.onStream {s t : State} (h : s.worksAtPiers t) (b : Nat) : s.WorksOnStream b t :=
  ⟨by rw [h.1], h.2, fun _ _ => by rw [h.1]⟩

theorem State.WritesEntry.onStream {s t : State} {b lo n : Nat} (h : s.WritesEntry b lo n t) (hfit : lo + n ≤ 256) :
    s.WorksOnStream b t :=
  ⟨by rw [h.frame], State.regsIn_of_regs (by rw [h.frame]), fun x hx => h.but x (by omega)⟩

end Sys2Proof.Machine
end

section
/-! The checks of a stream's commands (R97, R103, R107, R119, R171, R191): what they read, and the statuses they end
with. -/

namespace Sys2Proof.Machine

/-! ### The exchange groups -/

/-- The exchange groups' entries read the same. -/
def State.sameGroups (s t : State) : Prop :=
  ∀ (g : Nat) (f : Fld), g < 2 ^ 12 → f.off + f.len ≤ 256 → t.fld (grpBase g) f = s.fld (grpBase g) f

theorem State.sameTables.sameGroups {s t : State} (h : s.sameTables t) : s.sameGroups t := fun _ _ hg hf => h.grp hg hf

theorem State.WritesEntry.sameGroups {s t : State} {ctx lo n : Nat} (h : s.WritesEntry (strmBase ctx) lo n t)
    (hs : s.ctx.wf = true) (hctx : ctx < 2 ^ 14) (hn : lo + n ≤ 256) : s.sameGroups t := fun g f _ _ =>
  State.fld_of_ctxBut hs h.wf h.but (.inr (by unfold strmBase grpBase; omega))

section
variable {s t : State} (h : s.sameGroups t) {g : Nat} (hg : g < 2 ^ 12)
include h hg

theorem State.sameGroups.groupUsed : t.groupUsed g = s.groupUsed g := by
  simp only [State.groupUsed, h g Grp.nMembers hg (by decide), h g Grp.myRank hg (by decide)]

theorem State.sameGroups.hasParent : t.hasParent g = s.hasParent g := by
  rw [State.hasParent, State.hasParent, State.flag, State.flag, h g Grp.parentEn hg (by decide)]

theorem State.sameGroups.myShard (r : Nat × Nat) : t.myShard g r = s.myShard g r := by
  simp only [State.myShard, State.shard, h g Grp.nMembers hg (by decide), h g Grp.myRank hg (by decide)]

theorem State.sameGroups.groupRange (len n : Nat) : t.groupRange len n g = s.groupRange len n g := by
  induction n generalizing g with
  | zero =>
    unfold State.groupRange
    rw [show t.flag _ _ = s.flag _ _ from h.hasParent hg]
  | succ n ih =>
    have hp : s.fld (grpBase g) Grp.parent < 2 ^ 12 := s.fld_lt _ Grp.parent
    unfold State.groupRange
    rw [show t.flag _ _ = s.flag _ _ from h.hasParent hg]
    simp only [h g Grp.parent hg (by decide), h.groupUsed hp, ih hp, h _ Grp.nMembers hp (by decide),
      h _ Grp.myRank hp (by decide)]

end

/-- The checks that STATS and COMPRESS share read the exchange groups alone, beside the context that they are given. -/
theorem State.sameGroups.streamCheck {s t : State} (h : s.sameGroups t) {c : Stream} (hc : c.group < 2 ^ 12)
    (compress record : Bool) : t.streamCheck c compress record = s.streamCheck c compress record := by
  unfold State.streamCheck State.inputRange State.range
  rw [h.groupUsed hc, h.hasParent hc, h.groupRange hc]
  simp only [h.myShard hc]

/-! ### What the checks read of host memory -/

section
variable {s t : State} (hm : t.mem = s.mem) (hp : t.memPoison = s.memPoison)
include hm hp

theorem State.rowsInForce_congr (c : Stream) (n : Nat) (check : Bool) :
    t.rowsInForce c n check = s.rowsInForce c n check := by
  have hrows : t.rowList c n = s.rowList c n := by simp only [State.rowList, State.rd, hm]
  unfold State.rowsInForce State.poisoned
  rw [hrows, hp]

theorem State.takeScale_congr (c : Stream) : t.takeScale c = s.takeScale c := by
  unfold State.takeScale State.poisoned State.rdN State.rd
  rw [hm, hp]

end

/-! ### The stream context -/

/-- The stream context that STATS and COMPRESS name (R96). -/
abbrev streamCtx (d : Desc) : Nat := opBits d 0x20 2 13 0

theorem streamCtx_lt (d : Desc) : streamCtx d < 2 ^ 14 := Nat.mod_lt _ (Nat.two_pow_pos _)

theorem State.stream_group_lt (s : State) (ctx : Nat) : (s.stream ctx).group < 2 ^ 12 := s.fld_lt _ Strm.group

/-- A context's software fields lie below 0x68 of its entry. -/
theorem State.stream_congr {s t : State} {ctx : Nat}
    (h : ∀ f : Fld, f.off + f.len ≤ 0x68 → t.fld (strmBase ctx) f = s.fld (strmBase ctx) f) :
    t.stream ctx = s.stream ctx := by
  unfold State.stream State.flag
  simp (disch := decide) only [h]

/-! ### Statuses -/

theorem State.streamCheck_error_lt {s : State} {c : Stream} {compress record : Bool} {st : Nat}
    (h : s.streamCheck c compress record = .error st) : st < 256 := by
  unfold State.streamCheck at h
  split at h
  · cases h; decide
  · split at h
    · cases h; decide
    · split at h
      · cases h; decide
      · split at h
        · cases h; decide
        · split at h <;> cases h; decide

theorem State.rowsInForce_error_lt {s : State} {c : Stream} {n : Nat} {check : Bool} {st : Nat}
    (h : s.rowsInForce c n check = .error st) : st < 256 := by
  unfold State.rowsInForce at h
  split at h
  · cases h
  · dsimp only at h
    split at h
    · cases h; decide
    · split at h <;> cases h; decide

theorem State.takeScale_error_lt {s : State} {c : Stream} {st : Nat} (h : (s.takeScale c).1 = .error st) : st < 256 := by
  unfold State.takeScale at h
  split at h
  · split at h
    · cases h; decide
    · dsimp only at h
      split at h <;> cases h; decide
  · dsimp only at h
    split at h <;> cases h; decide
  · cases h
  · cases h; decide

end Sys2Proof.Machine
end

section
/-! STATS (R101, R106): the words of its entry that it writes. -/

namespace Sys2Proof.Machine

/-! ### The words of the context -/

/-- STATS writes result words of its own entry, its step, its status and NF among them (R101, R106). -/
theorem State.statsFields_spec (s : State) (ctx step status : Nat) (f : StatsFound) (amax : Bytes)
    (h : s.ctx.wf = true) :
    let b := strmBase ctx
    let t := s.statsFields ctx step status f amax
    s.WritesEntry b 0 256 t ∧ t.fld b Strm.statsStep = step % 2 ^ 32 ∧ t.fld b Strm.statsStatus = status % 2 ^ 8 ∧
    t.fld b Strm.nf = b2n f.nf.isSome := by
  have hbit : b2n f.nf.isSome % 2 ^ 1 = b2n f.nf.isSome := by cases f.nf.isSome <;> rfl
  unfold State.statsFields
  dsimp only
  generalize strmBase ctx = b
  have hstep := (State.WritesEntry.refl b 0 256 h).setFld Strm.localAmax (leNat amax) (by decide) (by decide)
  have hstepped := (s.setFld b Strm.localAmax (leNat amax)).fld_setFld_same b step (f := Strm.statsStep) hstep.wf
    (by decide) (by decide)
  replace hstep := hstep.setFld Strm.statsStep step (by decide) (by decide)
  generalize (s.setFld b Strm.localAmax (leNat amax)).setFld b Strm.statsStep step = s1 at hstep hstepped ⊢
  have hvalid := (State.WritesEntry.refl b 0x90 0x18 hstep.wf).setFld Strm.valid f.valid (by decide) (by decide)
  have hnfed := (s1.setFld b Strm.valid f.valid).fld_setFld_same b (b2n f.nf.isSome) (f := Strm.nf) hvalid.wf
    (by decide) (by decide)
  have hnf := hvalid.setFld Strm.nf (b2n f.nf.isSome) (by decide) (by decide)
  generalize (s1.setFld b Strm.valid f.valid).setFld b Strm.nf (b2n f.nf.isSome) = s2 at hnf hnfed ⊢
  have hkept := s2.fld_setFld_above b f.outs (f := Strm.outCount) (g := Strm.nf) hnf.wf rfl rfl (by decide) (by decide)
    (by decide)
  have hout := hnf.setFld Strm.outCount f.outs (by decide) (by decide)
  generalize s2.setFld b Strm.outCount f.outs = s3 at hout hkept ⊢
  have hstatus := (State.WritesEntry.refl b 0x97 0x11 hout.wf).setFld Strm.statsStatus status (by decide) (by decide)
  have hended := s3.fld_setFld_same b status (f := Strm.statsStatus) hout.wf (by decide) (by decide)
  generalize s3.setFld b Strm.statsStatus status = s4 at hstatus hended ⊢
  have hfirst : s4.WritesEntry b 0x98 0x10
      (match f.nf with | some i => s4.setFld b Strm.firstNf i | none => s4) := by
    cases f.nf with
    | none => exact State.WritesEntry.refl b _ _ hstatus.wf
    | some i => exact (State.WritesEntry.refl b _ _ hstatus.wf).setFld Strm.firstNf i (by decide) (by decide)
  have hlast := (((hfirst.setFld Strm.absSum (leNat f.absSum.bytes) (by decide) (by decide)).markResult ctx 0x80 4
    f.bad).markResult ctx 0x90 6 f.bad).markResult ctx 0xA0 8 f.bad
  have hfrom3 := hstatus.trans (hlast.mono (by decide) (by decide))
  have hfrom1 := hout.trans (hfrom3.mono (by decide) (by decide))
  refine ⟨hstep.trans (hfrom1.mono (by decide) (by decide)), ?_, ?_, ?_⟩
  · exact (hfrom1.fld_eq hstep.wf (by decide)).trans hstepped
  · exact (hlast.fld_eq hstatus.wf (by decide)).trans hended
  · exact (hfrom3.fld_eq hout.wf (by decide)).trans (hkept.trans (hnfed.trans hbit))

end Sys2Proof.Machine
end

section
/-! STATS from its checks on (R90, R104-R106, R115): what it reads, finds and writes, and the ways in which it ends. -/

namespace Sys2Proof.Machine

/-! ### The reading of the chunks and the records -/

/-- The chosen rows written: what STATS found changes in their number alone (R104, R35). -/
theorem State.writeRows_spec (s : State) (c : Stream) (f : StatsFound) :
    (s.writeRows c f).1.nf = f.nf ∧ s.worksAtPiers (s.writeRows c f).2 := by
  unfold State.writeRows
  split
  · exact ⟨rfl, rfl, fun _ _ => rfl⟩
  · exact ⟨rfl, s.worksAtPiers_wr _ _⟩

theorem State.worksAtPiers_writeRecords (s : State) (c : Stream) (step : Nat) (r : Nat × Nat) (rows : List Nat)
    (cs : List StatsChunk) : s.worksAtPiers (s.writeRecords c step r rows cs) :=
  State.worksAtPiers_foldl _ cs s fun s _ _ => s.worksAtPiers_wrP _ _ _

theorem ownerX_poison (c : Stream) (i a : Nat) (e : Option Nat) (p : Bool) : (ownerX c i a e p).e.poison = p := by
  unfold ownerX
  cases e with
  | none => rfl
  | some w =>
    dsimp only
    split <;> rfl

/-- Good host memory gives a stream no poisoned element. -/
theorem State.streamRead_poison {s : State} (h : s.memPoison = []) {c : Stream} {lo : Nat} {ch : Chunk} {x : SElem}
    (hx : x ∈ s.streamRead c lo ch) : x.e.poison = false := by
  obtain ⟨p, -, rfl⟩ := List.mem_map.mp hx
  dsimp only
  rw [State.poisoned_of_clean h, State.poisoned_of_clean h, Bool.and_false, Bool.or_false]
  split
  · exact ownerX_poison _ _ _ _ _
  · rfl

/-- STATS finds poison and an abort only where an element is poisoned or not finite (R90, R106). -/
theorem statsFind_clean (c : Stream) (rows : List Nat) {cs : List StatsChunk}
    (h : ∀ k ∈ cs, ∀ x ∈ k.elems, x.e.poison = false) : (statsFind c rows cs).bad = false := by
  simp only [statsFind, List.any_eq_false, List.mem_flatten, List.mem_map]
  rintro x ⟨_, ⟨k, hk, rfl⟩, hx⟩
  simp [h k hk x hx]

theorem statsFind_abort (c : Stream) (rows : List Nat) (cs : List StatsChunk) :
    (statsFind c rows cs).abort = ((statsFind c rows cs).nf.isSome && !c.exclude) := rfl

theorem statsStatus_cases (bad abort : Bool) :
    firstStatus [if bad then 0x50 else 0, if abort then 0x10 else 0] < 256 ∧
    (bad = false → abort = false → firstStatus [if bad then 0x50 else 0, if abort then 0x10 else 0] = 0) := by
  cases bad <;> cases abort <;> decide

/-! ### What STATS does once its checks pass -/

/-- The chunks of STATS as it reads them (R100, R106). -/
def State.statsChunks (s : State) (c : Stream) (r : Nat × Nat) : List StatsChunk :=
  (chunksOfRange r.1 r.2 (c.chunkKi * 1024)).map fun ch => ⟨ch, s.streamRead c (c.origin r) ch⟩

/-- The chunks counted at the Piers that take them (R73, R120). -/
def State.statsCounted (s : State) (cs : List StatsChunk) : State :=
  cs.foldl (fun s k => s.takePier.2.countRead s.takePier.1 k.elems 1) s

/-- LOCAL_AMAX, the chosen rows and the records written for the host (R79, R104-R106): what STATS found, the bytes of
LOCAL_AMAX, and the state after them. -/
def State.statsWritten (s : State) (c : Stream) (step : Nat) (r : Nat × Nat) (rows : List Nat) (record : Bool)
    (cs : List StatsChunk) (f : StatsFound) : StatsFound × Bytes × State :=
  let j := if f.bad then s.freeBytes 4 else ([], s)
  let amax := if f.bad then j.1 else toLE 4 (encodeF .fp32 f.amax)
  let x := (j.2.wrP f.bad c.lamaxAddr amax).writeRows c f
  (x.1, amax, if record then x.2.writeRecords c step r rows cs else x.2)

theorem State.worksAtPiers_statsCounted (s : State) (cs : List StatsChunk) : s.worksAtPiers (s.statsCounted cs) :=
  State.worksAtPiers_foldl _ cs s fun s k _ =>
    (State.countsAtPiers_trans s.countsAtPiers_takePier (State.countsAtPiers_countRead _ k.elems 1 s.takePier_lt)).works

theorem State.statsWritten_spec (s : State) (c : Stream) (step : Nat) (r : Nat × Nat) (rows : List Nat) (record : Bool)
    (cs : List StatsChunk) (f : StatsFound) :
    (s.statsWritten c step r rows record cs f).1.nf = f.nf ∧
    s.worksAtPiers (s.statsWritten c step r rows record cs f).2.2 := by
  unfold State.statsWritten
  dsimp only
  have hdrawn : s.worksAtPiers (if f.bad then s.freeBytes 4 else ([], s)).2 := by
    split
    · exact s.worksAtPiers_freeBytes 4
    · exact s.worksAtPiers_refl
  generalize (if f.bad then s.freeBytes 4 else ([], s)) = j at hdrawn ⊢
  generalize (if f.bad then j.1 else toLE 4 (encodeF .fp32 f.amax)) = amax
  obtain ⟨hnf, hrows⟩ := (j.2.wrP f.bad c.lamaxAddr amax).writeRows_spec c f
  have hx := State.worksAtPiers_trans hdrawn (State.worksAtPiers_trans (j.2.worksAtPiers_wrP _ _ _) hrows)
  refine ⟨hnf, ?_⟩
  split
  · exact State.worksAtPiers_trans hx (State.worksAtPiers_writeRecords _ _ _ _ _ _)
  · exact hx

/-- What STATS does once its checks pass and Piers may work (R106). -/
def State.statsRun (s : State) (l : Live) (ctx step : Nat) (c : Stream) (r : Nat × Nat) (rows : List Nat)
    (record : Bool) : State :=
  let cs := s.statsChunks c r
  let f := statsFind c rows cs
  let status := firstStatus [if f.bad then 0x50 else 0, if f.abort then 0x10 else 0]
  let w := (s.statsCounted cs).statsWritten c step r rows record cs f
  let v := if c.statEn && status == 0 then w.2.2.addStat c.statSlot (statCounts c cs) else w.2.2
  (v.statsFields ctx step status w.1 w.2.1).finish l ⟨status, 0, 1, w.1.nf⟩

theorem State.statsFind_good {s : State} (hp : s.memPoison = []) (c : Stream) (r : Nat × Nat) (rows : List Nat) :
    (statsFind c rows (s.statsChunks c r)).bad = false :=
  statsFind_clean _ _ fun k hk x hx => by
    obtain ⟨ch, -, rfl⟩ := List.mem_map.mp hk
    exact State.streamRead_poison hp hx

/-- The stat slot may count a STATS that ended with OK: no more than the slots' counters changes (R115). -/
theorem State.statCounted_effect (s : State) (p : Bool) (slot : Nat) (bins : List Nat) :
    let t := if p then s.addStat slot bins else s
    t = { s with q := { s.q with stats := t.q.stats } } := by
  cases p <;> rfl

/-- STATS whose checks pass completes with its words written in its own entry (R106). -/
theorem State.statsRun_spec {s : State} (l : Live) {ctx step : Nat} (c : Stream) (r : Nat × Nat) (rows : List Nat)
    (record : Bool) (hwf : s.ctx.wf = true) (hstep : step < 2 ^ 32) :
    let b := strmBase ctx
    ∃ (v : State) (st : Nat) (nf : Option Nat),
      s.statsRun l ctx step c r rows record = v.finish l ⟨st, 0, 1, nf⟩ ∧ s.WorksOnStream b v ∧
      v.fld b Strm.statsStep = step ∧ v.fld b Strm.statsStatus = st ∧ v.fld b Strm.nf = b2n nf.isSome ∧
      (s.memPoison = [] → nf = none → st = 0) := by
  unfold State.statsRun
  dsimp only
  have hgood (hp : s.memPoison = []) := State.statsFind_good hp c r rows
  have habort := statsFind_abort c rows (s.statsChunks c r)
  generalize s.statsChunks c r = cs at hgood habort ⊢
  generalize statsFind c rows cs = f at hgood habort ⊢
  obtain ⟨hlt, hok⟩ := statsStatus_cases f.bad f.abort
  generalize firstStatus [if f.bad then 0x50 else 0, if f.abort then 0x10 else 0] = st at hlt hok ⊢
  obtain ⟨hnf, hwritten⟩ := (s.statsCounted cs).statsWritten_spec c step r rows record cs f
  have hwork := State.worksAtPiers_trans (s.worksAtPiers_statsCounted cs) hwritten
  generalize (s.statsCounted cs).statsWritten c step r rows record cs f = w at hnf hwork ⊢
  have hcounted := w.2.2.statCounted_effect (c.statEn && st == 0) c.statSlot (statCounts c cs)
  dsimp only at hcounted
  generalize (if c.statEn && st == 0 then w.2.2.addStat c.statSlot (statCounts c cs) else w.2.2) = v at hcounted ⊢
  have hvctx : v.ctx = s.ctx := by rw [hcounted, hwork.1]
  have hvwork : s.WorksOnStream (strmBase ctx) v := (hwork.onStream _).trans (.of_queue (by rw [hcounted]))
  obtain ⟨hentry, hs, hst, hn⟩ := v.statsFields_spec ctx step st w.1 w.2.1 (hvctx ▸ hwf)
  refine ⟨_, st, w.1.nf, rfl, hvwork.trans (hentry.onStream (by decide)), ?_, ?_, hn, fun hp hnone => ?_⟩
  · exact hs.trans (Nat.mod_eq_of_lt hstep)
  · exact hst.trans (Nat.mod_eq_of_lt hlt)
  · refine hok (hgood hp) ?_
    rw [habort, ← hnf, hnone]
    rfl

/-! ### The command -/

theorem startStats_held {u : State} {l : Live} (h : u.streamHeld l = true) : startStats l u = u := by
  unfold startStats
  exact if_pos h

section
variable {u : State} {l : Live} (hfree : u.streamHeld l = false) (hclean : u.cleanTables = true)
include hfree hclean

theorem startStats_refuses {st : Nat}
    (h : u.streamCheck (u.stream (streamCtx l.desc)) false (opBit l.desc 0x28 0) = .error st) :
    startStats l u = u.endWith l st := by
  unfold startStats
  simp [hfree, State.streamUse, State.ctxUse_clean _ _ hclean, h]

variable {r : Nat × Nat}
  (hcheck : u.streamCheck (u.stream (streamCtx l.desc)) false (opBit l.desc 0x28 0) = .ok r)
include hcheck

theorem startStats_badRows {st : Nat}
    (h : u.rowsInForce (u.stream (streamCtx l.desc)) (if (u.stream (streamCtx l.desc)).outAuto then 0
      else (u.stream (streamCtx l.desc)).outN) true = .error st) :
    startStats l u = u.endWith l st := by
  unfold startStats
  simp [hfree, State.streamUse, State.ctxUse_clean _ _ hclean, hcheck, h]

variable {rows : List Nat}
  (hrows : u.rowsInForce (u.stream (streamCtx l.desc)) (if (u.stream (streamCtx l.desc)).outAuto then 0
      else (u.stream (streamCtx l.desc)).outN) true = .ok rows)
include hrows

theorem startStats_waits (hpier : u.freePiers = []) : startStats l u = u := by
  unfold startStats
  simp [hfree, State.streamUse, State.ctxUse_clean _ _ hclean, hcheck, hrows, hpier]

theorem startStats_runs (hpier : u.freePiers ≠ []) :
    startStats l u = u.statsRun l (streamCtx l.desc) (opd l.desc 0x24 4) (u.stream (streamCtx l.desc)) r rows
      (opBit l.desc 0x28 0) := by
  unfold startStats
  dsimp only
  rw [if_neg (by simp [hfree]), State.streamUse, State.ctxUse_clean _ _ hclean]
  dsimp only
  rw [State.ctxUse_clean _ _ hclean]
  dsimp only
  rw [if_neg (by decide), hcheck]
  dsimp only
  rw [hrows]
  dsimp only
  rw [if_neg hpier]
  rfl

end

end Sys2Proof.Machine
end

section
/-! The chunks of COMPRESS (R78-R84, R94, R102, R108-R112, R120): what reading and packing them changes. -/

namespace Sys2Proof.Machine

/-! ### Residuals and outlier words -/

theorem State.worksAtPiers_writeResiduals (s : State) (w : Run) (ch : Chunk) (xs : List (SElem × Nat)) :
    s.worksAtPiers (s.writeResiduals w ch xs) := by
  unfold State.writeResiduals
  dsimp only
  split
  · exact s.worksAtPiers_refl
  · refine State.worksAtPiers_trans (State.worksAtPiers_trans (s.worksAtPiers_freeBytes _)
      (State.worksAtPiers_wr _ _ _)) (State.worksAtPiers_foldl _ _ _ fun s p _ => ?_)
    split
    · exact s.worksAtPiers_markPoison _ _
    · exact s.worksAtPiers_refl

/-- A stream without a residual has none written (R102). -/
theorem State.writeResiduals_none (s : State) {w : Run} (ch : Chunk) (xs : List (SElem × Nat)) (h : w.c.resFmt = 0) :
    s.writeResiduals w ch xs = s := by
  have hwidth : w.c.resWidth = 0 := by rw [Stream.resWidth, h]; rfl
  unfold State.writeResiduals
  exact if_pos hwidth

theorem ownerCode_row (w : Run) (x : SElem) (chosen : Bool) : (ownerCode w x chosen).row = none := by
  unfold ownerCode
  dsimp only
  split <;> rfl

theorem elCode_row (w : Run) (x : SElem) (chosen : Bool) : (elCode w x chosen).row = none := by
  unfold elCode
  dsimp only
  split
  · rfl
  · rfl
  · split
    · rfl
    · split <;> rfl
  · rfl

/-- With no outlier row in force no element writes an outlier word (R103, R108). -/
theorem elOut_row {w : Run} (h : w.rows = []) (x : SElem) (chosen : Bool) : (elOut w x chosen).row = none := by
  have hrow : w.c.rowAt w.rows x.e.idx = none := by simp [Stream.rowAt, h]
  unfold elOut
  dsimp only
  rw [hrow]
  split
  · rfl
  · split
    · rfl
    · split
      · exact ownerCode_row w x chosen
      · exact elCode_row w x chosen

/-! ### A chunk -/

theorem State.countsAtPiers.trans {s t u : State} (h : s.countsAtPiers t) (h' : t.countsAtPiers u) :
    s.countsAtPiers u := State.countsAtPiers_trans h h'

theorem State.countsAtPiers.bump {s t : State} (h : s.countsAtPiers t) {n : Nat} (off k : Nat) (hn : n < 32)
    (ho : off < 4096) : s.countsAtPiers (t.bump (regAddr (0x10 + n) off) k) :=
  State.countsAtPiers_trans h (t.countsAtPiers_bump k hn ho)

/-- Work that may leave host memory as it was, and then counts at Piers. -/
theorem State.worksAtPiers.counted {s t u : State} {p : Prop} (h : s.worksAtPiers t) (hmem : p → t.mem = s.mem)
    (hcount : t.countsAtPiers u) : s.worksAtPiers u ∧ (p → u.mem = s.mem) :=
  ⟨State.worksAtPiers_trans h hcount.works, fun hp => by rw [hcount.1]; exact hmem hp⟩

/-- What COMPRESS does with a chunk: it counts at the Pier that took it, and writes host memory only for a residual or
outlier rows (R73, R78-R84, R94, R108-R112, R120). -/
theorem State.compressChunk_spec (s : State) (w : Run) (r : Nat × Nat) (record : Bool) (ch : Chunk) (k : Nat) :
    (s.compressChunk w r record ch k).1.pier < 32 ∧ s.worksAtPiers (s.compressChunk w r record ch k).2 ∧
    (w.c.resFmt = 0 ∧ w.rows = [] → (s.compressChunk w r record ch k).2.mem = s.mem) := by
  have hn := s.takePier_lt
  unfold State.compressChunk
  dsimp only
  generalize hres : State.writeResiduals _ w ch _ = v
  generalize hrow : List.filterMap _ _ = words
  have hwords (h : w.rows = []) : words = [] := by
    rw [← hrow, List.filterMap_eq_nil_iff]
    intro o ho
    obtain ⟨x, -, rfl⟩ := List.mem_map.mp ho
    exact elOut_row h _ _
  have hv : s.worksAtPiers v :=
    State.worksAtPiers_trans s.countsAtPiers_takePier.works (hres ▸ State.worksAtPiers_writeResiduals _ _ _ _)
  have hmem (h : w.c.resFmt = 0 ∧ w.rows = []) : (words.foldl (fun s x => s.wr x.1 (toLE 2 x.2)) v).mem = s.mem := by
    rw [hwords h.2, ← hres, State.writeResiduals_none _ _ _ h.1]
    rfl
  refine ⟨hn, (State.worksAtPiers_trans hv (State.worksAtPiers_foldl (fun s x => s.wr x.1 (toLE 2 x.2)) words v
    fun s x _ => s.worksAtPiers_wr _ _)).counted hmem ?_⟩
  split
  · exact (((State.countsAtPiers_countRead _ _ _ hn).bump 0x9C _ hn (by decide)).bump 0x90 _ hn (by decide)).trans
      (State.countsAtPiers_countPick _ _ _ _ hn) |>.bump 0x60 _ hn (by decide)
  · exact (((State.countsAtPiers_countRead _ _ _ hn).bump 0x9C _ hn (by decide)).bump 0x90 _ hn (by decide)).trans
      (State.countsAtPiers_trans (State.countsAtPiers_bump64 _ (off := 0x40) 1 hn (by decide))
        (State.countsAtPiers_bump64 _ (off := 0x48) _ hn (by decide)))

end Sys2Proof.Machine
end

section
/-! COMPRESS from its first chunk on (R108-R114, R177): what it counts, writes and packs. -/

namespace Sys2Proof.Machine

/-! ### The chunks and the blocks -/

/-- Chunks taken in turn, each of which counts at its own Pier and leaves host memory as it was when p holds. -/
theorem chunksTaken_spec {α : Type} {p : Prop} (f : State → α → DoneChunk × State)
    (h : ∀ s a, (f s a).1.pier < 32 ∧ s.worksAtPiers (f s a).2 ∧ (p → (f s a).2.mem = s.mem)) (as : List α) (s : State)
    (ds : List DoneChunk) (hds : ∀ d ∈ ds, d.pier < 32) :
    let x := as.foldl (fun acc a => (acc.1 ++ [(f acc.2 a).1], (f acc.2 a).2)) (ds, s)
    (∀ d ∈ x.1, d.pier < 32) ∧ s.worksAtPiers x.2 ∧ (p → x.2.mem = s.mem) := by
  induction as generalizing s ds with
  | nil => exact ⟨hds, s.worksAtPiers_refl, fun _ => rfl⟩
  | cons a as ih =>
    obtain ⟨hpier, hwork, hmem⟩ := h s a
    obtain ⟨hpiers, hworks, hmems⟩ := ih (f s a).2 (ds ++ [(f s a).1]) fun d hd => by
      rcases List.mem_append.mp hd with hd | hd
      · exact hds d hd
      · exact List.mem_singleton.mp hd ▸ hpier
    exact ⟨hpiers, State.worksAtPiers_trans hwork hworks, fun hp => (hmems hp).trans (hmem hp)⟩

theorem State.countsAtPiers_countBlocks (s : State) {n : Nat} (bs : List PackedBlock) (hn : n < 32) :
    s.countsAtPiers (s.countBlocks n bs) :=
  ((((((State.countsAtPiers_refl s).bump 0x94 _ hn (by decide)).bump 0xC0 _ hn (by decide)).bump 0xC4 _ hn
    (by decide)).bump 0xC8 _ hn (by decide)).bump 0xCC _ hn (by decide)).bump 0xD0 _ hn (by decide)

/-- A segment counts at the Pier of its chunk (R122). -/
theorem segmentOf_pier {w : Run} {coding : Option Coding} {rank : Nat} {shard : Nat × Nat} {d : DoneChunk} {g : Segment}
    (h : segmentOf w coding rank shard d = some g) : g.pier = d.pier := by
  unfold segmentOf at h
  dsimp only at h
  split at h
  · cases h
  · cases h; rfl

theorem State.countsAtPiers_segments (s : State) (segs : List Segment) (h : ∀ g ∈ segs, g.pier < 32) :
    s.countsAtPiers (segs.foldl (fun s g => s.countBlocks g.pier g.blocks) s) :=
  List.foldlRecOn (motive := s.countsAtPiers) segs _ s.countsAtPiers_refl fun t ht g hg =>
    ht.trans (t.countsAtPiers_countBlocks g.blocks (h g hg))

/-- The flushes of forming the scale and the mean count at the Pier of the first chunk (R45). -/
theorem State.countsAtPiers_firstFlushes (s : State) (ds : List DoneChunk) (n : Nat) :
    let t := match ds with
      | d :: _ => s.bump (R.pierFlush d.pier) n
      | [] => s
    (∀ d ∈ ds, d.pier < 32) → s.countsAtPiers t := by
  intro t h
  cases ds with
  | nil => exact s.countsAtPiers_refl
  | cons d ds => exact s.countsAtPiers_refl.bump 0x9C n (h d List.mem_cons_self) (by decide)

/-- The spans of an owner stream without a parent go to the host; no other stream's do (R177). -/
theorem State.ownSpans_written (s : State) {c : Stream} {p : Bool} (h : c.int32 = false → p = false) (bs : Bytes) :
    let t := if p then s.wr c.outData bs else s
    s.worksAtPiers t ∧ (c.int32 = false → t.mem = s.mem) := by
  cases p with
  | false => exact ⟨s.worksAtPiers_refl, fun _ => rfl⟩
  | true => exact ⟨s.worksAtPiers_wr _ _, fun hc => absurd (h hc) (by decide)⟩

/-! ### The words of the context -/

theorem length_sumsBytes (x : Sums) : x.bytes.length = 32 := by simp [Sums.bytes, Pair.bytes]

theorem length_countBytes (x : Counts) :
    ((x.list.map fun n => toLE 4 (min n 0xFFFFFFFF)).flatten).length = 52 := by simp [Counts.list]

/-- COMPRESS ends with words of its own entry past its step and scale, its status among them (R101, R110, R114). -/
theorem State.compressFields_spec (s : State) (w : Run) (status : Nat) (nf : Option Nat) (sums : Sums) (cnt : Counts)
    (bad : Bool) (h : s.ctx.wf = true) :
    let b := strmBase w.c.ctx
    let t := s.compressFields w status nf sums cnt bad
    s.WritesEntry b 0x95 0x6B t ∧ t.fld b Strm.compressStatus = status % 2 ^ 8 := by
  unfold State.compressFields
  dsimp only
  generalize strmBase w.c.ctx = b
  have hnf := ((State.WritesEntry.refl b 0x95 0x6B h).setFld Strm.nf (b2n nf.isSome) (by decide) (by decide)).setFld
    Strm.firstNf (nf.getD 0) (by decide) (by decide)
  generalize (s.setFld b Strm.nf (b2n nf.isSome)).setFld b Strm.firstNf (nf.getD 0) = s1 at hnf ⊢
  have hmag : s.WritesEntry b 0x95 0x6B (if w.c.mode = 2 ∨ w.c.mode = 3 then s1.setFld b Strm.mag w.mag else s1) := by
    split
    · exact hnf.setFld Strm.mag w.mag (by decide) (by decide)
    · exact hnf
  generalize (if w.c.mode = 2 ∨ w.c.mode = 3 then s1.setFld b Strm.mag w.mag else s1) = s2 at hmag ⊢
  have hcounts := (hmag.ctxWr (off := 0xA8) (bs := sums.bytes) (by decide) (by rw [length_sumsBytes]; decide)).ctxWr
    (off := 0xC8) (bs := (cnt.list.map fun n => toLE 4 (min n 0xFFFFFFFF)).flatten) (by decide)
    (by rw [length_countBytes]; decide)
  generalize (s2.ctxWr (b + 0xA8) sums.bytes).ctxWr (b + 0xC8) _ = s3 at hcounts ⊢
  refine ⟨(hcounts.setFld Strm.compressStatus status (by decide) (by decide)).markResult _ _ _ _, ?_⟩
  rw [State.fld_markResult]
  exact s3.fld_setFld_same b status hcounts.wf (by decide) (by decide)

/-! ### The whole run -/

theorem compressStatus_lt (bad nf partly : Bool) :
    firstStatus [if bad then 0x50 else 0, if nf then 0x10 else 0, if partly then 1 else 0] < 2 ^ 8 := by
  cases bad <;> cases nf <;> cases partly <;> decide

/-- COMPRESS from its first chunk on: it completes with its status in its entry and a pack that a send role may take; a
stream without residual and outlier rows that is not reduced has nothing written to host memory (R108-R114, R177). -/
theorem State.compressRun_spec (s : State) (l : Live) (w : Run) (r : Nat × Nat) (record : Bool) (magCnt : Counts)
    (flushes : Nat) (hwf : s.ctx.wf = true) :
    let b := strmBase w.c.ctx
    ∃ (v : State) (st passes : Nat) (nf : Option Nat),
      s.compressRun l w r record magCnt flushes = v.finish l ⟨st, 0, passes, nf⟩ ∧ s.WorksOnStream b v ∧
      (∀ f : Fld, f.off + f.len ≤ 0x95 → v.fld b f = s.fld b f) ∧ v.fld b Strm.compressStatus = st ∧
      (∃ p ∈ v.q.packs, p.ctx = w.c.ctx ∧ p.step = w.step ∧ p.channel = l.desc.channel.toNat ∧
        p.seq = l.desc.seq.toNat ∧ p.taken = false ∧ p.skip = false ∧
        ∀ x ∈ p.spans, x.ctx = w.c.ctx ∧ x.step = w.step) ∧
      (w.c.resFmt = 0 ∧ w.rows = [] → w.c.int32 = false → v.mem = s.mem) := by
  intro b
  obtain ⟨t, hrun⟩ : ∃ t, s.compressRun l w r record magCnt flushes = t := ⟨_, rfl⟩
  rw [hrun]
  unfold State.compressRun at hrun
  extract_lets c chs ks at hrun
  have hchunks := chunksTaken_spec (α := Chunk × Nat) (p := w.c.resFmt = 0 ∧ w.rows = [])
    (fun s p => s.compressChunk w r record p.1 p.2) (fun s p => s.compressChunk_spec w r record p.1 p.2) (chs.zip ks) s []
    (List.forall_mem_nil _)
  generalize List.foldl _ ([], s) _ = dn at hrun hchunks
  obtain ⟨done, s1⟩ := dn
  dsimp -zeta only at hrun hchunks
  obtain ⟨hpiers, hwork, hmem⟩ := hchunks
  extract_lets s2 single me ranks coding rng shard segs s3 nf info spans held s4 s5 _ s6 bad status cnt sums s7 at hrun
  have hflushed : s1.countsAtPiers s2 := s1.countsAtPiers_firstFlushes done flushes hpiers
  have hsegs : ∀ g ∈ segs, g.pier < 32 := fun g hg => by
    obtain ⟨_, hk, hg⟩ := List.mem_flatten.mp hg
    obtain ⟨k, -, rfl⟩ := List.mem_map.mp hk
    obtain ⟨d, hd, hg⟩ := List.mem_filterMap.mp hg
    exact segmentOf_pier hg ▸ hpiers d hd
  have hcounted : s1.countsAtPiers s3 := hflushed.trans (s2.countsAtPiers_segments segs hsegs)
  obtain ⟨hwritten, hkept⟩ := s3.ownSpans_written (c := c) (p := single) (fun h => by simp [single, h])
    (spans.map Span.bytes).flatten
  have hwork4 : s.worksAtPiers s4 := State.worksAtPiers_trans hwork (State.worksAtPiers_trans hcounted.works hwritten)
  have hspans : ∀ x ∈ spans, x.ctx = w.c.ctx ∧ x.step = w.step := fun x hx => by
    obtain ⟨k, -, rfl⟩ := List.mem_map.mp hx
    exact ⟨rfl, rfl⟩
  have hctx6 : s6.ctx = s.ctx := by
    show s4.ctx = s.ctx
    rw [hwork4.1]
  have hwork6 : s.WorksOnStream b s6 := (hwork4.onStream b).trans (.of_queue rfl)
  obtain ⟨hentry, hstatus⟩ := s6.compressFields_spec w status nf sums cnt bad (hctx6 ▸ hwf)
  refine ⟨s7, status, _, nf, hrun.symm, hwork6.trans (hentry.onStream (by decide)), fun f hf => ?_, ?_, ?_,
    fun hq hint => ?_⟩
  · exact (hentry.fld_eq (hctx6 ▸ hwf) (.inl hf)).trans (State.fld_congr hctx6 _ _)
  · exact hstatus.trans (Nat.mod_eq_of_lt (compressStatus_lt _ _ _))
  · refine ⟨⟨w.c.ctx, w.step, l.desc.channel.toNat, l.desc.seq.toNat, false, false, if single then [] else spans⟩, ?_,
      rfl, rfl, rfl, rfl, rfl, rfl, fun x hx => ?_⟩
    · have hpacks : s7.q.packs = s5.q.packs := congrArg (·.q.packs) hentry.frame
      exact hpacks ▸ List.mem_append_right _ (List.mem_singleton_self _)
    · split at hx
      · cases hx
      · exact hspans x hx
  · calc s7.mem = s6.mem := congrArg (·.mem) hentry.frame
      _ = s4.mem := rfl
      _ = s3.mem := hkept hint
      _ = s1.mem := by rw [hcounted.1]
      _ = s.mem := hmem hq

end Sys2Proof.Machine
end

section
/-! An agreed scale fits its word (R52, R107). -/

namespace Sys2Proof.Machine

/-- The E8M10 container of a magnitude (R39). -/
theorem encodeF_e8m10_magnitude {m : Nat} (hm : m ≠ 0) (e : Int) : encodeF .e8m10 (.fin false m e) =
    (if (Nat.log2 m : Int) + e < -126 then (if 0 ≤ e + 136 then m <<< (e + 136).toNat else m >>> (-(e + 136)).toNat)
    else ((Nat.log2 m : Int) + e + 127).toNat * 2 ^ 10 +
      ((if Nat.log2 m ≤ 10 then m <<< (10 - Nat.log2 m) else m >>> (Nat.log2 m - 10)) - 2 ^ 10)) <<< 13 := by
  have hd : e - (VFmt.e8m10.emin - (VFmt.e8m10.man : Nat)) = e + 136 := by
    rw [show VFmt.e8m10.emin - ((VFmt.e8m10.man : Nat) : Int) = -136 from rfl]; omega
  have hemin : VFmt.e8m10.emin = -126 := rfl
  have hbias : ((VFmt.e8m10.bias : Nat) : Int) = 127 := rfl
  have hman : VFmt.e8m10.man = 10 := rfl
  unfold encodeF
  dsimp only
  rw [if_neg hm, hd, hemin, hbias, hman]
  split <;> simp [b2n, Nat.shiftLeft_eq]

/-- A value below 2^128 lies below the sign of its E8M10 container. -/
theorem encodeF_e8m10_lt {m : Nat} {e : Int} (h : m ≠ 0 → (Nat.log2 m : Int) + e ≤ 127) :
    encodeF .e8m10 (.fin false m e) < 2 ^ 31 := by
  by_cases hm : m = 0
  · subst hm; simp [encodeF, b2n]
  have hlt : m < 2 ^ (Nat.log2 m + 1) := Nat.lt_log2_self
  replace h := h hm
  rw [encodeF_e8m10_magnitude hm]
  refine shiftLeft_lt_two_pow (a := 18) (d := 13) ?_ (Nat.le_refl 31)
  split
  · split
    · exact shiftLeft_lt_two_pow hlt (by omega)
    · exact shiftRight_lt_two_pow hlt (by omega)
  · have hfrac : (if Nat.log2 m ≤ 10 then m <<< (10 - Nat.log2 m) else m >>> (Nat.log2 m - 10)) < 2 ^ 11 := by
      split
      · exact shiftLeft_lt_two_pow hlt (by omega)
      · exact shiftRight_lt_two_pow hlt (by omega)
    have hexp : ((Nat.log2 m : Int) + e + 127).toNat ≤ 254 := by omega
    omega

/-- A dyadic that does not exceed the largest finite E8M10 value lies below 2^128. -/
theorem log2_add_le_of_dyGt_eq_false {q : Nat} {e : Int} (hq : q ≠ 0) (h : dyGt q e 2047 117 = false) :
    (Nat.log2 q : Int) + e ≤ 127 := by
  unfold dyGt at h
  split at h
  · next he =>
    have hle : q * 2 ^ (e - 117).toNat < 2 ^ 11 := by
      rw [← Nat.shiftLeft_eq]
      simp only [decide_eq_false_iff_not] at h
      omega
    have hpow : 2 ^ (Nat.log2 q + (e - 117).toNat) < 2 ^ 11 := by
      rw [Nat.pow_add]
      exact Nat.lt_of_le_of_lt (Nat.mul_le_mul_right _ (Nat.log2_self_le hq)) hle
    have := (Nat.pow_lt_pow_iff_right (by decide)).mp hpow
    omega
  · next he =>
    simp only [decide_eq_false_iff_not, Nat.not_lt] at h
    have := (Nat.log2_lt hq).mpr (Nat.lt_of_le_of_lt h (shiftLeft_lt_two_pow (a := 11) (by decide) (Nat.le_refl _)))
    omega

theorem encodeF_roundUpE8M10_lt (m : Nat) (e : Int) : encodeF .e8m10 (roundUpE8M10 m e) < 2 ^ 31 := by
  unfold roundUpE8M10
  split
  · decide
  · dsimp only
    generalize (if m % 2 ^ (Nat.log2 m - 10) = 0 then _ else _) = q
    split
    · decide
    · split
      · decide
      · next h => exact encodeF_e8m10_lt fun hq => log2_add_le_of_dyGt_eq_false hq (by simpa using h)

theorem agreedScale_lt (code : Nat) (a : FV) : agreedScale code a < 2 ^ 31 := by
  cases a with
  | nan => exact Nat.two_pow_pos 31
  | inf s => exact Nat.two_pow_pos 31
  | fin s m e =>
    unfold agreedScale
    dsimp only
    split
    · decide
    · split <;> exact encodeF_roundUpE8M10_lt _ _

/-- The scale agreed from an amax fits its word (R107). -/
theorem State.takeScale_ok_lt {s : State} {c : Stream} {sc : Nat} (hsrc : c.scaleSrc = 0)
    (h : (s.takeScale c).1 = .ok sc) : sc < 2 ^ 31 := by
  unfold State.takeScale at h
  split at h
  · dsimp only at h
    split at h
    · cases h
    · split at h
      · cases h; exact agreedScale_lt _ _
      · cases h
  · next h1 => exact absurd (hsrc.symm.trans h1) (by decide)
  · next h2 => exact absurd (hsrc.symm.trans h2) (by decide)
  · cases h

end Sys2Proof.Machine
end

section
/-! COMPRESS's checks (R107, R110, R119): the ways in which it fails, and what it begins its chunks with. -/

namespace Sys2Proof.Machine

/-! ### What the checks read -/

/-- All that the checks of a stream's COMPRESS read is the same. -/
structure State.ReadsAlike (s : State) (ctx : Nat) (t : State) : Prop where
  groups : s.sameGroups t
  mem : t.mem = s.mem
  memPoison : t.memPoison = s.memPoison
  statsStep : t.fld (strmBase ctx) Strm.statsStep = s.fld (strmBase ctx) Strm.statsStep
  statsStatus : t.fld (strmBase ctx) Strm.statsStatus = s.fld (strmBase ctx) Strm.statsStatus
  outCount : t.fld (strmBase ctx) Strm.outCount = s.fld (strmBase ctx) Strm.outCount

/-- The rows that COMPRESS asks for (R103, R105). -/
def State.compressRows (s : State) (ctx : Nat) (c : Stream) : Except Nat (List Nat) :=
  s.rowsInForce c (if c.outN = 0 then 0 else if c.outAuto then s.fld (strmBase ctx) Strm.outCount else c.outN)
    (!c.outAuto)

namespace State.ReadsAlike

variable {s t u : State} {ctx : Nat}

theorem trans (h : s.ReadsAlike ctx t) (h' : t.ReadsAlike ctx u) : s.ReadsAlike ctx u :=
  ⟨fun g f hg hf => (h'.groups g f hg hf).trans (h.groups g f hg hf), h'.mem.trans h.mem,
    h'.memPoison.trans h.memPoison, h'.statsStep.trans h.statsStep, h'.statsStatus.trans h.statsStatus,
    h'.outCount.trans h.outCount⟩

theorem streamCheck (h : s.ReadsAlike ctx t) (compress record : Bool) :
    t.streamCheck (s.stream ctx) compress record = s.streamCheck (s.stream ctx) compress record :=
  h.groups.streamCheck (s.stream_group_lt ctx) compress record

theorem compressReady (h : s.ReadsAlike ctx t) {c : Stream} (hc : c.ctx = ctx) (step : Nat) :
    (t.statsDone c step && t.rowsStep c step) = (s.statsDone c step && s.rowsStep c step) := by
  subst hc
  simp only [State.statsDone, State.rowsStep, h.statsStep, h.statsStatus]

theorem compressRows (h : s.ReadsAlike ctx t) (c : Stream) : t.compressRows ctx c = s.compressRows ctx c := by
  rw [State.compressRows, h.outCount, State.rowsInForce_congr h.mem h.memPoison, State.compressRows]

theorem takeScale (h : s.ReadsAlike ctx t) (c : Stream) : t.takeScale c = s.takeScale c :=
  State.takeScale_congr h.mem h.memPoison c

end State.ReadsAlike

theorem State.Begins.readsAlike {s : State} {op : Nat} {d : Desc} (h : s.Begins op d) {ctx : Nat} (hctx : ctx < 2 ^ 14) :
    s.ReadsAlike ctx (s.begun op d).2 :=
  ⟨h.tables.sameGroups, h.mem, h.memPoison, h.tables.strm hctx (by decide), h.tables.strm hctx (by decide),
    h.tables.strm hctx (by decide)⟩

/-! ### The state that COMPRESS checks and packs from -/

/-- COMPRESS_STEP written, as COMPRESS does before its checks (R119). -/
def State.compressBegun (s : State) (d : Desc) : State :=
  s.setFld (strmBase (streamCtx d)) Strm.compressStep (opd d 0x24 4)

/-- The amax that an agreed scale is formed from, noted (R101, R107). -/
def State.noteAmax (s : State) (b : Nat) (amax : Option Nat) : State :=
  match amax with
  | some a => s.setFld b Strm.agreedAmax a
  | none => s

/-- The agreed scale noted (R101, R107). -/
def State.noteScale (s : State) (c : Stream) (b scale : Nat) : State :=
  if c.scaleSrc = 0 then s.setFld b Strm.scale scale else s

theorem State.compressBegun_spec (s : State) (d : Desc) (h : s.ctx.wf = true) :
    let b := strmBase (streamCtx d)
    s.WritesEntry b 0x8C 4 (s.compressBegun d) ∧ (s.compressBegun d).fld b Strm.compressStep = opd d 0x24 4 :=
  ⟨(State.WritesEntry.refl _ _ _ h).setFld _ _ (by decide) (by decide),
    (s.fld_setFld_same _ _ h (by decide) (by decide)).trans (Nat.mod_eq_of_lt (opd_lt d 0x24 4))⟩

theorem State.readsAlike_compressBegun (s : State) (d : Desc) (h : s.ctx.wf = true) :
    s.ReadsAlike (streamCtx d) (s.compressBegun d) :=
  have hentry := (s.compressBegun_spec d h).1
  ⟨hentry.sameGroups h (streamCtx_lt d) (by decide), rfl, rfl, hentry.fld_eq h (by decide),
    hentry.fld_eq h (by decide), hentry.fld_eq h (by decide)⟩

theorem State.noteAmax_writes (s : State) (b : Nat) (amax : Option Nat) (h : s.ctx.wf = true) :
    s.WritesEntry b 0x84 4 (s.noteAmax b amax) := by
  cases amax with
  | none => exact State.WritesEntry.refl _ _ _ h
  | some a => exact (State.WritesEntry.refl _ _ _ h).setFld _ _ (by decide) (by decide)

theorem State.noteScale_spec (s : State) (c : Stream) (b : Nat) {scale : Nat} (h : s.ctx.wf = true)
    (hfit : c.scaleSrc = 0 → scale < 2 ^ 31) :
    s.WritesEntry b 0x60 4 (s.noteScale c b scale) ∧
    (c.scaleSrc = 0 → (s.noteScale c b scale).fld b Strm.scale = scale) := by
  unfold State.noteScale
  split
  · next hsrc =>
    exact ⟨(State.WritesEntry.refl _ _ _ h).setFld _ _ (by decide) (by decide), fun _ =>
      (s.fld_setFld_same b scale h (by decide) (by decide)).trans
        (Nat.mod_eq_of_lt (Nat.lt_of_lt_of_le (hfit hsrc) (by decide)))⟩
  · next hsrc => exact ⟨State.WritesEntry.refl _ _ _ h, fun h0 => absurd h0 hsrc⟩

/-! ### A failure -/

/-- COMPRESS that fails leaves its status in its entry and a pack that will be skipped (R119, R177). -/
theorem State.compressFail_spec (s : State) (l : Live) (ctx step : Nat) {st : Nat} (h : s.ctx.wf = true)
    (hst : st < 256) :
    let b := strmBase ctx
    ∃ v : State, s.compressFail l ctx step st = v.finish l ⟨st, 0, 0, none⟩ ∧ s.WorksOnStream b v ∧ v.mem = s.mem ∧
      v.regs = s.regs ∧ v.fld b Strm.compressStep = s.fld b Strm.compressStep ∧ v.fld b Strm.compressStatus = st ∧
      (⟨ctx, step, l.desc.channel.toNat, l.desc.seq.toNat, false, true, []⟩ : Pack) ∈ v.q.packs := by
  intro b
  have hentry := (State.WritesEntry.refl b 0x95 0x6B h).setFld Strm.compressStatus st (by decide) (by decide)
  refine ⟨_, rfl, (hentry.onStream (by decide)).trans (.of_queue rfl), rfl, rfl, ?_, ?_, ?_⟩
  · exact hentry.fld_eq h (by decide)
  · exact (s.fld_setFld_same b st h (by decide) (by decide)).trans (Nat.mod_eq_of_lt hst)
  · exact List.mem_append_right _ (List.mem_singleton_self _)

/-! ### The command -/

theorem startCompress_waits {u : State} {l : Live} (h : u.streamHeld l = true ∨ u.freePiers = []) :
    startCompress l u = u := by
  unfold startCompress
  exact if_pos (by simpa using h)

section
variable {u v : State} {l : Live} {c : Stream} (hfree : u.streamHeld l = false) (hpier : u.freePiers ≠ [])
  (hclean : u.cleanTables = true) (hc : u.stream (streamCtx l.desc) = c)
  (hv : u.setFld (strmBase (streamCtx l.desc)) Strm.compressStep (opd l.desc 0x24 4) = v)
include hfree hpier hclean hc hv

theorem startCompress_refuses {st : Nat} (h : v.streamCheck c true (opBit l.desc 0x28 0) = .error st) :
    startCompress l u = v.compressFail l (streamCtx l.desc) (opd l.desc 0x24 4) st := by
  unfold startCompress
  simp [hfree, hpier, State.streamUse, State.ctxUse_clean _ _ hclean, hc, hv, h]

variable {r : Nat × Nat} (hcheck : v.streamCheck c true (opBit l.desc 0x28 0) = .ok r)
include hcheck

theorem startCompress_notReady
    (h : (v.statsDone c (opd l.desc 0x24 4) && v.rowsStep c (opd l.desc 0x24 4)) = false) :
    startCompress l u = v.compressFail l (streamCtx l.desc) (opd l.desc 0x24 4) 0x23 := by
  unfold startCompress
  rw [Bool.and_eq_false_iff] at h
  simp [hfree, hpier, State.streamUse, State.ctxUse_clean _ _ hclean, hc, hv, hcheck, h]

variable (hready : (v.statsDone c (opd l.desc 0x24 4) && v.rowsStep c (opd l.desc 0x24 4)) = true)
include hready

theorem startCompress_stale (h : l.stale = true) :
    startCompress l u = v.compressFail l (streamCtx l.desc) (opd l.desc 0x24 4) 0x32 := by
  unfold startCompress
  rw [Bool.and_eq_true] at hready
  simp [hfree, hpier, State.streamUse, State.ctxUse_clean _ _ hclean, hc, hv, hcheck, hready, h]

variable (hfresh : l.stale = false)
include hfresh

theorem startCompress_badRows {st : Nat} (h : v.compressRows (streamCtx l.desc) c = .error st) :
    startCompress l u = v.compressFail l (streamCtx l.desc) (opd l.desc 0x24 4) st := by
  unfold startCompress
  unfold State.compressRows at h
  rw [Bool.and_eq_true] at hready
  simp [hfree, hpier, State.streamUse, State.ctxUse_clean _ _ hclean, hc, hv, hcheck, hready, hfresh, h]

variable {rows : List Nat} (hrows : v.compressRows (streamCtx l.desc) c = .ok rows)
include hrows

theorem startCompress_badScale {st : Nat} (h : (v.takeScale c).1 = .error st) :
    startCompress l u = (v.noteAmax (strmBase (streamCtx l.desc)) (v.takeScale c).2).compressFail l
      (streamCtx l.desc) (opd l.desc 0x24 4) st := by
  unfold startCompress
  unfold State.compressRows at hrows
  rw [Bool.and_eq_true] at hready
  simp [hfree, hpier, State.streamUse, State.ctxUse_clean _ _ hclean, hc, hv, hcheck, hready, hfresh, hrows, h]
  rfl

theorem startCompress_runs {sc : Nat} (h : (v.takeScale c).1 = .ok sc) :
    ∃ (w : Run) (cnt : Counts) (flushes : Nat), w.c = c ∧ w.step = opd l.desc 0x24 4 ∧ w.rows = rows ∧
      startCompress l u = ((v.noteAmax (strmBase (streamCtx l.desc)) (v.takeScale c).2).noteScale c
        (strmBase (streamCtx l.desc)) sc).compressRun l w r (opBit l.desc 0x28 0) cnt flushes := by
  obtain ⟨x, hx⟩ : ∃ x, startCompress l u = x := ⟨_, rfl⟩
  rw [hx]
  unfold startCompress at hx
  unfold State.compressRows at hrows
  rw [Bool.and_eq_true] at hready
  simp [hfree, hpier, State.streamUse, State.ctxUse_clean _ _ hclean, hc, hv, hcheck, hready, hfresh, hrows, h] at hx
  exact ⟨_, _, _, rfl, rfl, rfl, hx.symm⟩

end

end Sys2Proof.Machine
end

section
/-! STATS and COMPRESS from their dispatch to their end (R96, R106, R114, R119, R177). -/

namespace Sys2Proof.Machine

/-- The checks that a stream's COMPRESS fails, with the status (R107, R110, R119). -/
def State.compressFails (s : State) (d : Desc) (stale : Bool) (st : Nat) : Prop :=
  let c := s.stream (streamCtx d)
  let ready := s.statsDone c (opd d 0x24 4) && s.rowsStep c (opd d 0x24 4)
  s.streamCheck c true (opBit d 0x28 0) = .error st ∨
    ∃ r, s.streamCheck c true (opBit d 0x28 0) = .ok r ∧
      (ready = false ∧ st = 0x23 ∨ ready = true ∧ (stale = true ∧ st = 0x32 ∨ stale = false ∧
        (s.compressRows (streamCtx d) c = .error st ∨
          ∃ rows, s.compressRows (streamCtx d) c = .ok rows ∧ (s.takeScale c).1 = .error st)))

section
variable {s u : State} {l : Live} (hread : s.ReadsAlike (streamCtx l.desc) u) (hwf : u.ctx.wf = true)
  (hctx : u.stream (streamCtx l.desc) = s.stream (streamCtx l.desc)) (hfree : u.streamHeld l = false)
  (hpier : u.freePiers ≠ []) (hclean : u.cleanTables = true)
include hread hwf hctx hfree hpier hclean

/-- A COMPRESS that fails a check ends with its status, with no more of its entry written than its step and the amax of
its scale. -/
theorem startCompress_fails {st : Nat} (h : s.compressFails l.desc l.stale st) :
    st < 256 ∧ ∃ w, (u.compressBegun l.desc).WritesEntry (strmBase (streamCtx l.desc)) 0x84 4 w ∧
      startCompress l u = w.compressFail l (streamCtx l.desc) (opd l.desc 0x24 4) st := by
  have hwf' := (u.compressBegun_spec l.desc hwf).1.wf
  have hreads := hread.trans (u.readsAlike_compressBegun l.desc hwf)
  have hsame := State.WritesEntry.refl (strmBase (streamCtx l.desc)) 0x84 4 hwf'
  rcases h with h | ⟨r, hr, ⟨hnot, rfl⟩ | ⟨hready, ⟨hstale, rfl⟩ | ⟨hfresh, h | ⟨rows, hrows, h⟩⟩⟩⟩
  · exact ⟨State.streamCheck_error_lt h, _, hsame, startCompress_refuses hfree hpier hclean hctx rfl
      ((hreads.streamCheck _ _).trans h)⟩
  all_goals replace hr := (hreads.streamCheck _ _).trans hr
  · exact ⟨by decide, _, hsame, startCompress_notReady hfree hpier hclean hctx rfl hr
      ((hreads.compressReady rfl _).trans hnot)⟩
  all_goals replace hready := (hreads.compressReady rfl _).trans hready
  · exact ⟨by decide, _, hsame, startCompress_stale hfree hpier hclean hctx rfl hr hready hstale⟩
  · exact ⟨State.rowsInForce_error_lt h, _, hsame, startCompress_badRows hfree hpier hclean hctx rfl hr hready hfresh
      ((hreads.compressRows _).trans h)⟩
  · have hscale : ((u.compressBegun l.desc).takeScale (s.stream (streamCtx l.desc))).1 = .error st :=
      (congrArg Prod.fst (hreads.takeScale _)).trans h
    exact ⟨State.takeScale_error_lt h, _, State.noteAmax_writes _ _ _ hwf', startCompress_badScale hfree hpier hclean
      hctx rfl hr hready hfresh ((hreads.compressRows _).trans hrows) hscale⟩

/-- A COMPRESS that fails (R119, R177). -/
theorem startCompress_fails_spec {st : Nat} (h : s.compressFails l.desc l.stale st) :
    let b := strmBase (streamCtx l.desc)
    ∃ v : State, startCompress l u = v.finish l ⟨st, 0, 0, none⟩ ∧ u.WorksOnStream b v ∧ v.mem = u.mem ∧
      v.regs = u.regs ∧ v.fld b Strm.compressStep = opd l.desc 0x24 4 ∧ v.fld b Strm.compressStatus = st ∧
      (⟨streamCtx l.desc, opd l.desc 0x24 4, l.desc.channel.toNat, l.desc.seq.toNat, false, true, []⟩ : Pack)
        ∈ v.q.packs := by
  intro b
  obtain ⟨hlt, w, hnoted, hstart⟩ := startCompress_fails hread hwf hctx hfree hpier hclean h
  obtain ⟨hbegun, hstep⟩ := u.compressBegun_spec l.desc hwf
  obtain ⟨v, hv, hworks, hmem, hregs, hkept, hstatus, hpack⟩ :=
    w.compressFail_spec l (streamCtx l.desc) (opd l.desc 0x24 4) hnoted.wf hlt
  refine ⟨v, hstart.trans hv, ?_, ?_, ?_, ?_, hstatus, hpack⟩
  · exact (hbegun.onStream (by decide)).trans ((hnoted.onStream (by decide)).trans hworks)
  · rw [hmem, hnoted.frame, hbegun.frame]
  · rw [hregs, hnoted.frame, hbegun.frame]
  · rw [hkept, hnoted.fld_eq hbegun.wf (by decide), hstep]

/-- A COMPRESS whose checks pass (R108-R114, R119). -/
theorem startCompress_runs_spec {r : Nat × Nat} {rows : List Nat} {sc : Nat}
    (hcheck : s.streamCheck (s.stream (streamCtx l.desc)) true (opBit l.desc 0x28 0) = .ok r)
    (hready : (s.statsDone (s.stream (streamCtx l.desc)) (opd l.desc 0x24 4) &&
      s.rowsStep (s.stream (streamCtx l.desc)) (opd l.desc 0x24 4)) = true) (hfresh : l.stale = false)
    (hscale : (s.takeScale (s.stream (streamCtx l.desc))).1 = .ok sc)
    (hrows : s.compressRows (streamCtx l.desc) (s.stream (streamCtx l.desc)) = .ok rows) :
    let b := strmBase (streamCtx l.desc)
    let c := s.stream (streamCtx l.desc)
    ∃ (v : State) (st passes : Nat) (nf : Option Nat),
      startCompress l u = v.finish l ⟨st, 0, passes, nf⟩ ∧ u.WorksOnStream b v ∧
      v.fld b Strm.compressStep = opd l.desc 0x24 4 ∧ v.fld b Strm.compressStatus = st ∧
      (∃ p ∈ v.q.packs, p.ctx = streamCtx l.desc ∧ p.step = opd l.desc 0x24 4 ∧ p.channel = l.desc.channel.toNat ∧
        p.seq = l.desc.seq.toNat ∧ p.taken = false ∧ p.skip = false ∧
        ∀ x ∈ p.spans, x.ctx = streamCtx l.desc ∧ x.step = opd l.desc 0x24 4) ∧
      (c.scaleSrc = 0 → v.fld b Strm.scale = sc) ∧
      (c.resFmt = 0 → c.outN = 0 → c.int32 = false → v.mem = u.mem) := by
  intro b c
  obtain ⟨hbegun, hstep⟩ := u.compressBegun_spec l.desc hwf
  have hreads := hread.trans (u.readsAlike_compressBegun l.desc hwf)
  have hscaled : ((u.compressBegun l.desc).takeScale c).1 = .ok sc :=
    (congrArg Prod.fst (hreads.takeScale c)).trans hscale
  obtain ⟨w, cnt, flushes, hwc, hwstep, hwrows, hstart⟩ := startCompress_runs hfree hpier hclean hctx rfl
    ((hreads.streamCheck _ _).trans hcheck) ((hreads.compressReady rfl _).trans hready) hfresh
    ((hreads.compressRows c).trans hrows) hscaled
  change startCompress l u = ((((u.compressBegun l.desc).noteAmax b ((u.compressBegun l.desc).takeScale c).2).noteScale
    c b sc).compressRun l w r _ cnt flushes) at hstart
  generalize ((u.compressBegun l.desc).takeScale c).2 = amax at hstart
  have hamax := (u.compressBegun l.desc).noteAmax_writes b amax hbegun.wf
  obtain ⟨hnoted, hsc⟩ := ((u.compressBegun l.desc).noteAmax b amax).noteScale_spec c b (scale := sc) hamax.wf
    fun h0 => State.takeScale_ok_lt h0 hscale
  have hbase : strmBase w.c.ctx = b := by rw [hwc]; rfl
  obtain ⟨v, st, passes, nf, hrun, hworks, hkept, hstatus, hpack, hmem⟩ :=
    (((u.compressBegun l.desc).noteAmax b amax).noteScale c b sc).compressRun_spec l w r (opBit l.desc 0x28 0) cnt flushes
      hnoted.wf
  rw [hbase] at hworks hkept hstatus
  refine ⟨v, st, passes, nf, hstart.trans hrun, ?_, ?_, hstatus, ?_, fun h0 => ?_, fun hres hout hint => ?_⟩
  · exact (hbegun.onStream (by decide)).trans ((hamax.onStream (by decide)).trans ((hnoted.onStream (by decide)).trans
      hworks))
  · rw [hkept _ (by decide), hnoted.fld_eq hamax.wf (by decide), hamax.fld_eq hbegun.wf (by decide), hstep]
  · rw [hwc, hwstep] at hpack
    exact hpack
  · rw [hkept _ (by decide), hsc h0]
  · have hnone : rows = [] := by
      rw [State.compressRows, State.rowsInForce, if_pos (if_pos hout)] at hrows
      cases hrows; rfl
    rw [hmem (by rw [hwc, hwrows]; exact ⟨hres, hnone⟩) (by rw [hwc]; exact hint), hnoted.frame, hamax.frame,
      hbegun.frame]

end

/-- What a stream's command begins with reads as before its dispatch. -/
theorem State.Begins.forStream {s : State} {op : Nat} {d : Desc} (h : s.Begins op d) (hclean : s.cleanTables = true) :
    (s.begun op d).1.desc = d ∧ s.ReadsAlike (streamCtx d) (s.begun op d).2 ∧
    (s.begun op d).2.stream (streamCtx d) = s.stream (streamCtx d) ∧ (s.begun op d).2.ctx.wf = true ∧
    (s.begun op d).2.cleanTables = true :=
  ⟨h.desc_eq, h.readsAlike (streamCtx_lt d),
    State.stream_congr fun f hf => h.tables.strm (streamCtx_lt d) (Nat.le_trans hf (by decide)), h.wf,
    h.cleanTables.trans hclean⟩

/-- Settles O29: from its dispatch each command reads what its checks ask for as it stood before, and a check that fails,
a stream that is held, no free Pier, or the run over the chunks decides its end. -/
theorem statsAndCompressKeepTheirStream : Obligations.StatsAndCompressKeepTheirStream := by
  unfold Obligations.StatsAndCompressKeepTheirStream
  intro s d hclean hwf
  refine ⟨fun hgo => ?_, fun hgo => ?_⟩
  · obtain ⟨hd, hreads, hstream, hwf', hclean'⟩ := (s.begins 0x02 d hwf).forStream hclean
    rw [exec_stats, execStats, State.runDesc_goes startStats hgo]
    dsimp only
    generalize (s.begun 0x02 d).1 = l at hd ⊢
    generalize (s.begun 0x02 d).2 = u at *
    subst hd
    rw [← hreads.streamCheck, ← State.rowsInForce_congr hreads.mem hreads.memPoison, ← hstream]
    refine ⟨fun hheld => congrArg _ (startStats_held hheld), fun hfree => ⟨fun st h => ?_, fun r st hr h => ?_,
      fun r rows hr h hpier => ?_, fun r rows hr h hpier => ?_⟩⟩
    · exact congrArg _ (startStats_refuses hfree hclean' h)
    · exact congrArg _ (startStats_badRows hfree hclean' hr h)
    · exact congrArg _ (startStats_waits hfree hclean' hr h hpier)
    · obtain ⟨v, st, nf, hrun, hworks, hstep, hstatus, hnf, hok⟩ :=
        u.statsRun_spec l (u.stream (streamCtx l.desc)) r rows (opBit l.desc 0x28 0) hwf' (opd_lt l.desc 0x24 4)
      exact ⟨v, st, nf, congrArg _ ((startStats_runs hfree hclean' hr h hpier).trans hrun), hworks.streams, hworks.regs,
        hworks.cb, hstep, hstatus, hnf, hworks.but, fun hp => hok (hreads.memPoison.trans hp)⟩
  · obtain ⟨hd, hreads, hstream, hwf', hclean'⟩ := (s.begins 0x01 d hwf).forStream hclean
    rw [exec_compress, execCompress, State.runDesc_goes startCompress hgo]
    dsimp only
    generalize (s.begun 0x01 d).1 = l at hd ⊢
    generalize (s.begun 0x01 d).2 = u at *
    subst hd
    refine ⟨fun hwait => congrArg _ (startCompress_waits hwait), fun hfree hpier => ⟨fun st h => ?_,
      fun r rows sc hr hready hfresh hscale hrows => ?_⟩⟩
    · obtain ⟨v, hrun, hworks, hmem, hregs, hstep, hstatus, hpack⟩ :=
        startCompress_fails_spec hreads hwf' hstream hfree hpier hclean' h
      exact ⟨v, congrArg _ hrun, hworks.streams, hmem, hregs, hworks.but, hstep, hstatus, hpack⟩
    · obtain ⟨v, st, passes, nf, hrun, hworks, hstep, hstatus, hpack, hsc, hmem⟩ :=
        startCompress_runs_spec hreads hwf' hstream hfree hpier hclean' hr hready hfresh hscale hrows
      exact ⟨v, st, passes, nf, congrArg _ hrun, hworks.streams, hworks.regs, hworks.cb, hworks.but, hstep, hstatus,
        hpack, hsc, hmem⟩

end Sys2Proof.Machine
end

section
/-! A frame that leaves in a seventh dimension (R298). DECK_MODE has three bits for the number of dimensions and can name
seven, where the Deck has the rings and masks of six; what stands in the place of the seventh mask is DECK_FWD, which counts
the frame before it is routed. -/

namespace Sys2Proof.Machine

/-- Every island runs, half-port 0 is UP, and the Deck is enabled for seven dimensions: six rings of one node and, at the
offset behind them, where the Deck has no register, a ring of two. One frame has been forwarded. -/
def sevenDimensions : State :=
  { State.reset with
    regs := [(R.portStat 0 0, 0x40000000), (R.deckMode, 0xE0)] ++
      (List.range 6).map (fun d => (R.deckRing d, 1)) ++
      [(R.deckRing 6, 2), (R.deckFwdLo, 1), (R.deckCtrl, 2)]
    pwr := { Pwr.reset with islands := List.replicate 69 (Island.reset true) } }

/-- A packet for node 1, the other node of the seventh ring. -/
def packetToNode1 : Packet := { blankPkt with version := 2, opcode := 0x01, dst := 1 }

theorem sevenDimensions_up : sevenDimensions.up 37 = true ∧ 0 < sevenDimensions.deck.ports.length ∧
    sevenDimensions.linkIsUp 0 = true ∧ sevenDimensions.islandReady 3 = true := by decide +kernel

/-- The frame fits its lane, stands below the hop limit, and nothing keeps the Deck from taking it. -/
theorem sevenDimensions_takes :
    sevenDimensions.occupancy 0 0 + pktSize packetToNode1 ≤ sevenDimensions.vlBytes 0 0 31 24 ∧
    0 ≠ sevenDimensions.regBits R.deckHopLimit 7 0 ∧ sevenDimensions.deckRoom = true ∧
    (sevenDimensions.half 0).buffer = [] := by decide +kernel

/-- The seventh mask of the plus direction is DECK_FWD, which is 1 and so names half-port 0. -/
theorem sevenDimensions_chooses : 1 ≠ sevenDimensions.node ∧
    sevenDimensions.chooseOut (sevenDimensions.candidates (some 0) 0 1) = some (0, 0) := by decide +kernel

/-- The link words of the packet as half-port 0 hears them, on VL 0 and with no hop behind it. -/
def heardOnHalf0 : RxFrame := ⟨frameWords ⟨0, 0, 0, false, packetToNode1⟩, false, []⟩

/-- The count of this frame makes the seventh mask name half-port 1, which port 0 does not have, and the frame is
discarded. -/
theorem sevenDimensions_discards : (sevenDimensions.atHalf 0 (frameReceive 0 heardOnHalf0)).deck.out = [] := by
  decide +kernel

/-- Refutes O49: no limit is put on the number of dimensions. With seven of them the output chosen for a frame is half-port
0, but the frame is counted as forwarded first, which moves the mask that it is then routed by, and no frame leaves. -/
theorem not_framesArriveAndArePassedOn : ¬ Obligations.FramesArriveAndArePassedOn := by
  unfold Obligations.FramesArriveAndArePassedOn
  intro h
  obtain ⟨hup, hports, hlink, hdeck⟩ := sevenDimensions_up
  obtain ⟨hfits, hhops, hroom, hbuffer⟩ := sevenDimensions_takes
  obtain ⟨hnode, hout⟩ := sevenDimensions_chooses
  obtain ⟨harrives, -⟩ := h sevenDimensions 0 hup hports
  obtain ⟨hframe, -⟩ := harrives hlink hdeck
  obtain ⟨⟨t, hrun, -, -, -, -, -, hforwards⟩, -⟩ := hframe packetToNode1 0 0 (by decide) (by decide)
  obtain ⟨hqueued, -⟩ := hforwards 0 0 ⟨by decide, hfits, hhops, hroom, hbuffer⟩ hnode hout
  have hnext : exec (.frameReceive 0 heardOnHalf0) sevenDimensions =
      .next (sevenDimensions.atHalf 0 (frameReceive 0 heardOnHalf0)) := exec_frameReceive sevenDimensions 0 heardOnHalf0
  have ht : t.deck.out = [] :=
    (congrArg (fun u => u.deck.out) (Host.Outcome.next.inj (hnext.symm.trans hrun))).symm.trans sevenDimensions_discards
  rw [hqueued] at ht
  exact List.append_ne_nil_of_right_ne_nil _ (List.cons_ne_nil _ _) ht

end Sys2Proof.Machine
end

section
/-! Messages sent (R263, R267, R273) and descriptors completed (R22): what they leave of the machine, in which the exchange
groups and the receiving side of every connection stand as before. -/

namespace Sys2Proof.Machine

/-! ### Bytes of the context tables that stay -/

/-- The bytes of a connection's entry that hold RX_EXP and the placement map of the control stream (R249). -/
def rxByte (b : Nat) : Prop := 0x1000000 ≤ b ∧ 0x46 ≤ b % 256 ∧ b % 256 < 0x50

/-- The exchange groups' entries, and what is received on the control stream of every connection. -/
def sendKept (b : Nat) : Prop := (0xE00000 ≤ b ∧ b < 0xF00000) ∨ rxByte b

/-- The context tables are canonical, and their bytes that P names read as in o. -/
structure State.Holds (P : Nat → Prop) (o s : State) : Prop where
  wf : s.ctx.wf = true
  read : ∀ b, P b → s.ctx.read b = o.ctx.read b

section
variable {P : Nat → Prop} {o s t : State}

theorem State.Holds.refl (h : s.ctx.wf = true) : s.Holds P s := ⟨h, fun _ _ => rfl⟩

theorem State.Holds.trans (h : o.Holds P s) (h' : s.Holds P t) : o.Holds P t :=
  ⟨h'.wf, fun b hb => (h'.read b hb).trans (h.read b hb)⟩

theorem State.Holds.mono {Q : Nat → Prop} (h : o.Holds P s) (hPQ : ∀ b, Q b → P b) : o.Holds Q s :=
  ⟨h.wf, fun b hb => h.read b (hPQ b hb)⟩

theorem State.Holds.of_ctx (h : o.Holds P s) (hctx : t.ctx = s.ctx) : o.Holds P t :=
  ⟨hctx ▸ h.wf, fun b hb => hctx ▸ h.read b hb⟩

/-- Bytes of a run that P does not name may differ. -/
theorem State.Holds.of_ctxBut (h : o.Holds P s) {a n : Nat} (hwf : t.ctx.wf = true) (hbut : s.ctxBut t a n)
    (hP : ∀ b, a ≤ b → b < a + n → ¬ P b) : o.Holds P t :=
  h.trans ⟨hwf, fun b hb => hbut b (by by_contra hin; exact hP b (by omega) (by omega) hb)⟩

theorem State.Holds.setFld (h : o.Holds P s) (a : Nat) (f : Fld) (v : Nat)
    (hP : ∀ b, a + f.off ≤ b → b < a + f.off + f.len → ¬ P b) : o.Holds P (s.setFld a f v) :=
  h.of_ctxBut (s.ctx_wf_setFld a f v h.wf) (s.ctxBut_setFld v h.wf (Nat.le_refl _) (Nat.le_refl _)) hP

theorem State.Holds.bumpFld (h : o.Holds P s) (a : Nat) (f : Fld) (n : Nat)
    (hP : ∀ b, a + f.off ≤ b → b < a + f.off + f.len → ¬ P b) : o.Holds P (s.bumpFld a f n) := by
  unfold State.bumpFld
  split
  · exact h
  · exact h.setFld a f _ hP

/-- A field whose bytes all stay reads as before. -/
theorem State.Holds.fld (h : o.Holds P s) (hwf : o.ctx.wf = true) {a : Nat} {f : Fld}
    (hP : ∀ b, a + f.off ≤ b → b < a + f.off + f.len → P b) : s.fld a f = o.fld a f := by
  rw [State.fld, State.fld, State.ctxRd, State.ctxRd, Memory.readN_eq _ _ h.wf, Memory.readN_eq _ _ hwf]
  congr 2
  refine List.map_congr_left fun i hi => h.read _ (hP _ (Nat.le_add_right _ _) ?_)
  have := List.mem_range.mp hi
  omega

/-- A field of an exchange group reads as before. -/
theorem State.Holds.grp (h : o.Holds sendKept s) (hwf : o.ctx.wf = true) {g : Nat} {f : Fld} (hg : g < 2 ^ 12)
    (hf : f.off + f.len ≤ 256) : s.fld (grpBase g) f = o.fld (grpBase g) f :=
  h.fld hwf fun b _ _ => .inl (by unfold grpBase at *; omega)

end

/-! ### Packets given to the Deck -/

/-- What a packet sent may change (R267): registers other than the table page's IRQ_STAT, what the transport and the Deck
hold, and the sending side of a connection. -/
structure State.Emits (s t : State) : Prop where
  frame : t = { s with regs := t.regs, irqOut := t.irqOut, ctx := t.ctx, x := t.x, deck := t.deck }
  bytes : s.Holds sendKept t
  stat : t.reg (R.hdrIrqStat 5) = s.reg (R.hdrIrqStat 5)

section
variable {o s t : State}

theorem State.Emits.refl (h : s.ctx.wf = true) : s.Emits s := ⟨rfl, .refl h, rfl⟩

theorem State.Emits.trans (h : o.Emits s) (h' : s.Emits t) : o.Emits t :=
  ⟨by rw [h'.frame, h.frame], h.bytes.trans h'.bytes, h'.stat.trans h.stat⟩

theorem State.Emits.q (h : o.Emits s) : s.q = o.q := by rw [h.frame]

theorem State.Emits.mem (h : o.Emits s) : s.mem = o.mem := by rw [h.frame]

theorem State.Emits.of_regs (h : o.Emits s) (ht : t = { s with regs := t.regs, irqOut := t.irqOut }) {l : List Nat}
    (hregs : s.regsBut t l) (hl : R.hdrIrqStat 5 ∉ l) : o.Emits t :=
  h.trans ⟨by rw [ht], (State.Holds.refl h.bytes.wf).of_ctx (by rw [ht]), hregs _ hl⟩

theorem State.Emits.bump (h : o.Emits s) {a : Nat} (n : Nat) (ha : a ≠ R.hdrIrqStat 5) : o.Emits (s.bump a n) := by
  obtain ⟨r, hr⟩ := s.bump_effect a n
  exact h.of_regs (by rw [hr]) (s.regsBut_bump n List.mem_cons_self) (l := [a]) (by simpa using ha.symm)

theorem State.Emits.bump64 (h : o.Emits s) {a : Nat} (n : Nat) (ha : a ≠ R.hdrIrqStat 5) (ha' : a + 4 ≠ R.hdrIrqStat 5) :
    o.Emits (s.bump64 a n) := by
  obtain ⟨r, hr⟩ := s.bump64_effect a n
  refine h.of_regs (l := [a, a + 4]) (by rw [hr]) (fun b hb => ?_) (by simp [ha.symm, ha'.symm])
  simp only [List.mem_cons, List.not_mem_nil, or_false, not_or] at hb
  exact s.reg_bump64_other n (Ne.symm hb.1) (Ne.symm hb.2)

theorem State.Emits.raiseIrq (h : o.Emits s) {page : Nat} (mask : Nat) (hp : R.hdrIrqStat 5 ∉ irqRegs page) :
    o.Emits (s.raiseIrq page mask) := by
  obtain ⟨r, i, hr⟩ := s.raiseIrq_effect page mask
  exact h.of_regs (by rw [hr]) (s.raiseIrq_regsBut page mask) hp

theorem State.Emits.setReg (h : o.Emits s) {a : Nat} (v : Nat) (ha : a ≠ R.hdrIrqStat 5) : o.Emits (s.setReg a v) :=
  h.of_regs rfl (s.regsBut_setReg v List.mem_cons_self) (l := [a]) (by simpa using ha.symm)

theorem State.Emits.of_x (h : o.Emits s) (ht : t = { s with x := t.x, deck := t.deck }) : o.Emits t :=
  h.trans ⟨by rw [ht], (State.Holds.refl h.bytes.wf).of_ctx (by rw [ht]), by rw [ht]; rfl⟩

theorem State.Emits.with_x (h : o.Emits s) (x : Xport) : o.Emits { s with x := x } := h.of_x rfl

theorem State.Emits.setConnX (h : o.Emits s) (c : Nat) (f : ConnX → ConnX) : o.Emits (s.setConnX c f) := h.of_x rfl

/-- A field of a connection on its sending side. -/
theorem State.Emits.setTxFld (h : o.Emits s) (c : Nat) {f : Fld} (v : Nat)
    (hf : f.off + f.len ≤ 0x46 ∨ 0x50 ≤ f.off ∧ f.off + f.len ≤ 256) : o.Emits (s.setFld (connBase c) f v) :=
  h.trans ⟨rfl, (State.Holds.refl h.bytes.wf).setFld _ _ _ fun b _ _ => by unfold sendKept rxByte connBase at *; omega, rfl⟩

theorem State.Emits.rekeyCheck (h : o.Emits s) (c : Nat) : o.Emits (s.rekeyCheck c) := by
  unfold State.rekeyCheck
  dsimp only
  split
  · exact (h.setTxFld c 1 (by decide)).raiseIrq 0x10 (by decide)
  · exact h

theorem State.Emits.countSent (h : o.Emits s) (c : Nat) : o.Emits (s.countSent c) := by
  have hcount := h.bump64 (a := R.rmaPktTxLo) 1 (by decide) (by decide)
  unfold State.countSent
  dsimp only
  by_cases hlast : ((s.bump64 R.rmaPktTxLo).connX c).pkts + 1 < 65536
  · rw [if_pos hlast]
    exact hcount.setConnX c _
  · rw [if_neg hlast]
    exact ((hcount.setConnX c _).setTxFld c _ (by decide)).rekeyCheck c

theorem State.Emits.enqueue (h : o.Emits s) (f : Frame) : o.Emits (s.enqueue f) := by
  unfold State.enqueue
  dsimp only
  split
  · exact (h.bump (a := R.deckCeMarked) 1 (by decide)).of_x rfl
  · exact h.of_x rfl

theorem State.Emits.emit (h : o.Emits s) (p : Packet) : o.Emits (s.emit p) := by
  unfold State.emit State.route
  dsimp only
  split
  · exact h.enqueue _
  · split
    · exact ((h.bump (a := R.deckNoroute) 1 (by decide)).setReg _ (by decide)).raiseIrq 1 (by decide)
    · exact h.enqueue _

theorem State.Emits.sendSpace (h : o.Emits s) (c : Nat) (p : Packet) : o.Emits (s.sendSpace c p) := by
  unfold State.sendSpace
  dsimp only
  split
  · exact h
  · split
    · exact h
    · exact ((h.setTxFld c _ (by decide)).countSent c).emit _

/-- An acknowledgement sent (R267). -/
theorem State.Emits.sendAck (h : o.Emits s) (c : Nat) (control : Bool) : o.Emits (s.sendAck c control) := by
  unfold State.sendAck
  dsimp only
  split
  · exact h
  · exact (h.sendSpace c _).setConnX c _

end

/-! ### Messages and completions -/

/-- What sending messages and completing descriptors may change: in the queue island only the outstanding descriptors and
the pre-posted store. -/
structure State.Sends (s t : State) : Prop where
  frame : t = { s with
    mem := t.mem, memPoison := t.memPoison, regs := t.regs, irqOut := t.irqOut, ctx := t.ctx, ctxPoison := t.ctxPoison
    upsets := t.upsets, cb := t.cb, touched := t.touched, x := t.x, deck := t.deck, snap := t.snap
    q := { s.q with live := t.q.live, store := t.q.store } }
  bytes : s.Holds sendKept t

theorem State.Emits.sends {s t : State} (h : s.Emits t) : s.Sends t := ⟨by rw [h.frame], h.bytes⟩

section
variable {o s t : State}

theorem State.Sends.refl (h : s.ctx.wf = true) : s.Sends s := ⟨rfl, .refl h⟩

theorem State.Sends.trans (h : o.Sends s) (h' : s.Sends t) : o.Sends t :=
  ⟨by rw [h'.frame, h.frame], h.bytes.trans h'.bytes⟩

/-- A step beside the context tables. -/
theorem State.Sends.step (h : o.Sends s) (ht : t = { s with
    mem := t.mem, memPoison := t.memPoison, regs := t.regs, irqOut := t.irqOut, upsets := t.upsets, cb := t.cb
    touched := t.touched, x := t.x, deck := t.deck, snap := t.snap
    q := { s.q with live := t.q.live, store := t.q.store } }) : o.Sends t :=
  h.trans ⟨by rw [ht], (State.Holds.refl h.bytes.wf).of_ctx (by rw [ht])⟩

theorem State.Sends.with_x (h : o.Sends s) (x : Xport) : o.Sends { s with x := x } := h.step rfl

theorem State.Sends.cbRelease (h : o.Sends s) (id : Nat) : o.Sends (s.cbRelease id) := by
  unfold State.cbRelease
  dsimp only
  refine List.foldlRecOn (motive := fun t => o.Sends t) _ _ (h.step rfl) fun t ht p _ => ht.step ?_
  rw [(t.cbWriteBack_spec p.1).1]

theorem State.Sends.completeOne (h : o.Sends s) (l : Live) (r : Result) : o.Sends (s.completeOne l r) := by
  have hcq := l.desc.cq.isLt
  have hctr := l.desc.doneCtr.isLt
  have hrel := h.cbRelease l.id
  rw [State.completeOne_released]
  obtain ⟨heq1, hwf1, hbut1, -⟩ := (s.cbRelease l.id).retired_effect l hrel.bytes.wf
  obtain ⟨heq2, hwf2, hbut2, -⟩ := ((s.cbRelease l.id).retired l).reported_effect l r hwf1
  obtain ⟨heq3, hwf3, hbut3, -⟩ := (((s.cbRelease l.id).retired l).reported l r).doneRaised_effect l r hwf2
  refine hrel.trans ⟨by rw [heq3, heq2, heq1], ?_⟩
  refine ((State.Holds.refl hrel.bytes.wf).of_ctxBut hwf1 hbut1 ?_ |>.of_ctxBut hwf2 hbut2 ?_).of_ctxBut hwf3 hbut3 ?_
  all_goals
    intro b _ _
    unfold sendKept rxByte cqBase ctrBase at *
    omega

theorem State.Sends.ctrAdd (h : o.Sends s) {c : Nat} (n : Nat) (hc : c < 65536) : o.Sends (s.ctrAdd c n) := by
  obtain ⟨heq, hwf, hbut, -⟩ := s.ctrAdd_effect n hc h.bytes.wf
  refine h.trans ⟨by rw [heq], (State.Holds.refl h.bytes.wf).of_ctxBut hwf hbut fun b _ _ => ?_⟩
  unfold sendKept rxByte ctrBase at *
  omega

theorem State.Sends.settle (h : o.Sends s) (n : Nat) : o.Sends (s.settle n) := by
  induction n generalizing s with
  | zero => exact h
  | succ n ih =>
    unfold State.settle
    split
    · exact ih (h.completeOne _ _)
    · exact h

theorem State.Sends.finish (h : o.Sends s) (l : Live) (r : Result) : o.Sends (s.finish l r) :=
  (h.completeOne l r).settle _

theorem State.Sends.endWith (h : o.Sends s) (l : Live) (status : Nat) : o.Sends (s.endWith l status) := h.finish l _

theorem State.Sends.setPhase (h : o.Sends s) (id : Nat) (p : Phase) : o.Sends (s.setPhase id p) := h.step rfl

theorem State.Sends.sendCheck (h : o.Sends s) (l : Live) (r : SendRole) : o.Sends (s.sendCheck l r) := by
  unfold State.sendCheck
  split
  · exact h.endWith l _
  · exact h.setPhase l.id _

theorem State.Sends.relayCheck (h : o.Sends s) (id : Nat) : o.Sends (s.relayCheck id) := by
  unfold State.relayCheck
  split
  · split
    · split
      · exact h.endWith _ _
      · exact h
    · exact h
  · exact h

theorem State.Sends.jobDone (h : o.Sends s) (j : Job) : o.Sends (s.jobDone j) := by
  unfold State.jobDone
  dsimp only
  split
  · exact h.step rfl
  · split
    · exact h.step rfl
    · exact (h.step rfl).finish _ _
    · exact h.step rfl

theorem State.Sends.jobHanded (h : o.Sends s) (m : OutMsg) : o.Sends (s.jobHanded m) := by
  unfold State.jobHanded
  split
  · split
    · exact h.jobDone _
    · exact h
  · exact h

theorem State.Sends.handed (h : o.Sends s) (m : OutMsg) : o.Sends (s.handed m) := by
  unfold State.handed
  split
  · split
    · exact h.jobHanded m
    · exact h
  · split
    · exact h
    · split
      · split
        · exact h.finish _ _
        · exact h
      · exact h.relayCheck _
      · split
        · exact h.setPhase _ _
        · exact h
      · split
        · exact h
        · exact h.endWith _ _
      · exact h

theorem State.Sends.emits (h : o.Sends s) (h' : s.Emits t) : o.Sends t := h.trans h'.sends

/-- One packet of a message sent (R267). -/
theorem State.Sends.sendPart (h : o.Sends s) (i : Nat) (m : OutMsg) (part : Nat × Bytes × Bool) :
    o.Sends (s.sendPart i m part) := by
  unfold State.sendPart
  dsimp only
  split
  · exact h
  · next p _ =>
    have hawait : s.Emits (s.noteAwait m (s.fld (connBase m.conn) (txNxt m.control)) part.2.2) := by
      refine (State.Emits.refl h.bytes.wf).of_x ?_
      unfold State.noteAwait
      split <;> rfl
    have htx : (txNxt m.control).off + (txNxt m.control).len ≤ 0x46 := by
      unfold txNxt
      split <;> decide
    have hsent (x : Xport) := (((hawait.with_x x).setTxFld m.conn (s.fld (connBase m.conn) (txNxt m.control) + 1)
      (.inl htx)).countSent m.conn).emit p
    split
    · exact ((h.emits (hsent _)).with_x _).handed _
    · exact (h.emits (hsent _)).with_x _

theorem State.Sends.pumpStream (h : o.Sends s) (c : Nat) (control : Bool) (n : Nat) :
    o.Sends (State.pumpStream c control n s) := by
  induction n generalizing s with
  | zero => exact h
  | succ n ih =>
    unfold State.pumpStream
    split
    · exact h
    · split
      · exact h
      · split
        · exact ih (h.sendPart _ _ _)
        · exact h

theorem State.Sends.post (h : o.Sends s) (m : OutMsg) : o.Sends (s.post m) := by
  unfold State.post State.pump
  split
  · exact h
  · exact ((h.step rfl).pumpStream _ true 33).pumpStream _ false 257

theorem State.Sends.notice (h : o.Sends s) (c channel seq : Nat) (payload : Bytes) :
    o.Sends (s.notice c channel seq payload) := h.post _

end

end Sys2Proof.Machine
end

section
/-! Table slots (R142, R144, R149) and acknowledgements of an install (R150-R152): what a slot replaced and given to the
Piers holds, and what tallying an acknowledgement leaves. -/

namespace Sys2Proof.Machine

/-! ### Slots -/

theorem modNth_eq_modify {α : Type} (f : α → α) (l : List α) (n : Nat) : modNth l n f = l.modify n f := by
  induction l generalizing n with
  | nil => cases n <;> rfl
  | cons a l ih =>
    cases n with
    | zero => rfl
    | succ n => rw [modNth, ih, List.modify_succ_cons]

theorem nth_modNth_same {α : Type} {f : α → α} {l : List α} {n : Nat} {d : α} (h : n < l.length) :
    nth (modNth l n f) n d = f (nth l n d) := by
  simp [nth, modNth_eq_modify, h]

theorem nth_modNth_other {α : Type} (f : α → α) (l : List α) {n k : Nat} (d : α) (h : k ≠ n) :
    nth (modNth l n f) k d = nth l k d := by
  simp [nth, modNth_eq_modify, h.symm]

theorem State.tbl_setTbl_same {s : State} {n : Nat} (t : TblSlot) (h : n < s.q.tables.length) :
    (s.setTbl n t).tbl n = t := nth_modNth_same h

theorem State.tbl_setTbl_other (s : State) {n k : Nat} (t : TblSlot) (h : k ≠ n) : (s.setTbl n t).tbl k = s.tbl k :=
  nth_modNth_other _ _ _ h

theorem State.tbl_congr {s t : State} (h : t.q.tables = s.q.tables) (n : Nat) : t.tbl n = s.tbl n := by
  rw [State.tbl, State.tbl, h]

/-- An active Pier that is ready holds the slot's table from then on (R149). -/
theorem State.copy_loadCopies (s : State) {n p : Nat} (d : TblSlot) (hp : p < s.piers.length)
    (hactive : s.pwr.fusedOff.getLsbD p = false) (hready : s.islandReady (5 + p) = true)
    (hn : n < (nth s.piers p []).length) : nth (nth (s.loadCopies n).piers p []) n d = s.tbl n := by
  have hpier : nth s.piers p [] = s.piers[p] := by simp [nth, hp]
  have hne : s.piers[p] ≠ [] := List.ne_nil_of_length_pos (by rw [← hpier]; omega)
  have hcopy : nth (s.loadCopies n).piers p [] = modNth (nth s.piers p []) n fun _ => s.tbl n := by
    rw [hpier]
    simp [nth, State.loadCopies, hp, hactive, hready, hne]
  rw [hcopy, nth_modNth_same hn]

/-! ### Acknowledgements tallied -/

/-- What tallying acknowledgements of tables leaves: the slots, the Piers' copies, and what has been received. -/
structure State.Tallies (o s : State) : Prop where
  bytes : o.Holds rxByte s
  slots : s.q.tables = o.q.tables
  piers : s.piers = o.piers

section
variable {o s t : State}

theorem State.Tallies.refl (h : s.ctx.wf = true) : s.Tallies s := ⟨.refl h, rfl, rfl⟩

theorem State.Tallies.trans (h : o.Tallies s) (h' : s.Tallies t) : o.Tallies t :=
  ⟨h.bytes.trans h'.bytes, h'.slots.trans h.slots, h'.piers.trans h.piers⟩

theorem State.Sends.tallies (h : o.Sends s) : o.Tallies s :=
  ⟨h.bytes.mono fun _ hb => .inr hb, by rw [h.frame], by rw [h.frame]⟩

/-- A field of an exchange group below its counters. -/
theorem State.Tallies.setGrpFld (h : o.Tallies s) (g : Nat) {f : Fld} (v : Nat) (hf : 0x50 ≤ f.off ∧ f.off + f.len ≤ 256) :
    o.Tallies (s.setFld (grpBase g) f v) :=
  ⟨h.bytes.setFld _ _ _ fun b _ _ => by unfold rxByte grpBase at *; omega, h.slots, h.piers⟩

theorem State.Tallies.of_regs (h : o.Tallies s) (ht : t = { s with regs := t.regs, irqOut := t.irqOut }) : o.Tallies t :=
  ⟨h.bytes.of_ctx (by rw [ht]), by rw [ht, h.slots], by rw [ht, h.piers]⟩

theorem State.Tallies.raiseIrq (h : o.Tallies s) (page mask : Nat) : o.Tallies (s.raiseIrq page mask) := by
  obtain ⟨r, i, hr⟩ := s.raiseIrq_effect page mask
  exact h.of_regs (by rw [hr])

theorem State.Tallies.notice (h : o.Tallies s) (c channel seq : Nat) (payload : Bytes) :
    o.Tallies (s.notice c channel seq payload) := h.trans ((State.Sends.refl h.bytes.wf).notice _ _ _ _).tallies

theorem State.Tallies.ackMismatch (h : o.Tallies s) (group node : Nat) : o.Tallies (s.ackMismatch group node) := by
  unfold State.ackMismatch
  dsimp only
  split
  · exact h.raiseIrq 5 2
  · exact (h.of_regs rfl).raiseIrq 5 2

/-- DEF of a format replaced by its PEND, where that is VALID (R152). -/
def State.pendTaken (g : Nat) (s : State) (k : Nat) : State :=
  let v := s.pend g (4 + k)
  if v.testBit 6 then
    (s.setFld (grpBase g) (Grp.defFmt (4 + k)) (b2n (v.testBit 7) * 128 + v % 16)).setFld (grpBase g)
      (Grp.pendFmt (4 + k)) (setBits v 6 6 0)
  else s

/-- DEF of the first formats replaced by their PEND (R152). -/
def State.pendsTaken (s : State) (g n : Nat) : State := (List.range n).foldl (State.pendTaken g) s

theorem State.Tallies.pendTaken (h : o.Tallies s) (g : Nat) {k : Nat} (hk : k < 5) : o.Tallies (s.pendTaken g k) := by
  unfold State.pendTaken
  dsimp only
  split
  · exact (h.setGrpFld g _ (by simp [Grp.defFmt]; omega)).setGrpFld g _ (by simp [Grp.pendFmt]; omega)
  · exact h

theorem State.Tallies.pendsTaken (h : o.Tallies s) (g : Nat) {n : Nat} (hn : n ≤ 5) : o.Tallies (s.pendsTaken g n) :=
  List.foldlRecOn (motive := fun t => o.Tallies t) _ _ h fun t ht k hk =>
    ht.pendTaken g (by have := List.mem_range.mp hk; omega)

theorem State.Tallies.tableEpochAt (h : o.Tallies s) (n : TblNote) : o.Tallies (s.tableEpochAt n) := by
  unfold State.tableEpochAt
  dsimp only
  split
  · have hepoch := (h.pendsTaken n.group (Nat.le_refl 5)).setGrpFld n.group (f := Grp.tableEpoch) n.epoch (by decide)
    refine State.Tallies.raiseIrq ?_ 5 4
    change o.Tallies (if _ then State.ctrAdd ((s.pendsTaken n.group 5).setFld _ _ _) _ _ else _)
    split
    · exact hepoch.trans ((State.Sends.refl hepoch.bytes.wf).ctrAdd 1 (Nat.mod_lt _ (by decide))).tallies
    · exact hepoch
  · exact h.ackMismatch _ _

theorem State.Tallies.clearAcks (h : o.Tallies s) (g : Nat) : o.Tallies (s.clearAcks g) :=
  have hacks := h.setGrpFld g (f := Grp.acks) 0 (by decide)
  ⟨hacks.bytes.of_ctx rfl, hacks.slots, hacks.piers⟩

theorem State.Tallies.sendEpoch (h : o.Tallies s) (g epoch : Nat) (a : TblAck) : o.Tallies (s.sendEpoch g epoch a) := by
  unfold State.sendEpoch
  refine List.foldlRecOn (motive := fun t => o.Tallies t) _ _ h fun t ht r _ => ?_
  split
  · exact ht.tableEpochAt _
  · split
    · exact ht.notice _ _ _ _
    · exact ht

theorem State.Tallies.compareAcks (h : o.Tallies s) (g epoch : Nat) : o.Tallies (s.compareAcks g epoch) := by
  unfold State.compareAcks
  split
  · exact h
  · split
    · exact h.sendEpoch _ _ _
    · exact (h.ackMismatch _ _).clearAcks _

theorem State.Tallies.tableAckAt (h : o.Tallies s) (n : TblNote) : o.Tallies (tableAckAt n s) := by
  unfold Machine.tableAckAt
  dsimp only
  split
  · exact h.ackMismatch _ _
  · split
    · exact h
    · have hacks (q : List TblAck) (k : Nat) : o.Tallies
          (State.setFld { s with q := { s.q with acks := q } } (grpBase n.group) Grp.acks k) :=
        have hq : o.Tallies { s with q := { s.q with acks := q } } := ⟨h.bytes.of_ctx rfl, h.slots, h.piers⟩
        hq.setGrpFld n.group (f := Grp.acks) k (by decide)
      split
      · exact (hacks _ _).compareAcks _ _
      · exact hacks _ _

/-- An acknowledgement given to firmware, which tallies it now or later (R25, R150). -/
theorem State.Tallies.ackToFirmware (h : o.Tallies s) (n : TblNote) : o.Tallies (s.ackToFirmware n) := by
  unfold State.ackToFirmware State.duty
  split
  · exact h.tableAckAt n
  · exact ⟨h.bytes.of_ctx rfl, h.slots, h.piers⟩

end

end Sys2Proof.Machine
end

section
/-! TABLE_INSTALL and SLOT_FREED (R142-R144, R147-R149): their checks as the machine stood, what an install leaves of its
slot and its group, and what they settle of O39. -/

namespace Sys2Proof.Machine

/-! ### What the checks read -/

theorem any_range_congr {p q : Nat → Bool} {n : Nat} (h : ∀ k, k < n → p k = q k) :
    (List.range n).any p = (List.range n).any q := by
  rw [Bool.eq_iff_iff, List.any_eq_true, List.any_eq_true]
  exact exists_congr fun k => and_congr_right fun hk => by rw [h k (List.mem_range.mp hk)]

/-- The rank of a node is what the member table and two fields of the group say. -/
theorem State.rankOfNode_congr {s t : State} {g : Nat} (hm : t.mem = s.mem)
    (hn : t.fld (grpBase g) Grp.nMembers = s.fld (grpBase g) Grp.nMembers)
    (ha : t.fld (grpBase g) Grp.memberAddr = s.fld (grpBase g) Grp.memberAddr) (node : Nat) :
    t.rankOfNode g node = s.rankOfNode g node := by
  simp only [State.rankOfNode, State.memberNode, State.rdN, State.rd, hm, hn, ha]

theorem State.memberConn_congr {s t : State} {g : Nat} (hm : t.mem = s.mem)
    (ha : t.fld (grpBase g) Grp.memberAddr = s.fld (grpBase g) Grp.memberAddr) (r : Nat) :
    t.memberConn g r = s.memberConn g r := by
  rw [State.memberConn, State.memberConn, State.rdN, State.rdN, State.rd, State.rd, hm, ha]

section
variable {s u : State} (ht : s.sameTables u)
include ht

theorem State.sameTables.pend {g k : Nat} (hg : g < 2 ^ 12) (hk : k < 16) : u.pend g k = s.pend g k :=
  ht.grp hg (by simp [Grp.pendFmt]; omega)

theorem State.sameTables.pendAny {g : Nat} (hg : g < 2 ^ 12) : u.pendAny g = s.pendAny g := by
  refine any_range_congr fun k hk => ?_
  rw [ht.pend hg (by omega)]

theorem State.sameTables.groupNames {g : Nat} (hg : g < 2 ^ 12) (slot : Nat) :
    u.groupNames g slot = s.groupNames g slot := by
  refine any_range_congr fun k hk => ?_
  rw [ht.pend hg (by omega), ht.grp hg (by simp [Grp.defFmt]; omega)]

variable (hm : u.mem = s.mem)
include hm

theorem State.sameTables.rankOfNode {g : Nat} (hg : g < 2 ^ 12) (node : Nat) :
    u.rankOfNode g node = s.rankOfNode g node :=
  State.rankOfNode_congr hm (ht.grp hg (by decide)) (ht.grp hg (by decide)) node

theorem State.sameTables.rootLevelOne {g : Nat} (hg : g < 2 ^ 12) : u.rootLevelOne g = s.rootLevelOne g := by
  simp only [State.rootLevelOne, ht.rankOfNode hm hg, ht.grp (f := Grp.tblRoot) hg (by decide),
    ht.grp (f := Grp.myRank) hg (by decide), ht.memberConn hm _ hg, State.connState, ht.conn]

theorem State.sameTables.installFields {g : Nat} (hg : g < 2 ^ 12) (hq : u.q.tables = s.q.tables) (o : InstallOps) :
    u.installFields g o = s.installFields g o := by
  have hnames : ((List.range 4096).any fun k => u.groupNames k o.slot) =
      (List.range 4096).any fun k => s.groupNames k o.slot :=
    any_range_congr fun k hk => ht.groupNames hk _
  simp only [State.installFields, State.tbl_congr hq, hnames, ht.groupFits hg, ht.membersOk hm hg,
    ht.grp (f := Grp.tableEpoch) hg (by decide), ht.pendAny hg, ht.rootLevelOne hm hg]

omit ht in
theorem State.installFile_congr (hp : u.memPoison = s.memPoison) (o : InstallOps) :
    u.installFile o = s.installFile o := by
  unfold State.installFile State.rd State.poisoned
  rw [hm, hp]

end

/-! ### The slot -/

/-- The slot of an install replaced: loaded and given to the Piers, or retiring (R149). -/
def State.installSlot (s : State) (o : InstallOps) : State :=
  if o.action < 2 then (s.setTbl o.slot (slotOf (s.rd o.addr 0xA0) o.gen)).loadCopies o.slot
  else if o.action = 3 then s.setTbl o.slot { s.tbl o.slot with state := .retiring }
  else s

section
variable {s : State} {o : InstallOps}

theorem State.installSlot_frame (s : State) (o : InstallOps) :
    s.installSlot o = { s with q := { s.q with tables := (s.installSlot o).q.tables }, piers := (s.installSlot o).piers } := by
  unfold State.installSlot
  split
  · rfl
  · split <;> rfl

theorem State.node_installSlot (s : State) (o : InstallOps) : (s.installSlot o).node = s.node := by
  have hregs : (s.installSlot o).regs = s.regs := by rw [s.installSlot_frame o]
  rw [State.node, State.node, State.regBits, State.regBits, State.reg, State.reg, hregs]

theorem State.installSlot_tbl_other (s : State) (o : InstallOps) {k : Nat} (h : k ≠ o.slot) :
    (s.installSlot o).tbl k = s.tbl k := by
  unfold State.installSlot
  split
  · exact s.tbl_setTbl_other _ h
  · split
    · exact s.tbl_setTbl_other _ h
    · rfl

theorem State.installSlot_loads (h : o.action < 2) (hslot : o.slot < s.q.tables.length) :
    (s.installSlot o).tbl o.slot = slotOf (s.rd o.addr 0xA0) o.gen := by
  rw [State.installSlot, if_pos h]
  exact State.tbl_setTbl_same _ hslot

theorem State.installSlot_copies (h : o.action < 2) (hslot : o.slot < s.q.tables.length) {p : Nat} (d : TblSlot)
    (hp : p < s.piers.length) (hactive : s.pwr.fusedOff.getLsbD p = false) (hready : s.islandReady (5 + p) = true)
    (hn : o.slot < (nth s.piers p []).length) :
    nth (nth (s.installSlot o).piers p []) o.slot d = slotOf (s.rd o.addr 0xA0) o.gen := by
  rw [State.installSlot, if_pos h]
  exact ((s.setTbl o.slot (slotOf (s.rd o.addr 0xA0) o.gen)).copy_loadCopies d hp hactive hready hn).trans
    (State.tbl_setTbl_same _ hslot)

theorem State.installSlot_retires (h : o.action = 3) (hslot : o.slot < s.q.tables.length) :
    (s.installSlot o).tbl o.slot = { s.tbl o.slot with state := .retiring } := by
  rw [State.installSlot, if_neg (by omega), if_pos h]
  exact State.tbl_setTbl_same _ hslot

theorem State.installSlot_none (h : o.action = 2) : s.installSlot o = s := by
  rw [State.installSlot, if_neg (by omega), if_neg (by omega)]

end

/-! ### PEND and the acknowledgement -/

/-- The table that an install makes the group's next, none where it is not coded. -/
def InstallOps.pendSlot (o : InstallOps) : Nat := if o.action = 1 then o.slot else 0

/-- PEND and PEND_EPOCH set (R149). -/
def State.pended (s : State) (g : Nat) (o : InstallOps) : State :=
  (s.setFld (grpBase g) (Grp.pendFmt o.fmt) ((if o.action = 1 then 128 else 0) + 64 + o.pendSlot)).setFld (grpBase g)
    Grp.pendEpoch o.epoch

/-- The acknowledgement of an install (R150). -/
def State.installNote (s : State) (g : Nat) (o : InstallOps) : TblNote :=
  { group := g, epoch := o.epoch, coded := o.action == 1, fmt := o.fmt, slot := o.pendSlot
    gen := if o.action = 1 then (s.tbl o.slot).gen else 0
    crc := if o.action = 1 then (s.tbl o.slot).crc else 0, node := s.node }

theorem State.installNote_eq {s : State} (g : Nat) {o : InstallOps} {gen crc : Nat}
    (hslot : o.action = 1 → (s.tbl o.slot).gen = gen ∧ (s.tbl o.slot).crc = crc) :
    s.installNote g o =
      { group := g, epoch := o.epoch, coded := o.action == 1, fmt := o.fmt, slot := o.pendSlot
        gen := if o.action = 1 then gen else 0, crc := if o.action = 1 then crc else 0, node := s.node } := by
  unfold State.installNote
  by_cases ha : o.action = 1
  · obtain ⟨hgen, hcrc⟩ := hslot ha
    simp only [if_pos ha, hgen, hcrc]
  · simp only [if_neg ha]

theorem State.pendAndAck_eq (s : State) (g : Nat) (o : InstallOps) :
    s.pendAndAck g o = match (s.pended g o).rankOfNode g ((s.pended g o).fld (grpBase g) Grp.tblRoot) with
      | none => s.pended g o
      | some r =>
        if r = (s.pended g o).fld (grpBase g) Grp.myRank then (s.pended g o).ackToFirmware (s.installNote g o)
        else match (s.pended g o).memberConn g r with
          | some c => (s.pended g o).notice c 0 0 (tblNoteBytes 6 (s.installNote g o))
          | none => s.pended g o := by
  unfold State.pendAndAck State.pended State.installNote InstallOps.pendSlot
  by_cases h : o.action = 1 <;> simp [h, b2n] <;> rfl

section
variable {s : State} {g : Nat} {o : InstallOps} (hwf : s.ctx.wf = true)
include hwf

theorem State.ctx_wf_pended (g : Nat) (o : InstallOps) : (s.pended g o).ctx.wf = true :=
  State.ctx_wf_setFld _ _ _ _ (s.ctx_wf_setFld _ _ _ hwf)

/-- A field apart from DEF, PEND and the epochs of the group. -/
theorem State.fld_pended_other (hfmt : o.fmt ≤ 8) {b : Nat} {f : Fld}
    (hd : b + f.off + f.len ≤ grpBase g + 0xC2 ∨ grpBase g + 0xD1 ≤ b + f.off) : (s.pended g o).fld b f = s.fld b f := by
  have hpend : b + f.off + f.len ≤ grpBase g + (Grp.pendFmt o.fmt).off ∨
      grpBase g + (Grp.pendFmt o.fmt).off + (Grp.pendFmt o.fmt).len ≤ b + f.off := by simp only [Grp.pendFmt]; omega
  have hepoch : b + f.off + f.len ≤ grpBase g + Grp.pendEpoch.off ∨
      grpBase g + Grp.pendEpoch.off + Grp.pendEpoch.len ≤ b + f.off := by simp only [Grp.pendEpoch]; omega
  rw [State.pended, State.fld_setFld_other _ _ (s.ctx_wf_setFld _ _ _ hwf) hepoch, State.fld_setFld_other _ _ hwf hpend]

theorem State.pend_pended (hslot : o.slot < 16) :
    (s.pended g o).pend g o.fmt = (if o.action = 1 then 128 else 0) + 64 + o.pendSlot := by
  rw [State.pend, State.pended, State.fld_setFld_other _ _ (s.ctx_wf_setFld _ _ _ hwf)
    (by simp only [Grp.pendFmt, Grp.pendEpoch]; omega), State.fld_setFld_same _ _ _ hwf (Nat.zero_le _) (Nat.le_refl 8)]
  have hlt : (if o.action = 1 then 128 else 0) + 64 + o.pendSlot < 256 := by
    unfold InstallOps.pendSlot
    split <;> omega
  exact Nat.mod_eq_of_lt hlt

theorem State.pendEpoch_pended (hepoch : o.epoch < 65536) : (s.pended g o).fld (grpBase g) Grp.pendEpoch = o.epoch := by
  rw [State.pended, State.fld_setFld_same _ _ _ (s.ctx_wf_setFld _ _ _ hwf) (by decide) (by decide)]
  exact Nat.mod_eq_of_lt hepoch

theorem State.Tallies.pended (hfmt : o.fmt < 16) : s.Tallies (s.pended g o) :=
  ((State.Tallies.refl hwf).setGrpFld g _ (by simp only [Grp.pendFmt]; omega)).setGrpFld g _ (by decide)

/-- The slots and the Piers' copies stay with the acknowledgement. -/
theorem State.pendAndAck_tallies (hfmt : o.fmt < 16) : s.Tallies (s.pendAndAck g o) := by
  have hpended := State.Tallies.pended (g := g) hwf hfmt
  rw [State.pendAndAck_eq]
  split
  · exact hpended
  · split
    · exact hpended.ackToFirmware _
    · split
      · exact hpended.notice _ _ _ _
      · exact hpended

/-- With another chip or none at TBL_ROOT, nothing but the acknowledgement follows PEND. -/
theorem State.pendAndAck_sends
    (hroot : (s.pended g o).rankOfNode g ((s.pended g o).fld (grpBase g) Grp.tblRoot) ≠
      some ((s.pended g o).fld (grpBase g) Grp.myRank)) : (s.pended g o).Sends (s.pendAndAck g o) := by
  have hsent := State.Sends.refl (s.ctx_wf_pended hwf g o)
  rw [State.pendAndAck_eq]
  split
  · exact hsent
  · next r hr =>
    rw [if_neg fun he => hroot (by rw [hr, he])]
    split
    · exact hsent.notice _ _ _ _
    · exact hsent

end

/-! ### A message on a connection that is not UP -/

theorem State.pumpStream_notUp {s : State} {c : Nat} (h : s.connState c ≠ 2) (control : Bool) (n : Nat) :
    State.pumpStream c control n s = s := by
  have hmay (size : Nat) : s.maySend c control size = false := by simp [State.maySend, h]
  cases n with
  | zero => rfl
  | succ n =>
    unfold State.pumpStream
    split
    · rfl
    · split
      · rfl
      · rw [if_neg (by simp [hmay])]

/-- On a connection in HELLO a message waits (R251). -/
theorem State.post_hello {s : State} {m : OutMsg} (h : s.connState m.conn = 1) :
    s.post m = { s with x := { s.x with out := s.x.out ++ [m] } } := by
  have hup : State.connState { s with x := { s.x with out := s.x.out ++ [m] } } m.conn ≠ 2 := by
    rw [show State.connState { s with x := { s.x with out := s.x.out ++ [m] } } m.conn = 1 from h]
    decide
  rw [State.post, if_neg (by omega), State.pump, State.pumpStream_notUp hup, State.pumpStream_notUp hup]

theorem State.notice_hello {s : State} {c : Nat} (h : s.connState c = 1) (channel seq : Nat) (payload : Bytes) :
    (s.notice c channel seq payload).x.out =
      s.x.out ++ [{ newMsg c true 0x10 32 (.data payload []) with channel := channel, seq := seq, live := none }] := by
  rw [State.notice, State.post_hello (m := { newMsg c true 0x10 32 (.data payload []) with
    channel := channel, seq := seq, live := none }) h]

/-! ### TABLE_INSTALL -/

/-- What an install leaves before its completion. -/
def State.installed (s : State) (g : Nat) (o : InstallOps) : State :=
  if o.action = 1 ∨ o.action = 2 then (s.installSlot o).pendAndAck g o else s.installSlot o

section
variable {l : Live} {s : State}

theorem startTableInstall_fieldsFail {st : Nat}
    (h : s.installFields l.desc.group.toNat (installOps l.desc) = some st) :
    startTableInstall l s = s.finish l ⟨st, 0, 0, none⟩ := by
  rw [startTableInstall]
  dsimp only
  rw [h]
  rfl

theorem startTableInstall_fileFails {st : Nat} (h : s.installFields l.desc.group.toNat (installOps l.desc) = none)
    (haction : (installOps l.desc).action < 2) (hfile : s.installFile (installOps l.desc) = some st) :
    startTableInstall l s = s.finish l ⟨st, 0, 0, none⟩ := by
  rw [startTableInstall]
  dsimp only
  rw [h, if_pos haction, hfile]
  rfl

theorem startTableInstall_passes (h : s.installFields l.desc.group.toNat (installOps l.desc) = none)
    (hfile : (installOps l.desc).action < 2 → s.installFile (installOps l.desc) = none) :
    startTableInstall l s = (s.installed l.desc.group.toNat (installOps l.desc)).finish l ⟨0, 0, 0, none⟩ := by
  have hnone : (if (installOps l.desc).action < 2 then s.installFile (installOps l.desc) else none) = none := by
    split
    · next ha => exact hfile ha
    · rfl
  rw [startTableInstall]
  dsimp only
  rw [h, hnone]
  rfl

end

section
variable {s : State} {g : Nat} {o : InstallOps} (hwf : s.ctx.wf = true) (hfmt : o.fmt < 16)
include hwf

theorem State.ctx_wf_installSlot (o : InstallOps) : (s.installSlot o).ctx.wf = true := by
  rw [s.installSlot_frame o]
  exact hwf

omit hwf in
theorem State.installed_pends (h : o.action = 1 ∨ o.action = 2) :
    s.installed g o = (s.installSlot o).pendAndAck g o := if_pos h

omit hwf in
theorem State.installed_slotOnly (h : ¬ (o.action = 1 ∨ o.action = 2)) : s.installed g o = s.installSlot o := if_neg h

include hfmt

theorem State.installed_tables : (s.installed g o).q.tables = (s.installSlot o).q.tables := by
  by_cases h : o.action = 1 ∨ o.action = 2
  · rw [State.installed_pends h]
    exact (State.pendAndAck_tallies (State.ctx_wf_installSlot hwf o) hfmt).slots
  · rw [State.installed_slotOnly h]

theorem State.installed_piers : (s.installed g o).piers = (s.installSlot o).piers := by
  by_cases h : o.action = 1 ∨ o.action = 2
  · rw [State.installed_pends h]
    exact (State.pendAndAck_tallies (State.ctx_wf_installSlot hwf o) hfmt).piers
  · rw [State.installed_slotOnly h]

end

section
variable {s : State} {g : Nat} {o : InstallOps} (hwf : s.ctx.wf = true) (hfmt : o.fmt ≤ 8)
include hwf hfmt

/-- What PEND's group reads before and after its slot is replaced. -/
theorem State.fld_pended_installSlot {b : Nat} {f : Fld}
    (hd : b + f.off + f.len ≤ grpBase g + 0xC2 ∨ grpBase g + 0xD1 ≤ b + f.off) :
    ((s.installSlot o).pended g o).fld b f = s.fld b f :=
  (State.fld_pended_other (State.ctx_wf_installSlot hwf o) hfmt hd).trans
    (State.fld_congr (by rw [s.installSlot_frame o]) b f)

theorem State.tblRoot_pended : ((s.installSlot o).pended g o).fld (grpBase g) Grp.tblRoot = s.fld (grpBase g) Grp.tblRoot :=
  State.fld_pended_installSlot hwf hfmt (by simp [Grp.tblRoot])

theorem State.myRank_pended : ((s.installSlot o).pended g o).fld (grpBase g) Grp.myRank = s.fld (grpBase g) Grp.myRank :=
  State.fld_pended_installSlot hwf hfmt (by simp only [Grp.myRank]; omega)

theorem State.memberAddr_pended :
    ((s.installSlot o).pended g o).fld (grpBase g) Grp.memberAddr = s.fld (grpBase g) Grp.memberAddr :=
  State.fld_pended_installSlot hwf hfmt (by simp only [Grp.memberAddr]; omega)

omit hwf hfmt in
theorem State.mem_pended (s : State) (g : Nat) (o : InstallOps) : ((s.installSlot o).pended g o).mem = s.mem := by
  rw [State.pended, s.installSlot_frame o]
  rfl

theorem State.rankOfNode_pended (node : Nat) : ((s.installSlot o).pended g o).rankOfNode g node = s.rankOfNode g node :=
  State.rankOfNode_congr (s.mem_pended g o) (State.fld_pended_installSlot hwf hfmt (by simp only [Grp.nMembers]; omega))
    (State.memberAddr_pended hwf hfmt) node

variable (hset : o.action = 1 ∨ o.action = 2)
  (hroot : s.rankOfNode g (s.fld (grpBase g) Grp.tblRoot) ≠ some (s.fld (grpBase g) Grp.myRank))
include hset hroot

/-- PEND and PEND_EPOCH after an install that sets them, where another chip or none is TBL_ROOT (R149). -/
theorem State.installed_pend (hg : g < 2 ^ 12) (hslot : o.slot < 16) (hepoch : o.epoch < 65536) :
    (s.installed g o).pend g o.fmt = (if o.action = 1 then 128 else 0) + 64 + o.pendSlot ∧
    (s.installed g o).fld (grpBase g) Grp.pendEpoch = o.epoch := by
  have hwf' := State.ctx_wf_installSlot hwf o
  have hsent := State.pendAndAck_sends (g := g) (o := o) hwf' (by
    rwa [State.rankOfNode_pended hwf hfmt, State.tblRoot_pended hwf hfmt, State.myRank_pended hwf hfmt])
  have hpwf := State.ctx_wf_pended hwf' g o
  rw [State.installed_pends hset, State.pend, hsent.bytes.grp hpwf hg (by simp [Grp.pendFmt]; omega),
    hsent.bytes.grp hpwf hg (by decide)]
  exact ⟨State.pend_pended hwf' hslot, State.pendEpoch_pended hwf' hepoch⟩

/-- On a connection in HELLO the acknowledgement of an install waits to be sent (R150, R251). -/
theorem State.installed_ackWaits (hg : g < 2 ^ 12) {r c : Nat}
    (hr : s.rankOfNode g (s.fld (grpBase g) Grp.tblRoot) = some r) (hc : s.memberConn g r = some c)
    (hstate : s.connState c = 1) :
    ∃ m, (s.installed g o).x.out = s.x.out ++ [m] ∧ m.conn = c ∧ m.control = true ∧ m.op = 0x10 ∧
      m.load = .data (tblNoteBytes 6 ((s.installSlot o).installNote g o)) [] := by
  have hhello : ((s.installSlot o).pended g o).connState c = 1 :=
    (State.fld_pended_installSlot hwf hfmt (.inr (by unfold grpBase connBase; omega))).trans hstate
  have hout : ((s.installSlot o).pended g o).x.out = s.x.out := by
    rw [State.pended, s.installSlot_frame o]
    rfl
  rw [State.installed_pends hset, State.pendAndAck_eq, State.rankOfNode_pended hwf hfmt, State.tblRoot_pended hwf hfmt,
    hr]
  dsimp only
  rw [State.myRank_pended hwf hfmt, if_neg fun he : r = _ => hroot (hr.trans (congrArg some he)),
    State.memberConn_congr (s.mem_pended g o) (State.memberAddr_pended hwf hfmt), hc]
  dsimp only
  rw [State.notice_hello hhello, hout]
  exact ⟨_, rfl, rfl, rfl, rfl, rfl⟩

end

/-! ### The operands -/

theorem opBits_lt (d : Desc) (off len hi lo : Nat) : opBits d off len hi lo < 2 ^ (hi + 1 - lo) :=
  Nat.mod_lt _ (Nat.two_pow_pos _)

theorem installOps_slot_lt (d : Desc) : (installOps d).slot < 16 := opBits_lt d 0x28 1 3 0

theorem installOps_fmt_lt (d : Desc) : (installOps d).fmt < 16 := opBits_lt d 0x2A 1 3 0

theorem installOps_epoch_lt (d : Desc) : (installOps d).epoch < 65536 := opd_lt d 0x2C 2

/-- An install that sets PEND and passes its fields names a float format (order 3 of R148). -/
theorem State.installFields_fmt {s : State} {g : Nat} {o : InstallOps} (h : s.installFields g o = none)
    (hset : o.action = 1 ∨ o.action = 2) : o.fmt ≤ 8 := by
  by_contra hbig
  have hfmt : (o.action = 1 ∨ o.action = 2) ∧ (!decide (4 ≤ o.fmt ∧ o.fmt ≤ 8)) = true := ⟨hset, by simp; omega⟩
  unfold State.installFields at h
  dsimp only at h
  rw [if_pos hfmt] at h
  split at h
  · cases h
  · split at h <;> cases h

/-! ### A dispatched install -/

section
variable {s : State} {d : Desc} (h : s.Begins 0x41 d)
include h

theorem State.Begins.frozen : (s.begun 0x41 d).2.q.tables = s.q.tables ∧ (s.begun 0x41 d).2.piers = s.piers ∧
    (s.begun 0x41 d).2.pwr = s.pwr ∧ (s.begun 0x41 d).2.x = s.x := by
  obtain ⟨g, c, w, n, k, x, l, o, hu⟩ := h.frame
  rw [hu]
  exact ⟨rfl, rfl, rfl, rfl⟩

theorem State.Begins.node : (s.begun 0x41 d).2.node = s.node := by
  rw [State.node, State.node, State.regBits, State.regBits, h.regs _ (by decide)]

theorem State.Begins.tbl (k : Nat) : (s.begun 0x41 d).2.tbl k = s.tbl k := by
  obtain ⟨htables, -⟩ := h.frozen
  exact State.tbl_congr htables k

theorem State.Begins.rd (a n : Nat) : (s.begun 0x41 d).2.rd a n = s.rd a n := by
  rw [State.rd, State.rd, h.mem]

theorem State.Begins.installFields {g : Nat} (hg : g < 2 ^ 12) (o : InstallOps) :
    (s.begun 0x41 d).2.installFields g o = s.installFields g o := by
  obtain ⟨htables, -⟩ := h.frozen
  exact h.tables.installFields h.mem hg htables o

theorem State.Begins.installFile (o : InstallOps) : (s.begun 0x41 d).2.installFile o = s.installFile o :=
  State.installFile_congr h.mem h.memPoison o

theorem State.Begins.tblRank {g : Nat} (hg : g < 2 ^ 12) :
    (s.begun 0x41 d).2.rankOfNode g ((s.begun 0x41 d).2.fld (grpBase g) Grp.tblRoot) =
      s.rankOfNode g (s.fld (grpBase g) Grp.tblRoot) := by
  rw [h.tables.rankOfNode h.mem hg, h.tables.grp hg (by decide)]

variable {g : Nat} {o : InstallOps} (hfmt : o.fmt < 16) (hslot : o.slot < s.q.tables.length)

theorem State.Begins.slot_lt (hslot : o.slot < s.q.tables.length) : o.slot < (s.begun 0x41 d).2.q.tables.length := by
  obtain ⟨htables, -⟩ := h.frozen
  rwa [htables]

include hfmt

theorem State.Begins.installed_tbl (k : Nat) :
    ((s.begun 0x41 d).2.installed g o).tbl k = ((s.begun 0x41 d).2.installSlot o).tbl k :=
  State.tbl_congr (State.installed_tables h.wf hfmt) k

theorem State.Begins.installed_tbl_other {k : Nat} (hk : k ≠ o.slot) :
    ((s.begun 0x41 d).2.installed g o).tbl k = s.tbl k := by
  rw [h.installed_tbl hfmt, State.installSlot_tbl_other _ o hk, h.tbl]

include hslot

/-- Action 0 or 1 leaves its slot LOADED. -/
theorem State.Begins.installed_loads (ha : o.action < 2) :
    ((s.begun 0x41 d).2.installed g o).tbl o.slot = slotOf (s.rd o.addr 0xA0) o.gen := by
  rw [h.installed_tbl hfmt, State.installSlot_loads ha (h.slot_lt hslot), h.rd]

/-- Action 0 or 1 gives its slot to every active Pier that is ready. -/
theorem State.Begins.installed_copies (ha : o.action < 2) {p : Nat} (t : TblSlot) (hp : p < s.piers.length)
    (hactive : s.pwr.fusedOff.getLsbD p = false) (hready : s.islandReady (5 + p) = true)
    (hn : o.slot < (nth s.piers p []).length) :
    nth (nth ((s.begun 0x41 d).2.installed g o).piers p []) o.slot t = slotOf (s.rd o.addr 0xA0) o.gen := by
  obtain ⟨-, hpiers, hpwr, -⟩ := h.frozen
  rw [State.installed_piers h.wf hfmt, ← h.rd]
  refine State.installSlot_copies ha (h.slot_lt hslot) t (hpiers ▸ hp) (hpwr ▸ hactive) ?_ (hpiers ▸ hn)
  rw [State.islandReady, hpwr]
  exact hready

/-- Action 3 leaves its slot RETIRING. -/
theorem State.Begins.installed_retires (ha : o.action = 3) :
    ((s.begun 0x41 d).2.installed g o).tbl o.slot = { s.tbl o.slot with state := .retiring } := by
  rw [h.installed_tbl hfmt, State.installSlot_retires ha (h.slot_lt hslot), h.tbl]

omit hfmt

/-- What the acknowledgement of an install says, as the machine stood. -/
theorem State.Begins.installNote : ((s.begun 0x41 d).2.installSlot o).installNote g o =
    { group := g, epoch := o.epoch, coded := o.action == 1, fmt := o.fmt, slot := o.pendSlot
      gen := if o.action = 1 then o.gen else 0
      crc := if o.action = 1 then (slotOf (s.rd o.addr 0xA0) o.gen).crc else 0, node := s.node } := by
  have hloaded (ha : o.action = 1) :
      ((s.begun 0x41 d).2.installSlot o).tbl o.slot = slotOf (s.rd o.addr 0xA0) o.gen := by
    rw [State.installSlot_loads (by omega) (h.slot_lt hslot), h.rd]
  rw [State.installNote_eq g (gen := o.gen) fun ha => by rw [hloaded ha]; exact ⟨rfl, rfl⟩, State.node_installSlot, h.node]

end

theorem exec_tableInstall_goes {s : State} {d : Desc} (hgo : s.goes 0x41 d = true) :
    exec (.tableInstall d) s = .next (startTableInstall (s.begun 0x41 d).1 (s.begun 0x41 d).2) := by
  rw [exec_tableInstall, execTableInstall, State.runDesc_goes _ hgo]

/-! ### SLOT_FREED -/

section
variable {s : State} {slot : BitVec 4}

theorem exec_slotFreed_up (hup : s.up 2 = true) : exec (.slotFreed slot) s = .next (freeSlot slot s) := by
  rw [exec_slotFreed, execSlotFreed, State.atIsland,
    if_pos (show (!s.pwr.dead && s.islandReady 2) = true from hup)]

/-- A RETIRING slot that nothing refers to is emptied, and SLOT_FREED is raised (R144). -/
theorem freeSlot_frees (hlen : slot.toNat < s.q.tables.length) (hstate : (s.tbl slot.toNat).state = .retiring)
    (hrefs : s.slotRefs slot.toNat = 0) :
    let t := freeSlot slot s
    t.tbl slot.toNat = ⟨.free, (s.tbl slot.toNat).gen, 0, 0, 0, [], [], false⟩ ∧ t.regBit (R.hdrIrqStat 5) 3 = true ∧
    (∀ k, k ≠ slot.toNat → t.tbl k = s.tbl k) ∧ s.regsBut t (irqRegs 5) ∧
    t = { s with regs := t.regs, irqOut := t.irqOut, q := { s.q with tables := t.q.tables } } := by
  intro t
  let u := s.setTbl slot.toNat ⟨.free, (s.tbl slot.toNat).gen, 0, 0, 0, [], [], false⟩
  have ht : t = u.raiseIrq 5 8 := if_pos ⟨hstate, hrefs⟩
  obtain ⟨r, i, hirq⟩ := u.raiseIrq_effect 5 8
  have htbl (k : Nat) : t.tbl k = u.tbl k := State.tbl_congr (by rw [ht, hirq]) k
  refine ⟨(htbl _).trans (State.tbl_setTbl_same _ hlen), ?_, fun k hk => (htbl k).trans (s.tbl_setTbl_other _ hk), ?_, ?_⟩
  · rw [State.regBit, ht, u.reg_raiseIrq_stat (by decide), Nat.testBit_or]
    exact Bool.or_eq_true_iff.mpr (.inr (by decide))
  · rw [ht]
    exact u.raiseIrq_regsBut 5 8
  · rw [ht, hirq]
    rfl

theorem freeSlot_stays (h : ¬ ((s.tbl slot.toNat).state = .retiring ∧ s.slotRefs slot.toNat = 0)) : freeSlot slot s = s :=
  if_neg h

end

/-! ### O39 -/

/-- Settles O39, with the slots and PEND followed from the state in which the install begins to the one in which it
completes. -/
theorem tableInstallAndSlotsFollowTheirStates : Obligations.TableInstallAndSlotsFollowTheirStates := by
  unfold Obligations.TableInstallAndSlotsFollowTheirStates
  intro s hwf hshaped
  have hlen : s.q.tables.length = 16 := by
    simp only [State.shaped, decide_eq_true_eq] at hshaped
    obtain ⟨-, -, -, htables, -⟩ := hshaped
    exact htables
  refine ⟨fun d hgo => ?_, fun slot hup => ⟨fun hstate hrefs => ?_, fun hno => ?_⟩⟩
  · intro o g b l u root slot
    have h : s.Begins 0x41 d := s.begins 0x41 d hwf
    have hg : g < 2 ^ 12 := d.group.isLt
    have hd : l.desc = d := h.desc_eq
    have hfields : u.installFields l.desc.group.toNat (installOps l.desc) = s.installFields g o := by
      rw [hd]
      exact h.installFields hg o
    have hfile : u.installFile (installOps l.desc) = s.installFile o := by
      rw [hd]
      exact h.installFile o
    have hops : installOps l.desc = o := congrArg installOps hd
    have hfmt : o.fmt < 16 := installOps_fmt_lt d
    have hslot : o.slot < s.q.tables.length := hlen ▸ installOps_slot_lt d
    rw [exec_tableInstall_goes hgo]
    refine ⟨fun st hst => by rw [startTableInstall_fieldsFail (hfields.trans hst)], fun st hnone haction hst => by
      rw [startTableInstall_fileFails (hfields.trans hnone) (hops ▸ haction) (hfile.trans hst)], fun hnone hgood => ?_⟩
    refine ⟨u.installed g o, ?_, fun k hk => h.installed_tbl_other hfmt hk, fun ha => ⟨h.installed_loads hfmt hslot ha,
      fun p hp hactive hready hn => h.installed_copies hfmt hslot ha _ hp hactive hready hn⟩, fun ha => ?_, fun ha => ?_,
      fun ha => ⟨?_, h.installed_retires hfmt hslot ha⟩, fun hset hroot => ?_⟩
    · rw [startTableInstall_passes (hfields.trans hnone) (hfile.symm ▸ hops.symm ▸ hgood), hd]
    · rw [State.installed_slotOnly (by omega)]
      exact u.installSlot_frame o
    · obtain ⟨htables, -⟩ := h.frozen
      rw [State.installed_tables h.wf hfmt, State.installSlot_none ha, htables]
    · rw [State.installed_slotOnly (by omega), State.installSlot, if_neg (by omega), if_pos ha]
      rfl
    · have hfmt8 := State.installFields_fmt hnone hset
      have hroot' : u.rankOfNode g (u.fld b Grp.tblRoot) ≠ some (u.fld b Grp.myRank) := by
        rw [h.tblRank hg, h.tables.grp (f := Grp.myRank) hg (by decide)]
        exact hroot
      obtain ⟨hpend, hepoch⟩ := State.installed_pend h.wf hfmt8 hset hroot' hg (installOps_slot_lt d) (installOps_epoch_lt d)
      refine ⟨hpend, hepoch, fun r c hr hc hstate => ?_⟩
      obtain ⟨m, hout, hconn, hcontrol, hop, hload⟩ := State.installed_ackWaits h.wf hfmt8 hset hroot' hg
        ((h.tblRank hg).trans hr) ((h.tables.memberConn h.mem r hg).trans hc) ((h.tables.conn c Conn.state).trans hstate)
      rw [h.installNote hslot] at hload
      obtain ⟨-, -, -, hx⟩ := h.frozen
      exact ⟨m, by rw [hout, hx], hconn, hcontrol, hop, hload⟩
  · exact ⟨_, exec_slotFreed_up hup, freeSlot_frees (by rw [hlen]; exact slot.isLt) hstate hrefs⟩
  · rw [exec_slotFreed_up hup, freeSlot_stays hno]

end Sys2Proof.Machine
end

section
/-! Blocks read, returned and summed (R155, R182, R190): none of it writes the context tables. -/

namespace Sys2Proof.Machine

section
variable (s : State)

/-! ### Counts and logs -/

@[simp] theorem State.wrP_ctx (p : Bool) (a : Nat) (bs : Bytes) : (s.wrP p a bs).ctx = s.ctx := by
  unfold State.wrP
  split <;> rfl

@[simp] theorem State.freeBytes_ctx (n : Nat) : (s.freeBytes n).2.ctx = s.ctx := rfl

@[simp] theorem State.abutBump_ctx (r : Nat → Nat) (a n : Nat) : (s.abutBump r a n).ctx = s.ctx := s.bump_ctx _ n

@[simp] theorem State.abutBump64_ctx (r : Nat → Nat) (a n : Nat) : (s.abutBump64 r a n).ctx = s.ctx := s.bump64_ctx _ n

@[simp] theorem State.checkWord_ctx (m : Sram) (g data : Nat) : (s.checkWord m g data).2.ctx = s.ctx := by
  unfold State.checkWord
  dsimp only
  split <;> simp [State.freshWord]

@[simp] theorem State.putLog16_ctx (cnt head first : Nat) (words : List Nat) :
    (s.putLog16 cnt head first words).ctx = s.ctx := by
  unfold State.putLog16
  dsimp only
  rw [State.bump_ctx, State.setReg_ctx]
  exact foldl_keeps State.ctx _ _ s fun s p => s.setReg_ctx _ _

@[simp] theorem State.tblLog_ctx (e : TblLog) : (s.tblLog e).ctx = s.ctx :=
  (State.raiseIrq_ctx _ 5 1).trans (s.putLog16_ctx _ _ _ _)

@[simp] theorem State.logReject_ctx (op st : Nat) (d : SpanData) (off base : Nat) :
    (s.logReject op st d off base).ctx = s.ctx := s.tblLog_ctx _

@[simp] theorem State.spanUe_ctx (n : Nat) : (s.spanUe n).ctx = s.ctx :=
  foldl_keeps State.ctx _ _ s fun s _ => by simp

/-! ### Blocks read -/

@[simp] theorem State.reload_ctx (p n : Nat) : (s.reload p n).ctx = s.ctx := by
  unfold State.reload
  dsimp only
  split
  · split
    · rfl
    · split <;> simp
  · rfl

@[simp] theorem State.countDecode_ctx (p : Nat) (b : ReadBlock) : (s.countDecode p b).ctx = s.ctx := by
  have hload : (if b.hdr.btype = 1 then s.reload p b.hdr.slot else s).ctx = s.ctx := by split <;> simp
  unfold State.countDecode
  dsimp only
  split
  · simp [hload]
  · split
    · simp [hload]
    · split
      · simp [hload]
      · split <;> simp [hload]

@[simp] theorem State.takePiers_ctx (n : Nat) : (State.takePiers n s).2.ctx = s.ctx := by
  induction n generalizing s with
  | zero => rfl
  | succ n ih => exact ih s.takePier.2

@[simp] theorem State.pickPiers_ctx (v : Nat) (d : SpanData) : (s.pickPiers v d).2.2.ctx = s.ctx := s.takePiers_ctx _

/-! ### Blocks returned -/

theorem State.atPier_ctx (p : Option Nat) {f : Nat → State → State} (h : ∀ n, (f n s).ctx = s.ctx) :
    (s.atPier p f).ctx = s.ctx := by
  cases p with
  | none => rfl
  | some n => exact h n

@[simp] theorem State.returnPier_ctx : s.returnPier.2.ctx = s.ctx := by
  unfold State.returnPier
  split <;> rfl

@[simp] theorem State.returnBad_ctx (c : Stream) (lo : Nat) (es : List Nat) : (s.returnBad c lo es).ctx = s.ctx :=
  foldl_keeps State.ctx _ es s fun _ _ => rfl

@[simp] theorem State.returnOne_ctx (c : Stream) (lo i : Nat) (d : FV) : (s.returnOne c lo i d).2.ctx = s.ctx := by
  unfold State.returnOne
  dsimp only
  split <;> rfl

@[simp] theorem State.returnBlock_ctx (c : Stream) (lo mode mag : Nat) (h : SpanHdr) (blk : Bytes) (bad : Bool) :
    (s.returnBlock c lo mode mag h blk bad).2.ctx = s.ctx := by
  unfold State.returnBlock
  dsimp only
  generalize checkBlock _ _ _ _ _ = b
  have hcount : (s.returnPier.2.atPier s.returnPier.1 fun p s => s.countDecode p b).ctx = s.ctx :=
    (State.atPier_ctx _ _ fun n => State.countDecode_ctx _ n b).trans s.returnPier_ctx
  split
  · split <;> simp [hcount]
  · generalize hr : List.foldl _ (0, false, 0, _) _ = r
    have hfold : r.2.2.2.ctx = s.ctx := by
      rw [← hr, foldl_keeps fun r : Nat × Bool × Nat × State => r.2.2.2.ctx]
      · exact hcount
      · intro acc e
        simp
    refine Eq.trans ?_ hfold
    exact r.2.2.2.atPier_ctx _ fun n => r.2.2.2.bump_ctx (R.pierFlush n) r.2.2.1

theorem State.returnStep_ctx (c : Stream) (free : Bool) (lo mode mag : Nat) (h : SpanHdr) (bad : List Nat)
    (acc : Returned × State) (b : Bytes) : (State.returnStep c free lo mode mag h bad acc b).2.ctx = acc.2.ctx := by
  unfold State.returnStep
  split
  · rfl
  · exact acc.2.returnBlock_ctx c lo mode mag h b _

@[simp] theorem State.returnSteps_ctx (c : Stream) (free : Bool) (lo mode mag : Nat) (h : SpanHdr) (bad : List Nat)
    (blks : List Bytes) (r : Returned) :
    (blks.foldl (State.returnStep c free lo mode mag h bad) (r, s)).2.ctx = s.ctx :=
  foldl_keeps (fun r : Returned × State => r.2.ctx) (State.returnStep c free lo mode mag h bad) blks (r, s)
    (State.returnStep_ctx c free lo mode mag h bad)

@[simp] theorem State.scaleRead_ctx (free : Bool) (h : SpanHdr) (blks : List Bytes) :
    (s.scaleRead free h blks).ctx = s.ctx := by
  unfold State.scaleRead
  split
  · rfl
  · exact s.atPier_ctx _ fun n => State.bump_ctx _ _ _

/-! ### The coalescing buffer -/

@[simp] theorem State.cbWriteBack_ctx (l : CbLine) : (s.cbWriteBack l).ctx = s.ctx := by
  have hread : (s.cbRead l).ctx = s.ctx := by
    unfold State.cbRead
    split
    · exact foldl_keeps State.ctx _ _ s fun _ _ => by simp
    · rfl
  unfold State.cbWriteBack
  split <;> simp [hread]

@[simp] theorem State.cbRelease_ctx (id : Nat) : (s.cbRelease id).ctx = s.ctx := by
  unfold State.cbRelease
  dsimp only
  exact foldl_keeps State.ctx _ _ _ fun s p => s.cbWriteBack_ctx p.1

@[simp] theorem State.cbRoom_ctx (a : Nat) : (s.cbRoom a).ctx = s.ctx := by
  unfold State.cbRoom
  split
  · rfl
  · split
    · rfl
    · simp

@[simp] theorem State.touch_ctx (id g : Nat) : (s.touch id g).ctx = s.ctx := by
  unfold State.touch
  split <;> rfl

@[simp] theorem State.cbTouch_ctx (id a : Nat) (load : Bool) : (s.cbTouch id a load).ctx = s.ctx := by
  unfold State.cbTouch
  dsimp only
  split <;> simp

@[simp] theorem State.putGranule_ctx (a : Nat) (bs : Bytes) (p : Bool) : (s.putGranule a bs p).ctx = s.ctx := by
  unfold State.putGranule
  dsimp only
  split <;> simp

@[simp] theorem State.abLoad_ctx (id a w : Nat) : (s.abLoad id a w).2.ctx = s.ctx := by
  unfold State.abLoad
  dsimp only
  split <;> split <;> simp

/-! ### Addends added to an accumulator -/

@[simp] theorem State.cross_ctx (n data : Nat) : (s.cross n data).2.ctx = s.ctx := by
  unfold State.cross
  split <;> simp

@[simp] theorem State.crossAll_ctx (at' : Nat → Nat) (xs : List (Nat × Bool)) : (s.crossAll at' xs).2.ctx = s.ctx := by
  unfold State.crossAll
  split
  · rfl
  · refine foldl_keeps (fun r : List (Nat × Bool) × State => r.2.ctx) _ _ ([], s) fun r x => ?_
    dsimp only
    split <;> simp

@[simp] theorem State.carry_ctx (i : Inst) (h : SpanHdr) (es : List (Nat × Nat)) : (s.carry i h es).2.ctx = s.ctx := by
  simp [State.carry]

@[simp] theorem State.addInt_ctx (id a : Nat) (v : Int) (bad : Bool) : (s.addInt id a v bad).2.2.ctx = s.ctx := by
  unfold State.addInt
  dsimp only
  split <;> simp

@[simp] theorem State.addPair_ctx (id a b : Nat) (v : FV) (bad : Bool) : (s.addPair id a b v bad).2.2.ctx = s.ctx := by
  unfold State.addPair
  dsimp only
  split <;> simp

@[simp] theorem State.addBlock_ctx (id : Nat) (i : Inst) (h : SpanHdr) (es : List (Nat × Nat)) :
    (s.addBlock id i h es).2.ctx = s.ctx := by
  unfold State.addBlock
  dsimp only
  rw [foldl_keeps (fun r : Added × State => r.2.ctx)]
  · simp
  · intro r x
    split <;> simp

end

end Sys2Proof.Machine
end

section
/-! What has been received on a connection (R249) while contributions are taken, summed and answered (R181-R189). -/

namespace Sys2Proof.Machine

section
variable {o s t : State}

/-! ### The writes of the context tables -/

theorem State.Holds.of_sends (h : o.Holds rxByte s) (ht : s.Sends t) : o.Holds rxByte t :=
  h.trans (ht.bytes.mono fun _ hb => .inr hb)

theorem State.Holds.finish (h : o.Holds rxByte s) (l : Live) (r : Result) : o.Holds rxByte (s.finish l r) :=
  h.of_sends ((State.Sends.refl h.wf).finish l r)

theorem State.Holds.sendCheck (h : o.Holds rxByte s) (l : Live) (r : SendRole) : o.Holds rxByte (s.sendCheck l r) :=
  h.of_sends ((State.Sends.refl h.wf).sendCheck l r)

theorem State.Holds.notice (h : o.Holds rxByte s) (c channel seq : Nat) (payload : Bytes) :
    o.Holds rxByte (s.notice c channel seq payload) := h.of_sends ((State.Sends.refl h.wf).notice _ _ _ _)

/-- A counter of an exchange group. -/
theorem State.Holds.bumpGrp (h : o.Holds rxByte s) (g : Nat) {f : Fld} (n : Nat)
    (hf : 0x50 ≤ f.off ∧ f.off + f.len ≤ 256) : o.Holds rxByte (s.bumpFld (grpBase g) f n) :=
  h.bumpFld _ _ _ fun b _ _ => by unfold rxByte grpBase at *; omega

theorem State.Holds.setInScale (h : o.Holds rxByte s) (ctx v : Nat) :
    o.Holds rxByte (s.setFld (strmBase ctx) Strm.inScale v) :=
  h.setFld _ _ _ fun b _ _ => by
    simp only [rxByte, strmBase, Strm.inScale] at *
    omega

/-- LAST_SEQ of a channel of a group, whatever the channel. -/
theorem State.Holds.setLastSeq (h : o.Holds rxByte s) (g : BitVec 12) (c : BitVec 16) (v : Nat) :
    o.Holds rxByte (s.setFld (grpBase g.toNat) (Grp.lastSeq c.toNat) v) :=
  h.setFld _ _ _ fun b _ _ => by
    have := g.isLt
    have := c.isLt
    simp only [rxByte, grpBase, Grp.lastSeq] at *
    omega

/-! ### Notices at this chip -/

/-- The policy writes DROP_CNT of groups, and no other byte of the context tables. -/
theorem State.Holds.policy {P : Nat → Prop} (h : o.Holds P s) (r : SendRole) (xs : List Span)
    (hP : ∀ b, P b → b % 256 < Grp.dropCnt.off) : o.Holds P (s.policy r xs) := by
  unfold State.policy
  refine List.foldlRecOn (motive := fun t => o.Holds P t) xs _ h fun t ht x _ => ?_
  rw [State.returnSpan, State.returnBlocks_eq]
  refine State.Holds.bumpFld (ht.of_ctx (by simp)) _ _ _ fun b _ _ hb => ?_
  have := hP b hb
  simp only [grpBase, Grp.dropCnt] at *
  omega

theorem rxByte_below_dropCnt (b : Nat) (h : rxByte b) : b % 256 < Grp.dropCnt.off := by
  simp only [rxByte, Grp.dropCnt] at *
  omega

theorem State.Holds.noticeAt (h : o.Holds rxByte s) (kind status group channel seq node base : Nat) :
    o.Holds rxByte (s.noticeAt kind status group channel seq node base) := by
  unfold State.noticeAt
  split
  · exact h
  · next l r rank _ =>
    have htaken (v : State) (hv : o.Holds rxByte v) : o.Holds rxByte (v.takeRetained (ofOwner r rank)).2 := hv.of_ctx rfl
    dsimp only
    split
    · exact (htaken _ h).sendCheck _ _
    · have hcounted := (h.bumpGrp group (f := Grp.lateCnt) 1 (by decide)).bumpGrp group (f := Grp.nondetCnt) 1 (by decide)
      exact ((htaken _ (hcounted.of_ctx (t := (State.unsend _ l r rank).2) rfl)).policy _ _ rxByte_below_dropCnt).sendCheck _ _
    · exact ((htaken _ h).policy _ _ rxByte_below_dropCnt).sendCheck _ _
    · exact ((htaken _ h).policy _ _ rxByte_below_dropCnt).of_ctx rfl
    · exact h

theorem State.Holds.answer (h : o.Holds rxByte s) (l : Live) (i : Inst) (conn : Option Nat) (kind status base : Nat) :
    o.Holds rxByte (s.answer l i conn kind status base) := by
  unfold State.answer
  dsimp only
  split
  · exact h.noticeAt _ _ _ _ _ _ _
  · exact h.notice _ _ _ _

theorem State.Holds.rejected (h : o.Holds rxByte s) (l : Live) (i : Inst) (ib : Inbound) (kind status base : Nat) :
    o.Holds rxByte (s.rejected l i ib kind status base) :=
  State.Holds.answer ((h.bumpGrp ib.group (f := Grp.rejCnt) 1 (by decide)).of_ctx (by simp)) _ _ _ _ _ _

/-! ### A reduction at work -/

theorem State.Holds.setInst (h : o.Holds rxByte s) (id : Nat) (i : Inst) : o.Holds rxByte (s.setInst id i) := h.of_ctx rfl

theorem State.Holds.sumUp (h : o.Holds rxByte s) (id rank : Nat) (ib : Inbound) : o.Holds rxByte (s.sumUp id rank ib) := by
  unfold State.sumUp
  dsimp only
  generalize hv : List.foldl _ _ _ = v
  have hkeep : o.Holds rxByte v := by
    rw [← hv]
    refine List.foldlRecOn (motive := fun t => o.Holds rxByte t) _ _ (h.of_ctx (by split <;> simp)) fun t ht x _ => ?_
    split
    · exact ht
    · have hread (v : State) (hv : v.ctx = t.ctx) : o.Holds rxByte v := ht.of_ctx hv
      split
      · exact (hread _ (t.countDecode_ctx _ _)).setInst _ _ |>.rejected _ _ _ _ _ _
      · split
        · exact hread _ (t.countDecode_ctx _ _)
        · exact ((hread _ (by simp)).bumpGrp ib.group (f := Grp.satCnt) _ (by decide)).setInst _ _
  split
  · exact hkeep
  · exact hkeep.setInst _ _

theorem State.Holds.letIn (h : o.Holds rxByte s) (l : Live) (i : Inst) (ib : Inbound) :
    o.Holds rxByte (s.letIn l i ib) := by
  unfold State.letIn
  dsimp only
  split
  · exact (h.setInst _ _).rejected _ _ _ _ _ _
  · split
    · exact (h.setInst _ _).rejected _ _ _ _ _ _
    · split
      · exact (h.setInst _ _).rejected _ _ _ _ _ _
      · split
        · exact h.setInst _ _
        · exact h.sumUp _ _ _

theorem State.Holds.takeInbound (h : o.Holds rxByte s) (id : Nat) (ib : Inbound) :
    o.Holds rxByte (s.takeInbound id ib) := by
  unfold State.takeInbound
  split
  · exact h
  · split
    · split
      · exact h
      · exact h.setInst _ _
    · split
      · exact h
      · exact State.Holds.letIn (h.of_ctx (s.spanUe_ctx _)) _ _ _

theorem State.Holds.drain (h : o.Holds rxByte s) (id : Nat) (all : Bool) (rs : List Nat) :
    o.Holds rxByte (State.drain id all rs s) := by
  induction rs generalizing s with
  | nil => exact h
  | cons r rs ih =>
    unfold State.drain
    split
    · exact h
    · split
      · exact ih h
      · split
        · exact ih (h.sumUp _ _ _)
        · split
          · exact ih h
          · exact h

theorem State.Holds.closeInst (h : o.Holds rxByte s) (l : Live) (i : Inst) : o.Holds rxByte (s.closeInst l i) := by
  unfold State.closeInst
  dsimp only
  refine State.Holds.finish ?_ _ _
  have hrel : o.Holds rxByte (s.cbRelease l.id) := h.of_ctx (s.cbRelease_ctx _)
  refine List.foldlRecOn (motive := fun t => o.Holds rxByte t) _ _ ?_ fun t ht r _ => ?_
  · refine ((State.Holds.setLastSeq ?_ _ _ _).bumpGrp _ _ (by decide)).bumpGrp _ _ (by decide)
    split
    · exact hrel.setInScale _ _
    · exact hrel
  · split
    · exact ht.answer _ _ _ _ _ _
    · exact ht.answer _ _ _ _ _ _
    · exact ht

theorem State.Holds.closeCheck (h : o.Holds rxByte s) (id : Nat) : o.Holds rxByte (s.closeCheck id) := by
  unfold State.closeCheck
  dsimp only
  split
  · exact h
  · split
    · exact h.closeInst _ _
    · split
      · split
        · exact h.drain _ _ _
        · exact (h.drain _ _ _).closeInst _ _
      · exact h

theorem State.Holds.serve (h : o.Holds rxByte s) (id : Nat) : o.Holds rxByte (s.serve id) := by
  unfold State.serve
  dsimp only
  split
  · exact h
  · split
    · exact h
    · refine (State.Holds.drain ?_ _ _ _).closeCheck _
      refine List.foldlRecOn (motive := fun t => o.Holds rxByte t) _ _ (h.of_ctx rfl) fun t ht x _ => ?_
      exact ht.takeInbound _ _

theorem State.Holds.place (h : o.Holds rxByte s) (ib : Inbound) : o.Holds rxByte (s.place ib) := by
  unfold State.place
  dsimp only
  split
  · exact h.of_ctx (by simp)
  · split
    · exact h
    · have hq : o.Holds rxByte { s with q := { s.q with inbound := insertPlaced ib s.q.inbound } } := h.of_ctx rfl
      split
      · exact hq.serve _
      · exact hq

/-- A notice taken leaves what has been received as it was, whatever it leads to. -/
theorem State.Holds.noticeRx (h : o.Holds rxByte s) (c : Nat) (b : Bytes) : o.Holds rxByte (s.noticeRx c b) := by
  have htally : s.Tallies s := .refl h.wf
  unfold State.noticeRx
  dsimp only
  split
  · exact h.noticeAt _ _ _ _ _ _ _
  · exact h.noticeAt _ _ _ _ _ _ _
  · exact h.noticeAt _ _ _ _ _ _ _
  · exact h.noticeAt _ _ _ _ _ _ _
  · exact h.place _
  · exact h.trans (htally.ackToFirmware _).bytes
  · exact h.trans (htally.tableEpochAt _).bytes
  · exact h

end

end Sys2Proof.Machine
end

section
/-! A notice of one packet taken in order (R259, R267): the state in which it is read, and what follows it. -/

namespace Sys2Proof.Machine

/-! ### The packet passes its checks -/

/-- A notice as its stream carries it. -/
def asNotice (p : Packet) : Packet := { p with opcode := 0x10 }

/-- What a notice that is next in order on the control stream meets. -/
structure State.NoticeNext (s : State) (p : Packet) : Prop where
  up : s.up 4 = true
  good : s.badHeader (asNotice p) = false
  plain : s.flag (connBase p.conn.toNat) Conn.cipher = false
  unmarked : p.ce = false
  control : p.stream = true
  last : p.last = true
  next : extend (s.fld (connBase p.conn.toNat) Conn.rxExpC) p.psn.toNat = s.fld (connBase p.conn.toNat) Conn.rxExpC
  room : s.fld (connBase p.conn.toNat) Conn.rxExpC + 1 < 2 ^ 48
  noGap : s.fld (connBase p.conn.toNat) Conn.rxMapC = 0
  rx : s.x.rx = []
  clean : s.cleanTables = true

theorem State.stream_of_goodHeader {s : State} {p : Packet} (h : s.badHeader (asNotice p) = false) : p.stream = true := by
  have hop : (asNotice p).opcode.toNat = 0x10 := rfl
  have hstream : streamOf 0x10 = some true := rfl
  unfold State.badHeader at h
  dsimp only at h
  rw [hop, if_neg (by decide), hstream] at h
  simp only [Bool.or_eq_false_iff, bne_eq_false_iff_eq] at h
  exact h.2

theorem State.noticeNext {s : State} {p : Packet} (h : s.inOrder 0x10 p = true) : s.NoticeNext p := by
  simp only [State.inOrder, State.hears, Bool.and_eq_true, Bool.not_eq_true', decide_eq_true_eq, beq_iff_eq,
    List.isEmpty_iff, and_assoc] at h
  obtain ⟨hup, hgood, hplain, hce, -, -, -, hlast, hnext, hroom, hmap, hrx, -, -, -, hclean⟩ := h
  have hcontrol := State.stream_of_goodHeader hgood
  rw [State.esnOf, hcontrol] at hnext
  rw [hcontrol] at hroom hmap
  exact ⟨hup, hgood, hplain, hce, hcontrol, hlast, hnext, hroom, hmap, hrx, hclean⟩

theorem exec_notice {s : State} {p : Packet} {i : Instr} (hup : s.up 4 = true)
    (hi : i ∈ [Instr.receipt p, .late p, .rejectSpan p, .rejectBlock p, .skip p, .tableAck p, .tableEpoch p]) :
    exec i s = .next (receive (asNotice p) s) := by
  have hrow : s.atIsland 4 (receiveAs 0x10 p) = receive (asNotice p) s :=
    if_pos (show (!s.pwr.dead && s.islandReady 4) = true from hup)
  simp only [List.mem_cons, List.not_mem_nil, or_false] at hi
  rcases hi with rfl | rfl | rfl | rfl | rfl | rfl | rfl
  · rw [exec_receipt, execReceipt, hrow]
  · rw [exec_late, execLate, hrow]
  · rw [exec_rejectSpan, execRejectSpan, hrow]
  · rw [exec_rejectBlock, execRejectBlock, hrow]
  · rw [exec_skip, execSkip, hrow]
  · rw [exec_tableAck, execTableAck, hrow]
  · rw [exec_tableEpoch, execTableEpoch, hrow]

/-! ### RX_EXP moves on -/

/-- RX_EXP moved over one packet of the control stream, the placement map behind it. -/
def State.passed (s : State) (c : Nat) : State :=
  ((s.setFld (connBase c) Conn.rxMapC (s.fld (connBase c) Conn.rxMapC / 2)).setFld (connBase c) Conn.rxExpC
    (s.fld (connBase c) Conn.rxExpC + 1)).setConnX c fun x => { x with advC := x.advC + 1 }

theorem State.advance_succ (s : State) (c n : Nat) :
    State.advance c true (n + 1) s =
      if s.fld (connBase c) Conn.rxMapC % 2 = 0 then (false, s)
      else match (s.passed c).arrivedAt c true (s.fld (connBase c) Conn.rxExpC) with
        | some a =>
          if a.pkt.last then
            (true, (State.advance c true n (State.completeMsg { s.passed c with x := { (s.passed c).x with
              rx := (s.passed c).x.rx.filter fun y =>
                !(decide (y.conn = c ∧ y.control = true ∧ y.esn ≤ s.fld (connBase c) Conn.rxExpC)) } }
              c (s.fld (connBase c) Conn.rxExpC) a.pkt
              ((s.passed c).msgUpTo c true (s.fld (connBase c) Conn.rxExpC)))).2)
          else State.advance c true n (s.passed c)
        | none => State.advance c true n (s.passed c) := rfl

/-- The one packet that has arrived completes its message, after which nothing more is placed (R267). -/
theorem State.advance_single {s : State} {c : Nat} {a : Arrived} (n : Nat) (hmap : s.fld (connBase c) Conn.rxMapC = 1)
    (hrx : s.x.rx = [a]) (hconn : a.conn = c) (hcontrol : a.control = true) (hesn : a.esn = s.fld (connBase c) Conn.rxExpC)
    (hlast : a.pkt.last = true) :
    let u := { s.passed c with x := { (s.passed c).x with rx := [] } }
    let v := u.completeMsg c a.esn a.pkt [a]
    v.fld (connBase c) Conn.rxMapC = 0 → State.advance c true (n + 2) s = (true, v) := by
  intro u v hv
  have hpassed : (s.passed c).x.rx = [a] := hrx
  have hfound : (s.passed c).arrivedAt c true a.esn = some a := by simp [State.arrivedAt, hpassed, hconn, hcontrol]
  have hmsg : (s.passed c).msgUpTo c true a.esn = [a] := by
    simp [State.msgUpTo, hpassed, hconn, hcontrol, sortAsc_singleton]
  have hrest : (s.passed c).x.rx.filter (fun y => !(decide (y.conn = c ∧ y.control = true ∧ y.esn ≤ a.esn))) = [] := by
    simp [hpassed, hconn, hcontrol]
  have hstop : State.advance c true (n + 1) v = (false, v) := by
    rw [State.advance_succ, if_pos (by rw [hv])]
  rw [State.advance_succ, if_neg (by rw [hmap]; decide), ← hesn, hfound, hrest, hmsg]
  dsimp only
  rw [if_pos hlast, hstop]

/-! ### A notice in order -/

/-- The packet of a notice as it is held until RX_EXP passes it. -/
def State.noticeHeld (s : State) (p : Packet) : Arrived :=
  { conn := p.conn.toNat, control := true, esn := s.fld (connBase p.conn.toNat) Conn.rxExpC, pkt := asNotice p
    placed := true, refused := false }

/-- The machine with the packet of a notice among those that have arrived. -/
def State.noticeArrived (s : State) (p : Packet) : State :=
  let s' := (s.setConnX p.conn.toNat fun x => { x with seen := true }).bump64 R.rmaPktRxLo
  { s' with x := { s'.x with rx := s'.x.rx ++ [s.noticeHeld p] } }

/-- The machine with the packet of a notice placed. -/
def State.noticePlaced (s : State) (p : Packet) : State :=
  (s.noticeArrived p).setFld (connBase p.conn.toNat) Conn.rxMapC 1

/-- The machine in which a notice is read. -/
def State.noticeHeard (s : State) (p : Packet) : State :=
  let u := (s.noticePlaced p).passed p.conn.toNat
  { u with x := { u.x with rx := [] } }

/-- What the machine in which a notice is read differs in: what has been received, one count and the transport's own
state. -/
structure State.Heard (s u : State) (c : Nat) : Prop where
  frame : u = { s with regs := u.regs, ctx := u.ctx, x := u.x }
  bytes : s.Holds (fun b => ¬ rxByte b) u
  regs : s.regsBut u [R.rmaPktRxLo, R.rmaPktRxLo + 4]
  next : u.fld (connBase c) Conn.rxExpC = s.fld (connBase c) Conn.rxExpC + 1
  map : u.fld (connBase c) Conn.rxMapC = 0

theorem State.regsBut_of_regs {s t u : State} {l : List Nat} (h : s.regsBut t l) (hr : u.regs = t.regs) :
    s.regsBut u l := fun a ha => by
  rw [State.reg, hr]
  exact h a ha

theorem State.noticeArrived_effect (s : State) (p : Packet) : ∃ (r : List (Nat × Word)) (x : Xport),
    s.noticeArrived p = { s with regs := r, x := x } ∧ x.rx = s.x.rx ++ [s.noticeHeld p] ∧
    s.regsBut { s with regs := r } [R.rmaPktRxLo, R.rmaPktRxLo + 4] := by
  let v := s.setConnX p.conn.toNat fun x => { x with seen := true }
  obtain ⟨r, hr⟩ := v.bump64_effect R.rmaPktRxLo 1
  refine ⟨r, { v.x with rx := v.x.rx ++ [s.noticeHeld p] }, ?_, rfl, fun a ha => ?_⟩
  · unfold State.noticeArrived
    dsimp only
    rw [hr]
    rfl
  · simp only [List.mem_cons, List.not_mem_nil, or_false, not_or] at ha
    have hbump := v.reg_bump64_other 1 (Ne.symm ha.1) (Ne.symm ha.2)
    rw [hr] at hbump
    exact hbump

theorem State.noticeArrived_ctx (s : State) (p : Packet) : (s.noticeArrived p).ctx = s.ctx := by
  obtain ⟨r, x, h, -⟩ := s.noticeArrived_effect p
  rw [h]

/-- Bytes that no control stream receives stay with a field that one does. -/
theorem State.Holds.setRxFld {o t : State} (h : o.Holds (fun b => ¬ rxByte b) t) (c v : Nat) {f : Fld}
    (hf : 0x46 ≤ f.off ∧ f.off + f.len ≤ 0x50) : o.Holds (fun b => ¬ rxByte b) (t.setFld (connBase c) f v) :=
  h.setFld _ _ _ fun b _ _ => by unfold rxByte connBase at *; omega

section
variable {s : State} (hwf : s.ctx.wf = true)
include hwf

theorem State.ctx_wf_noticeArrived (p : Packet) : (s.noticeArrived p).ctx.wf = true := by
  rw [s.noticeArrived_ctx p]
  exact hwf

theorem State.noticePlaced_map (p : Packet) : (s.noticePlaced p).fld (connBase p.conn.toNat) Conn.rxMapC = 1 :=
  State.fld_setFld_same _ _ _ (State.ctx_wf_noticeArrived hwf p) (by decide) (by decide)

theorem State.noticePlaced_next (p : Packet) :
    (s.noticePlaced p).fld (connBase p.conn.toNat) Conn.rxExpC = s.fld (connBase p.conn.toNat) Conn.rxExpC :=
  (State.fld_setFld_other _ _ (State.ctx_wf_noticeArrived hwf p) (.inl (Nat.le_refl _))).trans
    (State.fld_congr (s.noticeArrived_ctx p) _ _)

omit hwf in
/-- The context tables in which a notice is read: the map of the one packet placed is shifted out, and RX_EXP is beyond. -/
theorem State.noticeHeard_ctx (s : State) (p : Packet) : (s.noticeHeard p).ctx =
    (((s.noticePlaced p).setFld (connBase p.conn.toNat) Conn.rxMapC
      ((s.noticePlaced p).fld (connBase p.conn.toNat) Conn.rxMapC / 2)).setFld (connBase p.conn.toNat) Conn.rxExpC
        ((s.noticePlaced p).fld (connBase p.conn.toNat) Conn.rxExpC + 1)).ctx := rfl

theorem State.noticeHeard_spec {p : Packet} (hn : s.NoticeNext p) : s.Heard (s.noticeHeard p) p.conn.toNat := by
  have harr : s.Holds (fun b => ¬ rxByte b) (s.noticeArrived p) :=
    (State.Holds.refl hwf).of_ctx (s.noticeArrived_ctx p)
  have hmap := harr.setRxFld p.conn.toNat 1 (f := Conn.rxMapC) (by decide)
  have hmapped := hmap.setRxFld p.conn.toNat ((s.noticePlaced p).fld (connBase p.conn.toNat) Conn.rxMapC / 2)
    (f := Conn.rxMapC) (by decide)
  have hheard := hmapped.setRxFld p.conn.toNat ((s.noticePlaced p).fld (connBase p.conn.toNat) Conn.rxExpC + 1)
    (f := Conn.rxExpC) (by decide)
  obtain ⟨r, x, h, -, hregs⟩ := s.noticeArrived_effect p
  refine ⟨?_, hheard.of_ctx (s.noticeHeard_ctx p), State.regsBut_of_regs hregs ?_, ?_, ?_⟩
  · unfold State.noticeHeard State.noticePlaced State.passed
    rw [h]
    rfl
  · unfold State.noticeHeard State.noticePlaced State.passed
    rw [h]
    rfl
  · rw [State.fld_congr (s.noticeHeard_ctx p)]
    refine (State.fld_setFld_same _ _ _ hmapped.wf (by decide) (by decide)).trans ?_
    rw [State.noticePlaced_next hwf]
    exact Nat.mod_eq_of_lt hn.room
  · rw [State.fld_congr (s.noticeHeard_ctx p)]
    refine (State.fld_setFld_other _ _ hmapped.wf (.inr (Nat.le_refl _))).trans ?_
    refine (State.fld_setFld_same _ _ _ hmap.wf (by decide) (by decide)).trans ?_
    rw [State.noticePlaced_map hwf]
    rfl

end

/-! ### What follows the notice -/

theorem State.useFor_notice {s : State} (p : Packet) (h : s.cleanTables = true) : s.useFor (asNotice p) = (true, s) := by
  have hno : ([0x01, 0x02, 0x06].contains (asNotice p).opcode.toNat) = false := rfl
  have hctrl : ¬ (asNotice p).opcode = 0x11 := by
    rw [show (asNotice p).opcode = 0x10 from rfl]
    decide
  unfold State.useFor
  rw [State.ctxUse_clean _ _ h]
  dsimp only
  rw [hno, if_neg (by decide), if_neg hctrl]
  rfl

theorem State.roomFor_notice (s : State) (c esn : Nat) (p : Packet) : s.roomFor c esn (asNotice p) = true := rfl

theorem State.placePkt_notice (s : State) (c esn : Nat) (p : Packet) :
    s.placePkt c esn (asNotice p) = (true, false, s) := rfl

/-- What is sent once a notice has been taken: an acknowledgement (R267). -/
def State.noticeAcked (v : State) (c : Nat) : State :=
  (v.setGap c true (v.fld (connBase c) Conn.rxMapC != 0)).sendAck c true

theorem State.completeMsg_notice (u : State) (c esn : Nat) (p : Packet) {a : Arrived} (ha : a.refused = false) :
    u.completeMsg c esn (asNotice p) [a] = u.noticeRx c p.payload := by
  have hany : [a].any (·.refused) = false := by simp [ha]
  unfold State.completeMsg
  dsimp only
  rw [hany, if_neg (by decide)]
  rfl

section
variable {s : State} {p : Packet} (hwf : s.ctx.wf = true) (hn : s.NoticeNext p)
include hwf hn

/-- RX_EXP passes the packet of a notice, which is read. -/
theorem State.advance_notice :
    State.advance p.conn.toNat true 32 (s.noticePlaced p) =
      (true, (s.noticeHeard p).noticeRx p.conn.toNat p.payload) := by
  have hheard := State.noticeHeard_spec hwf hn
  have hrx : (s.noticePlaced p).x.rx = [s.noticeHeld p] := by
    obtain ⟨r, x, h, hx, -⟩ := s.noticeArrived_effect p
    rw [State.noticePlaced, h]
    exact hx.trans (by rw [hn.rx]; rfl)
  have hnotice := (s.noticeHeard p).completeMsg_notice p.conn.toNat (s.noticeHeld p).esn p (a := s.noticeHeld p) rfl
  have hmap : ((s.noticeHeard p).noticeRx p.conn.toNat p.payload).fld (connBase p.conn.toNat) Conn.rxMapC = 0 := by
    have hkeep := (State.Holds.refl hheard.bytes.wf).noticeRx p.conn.toNat p.payload
    rw [hkeep.fld hheard.bytes.wf fun b _ _ => by simp only [rxByte, connBase, Conn.rxMapC] at *; omega, hheard.map]
  have hadv := State.advance_single 30 (State.noticePlaced_map hwf p) hrx rfl rfl (State.noticePlaced_next hwf p).symm hn.last
  rw [← hnotice] at hmap ⊢
  exact hadv hmap

theorem State.accept5_notice :
    (s.setConnX p.conn.toNat fun x => { x with seen := true }).accept5 p.conn.toNat
      (s.fld (connBase p.conn.toNat) Conn.rxExpC) (asNotice p) =
    ((s.noticeHeard p).noticeRx p.conn.toNat p.payload).noticeAcked p.conn.toNat := by
  have hstream : (asNotice p).stream = true := hn.control
  have hopcode : ¬ (asNotice p).opcode = 0x11 := show ¬ (0x10 : Byte) = 0x11 by decide
  generalize hw : s.setConnX p.conn.toNat (fun x => { x with seen := true }) = w
  have hctx : w.ctx = s.ctx := hw ▸ rfl
  have hmap : w.fld (connBase p.conn.toNat) (rxMap true) = 0 := (State.fld_congr hctx _ _).trans hn.noGap
  have hexp : w.fld (connBase p.conn.toNat) (rxExp true) = s.fld (connBase p.conn.toNat) Conn.rxExpC :=
    State.fld_congr hctx _ _
  have harr : { w.bump64 R.rmaPktRxLo with x := { (w.bump64 R.rmaPktRxLo).x with
      rx := (w.bump64 R.rmaPktRxLo).x.rx ++ [s.noticeHeld p] } } = s.noticeArrived p := by
    rw [← hw]
    rfl
  have hplaced : (s.noticeArrived p).setFld (connBase p.conn.toNat) (rxMap true)
      ((s.noticeArrived p).fld (connBase p.conn.toNat) (rxMap true) ||| 1 <<< (s.fld (connBase p.conn.toNat) Conn.rxExpC -
        s.fld (connBase p.conn.toNat) Conn.rxExpC)) = s.noticePlaced p := by
    rw [State.fld_congr (s.noticeArrived_ctx p), show s.fld (connBase p.conn.toNat) (rxMap true) = 0 from hn.noGap,
      Nat.sub_self]
    rfl
  have hwindow : windowOf true = 32 := rfl
  unfold State.accept5
  dsimp only
  rw [hstream, hmap, hexp, Nat.zero_testBit, if_neg (by decide), 
    if_neg fun h => hopcode (of_decide_eq_true (Bool.and_eq_true_iff.mp h).1), State.roomFor_notice, if_neg (by decide),
    State.placePkt_notice]
  dsimp only
  unfold State.noticeHeld at harr
  rw [harr, hplaced, hwindow, State.advance_notice hwf hn]
  rfl

theorem State.sequenced_next :
    s.sequenced (asNotice p).conn.toNat (s.fld (connBase p.conn.toNat) Conn.rxExpC) (asNotice p) =
      ((s.noticeHeard p).noticeRx p.conn.toNat p.payload).noticeAcked p.conn.toNat := by
  have hstream : (asNotice p).stream = true := hn.control
  have hmark (w : State) : w.noteCe (asNotice p).conn.toNat true (asNotice p) = w :=
    if_neg (by rw [show (asNotice p).ce = false from hn.unmarked]; decide)
  have hexp : s.fld (connBase (asNotice p).conn.toNat) (rxExp true) = s.fld (connBase p.conn.toNat) Conn.rxExpC := rfl
  have hwindow : windowOf true = 32 := rfl
  unfold State.sequenced
  dsimp only
  rw [hstream, hmark, hexp, if_neg (by omega), hwindow, if_neg (by omega), Int.toNat_natCast]
  exact State.accept5_notice (p := p) hwf hn

/-- A notice that is next in order is read, and acknowledged. -/
theorem receive_notice :
    receive (asNotice p) s = ((s.noticeHeard p).noticeRx p.conn.toNat p.payload).noticeAcked p.conn.toNat := by
  have hstream : (asNotice p).stream = true := hn.control
  have hspace : (streamOf (asNotice p).opcode.toNat).isNone = false := rfl
  have hce : (asNotice p).ce = false := hn.unmarked
  have hexp : s.fld (connBase (asNotice p).conn.toNat) (rxExp true) = s.fld (connBase p.conn.toNat) Conn.rxExpC := rfl
  have hnext : extend (s.fld (connBase p.conn.toNat) Conn.rxExpC) (asNotice p).psn.toNat =
      s.fld (connBase p.conn.toNat) Conn.rxExpC := hn.next
  have hopen (n : Nat) : s.openPkt (asNotice p).conn.toNat (asNotice p) false n = some (asNotice p) := by
    rw [State.openPkt]
    dsimp only
    rw [show s.flag (connBase (asNotice p).conn.toNat) Conn.cipher = false from hn.plain]
    rfl
  unfold receive
  dsimp only
  rw [State.useFor_notice p hn.clean]
  dsimp only
  rw [if_neg (by decide), hn.good, if_neg (by decide), hce, if_neg (by decide), hspace, if_neg (by decide), hstream, hexp,
    hnext, hopen]
  dsimp only
  rw [if_neg (by decide), State.sequenced_next hwf hn]

end

end Sys2Proof.Machine
end

section
/-! What a notice taken leaves (R150-R152, R185-R188): of the roles and queues, of its group's counters, and of the
table epochs. -/

namespace Sys2Proof.Machine

/-! ### Descriptors that complete -/

section
variable {s : State} (hwf : s.ctx.wf = true)
include hwf

theorem State.completeOne_live (l : Live) (r : Result) :
    (s.completeOne l r).q.live = s.q.live.filter fun x => x.id != l.id := by
  have hrel := (State.Sends.refl hwf).cbRelease l.id
  obtain ⟨heq1, hwf1, -⟩ := (s.cbRelease l.id).retired_effect l hrel.bytes.wf
  obtain ⟨heq2, hwf2, -⟩ := ((s.cbRelease l.id).retired l).reported_effect l r hwf1
  obtain ⟨heq3, -⟩ := (((s.cbRelease l.id).retired l).reported l r).doneRaised_effect l r hwf2
  rw [State.completeOne_released, heq3, heq2, heq1]
  dsimp only
  rw [State.cbRelease_q]

/-- Completions that follow one another take descriptors away only. -/
theorem State.settle_live (n : Nat) {x : Live} (hx : x ∈ (s.settle n).q.live) : x ∈ s.q.live := by
  induction n generalizing s with
  | zero => exact hx
  | succ n ih =>
    unfold State.settle at hx
    split at hx
    · next l _ =>
      have hmem := ih ((State.Sends.refl hwf).completeOne l _).bytes.wf hx
      rw [State.completeOne_live hwf] at hmem
      exact List.mem_of_mem_filter hmem
    · exact hx

theorem State.finish_gone (l : Live) (r : Result) {x : Live} (hx : x ∈ (s.finish l r).q.live) : x.id ≠ l.id := by
  have hmem := State.settle_live ((State.Sends.refl hwf).completeOne l r).bytes.wf _ hx
  rw [State.completeOne_live hwf] at hmem
  simpa using List.of_mem_filter hmem

end

/-! ### The role of a notice -/

theorem State.sendFor_owes {s : State} {group channel seq node : Nat} {l : Live} {r : SendRole} {rank : Nat}
    (h : s.sendFor group channel seq node = some (l, r, rank)) :
    r.owners.any (fun o => o.rank == rank && o.answer.isNone) = true := by
  obtain ⟨l', -, hl⟩ := List.exists_of_findSome?_eq_some h
  split at hl
  · split at hl
    · split at hl
      · split at hl
        · next hany =>
          cases hl
          exact hany
        · cases hl
      · cases hl
    · cases hl
  · cases hl

/-- A role that waited for one owner alone has every answer with that owner's. -/
theorem SendRole.answered_all {r : SendRole} {o : Owner} {rank : Nat} (kind : Nat) (hr : r.owners = [o])
    (h : r.owners.any (fun o => o.rank == rank && o.answer.isNone) = true) :
    (r.answered rank kind).owners.all (fun o => o.answer.isSome) = true := by
  simp only [hr, List.any_cons, List.any_nil, Bool.or_false, Bool.and_eq_true, beq_iff_eq] at h
  simp [SendRole.answered, hr, h.1]

theorem State.sendCheck_retained (s : State) (hwf : s.ctx.wf = true) (l : Live) (r : SendRole) :
    (s.sendCheck l r).q.retained = s.q.retained := by
  rw [((State.Sends.refl hwf).sendCheck l r).frame]

/-- A role with every answer ends. -/
theorem State.sendCheck_gone {s : State} (hwf : s.ctx.wf = true) {l : Live} {r : SendRole}
    (h : r.owners.all (fun o => o.answer.isSome) = true) {x : Live} (hx : x ∈ (s.sendCheck l r).q.live) : x.id ≠ l.id := by
  rw [State.sendCheck, if_pos h] at hx
  exact State.finish_gone hwf l _ hx

/-! ### RECEIPT, LATE, REJECT_SPAN and REJECT_BLOCK -/

/-- LATE_CNT and NONDET_CNT count. -/
def State.lateCounted (s : State) (group : Nat) : State :=
  (s.bumpFld (grpBase group) Grp.lateCnt).bumpFld (grpBase group) Grp.nondetCnt

/-- A counter of 32 bits counts one, and stays at its last value (R246). -/
theorem State.fld_bumpFld_same (s : State) (a : Nat) {f : Fld} (hwf : s.ctx.wf = true) (hhi : f.hi = 31) (hlo : f.lo = 0)
    (hlen : f.len = 4) : (s.bumpFld a f).fld a f = min (s.fld a f + 1) 0xFFFFFFFF := by
  rw [State.bumpFld, if_neg (by decide), State.fld_setFld_same _ _ _ hwf (by omega) (by omega), hhi, hlo]
  exact Nat.mod_eq_of_lt (by omega)

theorem State.fld_bumpFld_other (s : State) {a : Nat} {f f' : Fld} (hwf : s.ctx.wf = true)
    (hd : f'.off + f'.len ≤ f.off ∨ f.off + f.len ≤ f'.off) : (s.bumpFld a f).fld a f' = s.fld a f' := by
  rw [State.bumpFld, if_neg (by decide), State.fld_setFld_other _ _ hwf (by omega)]

theorem State.ctx_wf_bumpFld (s : State) (a : Nat) (f : Fld) (hwf : s.ctx.wf = true) : (s.bumpFld a f).ctx.wf = true := by
  rw [State.bumpFld, if_neg (by decide)]
  exact s.ctx_wf_setFld _ _ _ hwf

theorem State.ctx_wf_lateCounted {s : State} (group : Nat) (hwf : s.ctx.wf = true) :
    (s.lateCounted group).ctx.wf = true := State.ctx_wf_bumpFld _ _ _ (s.ctx_wf_bumpFld _ _ hwf)

theorem State.lateCounted_cnts {s : State} (group : Nat) (hwf : s.ctx.wf = true) :
    (s.lateCounted group).fld (grpBase group) Grp.lateCnt = min (s.fld (grpBase group) Grp.lateCnt + 1) 0xFFFFFFFF ∧
    (s.lateCounted group).fld (grpBase group) Grp.nondetCnt = min (s.fld (grpBase group) Grp.nondetCnt + 1) 0xFFFFFFFF := by
  have hwf' := s.ctx_wf_bumpFld (grpBase group) Grp.lateCnt hwf
  rw [State.lateCounted, State.fld_bumpFld_other _ hwf' (.inr (by decide)), State.fld_bumpFld_same _ _ hwf rfl rfl rfl,
    State.fld_bumpFld_same _ _ hwf' rfl rfl rfl, State.fld_bumpFld_other _ hwf (.inl (by decide))]
  exact ⟨rfl, rfl⟩

section
variable {s : State} {status group channel seq node base : Nat}

theorem State.noticeAt_none (kind : Nat) (h : s.sendFor group channel seq node = none) :
    s.noticeAt kind status group channel seq node base = s := by
  rw [State.noticeAt, h]

variable {l : Live} {r : SendRole} {rank : Nat} (h : s.sendFor group channel seq node = some (l, r, rank))
include h

theorem State.noticeAt_receipt : s.noticeAt 1 status group channel seq node base =
    (s.takeRetained (ofOwner r rank)).2.sendCheck l (r.answered rank 1) := by
  rw [State.noticeAt, h]
  rfl

theorem State.noticeAt_late : s.noticeAt 2 status group channel seq node base =
    State.sendCheck ((((s.lateCounted group).unsend l r rank).2.takeRetained (ofOwner r rank)).2.policy r
      (((s.lateCounted group).unsend l r rank).1 ++
        (((s.lateCounted group).unsend l r rank).2.takeRetained (ofOwner r rank)).1)) l
      { r.answered rank 2 with late := true } := by
  rw [State.noticeAt, h]
  rfl

theorem State.noticeAt_rejectSpan : s.noticeAt 3 status group channel seq node base =
    State.sendCheck ((s.takeRetained (ofOwner r rank)).2.policy r (s.takeRetained (ofOwner r rank)).1) l
      { r.answered rank 3 with firstRej := some (r.firstRej.getD status) } := by
  rw [State.noticeAt, h]
  rfl

theorem State.noticeAt_rejectBlock_live : (s.noticeAt 4 status group channel seq node base).q.live =
    s.q.live.map fun x =>
      if x.id = l.id then { x with phase := .send { r with firstRej := some (r.firstRej.getD status) } } else x := by
  rw [State.noticeAt, h]
  dsimp only
  rw [State.setPhase]
  dsimp only
  rw [State.policy_q]
  rfl

variable (hwf : s.ctx.wf = true)
include hwf

/-- RECEIPT, LATE and REJECT_SPAN take the owner's retained spans, after which its role has its answer. -/
theorem State.noticeAt_answers {kind : Nat} (hk : 1 ≤ kind) (hk' : kind ≤ 3) : ∃ (w : State) (r' : SendRole),
    s.noticeAt kind status group channel seq node base = w.sendCheck l r' ∧ w.ctx.wf = true ∧
    w.q.retained = (s.q.retained.filter fun x => !ofOwner r rank x) ∧ r'.owners = (r.answered rank kind).owners := by
  have hkind : kind = 1 ∨ kind = 2 ∨ kind = 3 := by omega
  rcases hkind with rfl | rfl | rfl
  · exact ⟨_, _, State.noticeAt_receipt h, hwf, rfl, rfl⟩
  · have hcounted := (((State.Holds.refl (P := rxByte) hwf).bumpGrp group (f := Grp.lateCnt) 1 (by decide)).bumpGrp group
      (f := Grp.nondetCnt) 1 (by decide))
    have htaken : s.Holds rxByte (((s.lateCounted group).unsend l r rank).2.takeRetained (ofOwner r rank)).2 :=
      hcounted.of_ctx rfl
    refine ⟨_, _, State.noticeAt_late h, (htaken.policy _ _ rxByte_below_dropCnt).wf, ?_, rfl⟩
    rw [State.policy_q]
    change (s.lateCounted group).q.retained.filter _ = _
    rw [State.lateCounted, State.bumpFld_q, State.bumpFld_q]
  · have htaken : s.Holds rxByte (s.takeRetained (ofOwner r rank)).2 := (State.Holds.refl hwf).of_ctx rfl
    refine ⟨_, _, State.noticeAt_rejectSpan h, (htaken.policy _ _ rxByte_below_dropCnt).wf, ?_, rfl⟩
    rw [State.policy_q]
    rfl

/-- LATE counts in its group, and nothing after it does so again (R188). -/
theorem State.noticeAt_late_cnts (hg : group < 2 ^ 12) :
    let t := s.noticeAt 2 status group channel seq node base
    t.fld (grpBase group) Grp.lateCnt = min (s.fld (grpBase group) Grp.lateCnt + 1) 0xFFFFFFFF ∧
    t.fld (grpBase group) Grp.nondetCnt = min (s.fld (grpBase group) Grp.nondetCnt + 1) 0xFFFFFFFF := by
  have hcounted := s.ctx_wf_lateCounted group hwf
  have htaken : (s.lateCounted group).Holds (fun b => b % 256 < Grp.dropCnt.off)
      (((s.lateCounted group).unsend l r rank).2.takeRetained (ofOwner r rank)).2 := (State.Holds.refl hcounted).of_ctx rfl
  have hpolicy := htaken.policy r (((s.lateCounted group).unsend l r rank).1 ++
    (((s.lateCounted group).unsend l r rank).2.takeRetained (ofOwner r rank)).1) fun _ hb => hb
  have hchecked := (State.Sends.refl hpolicy.wf).sendCheck l { r.answered rank 2 with late := true }
  intro t
  have ht : t = _ := State.noticeAt_late h
  have hcnt {f : Fld} (hf : f.off + f.len ≤ Grp.dropCnt.off) :
      t.fld (grpBase group) f = (s.lateCounted group).fld (grpBase group) f := by
    have hoff : Grp.dropCnt.off ≤ 256 := by decide
    rw [ht, hchecked.bytes.grp hpolicy.wf hg (by omega)]
    exact hpolicy.fld hcounted fun b _ _ => by unfold grpBase at *; omega
  rw [hcnt (by decide), hcnt (by decide)]
  exact State.lateCounted_cnts group hwf

end

end Sys2Proof.Machine
end

section
/-! A SKIP that waits for its receive role (R172, R187), and the table notices (R150-R152). -/

namespace Sys2Proof.Machine

/-! ### SKIP -/

/-- What is placed no earlier than the rest goes behind it. -/
theorem insertPlaced_last {x : Inbound} {l : List Inbound} (h : ∀ y ∈ l, y.placed ≤ x.placed) :
    insertPlaced x l = l ++ [x] := by
  induction l with
  | nil => rfl
  | cons y l ih =>
    have hy := h y List.mem_cons_self
    rw [insertPlaced, if_neg (by omega), ih fun z hz => h z (List.mem_cons_of_mem _ hz), List.cons_append]

/-- A contribution or SKIP of a reduction that is not yet open waits in the inbound share (R174, R187). -/
theorem State.place_waits {s : State} {ib : Inbound} (hused : s.groupUsed ib.group = true) (hchan : ib.channel ≤ 31)
    (hpast : s.seqPast ib.group ib.channel ib.seq = false) (hinst : s.instOf ib.group ib.channel ib.seq = none)
    (hlast : ∀ y ∈ s.q.inbound, y.placed ≤ ib.placed) :
    (s.place ib).q = { s.q with inbound := s.q.inbound ++ [ib] } := by
  have hinst' : State.instOf { s with q := { s.q with inbound := insertPlaced ib s.q.inbound } } ib.group ib.channel
      ib.seq = none := hinst
  rw [State.place, if_neg (by simp [hused, hchan]), hpast, if_neg (by decide)]
  dsimp only
  rw [hinst', insertPlaced_last hlast]

/-! ### TABLE_ACK -/

/-- Outside its service firmware finds the acknowledgement among its duties later (R26). -/
theorem State.ackToFirmware_waits {s : State} (n : TblNote) (h : s.firmwareRuns = false) :
    (s.ackToFirmware n).kstn.duties =
      s.kstn.duties ++ [.tableAck { blankPkt with payload := tblNoteBytes 6 n }] := by
  rw [State.ackToFirmware, State.duty, h]
  rfl

/-- A mismatch sets TBL_ACK_ERR's interrupt and changes no queue and no context (R151, R166). -/
theorem State.ackMismatch_effect (s : State) (group node : Nat) :
    (s.ackMismatch group node).regBit (R.hdrIrqStat 5) 1 = true ∧ (s.ackMismatch group node).q = s.q ∧
    (s.ackMismatch group node).ctx = s.ctx := by
  have hraised (v : State) : (v.raiseIrq 5 2).regBit (R.hdrIrqStat 5) 1 = true := by
    rw [State.regBit, v.reg_raiseIrq_stat (by decide), Nat.testBit_or]
    exact Bool.or_eq_true_iff.mpr (.inr (by decide))
  unfold State.ackMismatch
  dsimp only
  refine ⟨hraised _, ?_, ?_⟩
  · rw [State.raiseIrq_q]
    split <;> rfl
  · rw [State.raiseIrq_ctx]
    split <;> rfl

/-- An acknowledgement that reaches a chip other than TBL_ROOT is a mismatch (R151). -/
theorem State.ackToFirmware_notRoot {s : State} (n : TblNote) (h : s.firmwareRuns = true)
    (hroot : s.fld (grpBase n.group) Grp.tblRoot % 65536 ≠ s.node) :
    s.ackToFirmware n = s.ackMismatch n.group n.node := by
  rw [State.ackToFirmware, State.duty, h, if_pos rfl]
  exact if_pos (.inl hroot)

/-! ### TABLE_EPOCH -/

section
variable {s : State} {g : Nat} (hwf : s.ctx.wf = true)
include hwf

omit hwf in
/-- A byte with bit 6 cleared. -/
theorem testBit_setBits_clear (v : Nat) : (setBits v 6 6 0).testBit 6 = false := by
  rw [Nat.testBit_eq_decide_div_mod_eq, decide_eq_false_iff_not]
  simp only [setBits, Nat.shiftRight_eq_div_pow, Nat.shiftLeft_eq]
  omega

/-- VALID of a PEND that has been taken is clear, and the other PENDs are as before. -/
theorem State.pend_pendTaken (k j : Nat) (hk : k < 5) (hj : j < 5) :
    (s.pendTaken g k).ctx.wf = true ∧
    (((s.pendTaken g k).pend g (4 + j)).testBit 6 = if j = k then false else (s.pend g (4 + j)).testBit 6) := by
  unfold State.pendTaken
  dsimp only
  split
  · have hdef := s.ctx_wf_setFld (grpBase g) (Grp.defFmt (4 + k))
      (b2n ((s.pend g (4 + k)).testBit 7) * 128 + s.pend g (4 + k) % 16) hwf
    have hlt : s.pend g (4 + k) < 2 ^ 8 := s.fld_lt _ (Grp.pendFmt (4 + k))
    refine ⟨State.ctx_wf_setFld _ _ _ _ hdef, ?_⟩
    split
    · next he =>
      rw [he, State.pend, State.fld_setFld_same _ _ _ hdef (Nat.zero_le _) (Nat.le_refl 8)]
      have hbyte : setBits (s.pend g (4 + k)) 6 6 0 < 2 ^ 8 := setBits_lt 0 hlt (by decide) (by decide)
      exact (congrArg (·.testBit 6) (Nat.mod_eq_of_lt hbyte)).trans (testBit_setBits_clear _)
    · next hne =>
      rw [State.pend, State.fld_setFld_other _ _ hdef (by simp only [Grp.pendFmt]; omega),
        State.fld_setFld_other _ _ hwf (by simp only [Grp.pendFmt, Grp.defFmt]; omega)]
      rfl
  · next hclear =>
    refine ⟨hwf, ?_⟩
    split
    · next he =>
      rw [he]
      exact Bool.eq_false_iff.mpr hclear
    · rfl

/-- The first PENDs taken have no VALID. -/
theorem State.pend_pendsTaken {n : Nat} (hn : n ≤ 5) :
    (s.pendsTaken g n).ctx.wf = true ∧ ∀ j, j < n → ((s.pendsTaken g n).pend g (4 + j)).testBit 6 = false := by
  induction n with
  | zero => exact ⟨hwf, fun j hj => absurd hj (Nat.not_lt_zero j)⟩
  | succ n ih =>
    obtain ⟨hwf', hclear⟩ := ih (by omega)
    have hstep : s.pendsTaken g (n + 1) = (s.pendsTaken g n).pendTaken g n := by
      rw [State.pendsTaken, List.range_succ, List.foldl_append]
      rfl
    rw [hstep]
    refine ⟨(State.pend_pendTaken hwf' n 0 (by omega) (by decide)).1, fun j hj => ?_⟩
    rw [(State.pend_pendTaken hwf' n j (by omega) (by omega)).2]
    split
    · rfl
    · exact hclear j (by omega)

/-- TABLE_EPOCH that matches PEND_EPOCH moves the epoch on and empties PEND (R152). -/
theorem State.tableEpochAt_matches (n : TblNote) (hn : n.group < 2 ^ 12) (hepoch : n.epoch < 65536)
    (hpend : s.pendAny n.group = true) (hmatch : s.fld (grpBase n.group) Grp.pendEpoch = n.epoch) :
    (s.tableEpochAt n).fld (grpBase n.group) Grp.tableEpoch = n.epoch ∧ (s.tableEpochAt n).pendAny n.group = false ∧
    (s.tableEpochAt n).regBit (R.hdrIrqStat 5) 2 = true := by
  obtain ⟨hwf', hclear⟩ := State.pend_pendsTaken (g := n.group) hwf (Nat.le_refl 5)
  have hwfe := State.ctx_wf_setFld (s.pendsTaken n.group 5) (grpBase n.group) Grp.tableEpoch n.epoch hwf'
  obtain ⟨v, hv, hsent⟩ : ∃ v : State, s.tableEpochAt n = v.raiseIrq 5 4 ∧
      ((s.pendsTaken n.group 5).setFld (grpBase n.group) Grp.tableEpoch n.epoch).Sends v := by
    refine ⟨_, (if_pos (by rw [hpend, hmatch]; simp)), ?_⟩
    have hrefl := State.Sends.refl hwfe
    change State.Sends _ (if _ then State.ctrAdd ((s.pendsTaken n.group 5).setFld _ _ _) _ _ else _)
    split
    · exact hrefl.ctrAdd 1 (Nat.mod_lt _ (by decide))
    · exact hrefl
  have hfld {f : Fld} (hf : f.off + f.len ≤ 256) : (s.tableEpochAt n).fld (grpBase n.group) f =
      ((s.pendsTaken n.group 5).setFld (grpBase n.group) Grp.tableEpoch n.epoch).fld (grpBase n.group) f := by
    rw [hv, State.fld_congr (v.raiseIrq_ctx 5 4), hsent.bytes.grp hwfe hn hf]
  refine ⟨?_, ?_, ?_⟩
  · rw [hfld (by decide), State.fld_setFld_same _ _ _ hwf' (by decide) (by decide)]
    exact Nat.mod_eq_of_lt hepoch
  · refine List.any_eq_false.mpr fun k hk => ?_
    have hk5 := List.mem_range.mp hk
    rw [State.pend, hfld (by simp only [Grp.pendFmt]; omega), State.fld_setFld_other _ _ hwf'
      (by simp only [Grp.pendFmt, Grp.tableEpoch]; omega), ← State.pend, hclear k hk5]
    decide
  · rw [hv, State.regBit, v.reg_raiseIrq_stat (by decide), Nat.testBit_or]
    exact Bool.or_eq_true_iff.mpr (.inr (by decide))

omit hwf in
/-- TABLE_EPOCH that does not match is a mismatch (R152). -/
theorem State.tableEpochAt_mismatch (n : TblNote)
    (h : s.pendAny n.group = false ∨ s.fld (grpBase n.group) Grp.pendEpoch ≠ n.epoch) :
    s.tableEpochAt n = s.ackMismatch n.group n.node := by
  refine if_neg fun hm => ?_
  obtain ⟨hpend, hepoch⟩ := Bool.and_eq_true_iff.mp hm
  rcases h with h | h
  · exact Bool.false_ne_true (h.symm.trans hpend)
  · exact h (beq_iff_eq.mp hepoch)

end

end Sys2Proof.Machine
end

section
/-! Notices in order, by their KIND (R150-R152, R185-R188): what they find as the machine stood, and what they settle of
O44. -/

namespace Sys2Proof.Machine

/-! ### What a notice finds -/

section
variable {s u : State} {c : Nat} (h : s.Heard u c)
include h

theorem State.Heard.q : u.q = s.q := by rw [h.frame]

theorem State.Heard.mem : u.mem = s.mem := by rw [h.frame]

theorem State.Heard.kstn : u.kstn = s.kstn := by rw [h.frame]

theorem State.Heard.now : u.now = s.now := by rw [State.now, State.now, h.frame]

theorem State.Heard.reg {a : Nat} (ha : a ∉ [R.rmaPktRxLo, R.rmaPktRxLo + 4]) : u.reg a = s.reg a := h.regs a ha

theorem State.Heard.node : u.node = s.node := by
  rw [State.node, State.node, State.regBits, State.regBits, h.reg (by decide)]

theorem State.Heard.firmwareRuns : u.firmwareRuns = s.firmwareRuns := by
  simp only [State.firmwareRuns, State.announced, State.regBit, State.regBits, h.reg (a := R.kstnState) (by decide),
    h.reg (a := R.bootStat) (by decide)]

variable (hwf : s.ctx.wf = true)
include hwf

theorem State.Heard.grp {g : Nat} {f : Fld} (hg : g < 2 ^ 12) (hf : f.off + f.len ≤ 256) :
    u.fld (grpBase g) f = s.fld (grpBase g) f :=
  h.bytes.fld hwf fun b _ _ => by unfold rxByte grpBase at *; omega

variable {g : Nat} (hg : g < 2 ^ 12)
include hg

theorem State.Heard.sendFor (channel seq node : Nat) : u.sendFor g channel seq node = s.sendFor g channel seq node := by
  have hrank := State.rankOfNode_congr h.mem (h.grp hwf hg (f := Grp.nMembers) (by decide))
    (h.grp hwf hg (f := Grp.memberAddr) (by decide)) node
  rw [State.sendFor, State.sendFor, h.q, hrank]

theorem State.Heard.groupUsed : u.groupUsed g = s.groupUsed g := by
  simp only [State.groupUsed, h.grp hwf hg (f := Grp.nMembers) (by decide), h.grp hwf hg (f := Grp.myRank) (by decide)]

theorem State.Heard.seqPast {channel : Nat} (hc : channel ≤ 31) (seq : Nat) :
    u.seqPast g channel seq = s.seqPast g channel seq := by
  rw [State.seqPast, State.seqPast, h.grp hwf hg (by simp only [Grp.lastSeq]; omega)]

theorem State.Heard.pendAny : u.pendAny g = s.pendAny g := by
  refine any_range_congr fun k hk => ?_
  rw [State.pend, State.pend, h.grp hwf hg (by simp only [Grp.pendFmt]; omega)]

end

theorem State.noticeAcked_emits {v : State} (hwf : v.ctx.wf = true) (c : Nat) : v.Emits (v.noticeAcked c) :=
  ((State.Emits.refl hwf).setConnX c _).sendAck c true

/-! ### The KIND -/

section
variable (s : State) (c : Nat) {b : Bytes}

theorem State.noticeRx_owner (h : 1 ≤ leAt b 0 1) (h' : leAt b 0 1 ≤ 4) :
    s.noticeRx c b = s.noticeAt (leAt b 0 1) (leAt b 1 1) (bits (leAt b 2 2) 11 0) (leAt b 4 2) (leAt b 8 4)
      (bits (leAt b 0x10 3) 19 0) (leAt b 0x14 5) := by
  have hkind : leAt b 0 1 = 1 ∨ leAt b 0 1 = 2 ∨ leAt b 0 1 = 3 ∨ leAt b 0 1 = 4 := by omega
  rcases hkind with hk | hk | hk | hk
  · simp only [State.noticeRx, hk]
  · simp only [State.noticeRx, hk]
  · simp only [State.noticeRx, hk]
  · simp only [State.noticeRx, hk]

theorem State.noticeRx_skip (h : leAt b 0 1 = 5) :
    s.noticeRx c b = s.place ⟨some c, true, bits (leAt b 0x10 3) 19 0, bits (leAt b 2 2) 11 0, leAt b 4 2, leAt b 8 4,
      [], [], s.now, []⟩ := by
  simp only [State.noticeRx, h]

theorem State.noticeRx_ack (h : leAt b 0 1 = 6) : s.noticeRx c b = s.ackToFirmware (tblNoteOf b) := by
  simp only [State.noticeRx, h]

theorem State.noticeRx_epoch (h : leAt b 0 1 = 7) : s.noticeRx c b = s.tableEpochAt (tblNoteOf b) := by
  simp only [State.noticeRx, h]

end

theorem group_of_notice_lt (b : Bytes) : bits (leAt b 2 2) 11 0 < 2 ^ 12 := Nat.mod_lt _ (by decide)

theorem leAt_lt (bs : Bytes) (off len : Nat) : leAt bs off len < 2 ^ (8 * len) := by
  refine Nat.lt_of_lt_of_le (leNat_lt _) (Nat.pow_le_pow_right (by decide) (Nat.mul_le_mul_left 8 ?_))
  simp only [sub, zeros, List.length_append, List.length_take, List.length_replicate]
  omega

/-! ### A notice taken -/

/-- How a notice is taken: it is read in the machine as it stood, but for what has been received, and an acknowledgement
of its packet follows what it led to. -/
structure State.Takes (s : State) (p : Packet) (u v t : State) : Prop where
  heard : s.Heard u p.conn.toNat
  wf : u.ctx.wf = true
  read : v = u.noticeRx p.conn.toNat p.payload
  kept : u.Holds rxByte v
  acked : v.Emits t

theorem exec_notice_takes {s : State} {p : Packet} {i : Instr} (hwf : s.ctx.wf = true) (hn : s.NoticeNext p)
    (hi : i ∈ [Instr.receipt p, .late p, .rejectSpan p, .rejectBlock p, .skip p, .tableAck p, .tableEpoch p]) :
    ∃ u v t, exec i s = .next t ∧ s.Takes p u v t := by
  have hheard := State.noticeHeard_spec hwf hn
  have hkept := (State.Holds.refl (P := rxByte) hheard.bytes.wf).noticeRx p.conn.toNat p.payload
  exact ⟨_, _, _, (exec_notice hn.up hi).trans (congrArg _ (receive_notice hwf hn)), hheard, hheard.bytes.wf, rfl, hkept,
    State.noticeAcked_emits hkept.wf _⟩

section
variable {s u v t : State} {p : Packet} (h : s.Takes p u v t)
include h

theorem State.Takes.taken (hcontrol : p.stream = true) : s.taken t p := by
  have hrx (b : Nat) (hb : connBase p.conn.toNat + Conn.rxExpC.off ≤ b)
      (hb' : b < connBase p.conn.toNat + Conn.rxExpC.off + Conn.rxExpC.len) : rxByte b := by
    simp only [rxByte, connBase, Conn.rxExpC] at *
    omega
  have hmoved : t.fld (connBase p.conn.toNat) Conn.rxExpC = s.fld (connBase p.conn.toNat) Conn.rxExpC + 1 := by
    rw [h.acked.bytes.fld h.kept.wf fun b hb hb' => .inr (hrx b hb hb'), h.kept.fld h.wf hrx, h.heard.next]
  rw [State.taken, hcontrol]
  exact hmoved

theorem State.Takes.grp {g : Nat} {f : Fld} (hg : g < 2 ^ 12) (hf : f.off + f.len ≤ 256) :
    t.fld (grpBase g) f = v.fld (grpBase g) f := h.acked.bytes.grp h.kept.wf hg hf

theorem State.Takes.stat {k : Nat} (hk : v.regBit (R.hdrIrqStat 5) k = true) : t.regBit (R.hdrIrqStat 5) k = true := by
  rwa [State.regBit, h.acked.stat]

end

/-! ### Notices about a contribution -/

section
variable {s u v t : State} {p : Packet} (h : s.Takes p u v t) (hwf : s.ctx.wf = true) {kind group channel seq node : Nat}
  {status base : Nat} (hg : group < 2 ^ 12) (hv : v = u.noticeAt kind status group channel seq node base)
include h hwf hg hv

theorem State.Takes.noRole (hnone : s.sendFor group channel seq node = none) : t.q = s.q ∧ t.mem = s.mem ∧
    t.fld (grpBase group) Grp.lateCnt = s.fld (grpBase group) Grp.lateCnt ∧
    t.fld (grpBase group) Grp.nondetCnt = s.fld (grpBase group) Grp.nondetCnt := by
  obtain rfl : v = u := hv.trans (State.noticeAt_none kind ((h.heard.sendFor hwf hg _ _ _).trans hnone))
  exact ⟨h.acked.q.trans h.heard.q, h.acked.mem.trans h.heard.mem,
    (h.grp hg (by decide)).trans (h.heard.grp hwf hg (by decide)),
    (h.grp hg (by decide)).trans (h.heard.grp hwf hg (by decide))⟩

variable {l : Live} {r : SendRole} {rank : Nat} (hsome : s.sendFor group channel seq node = some (l, r, rank))
include hsome

theorem State.Takes.soleOwner (hk : 1 ≤ kind) (hk' : kind ≤ 3) {o : Owner} (ho : r.owners = [o]) :
    ∀ x ∈ t.q.live, x.id ≠ l.id := by
  have hrole := (h.heard.sendFor hwf hg _ _ _).trans hsome
  obtain ⟨w, r', hw, hwwf, -, howners⟩ := State.noticeAt_answers (status := status) (base := base) hrole h.wf hk hk'
  intro x hx
  rw [h.acked.q, hv, hw] at hx
  refine State.sendCheck_gone hwwf ?_ hx
  rw [howners]
  exact SendRole.answered_all kind ho (State.sendFor_owes hrole)

theorem State.Takes.retained (hk : 1 ≤ kind) (hk' : kind ≤ 3) :
    t.q.retained = s.q.retained.filter fun x => !ofOwner r rank x := by
  obtain ⟨w, r', hw, hwwf, hretained, -⟩ := State.noticeAt_answers (status := status) (base := base)
    ((h.heard.sendFor hwf hg _ _ _).trans hsome) h.wf hk hk'
  rw [h.acked.q, hv, hw, State.sendCheck_retained _ hwwf, hretained, h.heard.q]

theorem State.Takes.lateCounts (hk : kind = 2) :
    t.fld (grpBase group) Grp.lateCnt = min (s.fld (grpBase group) Grp.lateCnt + 1) 0xFFFFFFFF ∧
    t.fld (grpBase group) Grp.nondetCnt = min (s.fld (grpBase group) Grp.nondetCnt + 1) 0xFFFFFFFF := by
  have hcnts := State.noticeAt_late_cnts (status := status) (base := base)
    ((h.heard.sendFor hwf hg _ _ _).trans hsome) h.wf hg
  rw [h.grp hg (by decide), h.grp hg (by decide), hv, hk, ← h.heard.grp hwf hg (by decide),
    ← h.heard.grp hwf hg (by decide)]
  exact hcnts

theorem State.Takes.rejectRemembered (hk : kind = 4) : t.q.live = s.q.live.map fun x =>
    if x.id = l.id then { x with phase := .send { r with firstRej := some (r.firstRej.getD status) } } else x := by
  rw [h.acked.q, hv, hk, State.noticeAt_rejectBlock_live ((h.heard.sendFor hwf hg _ _ _).trans hsome), h.heard.q]

end

/-! ### SKIP and the table notices -/

section
variable {s u v t : State} {p : Packet} (h : s.Takes p u v t)
include h

theorem State.Takes.skipWaits (hwf : s.ctx.wf = true) {x : Inbound} (hv : v = u.place x) (hg : x.group < 2 ^ 12)
    (hused : s.groupUsed x.group = true) (hchan : x.channel ≤ 31) (hpast : s.seqPast x.group x.channel x.seq = false)
    (hinst : s.instOf x.group x.channel x.seq = none) (hplaced : ∀ y ∈ s.q.inbound, y.placed ≤ x.placed) :
    t.q = { s.q with inbound := s.q.inbound ++ [x] } := by
  have hinst' : u.instOf x.group x.channel x.seq = none := by
    rw [State.instOf, h.heard.q]
    exact hinst
  have hwaits := State.place_waits ((h.heard.groupUsed hwf hg).trans hused) hchan
    ((h.heard.seqPast hwf hg hchan _).trans hpast) hinst' (by rw [h.heard.q]; exact hplaced)
  rw [h.acked.q, hv, hwaits, h.heard.q]

variable {n : TblNote}

theorem State.Takes.ackWaits (hv : v = u.ackToFirmware n) (hruns : s.firmwareRuns = false) :
    t.kstn.duties = s.kstn.duties ++ [.tableAck { blankPkt with payload := tblNoteBytes 6 n }] := by
  have hkstn : t.kstn = v.kstn := by rw [h.acked.frame]
  rw [hkstn, hv, State.ackToFirmware_waits n (h.heard.firmwareRuns.trans hruns), h.heard.kstn]

variable (hwf : s.ctx.wf = true) (hn : n.group < 2 ^ 12)
include hwf hn

theorem State.Takes.ackMismatch (hv : v = u.ackToFirmware n) (hruns : s.firmwareRuns = true)
    (hroot : s.fld (grpBase n.group) Grp.tblRoot % 65536 ≠ s.node) :
    t.q = s.q ∧ t.regBit (R.hdrIrqStat 5) 1 = true := by
  have hmis := hv.trans (State.ackToFirmware_notRoot n (h.heard.firmwareRuns.trans hruns)
    (by rwa [h.heard.grp hwf hn (by decide), h.heard.node]))
  obtain ⟨hirq, hqueue, -⟩ := u.ackMismatch_effect n.group n.node
  exact ⟨by rw [h.acked.q, hmis, hqueue, h.heard.q], h.stat (hmis ▸ hirq)⟩

variable (hv : v = u.tableEpochAt n)
include hv

theorem State.Takes.epochMoves (hepoch : n.epoch < 65536) (hpend : s.pendAny n.group = true)
    (hmatch : s.fld (grpBase n.group) Grp.pendEpoch = n.epoch) :
    t.fld (grpBase n.group) Grp.tableEpoch = n.epoch ∧ t.pendAny n.group = false ∧
    t.regBit (R.hdrIrqStat 5) 2 = true := by
  obtain ⟨hmoved, hempty, hirq⟩ := State.tableEpochAt_matches h.wf n hn hepoch ((h.heard.pendAny hwf hn).trans hpend)
    ((h.heard.grp hwf hn (by decide)).trans hmatch)
  refine ⟨?_, ?_, h.stat (hv ▸ hirq)⟩
  · rw [h.grp hn (by decide), hv, hmoved]
  · rw [← hempty, ← hv]
    exact any_range_congr fun k hk => by rw [State.pend, h.grp hn (by simp only [Grp.pendFmt]; omega), ← State.pend]

theorem State.Takes.epochMismatch (hmis : s.pendAny n.group = false ∨ s.fld (grpBase n.group) Grp.pendEpoch ≠ n.epoch) :
    t.fld (grpBase n.group) Grp.tableEpoch = s.fld (grpBase n.group) Grp.tableEpoch ∧
    t.regBit (R.hdrIrqStat 5) 1 = true := by
  have hmis' := hv.trans (State.tableEpochAt_mismatch n
    (by rwa [h.heard.pendAny hwf hn, h.heard.grp hwf hn (by decide)]))
  obtain ⟨hirq, -, hctx⟩ := u.ackMismatch_effect n.group n.node
  refine ⟨?_, h.stat (hmis' ▸ hirq)⟩
  rw [h.grp hn (by decide), hmis', State.fld_congr hctx, h.heard.grp hwf hn (by decide)]

end

/-! ### O44 -/

/-- Settles O44: each notice is read in the machine as it stood, but for what has been received, and only an
acknowledgement of its packet follows it. -/
theorem noticesReachTheirRoles : Obligations.NoticesReachTheirRoles := by
  unfold Obligations.NoticesReachTheirRoles
  intro s p hwf _ hin kind status group channel seq node g note tg i hi
  have hn := State.noticeNext hin
  obtain ⟨u, v, t, hexec, h⟩ := exec_notice_takes hwf hn hi
  have hg : group < 2 ^ 12 := group_of_notice_lt p.payload
  have htg : note.group < 2 ^ 12 := group_of_notice_lt p.payload
  have howner (hk : 1 ≤ kind) (hk' : kind ≤ 4) :
      v = u.noticeAt kind status group channel seq node (leAt p.payload 0x14 5) :=
    h.read.trans (u.noticeRx_owner p.conn.toNat hk hk')
  have hskip (hk : kind = 5) : v = u.place ⟨some p.conn.toNat, true, node, group, channel, seq, [], [], s.now, []⟩ := by
    rw [h.read, u.noticeRx_skip p.conn.toNat hk, h.heard.now]
  have hack (hk : kind = 6) : v = u.ackToFirmware note := h.read.trans (u.noticeRx_ack p.conn.toNat hk)
  have hepoch (hk : kind = 7) : v = u.tableEpochAt note := h.read.trans (u.noticeRx_epoch p.conn.toNat hk)
  have hnote : note.epoch < 65536 := leAt_lt p.payload 4 2
  clear_value kind status group channel seq node note
  refine ⟨t, hexec, h.taken hn.control, fun hk hk' hnone => ?_, fun l r rank hsome => ⟨fun hk hk' ⟨o, ho⟩ => ?_,
    fun hk hk' => ?_, fun hk => ?_, fun hk => ?_⟩, fun hk hused hchan hpast hinst hplaced => ?_, fun hk hruns => ?_,
    fun hk hruns hroot => ?_, fun hk hpend hmatch => ?_, fun hk hmis => ?_⟩
  · exact h.noRole hwf hg (howner hk hk') hnone
  · exact h.soleOwner hwf hg (howner hk (by omega)) hsome hk hk' ho
  · exact h.retained hwf hg (howner hk (by omega)) hsome hk hk'
  · exact h.lateCounts hwf hg (howner (by omega) (by omega)) hsome hk
  · exact h.rejectRemembered hwf hg (howner (by omega) (by omega)) hsome hk
  · exact h.skipWaits hwf (hskip hk) hg hused hchan hpast hinst hplaced
  · exact h.ackWaits (hack hk) hruns
  · exact h.ackMismatch hwf htg (hack hk) hruns hroot
  · exact h.epochMoves hwf htg (hepoch hk) hnote hpend hmatch
  · exact h.epochMismatch hwf htg (hepoch hk) hmis

end Sys2Proof.Machine
end

section
/-! A descriptor's command (R197, R233, R234, R242, R246): what holds it, and what its dispatch leaves. -/

namespace Sys2Proof.Machine

/-! ### The branches of a descriptor's command -/

/-- A command that brings a descriptor runs it with the work of its opcode (R231). -/
theorem exec_descOp {c : Instr} {op : Nat} {d : Desc} (s : State) (h : descOp c = some (op, d)) :
    exec c s = .next (s.atIsland 2 (runDesc op (startBy op) d)) := by
  unfold descOp at h
  split at h
  all_goals cases h
  all_goals rfl

section
variable {s : State} {op : Nat} {d : Desc} (start : Live → State → State)

/-- A descriptor that is outstanding and has not begun, or stored and not enabled, is not dispatched again. -/
theorem runDesc_stale (h : s.fresh op d = false) : runDesc op start d s = s := by
  rw [State.fresh, Bool.and_eq_false_iff, Bool.not_eq_false', Bool.not_eq_false'] at h
  unfold runDesc
  split
  · rfl
  · next hlive => rw [if_pos (h.resolve_left hlive)]

/-- Any other stands among the heads and is dispatched when nothing holds it, it has its credit and it has its turn. -/
theorem runDesc_fresh (h : s.fresh op d = true) : runDesc op start d s =
    if (s.enter op d).2.heldHead (s.enter op d).1 then (s.enter op d).2
    else if (s.enter op d).2.noCredit (s.enter op d).1 then (s.enter op d).2.countWait (s.enter op d).1
    else if (s.enter op d).2.outranked (s.enter op d).1 then (s.enter op d).2
    else start (s.begun op d).1 (s.begun op d).2 := by
  simp only [State.fresh, Bool.and_eq_true, Bool.not_eq_true'] at h
  unfold runDesc
  rw [h.1, if_neg (by decide), h.2, if_neg (by decide)]
  rfl

end

/-- A descriptor taken among the heads changes those and the count of descriptors read. -/
theorem State.enter_frame (s : State) (op : Nat) (d : Desc) : (s.enter op d).2 =
    { s with q := { s.q with waiting := (s.enter op d).2.q.waiting, nextRead := (s.enter op d).2.q.nextRead } } := by
  obtain ⟨-, -, w, n, h⟩ := s.enter_spec op d
  rw [h]

theorem State.enter_ctx (s : State) (op : Nat) (d : Desc) : (s.enter op d).2.ctx = s.ctx := by rw [s.enter_frame op d]

theorem State.enter_reg (s : State) (op : Nat) (d : Desc) (a : Nat) : (s.enter op d).2.reg a = s.reg a := by
  rw [s.enter_frame op d]
  rfl

/-- A ring's head that waits for a credit is counted once (R242, R246). -/
theorem State.reg_countWait (s : State) (w : Waiting) : (s.countWait w).reg R.qmgrCqWaitCnt =
    if w.counted = true ∨ isPrepost w.desc = true then s.reg R.qmgrCqWaitCnt
    else min (s.reg R.qmgrCqWaitCnt + 1) 0xFFFFFFFF := by
  unfold State.countWait
  by_cases h : w.counted = true ∨ isPrepost w.desc = true
  · rw [if_pos (Bool.or_eq_true_iff.mpr h), if_pos h]
  · rw [if_neg (mt Bool.or_eq_true_iff.mp h), if_neg h]
    exact s.reg_bump_same (by decide)

/-! ### The dispatch -/

/-- The queue island's lists once a waiting descriptor has been dispatched (R233, R238). -/
def State.listed (s : State) (w : Waiting) : State :=
  { s with q := { s.q with
    waiting := s.q.waiting.filter fun x => x.order != w.order
    store := s.q.store.filter fun x => x.order != w.order
    live := s.q.live ++ [s.toLive w]
    nextId := s.q.nextId + 1
    lastChans := modNth s.q.lastChans w.desc.prio.toNat fun _ => w.desc.channel.toNat } }

/-- A credit of a completion queue reserved, where one is taken (R242). -/
def State.reserved (s : State) (cq : Nat) (credit : Bool) : State :=
  if credit then s.setFld (cqBase cq) Cq.resv (s.fld (cqBase cq) Cq.resv + 1) else s

theorem State.dispatch_eq (s : State) (w : Waiting) : s.dispatch w =
    (s.toLive w, ((s.listed w).reserved w.desc.cq.toNat (s.toLive w).credit).bump64 R.qmgrDispatchLo) := rfl

theorem State.reserved_frame (s : State) (cq : Nat) (credit : Bool) :
    s.reserved cq credit = { s with ctx := (s.reserved cq credit).ctx } := by
  unfold State.reserved
  split <;> rfl

theorem State.reserved_resv {s : State} (cq : Nat) (credit : Bool) (h : s.ctx.wf = true) :
    (s.reserved cq credit).fld (cqBase cq) Cq.resv = (s.fld (cqBase cq) Cq.resv + b2n credit) % 2 ^ 20 := by
  unfold State.reserved
  split
  · next hcredit =>
    rw [hcredit]
    exact State.fld_setFld_same _ _ _ h (by decide) (by decide)
  · next hcredit =>
    have hlt : s.fld (cqBase cq) Cq.resv < 2 ^ 20 := s.fld_lt _ Cq.resv
    rw [Bool.eq_false_iff.mpr hcredit]
    exact (Nat.mod_eq_of_lt hlt).symm

/-- What a dispatch leaves: the lists of descriptors, the channel served, the count of dispatches and the credit taken
change. -/
theorem State.dispatch_frame (s : State) (w : Waiting) : (s.dispatch w).2 =
    { s.listed w with regs := (s.dispatch w).2.regs, ctx := (s.dispatch w).2.ctx } := by
  rw [s.dispatch_eq]
  dsimp only
  obtain ⟨r, hr⟩ := ((s.listed w).reserved w.desc.cq.toNat (s.toLive w).credit).bump64_effect R.qmgrDispatchLo 1
  rw [hr, State.reserved_frame]

theorem State.dispatch_count (s : State) (w : Waiting) :
    (s.dispatch w).2.reg64 R.qmgrDispatchLo = (s.reg64 R.qmgrDispatchLo + 1) % 2 ^ 64 ∧
    s.regsBut (s.dispatch w).2 [R.qmgrDispatchLo, R.qmgrDispatchLo + 4] := by
  have hregs : ((s.listed w).reserved w.desc.cq.toNat (s.toLive w).credit).regs = s.regs := by
    rw [State.reserved_frame]
    rfl
  have hreg (a : Nat) : ((s.listed w).reserved w.desc.cq.toNat (s.toLive w).credit).reg a = s.reg a := by
    rw [State.reg, State.reg, hregs]
  rw [s.dispatch_eq]
  refine ⟨?_, fun a ha => ?_⟩
  · rw [State.reg64_bump64, State.reg64, State.reg64, hreg, hreg]
  · simp only [List.mem_cons, List.not_mem_nil, or_false, not_or] at ha
    rw [State.reg_bump64_other _ _ (Ne.symm ha.1) (Ne.symm ha.2), hreg]

theorem State.dispatch_resv {s : State} (w : Waiting) (h : s.ctx.wf = true) :
    (s.dispatch w).2.fld (cqBase w.desc.cq.toNat) Cq.resv =
      (s.fld (cqBase w.desc.cq.toNat) Cq.resv + b2n (s.dispatch w).1.credit) % 2 ^ 20 := by
  rw [s.dispatch_eq]
  dsimp only
  rw [State.fld_congr (State.bump64_ctx _ _ _)]
  exact State.reserved_resv (s := s.listed w) _ _ h

/-! ### O24 -/

/-- What the dispatch of a descriptor that has been taken among the heads leaves of the machine (R233, R242). -/
theorem State.begun_leaves (s : State) (op : Nat) (d : Desc) :
    let w := (s.enter op d).1
    let e := (s.enter op d).2
    let l := (s.begun op d).1
    let u := (s.begun op d).2
    l.id = s.q.nextId ∧ l.op = op ∧ l.desc = d ∧ l.seed = s.seed ∧ l.phase = .start ∧
    (l.credit = true → s.cqOn d.cq.toNat = true) ∧ u.q.live = s.q.live ++ [l] ∧ u.q.nextId = s.q.nextId + 1 ∧
    u.q.waiting = (e.q.waiting.filter fun x => x.order != w.order) ∧
    u.q.store = (s.q.store.filter fun x => x.order != w.order) ∧
    u = { s with regs := u.regs, ctx := u.ctx, q := { s.q with
      waiting := u.q.waiting, store := u.q.store, live := u.q.live, nextId := u.q.nextId, nextRead := e.q.nextRead
      lastChans := u.q.lastChans } } := by
  intro w e l u
  obtain ⟨hop, hdesc, -⟩ : w.op = op ∧ w.desc = d ∧ _ := s.enter_spec op d
  have he : e = { s with q := { s.q with waiting := e.q.waiting, nextRead := e.q.nextRead } } := s.enter_frame op d
  have hu : u = { e.listed w with regs := u.regs, ctx := u.ctx } := e.dispatch_frame w
  have hl : l = e.toLive w := rfl
  clear_value w e l u
  subst hl
  refine ⟨by rw [he]; rfl, hop, hdesc, by rw [he]; rfl, rfl, fun hcredit => ?_, by rw [hu, he]; rfl, by rw [hu, he]; rfl,
    by rw [hu]; rfl, by rw [hu, he]; rfl, ?_⟩
  · have hon := (Bool.and_eq_true_iff.mp hcredit).2
    rw [hdesc, he] at hon
    exact hon
  · rw [hu, he]
    rfl

/-- Settles O24. -/
theorem descriptorsRunWhenNothingHoldsThem : Obligations.DescriptorsRunWhenNothingHoldsThem := by
  unfold Obligations.DescriptorsRunWhenNothingHoldsThem
  intro c op d s hc hup
  have hexec : exec c s = .next (runDesc op (startBy op) d s) :=
    (exec_descOp s hc).trans (congrArg _ (if_pos hup))
  refine ⟨fun hstale => by rw [hexec, runDesc_stale _ hstale], fun hfresh => ?_⟩
  rw [runDesc_fresh _ hfresh] at hexec
  intro w e l u
  have hreg (a : Nat) : e.reg a = s.reg a := s.enter_reg op d a
  have hctx : e.ctx = s.ctx := s.enter_ctx op d
  have hdesc : w.desc = d := (s.enter_spec op d).2.1
  refine ⟨fun hheld => ⟨?_, s.enter_frame op d⟩, fun hheld hcredit => ⟨?_, ?_⟩, fun hheld hcredit hturn => ?_,
    fun hheld hcredit hturn => ?_⟩
  · rw [hexec, if_pos hheld]
  · rw [hexec, if_neg (Bool.eq_false_iff.mp hheld), if_pos hcredit]
  · rw [State.reg_countWait, hreg, hdesc]
  · rw [hexec, if_neg (Bool.eq_false_iff.mp hheld), if_neg (Bool.eq_false_iff.mp hcredit), if_pos hturn]
  · obtain ⟨hid, hop, hd, hseed, hphase, hon, hlive, hnext, hwaiting, hstore, hframe⟩ := s.begun_leaves op d
    obtain ⟨hcount, hregs⟩ := e.dispatch_count w
    refine ⟨?_, hid, hop, hd, hseed, hphase, hon, hlive, hnext, hwaiting, hstore, hframe, ?_,
      fun a ha => (hregs a ha).trans (hreg a), fun hwf => ?_⟩
    · rw [hexec, if_neg (Bool.eq_false_iff.mp hheld), if_neg (Bool.eq_false_iff.mp hcredit),
        if_neg (Bool.eq_false_iff.mp hturn)]
    · have hsame : e.reg64 R.qmgrDispatchLo = s.reg64 R.qmgrDispatchLo := by rw [State.reg64, State.reg64, hreg, hreg]
      exact hcount.trans (by rw [hsame])
    · obtain ⟨-, -, -, -, hbut, -⟩ := e.dispatch_spec w (hctx ▸ hwf)
      have hresv := State.dispatch_resv w (hctx ▸ hwf)
      rw [hdesc, State.fld_congr hctx] at hresv
      rw [hdesc] at hbut
      exact ⟨fun b hb => (hbut b hb).trans (by rw [hctx]), hresv⟩

end Sys2Proof.Machine
end

section
/-! The close of an open reduction at its deadline (R172, R185): LAST_SEQ moves to its sequence, and no
answer that the close gives touches LAST_SEQ again. -/

namespace Sys2Proof.Machine

/-! ### LAST_SEQ and the clock while answers are given -/

/-- The bytes of the exchange groups' entries that hold LAST_SEQ of the 32 channels (R168). -/
def seqByte (b : Nat) : Prop := 0xE00000 ≤ b ∧ b < 0xF00000 ∧ 0x40 ≤ b % 256 ∧ b % 256 < 0xC0

/-- LAST_SEQ of every group and channel and the clock are as before. -/
structure State.KeepsSeqs (s t : State) : Prop where
  clock : t.clock = s.clock
  bytes : s.Holds seqByte t

section
variable {o s t : State}

theorem State.KeepsSeqs.refl (h : s.ctx.wf = true) : s.KeepsSeqs s := ⟨rfl, .refl h⟩

theorem State.KeepsSeqs.trans (h : o.KeepsSeqs s) (h' : s.KeepsSeqs t) : o.KeepsSeqs t :=
  ⟨h'.clock.trans h.clock, h.bytes.trans h'.bytes⟩

theorem State.KeepsSeqs.of_sends (h : o.KeepsSeqs s) (h' : s.Sends t) : o.KeepsSeqs t :=
  h.trans ⟨by rw [h'.frame], h'.bytes.mono fun _ hb => .inl ⟨hb.1, hb.2.1⟩⟩

/-- A counter of an exchange group lies behind LAST_SEQ. -/
theorem State.KeepsSeqs.bumpGrp (h : o.KeepsSeqs s) (g : Nat) {f : Fld} (n : Nat)
    (hf : 0xC0 ≤ f.off ∧ f.off + f.len ≤ 256) : o.KeepsSeqs (s.bumpFld (grpBase g) f n) := by
  obtain ⟨c, hc⟩ := s.bumpFld_effect (grpBase g) f n
  exact h.trans ⟨by rw [hc], (State.Holds.refl h.bytes.wf).bumpFld _ _ _ fun b _ _ => by unfold seqByte grpBase at *; omega⟩

theorem seqByte_below_dropCnt (b : Nat) (h : seqByte b) : b % 256 < Grp.dropCnt.off := by
  simp only [seqByte, Grp.dropCnt] at *
  omega

/-- The policy on returned blocks (R188). -/
theorem State.KeepsSeqs.policy (h : o.KeepsSeqs s) (r : SendRole) (xs : List Span) : o.KeepsSeqs (s.policy r xs) := by
  refine h.trans ⟨foldl_keeps State.clock _ xs s fun u _ => ?_, (State.Holds.refl h.bytes.wf).policy r xs seqByte_below_dropCnt⟩
  have hread := u.readsBack_returnBlocks
  exact (congrArg State.clock (hread _ _ _ _ _ _ _)).trans rfl

/-- A step that leaves the clock and the context tables. -/
theorem State.KeepsSeqs.step (h : o.KeepsSeqs s) (hclock : t.clock = s.clock) (hctx : t.ctx = s.ctx) : o.KeepsSeqs t :=
  h.trans ⟨hclock, (State.Holds.refl h.bytes.wf).of_ctx hctx⟩

theorem State.KeepsSeqs.sendCheck (h : o.KeepsSeqs s) (l : Live) (r : SendRole) : o.KeepsSeqs (s.sendCheck l r) :=
  h.of_sends ((State.Sends.refl h.bytes.wf).sendCheck l r)

theorem State.KeepsSeqs.noticeAt (h : o.KeepsSeqs s) (kind status group channel seq node base : Nat) :
    o.KeepsSeqs (s.noticeAt kind status group channel seq node base) := by
  unfold State.noticeAt
  split
  · exact h
  · next l r rank _ =>
    have htaken (v : State) (hv : o.KeepsSeqs v) : o.KeepsSeqs (v.takeRetained (ofOwner r rank)).2 := hv.step rfl rfl
    have hunsent (v : State) (hv : o.KeepsSeqs v) : o.KeepsSeqs (v.unsend l r rank).2 := hv.step rfl rfl
    dsimp only
    split
    · exact (htaken _ h).sendCheck _ _
    · have hcounted := (h.bumpGrp group (f := Grp.lateCnt) 1 (by decide)).bumpGrp group (f := Grp.nondetCnt) 1 (by decide)
      exact ((htaken _ (hunsent _ hcounted)).policy _ _).sendCheck _ _
    · exact ((htaken _ h).policy _ _).sendCheck _ _
    · exact ((htaken _ h).policy _ _).step rfl rfl
    · exact h

theorem State.KeepsSeqs.answer (h : o.KeepsSeqs s) (l : Live) (i : Inst) (conn : Option Nat) (kind status base : Nat) :
    o.KeepsSeqs (s.answer l i conn kind status base) := by
  unfold State.answer
  dsimp only
  split
  · exact h.noticeAt _ _ _ _ _ _ _
  · exact h.of_sends ((State.Sends.refl h.bytes.wf).notice _ _ _ _)

end

/-! ### The close -/

/-- An open reduction that closes: its descriptor completes, and LAST_SEQ of its channel becomes its sequence (R185). -/
theorem State.closeInst_closes {s : State} (hwf : s.ctx.wf = true) (l : Live) (i : Inst) (hc : l.desc.channel.toNat < 32) :
    (∀ x ∈ (s.closeInst l i).q.live, x.id ≠ l.id) ∧
    (s.closeInst l i).fld (grpBase l.desc.group.toNat) (Grp.lastSeq l.desc.channel.toNat) = l.desc.seq.toNat ∧
    (s.closeInst l i).clock = s.clock := by
  have hrel := (State.Sends.refl hwf).cbRelease l.id
  have hg := l.desc.group.isLt
  unfold State.closeInst
  dsimp only
  generalize hv : (if (i.ownerValid && i.accKind == 0) = true then
    (s.cbRelease l.id).setFld (strmBase i.ownerCtx) Strm.inScale i.sRef else s.cbRelease l.id) = v
  have hvwf : v.ctx.wf = true := by
    rw [← hv]
    split
    · exact State.ctx_wf_setFld _ _ _ _ hrel.bytes.wf
    · exact hrel.bytes.wf
  have hvclock : v.clock = s.clock := by
    have hclock : (s.cbRelease l.id).clock = s.clock := by rw [hrel.frame]
    rw [← hv]
    split <;> exact hclock
  have hmoved : (v.setFld (grpBase l.desc.group.toNat) (Grp.lastSeq l.desc.channel.toNat) l.desc.seq.toNat).fld
      (grpBase l.desc.group.toNat) (Grp.lastSeq l.desc.channel.toNat) = l.desc.seq.toNat :=
    (State.fld_setFld_same _ _ _ hvwf (Nat.zero_le _) (Nat.le_refl 32)).trans (Nat.mod_eq_of_lt l.desc.seq.isLt)
  have hwwf := v.ctx_wf_setFld (grpBase l.desc.group.toNat) (Grp.lastSeq l.desc.channel.toNat) l.desc.seq.toNat hvwf
  generalize hw : v.setFld (grpBase l.desc.group.toNat) (Grp.lastSeq l.desc.channel.toNat) l.desc.seq.toNat = w at *
  have hwclock : w.clock = s.clock := hw ▸ hvclock
  generalize hu : List.foldl _ _ _ = u
  have hkeep : w.KeepsSeqs u := by
    rw [← hu]
    refine List.foldlRecOn (motive := fun t => w.KeepsSeqs t) _ _ ?_ fun t ht r _ => ?_
    · exact ((State.KeepsSeqs.refl hwwf).bumpGrp _ _ (by decide)).bumpGrp _ _ (by decide)
    · split
      · exact ht.answer _ _ _ _ _ _
      · exact ht.answer _ _ _ _ _ _
      · exact ht
  generalize Result.mk _ _ _ _ = r
  have hall := hkeep.of_sends ((State.Sends.refl hkeep.bytes.wf).finish l r)
  refine ⟨fun x hx => State.finish_gone hkeep.bytes.wf l r hx, ?_, hall.clock.trans hwclock⟩
  rw [hall.bytes.fld hwwf fun b _ _ => by simp only [seqByte, grpBase, Grp.lastSeq] at *; omega, hmoved]

/-! ### A reduction whose deadline is reached -/

theorem State.instOf_spec {s : State} {group channel seq : Nat} {l : Live} {i : Inst}
    (h : s.instOf group channel seq = some (l, i)) : l ∈ s.q.live ∧ l.phase = .inst i ∧ l.desc.group.toNat = group ∧
      l.desc.channel.toNat = channel ∧ l.desc.seq.toNat = seq := by
  obtain ⟨l', hl, hfound⟩ := List.exists_of_findSome?_eq_some h
  split at hfound
  · next i' hphase =>
    split at hfound
    · next hnames =>
      cases hfound
      exact ⟨hl, hphase, hnames⟩
    · cases hfound
  · cases hfound

/-- An outstanding descriptor is found by its number, which no other has. -/
theorem State.instById_of_mem {s : State} {l : Live} {i : Inst} (hids : (s.q.live.map fun l => l.id).Nodup)
    (hl : l ∈ s.q.live) (hphase : l.phase = .inst i) : s.instById l.id = some (l, i) := by
  unfold State.instById
  generalize s.q.live = ls at hids hl
  induction ls with
  | nil => cases hl
  | cons x xs ih =>
    rw [List.map_cons, List.nodup_cons] at hids
    rw [List.findSome?_cons]
    rcases List.mem_cons.mp hl with rfl | hl'
    · rw [hphase]
      simp
    · have hne : x.id ≠ l.id := fun he => hids.1 (he ▸ List.mem_map_of_mem hl')
      split
      · next y hy =>
        split at hy
        · rw [if_neg hne] at hy
          cases hy
        · cases hy
      · exact ih hids.2 hl'

section
variable {s : State} {id : Nat} {l : Live} {i : Inst} (hfind : s.instById id = some (l, i)) (hpend : i.pend = [])
include hfind hpend

/-- Nothing that waits its turn is summed where nothing waits (R184). -/
theorem State.drain_nothing (all : Bool) (rs : List Nat) : State.drain id all rs s = s := by
  induction rs with
  | nil => rfl
  | cons r rs ih =>
    unfold State.drain
    rw [hfind]
    dsimp only
    rw [hpend, ih]
    simp

/-- At its deadline a reduction closes (R185). -/
theorem State.closeCheck_due (hne : i.deadline ≠ 0) (hdue : i.deadline ≤ s.now) : s.closeCheck id = s.closeInst l i := by
  unfold State.closeCheck
  rw [hfind]
  dsimp only
  rw [State.drain_nothing hfind hpend, hfind, if_pos (And.intro hne hdue)]
  split <;> rfl

/-- A reduction at its deadline for which nothing waits closes, once its Abutments may work (R185). -/
theorem State.serve_due (hin : s.q.inbound = []) (hfree : s.instFree i = true) (hne : i.deadline ≠ 0)
    (hdue : i.deadline ≤ s.now) : s.serve id = s.closeInst l i := by
  have hwants : s.wantsPier i [] = false := by simp [State.wantsPier, hpend]
  have hsame : ({ s with q := { s.q with inbound := [] } } : State) = s := by rw [← hin]
  unfold State.serve
  rw [hfind]
  dsimp only
  rw [hin, List.filter_nil, hwants, hfree, if_neg (by decide), List.filter_nil, hsame, List.foldl_nil,
    State.drain_nothing hfind hpend, State.closeCheck_due hfind hpend hne hdue]

end

/-- Settles O36. -/
theorem deadlineClosesItsInstance : Obligations.DeadlineClosesItsInstance := by
  unfold Obligations.DeadlineClosesItsInstance
  intro s group channel seq hup hwf hids
  have hexec : exec (.deadline group channel seq) s = .next (deadlineReached group channel seq s) :=
    congrArg _ (if_pos hup)
  rw [hexec]
  unfold deadlineReached
  refine ⟨fun hnone => by rw [hnone], fun l i hsome => ?_⟩
  rw [hsome]
  obtain ⟨hl, hphase, hgroup, hchannel, hseq⟩ := State.instOf_spec hsome
  refine ⟨fun hzero => congrArg _ (if_pos hzero), fun hne hdue hfree hchan hin hpend => ?_⟩
  have hfind : (s.reach i.deadline).instById l.id = some (l, i) := State.instById_of_mem hids.1 hl hphase
  obtain ⟨hgone, hmoved, hclock⟩ := State.closeInst_closes (s := s.reach i.deadline) hwf l i (hchannel ▸ hchan)
  rw [hgroup, hchannel, hseq] at hmoved
  refine ⟨_, congrArg _ ((if_neg hne).trans (State.serve_due hfind hpend hin hfree hne hdue)), hgone, hmoved, ?_⟩
  rw [hclock]
  rfl

end Sys2Proof.Machine
end

section
/-! RELAY (R194, R195): when it ends at once, when it waits, and a message of one packet that is already held. -/

namespace Sys2Proof.Machine

/-! ### The contexts that it reads -/

/-- Connections whose entries are good are usable, and their checks change nothing (R31). -/
theorem State.useConns_clean {s : State} (l : List Nat) (h : s.cleanTables = true) : s.useConns l = (true, s) := by
  unfold State.useConns
  induction l with
  | nil => rfl
  | cons c l ih =>
    rw [List.foldl_cons, State.ctxUse_clean _ _ h]
    exact ih

/-! ### The branches of its start -/

section
variable {l : Live} {u : State}

theorem startRelay_misaligned (h : (relayOps l.desc).dst % 64 ≠ 0) (hclean : u.cleanTables = true) :
    startRelay l u = u.endWith l 0x23 := by
  unfold startRelay
  dsimp only
  rw [State.useConns_clean _ hclean]
  exact if_pos h

variable (hdst : (relayOps l.desc).dst % 64 = 0) (hclean : u.cleanTables = true)
include hdst hclean

theorem startRelay_inEnded (h : u.connState (relayOps l.desc).inConn = 3) :
    startRelay l u = u.endWith l (u.fld (connBase (relayOps l.desc).inConn) Conn.endStatus) := by
  unfold startRelay
  dsimp only
  rw [State.useConns_clean _ hclean]
  dsimp only
  rw [if_neg (not_not_intro hdst), if_neg (by decide), if_pos h]

variable (hin : u.connState (relayOps l.desc).inConn ≠ 3)
include hin

theorem startRelay_outEnded (hfwd : (relayOps l.desc).fwd = true) (h : u.connState (relayOps l.desc).outConn = 3) :
    startRelay l u = u.endWith l (u.fld (connBase (relayOps l.desc).outConn) Conn.endStatus) := by
  unfold startRelay
  dsimp only
  rw [State.useConns_clean _ hclean]
  dsimp only
  rw [if_neg (not_not_intro hdst), if_neg (by decide), if_neg hin, if_pos hfwd, if_pos h]

variable (hout : (relayOps l.desc).fwd = true → u.connState (relayOps l.desc).outConn ≠ 3)
include hout

/-- With both connections at hand it takes a message that is held, or what has arrived of one. -/
theorem startRelay_takes : startRelay l u =
    match u.q.msgs.find? fun h =>
      decide (h.conn = (relayOps l.desc).inConn ∧ h.channel = l.desc.channel.toNat ∧ h.seq = l.desc.seq.toNat) with
    | some h => (u.setRelay l.id ⟨false, false, false⟩).takeHeld l h
    | none => (u.setRelay l.id ⟨false, false, false⟩).takeWaiting l
        (u.waitingPkts (relayOps l.desc).inConn l.desc.channel.toNat l.desc.seq.toNat) := by
  have hgood : (if (relayOps l.desc).fwd = true then
      (if u.connState (relayOps l.desc).outConn = 3 then
        some (u.fld (connBase (relayOps l.desc).outConn) Conn.endStatus) else none)
      else none) = none := by
    split
    · next hfwd => exact if_neg (hout hfwd)
    · rfl
  unfold startRelay
  dsimp only
  rw [State.useConns_clean _ hclean]
  dsimp only
  rw [if_neg (not_not_intro hdst), if_neg (by decide), if_neg hin, hgood]
  rfl

end

/-! ### A message of one packet that is held -/

/-- A RELAY's phase is all that is replaced. -/
theorem State.setRelay_keeps (s : State) (id : Nat) (r : Relaying) : (s.setRelay id r).regs = s.regs ∧
    (s.setRelay id r).mem = s.mem ∧ (s.setRelay id r).q.msgs = s.q.msgs ∧ (s.setRelay id r).x = s.x :=
  ⟨rfl, rfl, rfl, rfl⟩

/-- Host memory lies outside the queue island. -/
theorem State.mem_of_queues (s : State) (q : QState) : ({ s with q := q } : State).mem = s.mem := rfl

/-- The outstanding descriptor of a number. -/
def State.liveAt (s : State) (id : Nat) : Option Live := s.q.live.find? fun l => l.id == id

/-- A descriptor is found by its number in its new phase. -/
theorem State.liveAt_setPhase {s : State} {id : Nat} {l : Live} (p : Phase) (h : s.liveAt id = some l) :
    (s.setPhase id p).liveAt id = some { l with phase := p } := by
  have hid : l.id = id := by simpa using List.find?_some h
  have hkeeps : ((fun x : Live => x.id == id) ∘ fun x : Live => if x.id = id then { x with phase := p } else x) =
      fun x : Live => x.id == id := by
    funext x
    dsimp only [Function.comp]
    split <;> rfl
  unfold State.liveAt at h
  rw [State.liveAt, State.setPhase, List.find?_map, hkeeps, h, Option.map_some, if_pos hid]

section
variable {s : State} {l : Live} {r : Relaying} {p : Packet}

theorem State.forwardBad_local (s : State) (h : (relayOps l.desc).fwd = false) : s.forwardBad l = none :=
  if_neg (Bool.eq_false_iff.mp h)

/-- A packet that is not forwarded is placed at DST_ADDR (R195, R266). -/
theorem State.relayPlace_local (hfwd : (relayOps l.desc).fwd = false) : s.relayPlace l r p =
    (s.wrP p.poison ((relayOps l.desc).dst + offOf p) p.payload).setRelay l.id
      { r with begun := true, poison := r.poison || p.poison } := by
  unfold State.relayPlace
  dsimp only
  rw [State.forwardBad_local _ hfwd, ite_self, hfwd]
  rfl

theorem State.relayAll_single {id : Nat} (h : s.liveAt id = some l) (hphase : l.phase = .relay r) :
    s.relayAll id [p] = s.relayPlace l r p := by
  unfold State.liveAt at h
  rw [State.relayAll, List.foldl_cons, List.foldl_nil, h]
  dsimp only
  rw [hphase]

/-- A RELAY whose message is complete here, and of which nothing is still to be forwarded, completes (R195). -/
theorem State.relayDone_local {id : Nat} (h : s.liveAt id = some l) (hphase : l.phase = .relay r)
    (hout : ∀ m ∈ s.x.out, m.live ≠ some id) : s.relayDone id =
      (s.setRelay id { r with done := true }).endWith { l with phase := .relay { r with done := true } }
        (if r.poison then 0x50 else 0) := by
  have hfound := State.liveAt_setPhase (.relay { r with done := true }) h
  have hnone : (s.x.out.any fun m => m.live == some id) = false :=
    List.any_eq_false.mpr fun m hm => by simpa using hout m hm
  unfold State.liveAt at h hfound
  rw [State.relayDone, h]
  dsimp only
  rw [hphase]
  dsimp only
  rw [State.relayCheck, State.setRelay, hfound]
  dsimp only
  rw [show (s.setPhase id (.relay { r with done := true })).x.out = s.x.out from rfl, hnone]
  exact if_pos rfl

/-- A held message longer than CAP is discarded, and ends the RELAY (R195). -/
theorem State.takeHeld_tooLong {h : HeldMsg} (hp : h.pkts = [p]) (hcap : (relayOps l.desc).cap < msgLen p) :
    ∃ v : State, s.takeHeld l h = v.endWith l 0x23 ∧ v.q.msgs = s.q.msgs.erase h ∧ v.mem = s.mem := by
  refine ⟨{ s with q := { s.q with msgs := s.q.msgs.erase h } }, ?_, rfl, s.mem_of_queues _⟩
  unfold State.takeHeld
  rw [hp]
  exact if_pos hcap

/-- A held message of one packet that fits and is not forwarded is placed whole, and the RELAY completes (R175, R195). -/
theorem State.takeHeld_local {h : HeldMsg} (hp : h.pkts = [p]) (hcap : msgLen p ≤ (relayOps l.desc).cap)
    (hfwd : (relayOps l.desc).fwd = false) (hctr : p.ctrEn = false)
    (hlive : s.liveAt l.id = some { l with phase := .relay ⟨false, false, false⟩ })
    (hout : ∀ m ∈ s.x.out, m.live ≠ some l.id) :
    ∃ (v : State) (k : Live), s.takeHeld l h = v.finish k ⟨if p.poison then 0x50 else 0, 0, 0, none⟩ ∧
      k.id = l.id ∧ k.desc = l.desc ∧ v.regs = s.regs ∧
      v.mem = s.mem.writeN ((relayOps l.desc).dst + offOf p) p.payload ∧ v.q.msgs = s.q.msgs.erase h := by
  generalize hu : ({ s with q := { s.q with msgs := s.q.msgs.erase h } } : State) = u
  have hulive : u.liveAt l.id = some { l with phase := .relay ⟨false, false, false⟩ } := hu ▸ hlive
  obtain ⟨g, hg⟩ := u.wrP_effect p.poison ((relayOps l.desc).dst + offOf p) p.payload
  generalize hw : u.wrP p.poison ((relayOps l.desc).dst + offOf p) p.payload = w at hg
  have hwlive : w.liveAt l.id = some { l with phase := .relay ⟨false, false, false⟩ } := by
    rw [hg]
    exact hulive
  have hplaced : (w.setRelay l.id ⟨true, p.poison, false⟩).liveAt l.id =
      some { l with phase := .relay ⟨true, p.poison, false⟩ } :=
    State.liveAt_setPhase (l := { l with phase := .relay ⟨false, false, false⟩ }) _ hwlive
  have hraise (v : State) (c esn : Nat) : v.raiseFor c esn p = v := by simp [State.raiseFor, hctr]
  have hwout : (w.setRelay l.id ⟨true, p.poison, false⟩).x.out = s.x.out := by
    rw [hg, ← hu]
    rfl
  have hdone := State.relayDone_local hplaced rfl (hwout ▸ hout)
  refine ⟨(w.setRelay l.id ⟨true, p.poison, false⟩).setRelay l.id ⟨true, p.poison, true⟩,
    { l with phase := .relay ⟨true, p.poison, true⟩ }, ?_, rfl, rfl, ?_, ?_, ?_⟩
  · unfold State.takeHeld
    rw [hp]
    dsimp only
    rw [if_neg (Nat.not_lt.mpr hcap), State.forwardBad_local _ hfwd]
    dsimp only
    rw [List.getLast?_singleton]
    dsimp only
    rw [hu, State.relayAll_single hulive rfl,
      State.relayPlace_local (l := { l with phase := .relay ⟨false, false, false⟩ }) hfwd]
    dsimp only
    rw [hw, hraise, Bool.false_or]
    exact hdone
  · rw [hg, ← hu]
    rfl
  · rw [hg, ← hu]
    rfl
  · rw [hg, ← hu]
    rfl

end

/-! ### O33 -/

theorem exec_relay_goes {s : State} {d : Desc} (hgo : s.goes 0x44 d = true) :
    exec (.relay d) s = .next (startRelay (s.begun 0x44 d).1 (s.begun 0x44 d).2) := by
  rw [exec_relay, execRelay, State.runDesc_goes _ hgo]

/-- A descriptor just dispatched is found by its number: no other has it. -/
theorem State.liveAt_begun {s : State} (op : Nat) (d : Desc) (h : s.idsOk) :
    (s.begun op d).2.liveAt (s.begun op d).1.id = some (s.begun op d).1 := by
  obtain ⟨hid, -, -, -, -, -, hlive, -⟩ := s.begun_leaves op d
  have hnone : s.q.live.find? (fun x => x.id == (s.begun op d).1.id) = none :=
    List.find?_eq_none.mpr fun x hx => by
      have := h.2 x hx
      rw [hid]
      simp only [beq_iff_eq]
      omega
  rw [State.liveAt, hlive, List.find?_append, hnone, Option.none_or, List.find?_singleton, if_pos (beq_self_eq_true _)]

/-- Settles O33. -/
theorem relayWaitsOrPlacesItsMessage : Obligations.RelayWaitsOrPlacesItsMessage := by
  unfold Obligations.RelayWaitsOrPlacesItsMessage
  intro s d hgo hwf hids hclean
  have hb := s.begins 0x44 d hwf
  have hexec := exec_relay_goes hgo
  have hfound := State.liveAt_begun 0x44 d hids
  obtain ⟨-, -, hdesc, -, -, -, -, -, -, -, hframe⟩ := s.begun_leaves 0x44 d
  replace hdesc : (s.begun 0x44 d).1.desc = d := hdesc
  have hmsgs : (s.begun 0x44 d).2.q.msgs = s.q.msgs := by rw [hframe]
  have hx : (s.begun 0x44 d).2.x = s.x := by rw [hframe]
  have hmem : (s.begun 0x44 d).2.mem = s.mem := by rw [hframe]
  have hcl : (s.begun 0x44 d).2.cleanTables = true := hb.cleanTables.trans hclean
  have hstate (c : Nat) : (s.begun 0x44 d).2.connState c = s.connState c := hb.tables.conn c Conn.state
  have hend (c : Nat) : (s.begun 0x44 d).2.fld (connBase c) Conn.endStatus = s.fld (connBase c) Conn.endStatus :=
    hb.tables.conn c Conn.endStatus
  have hregs : s.regsIn (s.begun 0x44 d).2 (fun n => n == 7) := State.regsIn_of_regsBut hb.regs (by decide)
  generalize (s.begun 0x44 d).1 = l at hexec hfound hdesc ⊢
  generalize (s.begun 0x44 d).2 = u at hexec hfound hmsgs hx hmem hcl hstate hend hregs ⊢
  subst hdesc
  intro _ _ o held
  have hstart (hdst : o.dst % 64 = 0) (hin : s.connState o.inConn ≠ 3)
      (hout : o.fwd = true → s.connState o.outConn ≠ 3) :=
    startRelay_takes hdst hcl (hstate o.inConn ▸ hin) fun hfwd => hstate o.outConn ▸ hout hfwd
  obtain ⟨hrregs, hrmem, hrmsgs, hrx⟩ := u.setRelay_keeps l.id ⟨false, false, false⟩
  have hset : (u.setRelay l.id ⟨false, false, false⟩).liveAt l.id = _ :=
    State.liveAt_setPhase (.relay ⟨false, false, false⟩) hfound
  refine ⟨fun hdst => ?_, fun hdst hin => ?_, fun hdst hin hout hnone hwait => ?_, fun hdst hin hfwd hout => ?_,
    fun h p hdst hin hout hheld hp hcap => ?_, fun h p hdst hin hfwd hheld hp hcap hctr hmwf hfree => ?_⟩
  · rw [hexec, startRelay_misaligned hdst hcl]
    rfl
  · rw [hexec, startRelay_inEnded hdst hcl ((hstate _).trans hin), hend]
    rfl
  · rw [hexec, hstart hdst hin hout, hmsgs, show List.find? _ s.q.msgs = none from hnone]
    dsimp only
    rw [State.waitingPkts, hx, ← State.waitingPkts, hwait]
    rfl
  · rw [hexec, startRelay_outEnded hdst hcl (hstate o.inConn ▸ hin) hfwd ((hstate _).trans hout), hend]
    rfl
  · rw [hexec, hstart hdst hin hout, hmsgs, show List.find? _ s.q.msgs = some h from hheld]
    dsimp only
    obtain ⟨v, htake, hvmsgs, hvmem⟩ := State.takeHeld_tooLong (s := u.setRelay l.id ⟨false, false, false⟩) hp hcap
    exact ⟨v, congrArg _ htake, by rw [hvmsgs, hrmsgs, hmsgs], by rw [hvmem, hrmem, hmem]⟩
  · have hno : o.fwd = true → s.connState o.outConn ≠ 3 := fun hyes => absurd (hfwd.symm.trans hyes) (by decide)
    rw [hexec, hstart hdst hin hno, hmsgs, show List.find? _ s.q.msgs = some h from hheld]
    dsimp only
    obtain ⟨v, k, htake, hkid, hkdesc, hvregs, hvmem, hvmsgs⟩ :=
      State.takeHeld_local (s := u.setRelay l.id ⟨false, false, false⟩) (h := h) hp hcap hfwd hctr hset
        (by rw [hrx, hx]; exact hfree)
    rw [hrmem, hmem] at hvmem
    refine ⟨v, k, congrArg _ htake, hkid, hkdesc, fun a ha => ?_, ?_, fun b hb => ?_, by rw [hvmsgs, hrmsgs, hmsgs]⟩
    · rw [← hregs a ha, State.reg, State.reg, hvregs, hrregs]
    · rw [State.rd, hvmem]
      exact Memory.readN_writeN _ _ hmwf
    · rw [hvmem]
      exact Memory.read_writeN_other hmwf hb

end Sys2Proof.Machine
end

section
/-! What acknowledging a packet and answering one (R262, R267) leave of the machine: all but the sending side of the
connection, and an answer given to a connection that is UP waits there or has gone. -/

namespace Sys2Proof.Machine

/-! ### Packets given to the Deck -/

/-- The bytes of a connection's entry that sending changes: its sending side, the acknowledgement space and PHASE_CNT
(R249). -/
def txByte (b : Nat) : Prop := 0x1000000 ≤ b ∧ (0x26 ≤ b % 256 ∧ b % 256 < 0x40 ∨ 0x70 ≤ b % 256)

/-- The bytes of a connection's entry that hold RX_EXP and the placement map of either stream (R249). -/
def windowByte (b : Nat) : Prop := 0x1000000 ≤ b ∧ 0x40 ≤ b % 256 ∧ b % 256 < 0x70

/-- What a packet of the acknowledgement space sent may change: the transport's notes on its connections, the sending side
of a connection, the Deck, and registers other than the counts of violations and of NAKs for want of room. -/
structure State.Acks (s t : State) : Prop where
  frame : t = { s with
    regs := t.regs, irqOut := t.irqOut, ctx := t.ctx, x := { s.x with conns := t.x.conns }, deck := t.deck }
  bytes : s.Holds (fun b => ¬ txByte b) t
  regs : ∀ a ∈ [R.rmaViol, R.rmaRnrTx], t.reg a = s.reg a
  stat : s.regBit (R.hdrIrqStat 0x70) 3 = true → t.regBit (R.hdrIrqStat 0x70) 3 = true

section
variable {o s t : State}

theorem State.Acks.refl (h : s.ctx.wf = true) : s.Acks s := ⟨rfl, .refl h, fun _ _ => rfl, id⟩

theorem State.Acks.trans (h : o.Acks s) (h' : s.Acks t) : o.Acks t :=
  ⟨by rw [h'.frame, h.frame], h.bytes.trans h'.bytes, fun a ha => (h'.regs a ha).trans (h.regs a ha),
    fun hs => h'.stat (h.stat hs)⟩

theorem State.Acks.of_regs (h : o.Acks s) (ht : t = { s with regs := t.regs, irqOut := t.irqOut })
    (hregs : ∀ a ∈ [R.rmaViol, R.rmaRnrTx], t.reg a = s.reg a)
    (hstat : s.regBit (R.hdrIrqStat 0x70) 3 = true → t.regBit (R.hdrIrqStat 0x70) 3 = true) : o.Acks t :=
  h.trans ⟨by rw [ht], (State.Holds.refl h.bytes.wf).of_ctx (by rw [ht]), hregs, hstat⟩

/-- Registers written that are not among those that stay. -/
theorem State.Acks.of_regsBut (h : o.Acks s) (ht : t = { s with regs := t.regs, irqOut := t.irqOut }) {l : List Nat}
    (hregs : s.regsBut t l) (hl : ∀ a ∈ [R.rmaViol, R.rmaRnrTx, R.hdrIrqStat 0x70], a ∉ l) : o.Acks t := by
  refine h.of_regs ht (fun a ha => hregs a (hl a ?_)) fun hs => ?_
  · simp only [List.mem_cons, List.not_mem_nil, or_false] at ha ⊢
    exact ha.elim .inl fun h => .inr (.inl h)
  · rw [State.regBit, hregs _ (hl _ (by simp))]
    exact hs

theorem State.Acks.bump (h : o.Acks s) {a : Nat} (n : Nat) (ha : a ∉ [R.rmaViol, R.rmaRnrTx, R.hdrIrqStat 0x70]) :
    o.Acks (s.bump a n) := by
  obtain ⟨r, hr⟩ := s.bump_effect a n
  exact h.of_regsBut (by rw [hr]) (s.regsBut_bump n List.mem_cons_self) (l := [a]) fun b hb hm =>
    ha (List.mem_singleton.mp hm ▸ hb)

theorem State.Acks.bump64 (h : o.Acks s) {a : Nat} (n : Nat)
    (ha : ∀ b ∈ [R.rmaViol, R.rmaRnrTx, R.hdrIrqStat 0x70], a ≠ b ∧ a + 4 ≠ b) : o.Acks (s.bump64 a n) := by
  obtain ⟨r, hr⟩ := s.bump64_effect a n
  refine h.of_regsBut (l := [a, a + 4]) (by rw [hr]) (fun b hb => ?_) fun b hb hm => ?_
  · simp only [List.mem_cons, List.not_mem_nil, or_false, not_or] at hb
    exact s.reg_bump64_other n (Ne.symm hb.1) (Ne.symm hb.2)
  · obtain ⟨hlo, hhi⟩ := ha b hb
    simp only [List.mem_cons, List.not_mem_nil, or_false] at hm
    exact hm.elim (fun h => hlo h.symm) fun h => hhi h.symm

theorem State.Acks.setReg (h : o.Acks s) {a : Nat} (v : Nat) (ha : a ∉ [R.rmaViol, R.rmaRnrTx, R.hdrIrqStat 0x70]) :
    o.Acks (s.setReg a v) :=
  h.of_regsBut rfl (s.regsBut_setReg v List.mem_cons_self) (l := [a]) fun _ hb hm => ha (List.mem_singleton.mp hm ▸ hb)

/-- An interrupt raised on a page: causes already there stay (R374). -/
theorem State.Acks.raiseIrq (h : o.Acks s) {page mask : Nat} (hm : mask < 2 ^ 32)
    (hp : ∀ a ∈ [R.rmaViol, R.rmaRnrTx], a ∉ irqRegs page)
    (hstat : page = 0x70 ∨ R.hdrIrqStat 0x70 ∉ irqRegs page) : o.Acks (s.raiseIrq page mask) := by
  obtain ⟨r, i, hr⟩ := s.raiseIrq_effect page mask
  have hregs := s.raiseIrq_regsBut page mask
  refine h.of_regs (by rw [hr]) (fun a ha => hregs a (hp a ha)) fun hs => ?_
  rcases hstat with rfl | hstat
  · rw [State.regBit] at hs ⊢
    rw [State.reg_raiseIrq_stat _ hm, Nat.testBit_or, hs, Bool.true_or]
  · rw [State.regBit, hregs _ hstat]
    exact hs

theorem State.Acks.of_x (h : o.Acks s) (ht : t = { s with x := { s.x with conns := t.x.conns }, deck := t.deck }) :
    o.Acks t :=
  h.trans ⟨by rw [ht], (State.Holds.refl h.bytes.wf).of_ctx (by rw [ht]), fun a _ => by rw [ht]; rfl,
    fun hs => by rw [ht]; exact hs⟩

theorem State.Acks.setConnX (h : o.Acks s) (c : Nat) (f : ConnX → ConnX) : o.Acks (s.setConnX c f) := h.of_x rfl

/-- A field of a connection's sending side. -/
theorem State.Acks.setTxFld (h : o.Acks s) (c : Nat) {f : Fld} (v : Nat)
    (hf : 0x26 ≤ f.off ∧ f.off + f.len ≤ 0x40 ∨ 0x70 ≤ f.off ∧ f.off + f.len ≤ 256) :
    o.Acks (s.setFld (connBase c) f v) :=
  h.trans ⟨rfl, (State.Holds.refl h.bytes.wf).setFld _ _ _ fun b _ _ => by unfold txByte connBase at *; omega,
    fun _ _ => rfl, id⟩

theorem State.Acks.rekeyCheck (h : o.Acks s) (c : Nat) : o.Acks (s.rekeyCheck c) := by
  unfold State.rekeyCheck
  dsimp only
  split
  · exact (h.setTxFld c 1 (by decide)).raiseIrq (by decide) (by decide) (.inl rfl)
  · exact h

theorem State.Acks.countSent (h : o.Acks s) (c : Nat) : o.Acks (s.countSent c) := by
  have hcount := h.bump64 (a := R.rmaPktTxLo) 1 (by decide)
  unfold State.countSent
  dsimp only
  by_cases hlast : ((s.bump64 R.rmaPktTxLo).connX c).pkts + 1 < 65536
  · rw [if_pos hlast]
    exact hcount.setConnX c _
  · rw [if_neg hlast]
    exact ((hcount.setConnX c _).setTxFld c _ (by decide)).rekeyCheck c

theorem State.Acks.enqueue (h : o.Acks s) (f : Frame) : o.Acks (s.enqueue f) := by
  unfold State.enqueue
  dsimp only
  split
  · exact (h.bump (a := R.deckCeMarked) 1 (by decide)).of_x rfl
  · exact h.of_x rfl

theorem State.Acks.emit (h : o.Acks s) (p : Packet) : o.Acks (s.emit p) := by
  unfold State.emit State.route
  dsimp only
  split
  · exact h.enqueue _
  · split
    · exact ((h.bump (a := R.deckNoroute) 1 (by decide)).setReg _ (by decide)).raiseIrq (by decide) (by decide)
        (.inr (by decide))
    · exact h.enqueue _

theorem State.Acks.sendSpace (h : o.Acks s) (c : Nat) (p : Packet) : o.Acks (s.sendSpace c p) := by
  unfold State.sendSpace
  dsimp only
  split
  · exact h
  · split
    · exact h
    · exact ((h.setTxFld c _ (by decide)).countSent c).emit _

/-- An acknowledgement sent (R267). -/
theorem State.Acks.sendAck (h : o.Acks s) (c : Nat) (control : Bool) : o.Acks (s.sendAck c control) := by
  unfold State.sendAck
  dsimp only
  split
  · exact h
  · exact (h.sendSpace c _).setConnX c _

theorem State.Acks.setGap (h : o.Acks s) (c : Nat) (control on : Bool) : o.Acks (s.setGap c control on) :=
  h.setConnX c _

theorem State.Acks.q (h : o.Acks s) : s.q = o.q := by rw [h.frame]

theorem State.Acks.mem (h : o.Acks s) : s.mem = o.mem := by rw [h.frame]

theorem State.Acks.out (h : o.Acks s) : s.x.out = o.x.out := by rw [h.frame]

theorem State.Acks.kept (h : o.Acks s) : s.x.kept = o.x.kept := by rw [h.frame]

end

/-! ### Answers -/

/-- What giving an answer to its connection may change: what acknowledging may, and the messages that wait or are kept. -/
structure State.Answers (s t : State) : Prop where
  frame : t = { s with
    regs := t.regs, irqOut := t.irqOut, ctx := t.ctx, deck := t.deck
    x := { s.x with conns := t.x.conns, out := t.x.out, kept := t.x.kept, lastChannels := t.x.lastChannels } }
  bytes : s.Holds (fun b => ¬ txByte b) t
  regs : ∀ a ∈ [R.rmaViol, R.rmaRnrTx], t.reg a = s.reg a

/-- A message that answers a request or a message: READ_RESP or RESP, of no descriptor (R262, R263). -/
structure OutMsg.IsAnswer (m : OutMsg) : Prop where
  live : m.live = none
  op : m.op = 0x03 ∨ m.op = 0x12
  psn : m.reqPsn < 2 ^ 24

/-- An answer with an opcode to a packet number waits alone on its connection, or its last packet is kept and nothing
waits. -/
def State.answering (t : State) (c : Nat) (op : Byte) (psn : Nat) : Prop :=
  (∃ m, t.x.out = [m] ∧ m.IsAnswer ∧ m.conn = c ∧ m.op = op.toNat ∧ m.reqPsn = psn) ∨
  (t.x.out = [] ∧ ∃ k ∈ t.x.kept, k.conn = c ∧ k.pkt.opcode = op ∧ k.pkt.g0.toNat = psn)

section
variable {o s t : State}

theorem State.Answers.refl (h : s.ctx.wf = true) : s.Answers s := ⟨rfl, .refl h, fun _ _ => rfl⟩

theorem State.Answers.trans (h : o.Answers s) (h' : s.Answers t) : o.Answers t :=
  ⟨by rw [h'.frame, h.frame], h.bytes.trans h'.bytes, fun a ha => (h'.regs a ha).trans (h.regs a ha)⟩

theorem State.Acks.answers (h : s.Acks t) : s.Answers t := ⟨by rw [h.frame], h.bytes, h.regs⟩

theorem State.Answers.q (h : o.Answers s) : s.q = o.q := by rw [h.frame]

theorem State.Answers.mem (h : o.Answers s) : s.mem = o.mem := by rw [h.frame]

theorem State.Answers.with_x (h : o.Answers s) (x : Xport) (hx : x = { s.x with
    conns := x.conns, out := x.out, kept := x.kept, lastChannels := x.lastChannels }) : o.Answers { s with x := x } :=
  h.trans ⟨by rw [← hx], (State.Holds.refl h.bytes.wf).of_ctx rfl, fun _ _ => rfl⟩

theorem State.answering.replied {c psn : Nat} {op : Byte} (h : t.answering c op psn) : t.replied c op psn := by
  rcases h with ⟨m, hout, -, hconn, hop, hpsn⟩ | ⟨-, k, hk⟩
  · exact .inl ⟨m, hout ▸ List.mem_singleton_self m, hconn, hop, hpsn⟩
  · exact .inr ⟨k, hk⟩

theorem State.answering.of_same {c psn : Nat} {op : Byte} (h : s.answering c op psn) (hout : t.x.out = s.x.out)
    (hkept : t.x.kept = s.x.kept) : t.answering c op psn := by
  rw [State.answering, hout, hkept]
  exact h

end

/-! ### An answer given to its connection -/

/-- A packet sealed is the packet it was, but for its payload, its tag and the key's phase (R270). -/
theorem State.sealPkt_header {s : State} {c n : Nat} {q p : Packet} {space : Bool} (h : s.sealPkt c q space n = some p) :
    p.opcode = q.opcode ∧ p.g0 = q.g0 := by
  unfold State.sealPkt at h
  dsimp only at h
  split at h
  · cases h
    exact ⟨rfl, rfl⟩
  · split at h
    · cases h
    · cases h
      exact ⟨rfl, rfl⟩

/-- The first of an answer's words is the number that it answers. -/
theorem OutMsg.words_answer {m : OutMsg} (off : Nat) (h : m.op = 0x03 ∨ m.op = 0x12) : (m.words off).1 = m.reqPsn := by
  unfold OutMsg.words
  rcases h with h | h <;> rw [h] <;> rfl

/-- A packet of a message kept until it is acknowledged, its channel served last (R197, R267). -/
def State.keeping (s : State) (m : OutMsg) (k : Kept) : State :=
  { s with x := { s.x with
    kept := s.x.kept ++ [k], lastChannels := modNth s.x.lastChannels m.prio (fun _ => m.channel) } }

/-- A packet of a message kept, numbered, counted and given to the Deck (R267). -/
def State.partSent (s : State) (m : OutMsg) (p : Packet) : State :=
  let k : Kept := { conn := m.conn, control := m.control, esn := s.fld (connBase m.conn) (txNxt m.control), pkt := p }
  (((s.keeping m k).setFld (connBase m.conn) (txNxt m.control)
    (s.fld (connBase m.conn) (txNxt m.control) + 1)).countSent m.conn).emit p

/-- A message of which one more part has been sent. -/
def OutMsg.after (m : OutMsg) (part : Nat × Bytes × Bool) : OutMsg :=
  { m with
    sent := m.sent + part.2.1.length, begun := true, poison := m.poison || part.2.2
    load := match m.load with
      | .pieces l => .pieces (l.drop 1)
      | x => x }

theorem OutMsg.IsAnswer.after {m : OutMsg} (h : m.IsAnswer) (part : Nat × Bytes × Bool) : (m.after part).IsAnswer :=
  ⟨h.live, h.op, h.psn⟩

section
variable {s : State} {m : OutMsg} {c psn : Nat} {op : Byte}

theorem State.partSent_spec (hwf : s.ctx.wf = true) (m : OutMsg) (p : Packet) :
    s.Answers (s.partSent m p) ∧ (s.partSent m p).x.out = s.x.out ∧
    ∃ k ∈ (s.partSent m p).x.kept, k.conn = m.conn ∧ k.pkt = p := by
  unfold State.partSent
  dsimp only
  generalize hk : ({ conn := m.conn, control := m.control, esn := s.fld (connBase m.conn) (txNxt m.control), pkt := p } :
    Kept) = k
  have hkeep : s.Answers (s.keeping m k) := (State.Answers.refl hwf).with_x _ rfl
  have htx : 0x26 ≤ (txNxt m.control).off ∧ (txNxt m.control).off + (txNxt m.control).len ≤ 0x40 := by
    unfold txNxt
    split <;> decide
  have hsent := (((State.Acks.refl hkeep.bytes.wf).setTxFld m.conn (s.fld (connBase m.conn) (txNxt m.control) + 1)
    (.inl htx)).countSent m.conn).emit p
  refine ⟨hkeep.trans hsent.answers, hsent.out, k, ?_, hk ▸ rfl, hk ▸ rfl⟩
  rw [hsent.kept]
  exact List.mem_append_right _ (List.mem_singleton_self k)

theorem State.noteAwait_answer (ha : m.IsAnswer) (esn : Nat) (poison : Bool) : s.noteAwait m esn poison = s := by
  unfold State.noteAwait
  rcases ha.op with h | h <;> rw [h] <;> simp

theorem State.handed_answer (ha : m.IsAnswer) : s.handed m = s := by
  have hop : ¬ m.op = 0x01 := by have := ha.op; omega
  unfold State.handed
  rw [ha.live]
  exact if_neg hop

/-- One packet of an answer sent; with the last one it leaves the messages that wait. -/
theorem State.sendPart_answer (i : Nat) (ha : m.IsAnswer) {part : Nat × Bytes × Bool} {p : Packet}
    (h : s.sealPkt m.conn { s.msgPkt m part with psn := BitVec.ofNat 24 (s.fld (connBase m.conn) (txNxt m.control)) } false
      (s.fld (connBase m.conn) (txNxt m.control)) = some p) :
    s.sendPart i m part = { s.partSent m p with x := { (s.partSent m p).x with
      out := if p.last then (s.partSent m p).x.out.eraseIdx i
        else modNth (s.partSent m p).x.out i fun _ => m.after part } } := by
  unfold State.sendPart
  dsimp only
  rw [h]
  dsimp only
  rw [State.noteAwait_answer ha]
  split
  · exact State.handed_answer (ha.after part)
  · rfl

/-- The one message that waits is the next of its stream, or that stream sends nothing. -/
theorem State.nextMsg_single {control : Bool} {r : Nat × OutMsg} (hout : s.x.out = [m])
    (h : s.nextMsg c control = some r) : r = (0, m) := by
  unfold State.nextMsg at h
  rw [hout] at h
  by_cases hon : (m.conn == c && m.control == control) = true
  · cases hb : m.begun <;> simpa [hon, hb, eq_comm] using h
  · simp [hon] at h

theorem State.nextMsg_nil {control : Bool} (hout : s.x.out = []) : s.nextMsg c control = none := by
  unfold State.nextMsg
  rw [hout]
  rfl

/-- One packet of the one answer that waits sent: it still waits, or its last packet is kept (R267). -/
theorem State.sendPart_answering (hwf : s.ctx.wf = true) (hout : s.x.out = [m]) (ha : m.IsAnswer)
    (hop : m.op = op.toNat) (part : Nat × Bytes × Bool) :
    s.Answers (s.sendPart 0 m part) ∧ (s.sendPart 0 m part).answering m.conn op m.reqPsn := by
  have hwaits : s.answering m.conn op m.reqPsn := .inl ⟨m, hout, ha, rfl, hop, rfl⟩
  generalize hq : ({ s.msgPkt m part with psn := BitVec.ofNat 24 (s.fld (connBase m.conn) (txNxt m.control)) } : Packet) = q
  cases hseal : s.sealPkt m.conn q false (s.fld (connBase m.conn) (txNxt m.control)) with
  | none =>
    have hstay : s.sendPart 0 m part = s := by
      unfold State.sendPart
      dsimp only
      rw [hq, hseal]
    rw [hstay]
    exact ⟨.refl hwf, hwaits⟩
  | some p =>
    obtain ⟨hpop, hpg⟩ := State.sealPkt_header hseal
    have hg : p.g0.toNat = m.reqPsn := by
      have := ha.psn
      rw [hpg, ← hq]
      exact (congrArg (· % 2 ^ 32) (OutMsg.words_answer part.1 ha.op)).trans (Nat.mod_eq_of_lt (by omega))
    have hopcode : p.opcode = op := by
      rw [hpop, ← hq]
      exact BitVec.eq_of_toNat_eq ((congrArg (· % 2 ^ 8) hop).trans (Nat.mod_eq_of_lt op.isLt))
    obtain ⟨hans, hout', k, hk, hkconn, hkpkt⟩ := State.partSent_spec hwf m p
    rw [State.sendPart_answer 0 ha (hq ▸ hseal), hout'.trans hout]
    refine ⟨hans.with_x _ rfl, ?_⟩
    cases p.last with
    | true => exact .inr ⟨rfl, k, hk, hkconn, hkpkt ▸ hopcode, hkpkt ▸ hg⟩
    | false => exact .inl ⟨m.after part, rfl, ha.after part, rfl, hop, rfl⟩

/-- Packets of one answer sent while nothing holds them (R263, R267). -/
theorem State.pumpStream_answering (c' : Nat) (control : Bool) (n : Nat) (hwf : s.ctx.wf = true)
    (h : s.answering c op psn) :
    s.Answers (State.pumpStream c' control n s) ∧ (State.pumpStream c' control n s).answering c op psn := by
  induction n generalizing s with
  | zero => exact ⟨.refl hwf, h⟩
  | succ n ih =>
    have hstay : s.Answers s ∧ s.answering c op psn := ⟨.refl hwf, h⟩
    unfold State.pumpStream
    rcases h with ⟨m, hout, ha, hconn, hop, hpsn⟩ | ⟨hout, -⟩
    · split
      · exact hstay
      · next i m' hnext =>
        obtain ⟨rfl, rfl⟩ := Prod.mk.inj (State.nextMsg_single hout hnext)
        split
        · exact hstay
        · next part _ =>
          split
          · obtain ⟨hans, hsent⟩ := State.sendPart_answering hwf hout ha hop part
            rw [hconn, hpsn] at hsent
            obtain ⟨hans', hsent'⟩ := ih hans.bytes.wf hsent
            exact ⟨hans.trans hans', hsent'⟩
          · exact hstay
    · rw [State.nextMsg_nil hout]
      exact hstay

/-- An answer given to a connection that is UP waits there, or has gone (R262, R263). -/
theorem State.post_answering (hwf : s.ctx.wf = true) (hout : s.x.out = []) (ha : m.IsAnswer) (hop : m.op = op.toNat)
    (hstate : s.connState m.conn = 2) (hlevel : levelAllows (s.fld (connBase m.conn) Conn.level) m.op = true) :
    s.Answers (s.post m) ∧ (s.post m).answering m.conn op m.reqPsn := by
  have hgoes : ¬ (s.connState m.conn = 3 ∨
      s.connState m.conn = 2 ∧ (!levelAllows (s.fld (connBase m.conn) Conn.level) m.op) = true) := by
    rw [hstate, hlevel]
    decide
  rw [State.post, if_neg hgoes]
  have hput : s.Answers { s with x := { s.x with out := s.x.out ++ [m] } } := (State.Answers.refl hwf).with_x _ rfl
  have hwaits : ({ s with x := { s.x with out := s.x.out ++ [m] } } : State).answering m.conn op m.reqPsn :=
    .inl ⟨m, congrArg (· ++ [m]) hout, ha, rfl, hop, rfl⟩
  obtain ⟨hctrl, hctrl'⟩ := State.pumpStream_answering m.conn true 33 hput.bytes.wf hwaits
  obtain ⟨hdata, hdata'⟩ := State.pumpStream_answering m.conn false 257 hctrl.bytes.wf hctrl'
  exact ⟨(hput.trans hctrl).trans hdata, hdata'⟩

end

/-- A connection is UP at a LEVEL that carries some packet: then it carries answers (R253). -/
def State.hearsAnswers (s : State) (c : Nat) : Prop :=
  s.connState c = 2 ∧ (s.fld (connBase c) Conn.level = 1 ∨ s.fld (connBase c) Conn.level = 2)

section
variable {s : State} {c : Nat}

theorem State.hearsAnswers.allows (h : s.hearsAnswers c) {op : Nat} (hop : op = 0x03 ∨ op = 0x12) :
    levelAllows (s.fld (connBase c) Conn.level) op = true := by
  rcases h.2 with hl | hl <;> rcases hop with rfl | rfl <;> rw [hl] <;> rfl

/-- A RESP given to its connection (R262). -/
theorem State.respond_answering (hwf : s.ctx.wf = true) (hout : s.x.out = []) (hup : s.hearsAnswers c) (psn : BitVec 24)
    (status op nf addr key : Nat) :
    s.Answers (s.respond c psn.toNat status op nf addr key) ∧
    (s.respond c psn.toNat status op nf addr key).answering c 0x12 psn.toNat := by
  have hpsn : psn.toNat % 2 ^ 24 = psn.toNat := Nat.mod_eq_of_lt psn.isLt
  unfold State.respond
  rw [hpsn]
  exact State.post_answering hwf hout ⟨rfl, .inr rfl, psn.isLt⟩ rfl hup.1 (hup.allows (.inr rfl))

end

end Sys2Proof.Machine
end

section
/-! A packet that is a message of its own and next in order on its stream (R259, R265, R267): the state in which its
message completes, and the acknowledgement after it. -/

namespace Sys2Proof.Machine

/-! ### The packet passes its checks -/

/-- A packet as its row names its opcode. -/
def asOp (op : Byte) (p : Packet) : Packet := { p with opcode := op }

/-- What a packet that is a message of its own, next in order on its stream, meets. -/
structure State.NextPacket (s : State) (op : Byte) (p : Packet) : Prop where
  up : s.up 4 = true
  good : s.badHeader (asOp op p) = false
  plain : s.flag (connBase p.conn.toNat) Conn.cipher = false
  unmarked : p.ce = false
  sound : p.poison = false
  first : p.first = true
  last : p.last = true
  stream : streamOf op.toNat = some p.stream
  answers : s.hearsAnswers p.conn.toNat
  next : extend (s.fld (connBase p.conn.toNat) (rxExp p.stream)) p.psn.toNat =
    s.fld (connBase p.conn.toNat) (rxExp p.stream)
  room : s.fld (connBase p.conn.toNat) (rxExp p.stream) + 1 < 2 ^ 48
  noGap : s.fld (connBase p.conn.toNat) (rxMap p.stream) = 0
  rx : s.x.rx = []
  out : s.x.out = []
  maxes : s.x.maxes = []
  flushes : s.x.flushes = []
  clean : s.cleanTables = true

theorem level_of_allows {level op : Nat} (h : levelAllows level op = true) : level = 1 ∨ level = 2 := by
  unfold levelAllows at h
  split at h
  · exact .inl rfl
  · exact .inr rfl
  · cases h

/-- A sequenced packet whose header is good is on the stream of its opcode, on a connection that is UP at a LEVEL that
carries it (order 1 of R259). -/
theorem State.goodHeader {s : State} {p : Packet} {t : Bool} (hstream : streamOf p.opcode.toNat = some t)
    (h : s.badHeader p = false) : p.stream = t ∧ s.hearsAnswers p.conn.toNat := by
  have hhello : ¬ p.opcode.toNat = 0x22 := fun he => by rw [he] at hstream; cases hstream
  unfold State.badHeader at h
  dsimp only at h
  rw [if_neg hhello, hstream] at h
  simp only [Bool.or_eq_false_iff, bne_eq_false_iff_eq, Bool.not_eq_false'] at h
  obtain ⟨⟨⟨⟨hlevel, -⟩, hstate⟩, -⟩, hon⟩ := h
  exact ⟨hon, hstate, level_of_allows hlevel⟩

theorem State.nextPacket {s : State} {op : Byte} {p : Packet} (h : s.inOrder op p = true) : s.NextPacket op p := by
  simp only [State.inOrder, State.hears, Bool.and_eq_true, Bool.not_eq_true', decide_eq_true_eq, beq_iff_eq,
    List.isEmpty_iff, and_assoc] at h
  obtain ⟨hup, hgood, hplain, hce, hsome, hpoison, hfirst, hlast, hnext, hroom, hmap, hrx, hout, hmaxes,
    hflushes, hclean⟩ := h
  obtain ⟨t, ht⟩ := Option.isSome_iff_exists.mp hsome
  obtain ⟨hstream, hanswers⟩ := State.goodHeader (p := asOp op p) ht hgood
  exact ⟨hup, hgood, hplain, hce, hpoison, hfirst, hlast, by rw [ht, ← hstream]; rfl, hanswers, hnext, hroom, hmap, hrx,
    hout, hmaxes, hflushes, hclean⟩

/-! ### RX_EXP moves on -/

/-- A packet that has passed orders 1 to 4 counted (R259). -/
def State.counted (s : State) (c : Nat) : State :=
  (s.setConnX c fun x => { x with seen := true }).bump64 R.rmaPktRxLo

/-- RX_EXP moved over one packet of a stream, the placement map behind it. -/
def State.movedOn (s : State) (c : Nat) (control : Bool) : State :=
  ((s.setFld (connBase c) (rxMap control) (s.fld (connBase c) (rxMap control) / 2)).setFld (connBase c) (rxExp control)
    (s.fld (connBase c) (rxExp control) + 1)).setConnX c fun x =>
      if control then { x with advC := x.advC + 1 } else { x with advD := x.advD + 1 }

/-- A packet among those that have arrived, and marked in the placement map. -/
def State.mapped (s : State) (a : Arrived) : State :=
  let u := { s with x := { s.x with rx := s.x.rx ++ [a] } }
  u.setFld (connBase a.conn) (rxMap a.control) (u.fld (connBase a.conn) (rxMap a.control) ||| 1 <<< 0)

/-- The machine in which the message of the one packet that has arrived completes. -/
def State.passes (s : State) (a : Arrived) : State :=
  let u := (s.mapped a).movedOn a.conn a.control
  { u with x := { u.x with rx := [] } }

theorem State.advance_eq (s : State) (c : Nat) (control : Bool) (n : Nat) :
    State.advance c control (n + 1) s =
      if s.fld (connBase c) (rxMap control) % 2 = 0 then (false, s)
      else match (s.movedOn c control).arrivedAt c control (s.fld (connBase c) (rxExp control)) with
        | some a =>
          if a.pkt.last then
            (true, (State.advance c control n (State.completeMsg { s.movedOn c control with
              x := { (s.movedOn c control).x with rx := (s.movedOn c control).x.rx.filter fun y =>
                !(decide (y.conn = c ∧ y.control = control ∧ y.esn ≤ s.fld (connBase c) (rxExp control))) } }
              c (s.fld (connBase c) (rxExp control)) a.pkt
              ((s.movedOn c control).msgUpTo c control (s.fld (connBase c) (rxExp control))))).2)
          else State.advance c control n (s.movedOn c control)
        | none => State.advance c control n (s.movedOn c control) := rfl

/-- The one packet that has arrived completes its message, after which nothing more is placed (R267). -/
theorem State.advance_one {s : State} {a : Arrived} (n : Nat)
    (hmap : (s.mapped a).fld (connBase a.conn) (rxMap a.control) = 1) (hrx : s.x.rx = [])
    (hesn : a.esn = (s.mapped a).fld (connBase a.conn) (rxExp a.control)) (hlast : a.pkt.last = true)
    (hstop : ((s.passes a).completeMsg a.conn a.esn a.pkt [a]).fld (connBase a.conn) (rxMap a.control) = 0) :
    State.advance a.conn a.control (n + 2) (s.mapped a) = (true, (s.passes a).completeMsg a.conn a.esn a.pkt [a]) := by
  generalize hv : (s.passes a).completeMsg a.conn a.esn a.pkt [a] = v at hstop ⊢
  have hheld : ((s.mapped a).movedOn a.conn a.control).x.rx = [a] :=
    show s.x.rx ++ [a] = [a] by rw [hrx]; rfl
  have hfound : ((s.mapped a).movedOn a.conn a.control).arrivedAt a.conn a.control a.esn = some a := by
    simp [State.arrivedAt, hheld]
  have hmsg : ((s.mapped a).movedOn a.conn a.control).msgUpTo a.conn a.control a.esn = [a] := by
    simp [State.msgUpTo, hheld, sortAsc_singleton]
  have hrest : ((s.mapped a).movedOn a.conn a.control).x.rx.filter
      (fun y => !(decide (y.conn = a.conn ∧ y.control = a.control ∧ y.esn ≤ a.esn))) = [] := by
    simp [hheld]
  have hend : State.advance a.conn a.control (n + 1) v = (false, v) := by
    rw [State.advance_eq, if_pos (by rw [hstop])]
  have hpass : State.advance a.conn a.control (n + 2) (s.mapped a) =
      (true, (State.advance a.conn a.control (n + 1) ((s.passes a).completeMsg a.conn a.esn a.pkt [a])).2) := by
    rw [State.advance_eq, if_neg (by rw [hmap]; decide), ← hesn, hfound, hrest, hmsg]
    exact if_pos hlast
  rw [hpass, hv, hend]

/-! ### What passing a packet leaves -/

/-- What the machine in which a message completes differs in from the one in which its packet was placed. -/
structure State.Passes (s u : State) (c : Nat) (control : Bool) : Prop where
  frame : u = { s with ctx := u.ctx, x := { s.x with conns := u.x.conns, rx := [] } }
  bytes : s.Holds (fun b => ¬ windowByte b) u
  next : u.fld (connBase c) (rxExp control) = s.fld (connBase c) (rxExp control) + 1
  map : u.fld (connBase c) (rxMap control) = 0

theorem rxMap_fits (control : Bool) : 0x40 ≤ (rxMap control).off ∧ (rxMap control).off + (rxMap control).len ≤ 0x70 ∧
    (rxMap control).lo = 0 ∧ (rxMap control).hi + 1 = 8 * (rxMap control).len ∧ 1 ≤ (rxMap control).hi := by
  cases control <;> decide

theorem rxExp_fits (control : Bool) : 0x40 ≤ (rxExp control).off ∧ (rxExp control).off + (rxExp control).len ≤ 0x70 ∧
    (rxExp control).lo = 0 ∧ (rxExp control).hi = 47 ∧ (rxExp control).len = 6 := by
  cases control <;> decide

theorem rxExp_apart_rxMap (control : Bool) : (rxExp control).off + (rxExp control).len ≤ (rxMap control).off := by
  cases control <;> decide

section
variable {o s : State}

theorem State.Holds.setWindow (h : o.Holds (fun b => ¬ windowByte b) s) (c v : Nat) {f : Fld} (hlo : 0x40 ≤ f.off)
    (hhi : f.off + f.len ≤ 0x70) : o.Holds (fun b => ¬ windowByte b) (s.setFld (connBase c) f v) :=
  h.setFld _ _ _ fun b _ _ => by unfold windowByte connBase at *; omega

variable (hwf : s.ctx.wf = true)
include hwf

theorem State.fld_setMap_same (c v : Nat) (control : Bool) (hv : v ≤ 1) :
    (s.setFld (connBase c) (rxMap control) v).fld (connBase c) (rxMap control) = v := by
  obtain ⟨-, -, hlo, hhi, hbig⟩ := rxMap_fits control
  rw [State.fld_setFld_same _ _ _ hwf (by omega) (by omega), hlo]
  exact Nat.mod_eq_of_lt (Nat.lt_of_le_of_lt hv (Nat.one_lt_two_pow (by omega)))

theorem State.fld_setExp_same (c v : Nat) (control : Bool) (hv : v < 2 ^ 48) :
    (s.setFld (connBase c) (rxExp control) v).fld (connBase c) (rxExp control) = v := by
  obtain ⟨-, -, hlo, hhi, hlen⟩ := rxExp_fits control
  rw [State.fld_setFld_same _ _ _ hwf (by omega) (by omega), hlo, hhi]
  exact Nat.mod_eq_of_lt hv

theorem State.fld_setMap_exp (c v : Nat) (control : Bool) :
    (s.setFld (connBase c) (rxMap control) v).fld (connBase c) (rxExp control) =
      s.fld (connBase c) (rxExp control) := by
  have := rxExp_apart_rxMap control
  exact State.fld_setFld_other _ _ hwf (by omega)

theorem State.fld_setExp_map (c v : Nat) (control : Bool) :
    (s.setFld (connBase c) (rxExp control) v).fld (connBase c) (rxMap control) =
      s.fld (connBase c) (rxMap control) := by
  have := rxExp_apart_rxMap control
  exact State.fld_setFld_other _ _ hwf (by omega)

variable {a : Arrived} (hmap : s.fld (connBase a.conn) (rxMap a.control) = 0)
include hmap

omit hwf in
theorem State.mapped_eq : s.mapped a =
    ({ s with x := { s.x with rx := s.x.rx ++ [a] } } : State).setFld (connBase a.conn) (rxMap a.control) 1 := by
  unfold State.mapped
  dsimp only
  rw [show State.fld { s with x := { s.x with rx := s.x.rx ++ [a] } } _ _ = 0 from hmap]
  rfl

theorem State.mapped_map : (s.mapped a).fld (connBase a.conn) (rxMap a.control) = 1 := by
  rw [State.mapped_eq hmap]
  exact State.fld_setMap_same (s := { s with x := _ }) hwf _ _ _ (Nat.le_refl 1)

theorem State.mapped_exp :
    (s.mapped a).fld (connBase a.conn) (rxExp a.control) = s.fld (connBase a.conn) (rxExp a.control) := by
  rw [State.mapped_eq hmap]
  exact State.fld_setMap_exp (s := { s with x := _ }) hwf _ _ _

/-- RX_EXP is beyond the one packet placed, and its map is empty again (R267). -/
theorem State.passes_spec (hroom : s.fld (connBase a.conn) (rxExp a.control) + 1 < 2 ^ 48) :
    s.Passes (s.passes a) a.conn a.control := by
  obtain ⟨hmlo, hmhi, -⟩ := rxMap_fits a.control
  obtain ⟨helo, hehi, -⟩ := rxExp_fits a.control
  have hplaced : s.Holds (fun b => ¬ windowByte b) (s.mapped a) := by
    have harrived : s.Holds (fun b => ¬ windowByte b) { s with x := { s.x with rx := s.x.rx ++ [a] } } :=
      (State.Holds.refl hwf).of_ctx rfl
    rw [State.mapped_eq hmap]
    exact harrived.setWindow _ _ hmlo hmhi
  have hshift := hplaced.setWindow a.conn ((s.mapped a).fld (connBase a.conn) (rxMap a.control) / 2) hmlo hmhi
  have hmove := hshift.setWindow a.conn ((s.mapped a).fld (connBase a.conn) (rxExp a.control) + 1) helo hehi
  refine ⟨rfl, hmove.of_ctx rfl, ?_, ?_⟩
  · refine (State.fld_setExp_same hshift.wf _ _ _ ?_).trans ?_ <;> rw [State.mapped_exp hwf hmap]
    exact hroom
  · refine (State.fld_setExp_map hshift.wf _ _ _).trans ?_
    rw [State.mapped_map hwf hmap]
    exact State.fld_setMap_same hplaced.wf _ _ _ (by decide)

end

/-! ### The packet of a stream's next number -/

/-- The packet that is next in order, as it is held until RX_EXP passes it. -/
def State.heldAs (s : State) (op : Byte) (p : Packet) (placed refused : Bool) : Arrived :=
  { conn := p.conn.toNat, control := p.stream, esn := s.fld (connBase p.conn.toNat) (rxExp p.stream), pkt := asOp op p
    placed := placed, refused := refused }

/-- What is sent once a packet that completes a message has been taken: an acknowledgement (R267). -/
def State.acked (v : State) (c : Nat) (control : Bool) : State :=
  (v.setGap c control (v.fld (connBase c) (rxMap control) != 0)).sendAck c control

theorem State.counted_ctx (s : State) (c : Nat) : (s.counted c).ctx = s.ctx := State.bump64_ctx _ _ _

/-- The fields of a stream's window read as before where their bytes stay. -/
theorem State.Holds.window {o t : State} (h : o.Holds windowByte t) (hwf : o.ctx.wf = true) (c : Nat) (control : Bool) :
    t.fld (connBase c) (rxMap control) = o.fld (connBase c) (rxMap control) ∧
    t.fld (connBase c) (rxExp control) = o.fld (connBase c) (rxExp control) := by
  obtain ⟨hmlo, hmhi, -⟩ := rxMap_fits control
  obtain ⟨helo, hehi, -⟩ := rxExp_fits control
  exact ⟨h.fld hwf fun b _ _ => by unfold windowByte connBase at *; omega,
    h.fld hwf fun b _ _ => by unfold windowByte connBase at *; omega⟩

theorem windowByte.not_tx {b : Nat} (h : windowByte b) : ¬ txByte b := by unfold windowByte txByte at *; omega

/-- What follows RX_EXP moved on: the gap timer, and an acknowledgement where a message has completed (R267). -/
def answersAdvance (c : Nat) (control : Bool) (r : Bool × State) : State :=
  let t := r.2.setGap c control (r.2.fld (connBase c) (rxMap control) != 0)
  if r.1 || decide (16 ≤ (t.connX c).adv control) then t.sendAck c control else t

section
variable {s w : State} {op : Byte} {p : Packet} {placed refused : Bool}
variable (hn : s.NextPacket op p)
include hn

theorem State.useFor_next : s.useFor (asOp op p) = (true, s) := by
  unfold State.useFor
  rw [State.ctxUse_clean _ _ hn.clean]
  dsimp only
  split
  · rw [State.ctxUse_clean _ _ hn.clean]
    rfl
  · split
    · rw [State.ctxUse_clean _ _ hn.clean]
      rfl
    · rfl

theorem State.openPkt_next (n : Nat) : s.openPkt p.conn.toNat (asOp op p) false n = some (asOp op p) := by
  rw [State.openPkt]
  dsimp only
  rw [hn.plain]
  rfl

/-- A packet that is next in order reaches order 5 of R259. -/
theorem receive_next : receive (asOp op p) s =
    (s.setConnX p.conn.toNat fun x => { x with seen := true }).accept5 p.conn.toNat
      (s.fld (connBase p.conn.toNat) (rxExp p.stream)) (asOp op p) := by
  have hspace : (streamOf (asOp op p).opcode.toNat).isNone = false := by
    rw [show streamOf (asOp op p).opcode.toNat = some p.stream from hn.stream]
    rfl
  have hce : (asOp op p).ce = false := hn.unmarked
  have hmark (w : State) : w.noteCe p.conn.toNat p.stream (asOp op p) = w := if_neg (by rw [hce]; decide)
  have hnext : extend (s.fld (connBase (asOp op p).conn.toNat) (rxExp (asOp op p).stream)) (asOp op p).psn.toNat =
      s.fld (connBase p.conn.toNat) (rxExp p.stream) := hn.next
  have hwindow : 0 < windowOf p.stream := by cases p.stream <;> decide
  unfold receive
  dsimp only
  rw [State.useFor_next hn]
  dsimp only
  rw [if_neg (by decide), hn.good, if_neg (by decide), hce, if_neg (by decide), hspace, if_neg (by decide), hnext,
    show (asOp op p).conn = p.conn from rfl, State.openPkt_next hn]
  dsimp only
  rw [if_neg (by decide)]
  unfold State.sequenced
  dsimp only
  rw [show (asOp op p).stream = p.stream from rfl, hmark, if_neg (by omega), if_neg (by omega), Int.toNat_natCast]

/-- A packet that finds its room, once placed, completes its message and is acknowledged (orders 5 to 8 of R259, R265,
R267). -/
theorem State.accept5_next (hwf : w.ctx.wf = true) (hslot : op = 0x11 → s.slotFree p.conn.toNat = true)
    (hroom : s.roomFor p.conn.toNat (s.fld (connBase p.conn.toNat) (rxExp p.stream)) (asOp op p) = true)
    (hplace : (s.counted p.conn.toNat).placePkt p.conn.toNat (s.fld (connBase p.conn.toNat) (rxExp p.stream)) (asOp op p) =
      (placed, refused, w))
    (hrx : w.x.rx = []) (hmap : w.fld (connBase p.conn.toNat) (rxMap p.stream) = 0)
    (hexp : w.fld (connBase p.conn.toNat) (rxExp p.stream) = s.fld (connBase p.conn.toNat) (rxExp p.stream)) :
    let a := s.heldAs op p placed refused
    let v := (w.passes a).completeMsg p.conn.toNat a.esn (asOp op p) [a]
    v.fld (connBase p.conn.toNat) (rxMap p.stream) = 0 →
    (s.setConnX p.conn.toNat fun x => { x with seen := true }).accept5 p.conn.toNat
      (s.fld (connBase p.conn.toNat) (rxExp p.stream)) (asOp op p) = v.acked p.conn.toNat p.stream := by
  intro a v hv
  generalize hy : s.setConnX p.conn.toNat (fun x => { x with seen := true }) = y
  have hctx : y.ctx = s.ctx := hy ▸ rfl
  have hymap : y.fld (connBase p.conn.toNat) (rxMap p.stream) = 0 := (State.fld_congr hctx _ _).trans hn.noGap
  have hyexp := State.fld_congr hctx (connBase p.conn.toNat) (rxExp p.stream)
  have hyslot : ((asOp op p).opcode = 0x11 && !y.slotFree p.conn.toNat) = false := by
    by_cases hop : op = 0x11
    · have hfree : y.slotFree p.conn.toNat = true := hy ▸ hslot hop
      rw [hfree, Bool.not_true, Bool.and_false]
    · rw [show decide ((asOp op p).opcode = 0x11) = false from decide_eq_false hop, Bool.false_and]
  have hyroom : y.roomFor p.conn.toNat (s.fld (connBase p.conn.toNat) (rxExp p.stream)) (asOp op p) = true := hy ▸ hroom
  have hyplace : (y.bump64 R.rmaPktRxLo).placePkt p.conn.toNat (s.fld (connBase p.conn.toNat) (rxExp p.stream))
      (asOp op p) = (placed, refused, w) := hy ▸ hplace
  obtain ⟨n, hwindow⟩ : ∃ n, windowOf p.stream = n + 2 := by cases p.stream <;> exact ⟨_, rfl⟩
  have hadv : State.advance p.conn.toNat p.stream (windowOf p.stream) (w.mapped a) = (true, v) := by
    rw [hwindow]
    exact State.advance_one (a := a) n (State.mapped_map hwf hmap) hrx
      (hexp.symm.trans (State.mapped_exp (a := a) hwf hmap).symm) hn.last hv
  have hplaced : y.accept5 p.conn.toNat (s.fld (connBase p.conn.toNat) (rxExp p.stream)) (asOp op p) =
      answersAdvance p.conn.toNat p.stream
      (State.advance p.conn.toNat p.stream (windowOf p.stream) (w.mapped a)) := by
    unfold State.accept5
    dsimp only
    rw [show (asOp op p).stream = p.stream from rfl, hymap, hyexp, Nat.zero_testBit, if_neg (by decide), hyslot,
      if_neg (by decide), hyroom, if_neg (by decide), hyplace, Nat.sub_self]
    rfl
  rw [hplaced, hadv]
  rfl

/-- The packet that is next in order, once placed, completes its message and is acknowledged (R267). -/
theorem State.receive_takes (hswf : s.ctx.wf = true) (hslot : op = 0x11 → s.slotFree p.conn.toNat = true)
    (hroom : s.roomFor p.conn.toNat (s.fld (connBase p.conn.toNat) (rxExp p.stream)) (asOp op p) = true)
    (hplace : (s.counted p.conn.toNat).placePkt p.conn.toNat (s.fld (connBase p.conn.toNat) (rxExp p.stream)) (asOp op p) =
      (placed, refused, w))
    (hrx : w.x.rx = []) (hkeep : (s.counted p.conn.toNat).Holds windowByte w) :
    let a := s.heldAs op p placed refused
    let v := (w.passes a).completeMsg p.conn.toNat a.esn (asOp op p) [a]
    w.Passes (w.passes a) p.conn.toNat p.stream ∧
    ((w.passes a).Holds windowByte v → v.Acks (receive (asOp op p) s) ∧ s.taken (receive (asOp op p) s) p) := by
  intro a v
  have hcwf : (s.counted p.conn.toNat).ctx.wf = true := by rw [s.counted_ctx]; exact hswf
  obtain ⟨hmap, hexp⟩ := hkeep.window hcwf p.conn.toNat p.stream
  rw [State.fld_congr (s.counted_ctx _)] at hmap hexp
  have hpass : w.Passes (w.passes a) p.conn.toNat p.stream :=
    State.passes_spec (a := a) hkeep.wf (hmap.trans hn.noGap)
      (by rw [show w.fld (connBase a.conn) (rxExp a.control) = _ from hexp]; exact hn.room)
  refine ⟨hpass, fun hv => ?_⟩
  obtain ⟨hvmap, hvexp⟩ := hv.window hpass.bytes.wf p.conn.toNat p.stream
  have hacks : v.Acks (v.acked p.conn.toNat p.stream) := ((State.Acks.refl hv.wf).setGap _ _ _).sendAck _ _
  obtain ⟨-, htexp⟩ := (hacks.bytes.mono fun _ => windowByte.not_tx).window hv.wf p.conn.toNat p.stream
  rw [receive_next hn, State.accept5_next hn hkeep.wf hslot hroom hplace hrx (hmap.trans hn.noGap) hexp
    (hvmap.trans hpass.map)]
  exact ⟨hacks, by rw [State.taken, htexp, hvexp, hpass.next, hexp]⟩

end

end Sys2Proof.Machine
end

section
/-! Requests and messages of one packet whose packet is placed by nothing but its arrival (R174, R195, R257, R262-R264,
R275), and WRITE: what each does when it completes. -/

namespace Sys2Proof.Machine

/-! ### The machine in which a message completes -/

theorem exec_row {s : State} {p : Packet} {i : Instr} {op : Byte} (hup : s.up 4 = true)
    (hr : (i, op) ∈ [(Instr.writePacket p, (0x01 : Byte)), (.readReq p, 0x02), (.sendPacket p, 0x04), (.contrib p, 0x05),
      (.atomicMaxReq p, 0x06), (.counterAddReq p, 0x07), (.flushReq p, 0x08), (.ctrl p, 0x11)]) :
    exec i s = .next (receive (asOp op p) s) := by
  have hrow (op : Byte) : s.atIsland 4 (receiveAs op p) = receive (asOp op p) s :=
    if_pos (show (!s.pwr.dead && s.islandReady 4) = true from hup)
  simp only [List.mem_cons, List.not_mem_nil, or_false, Prod.mk.injEq] at hr
  rcases hr with ⟨rfl, rfl⟩ | ⟨rfl, rfl⟩ | ⟨rfl, rfl⟩ | ⟨rfl, rfl⟩ | ⟨rfl, rfl⟩ | ⟨rfl, rfl⟩ | ⟨rfl, rfl⟩ | ⟨rfl, rfl⟩
  · exact congrArg Host.Outcome.next (hrow 0x01)
  · exact congrArg Host.Outcome.next (hrow 0x02)
  · exact congrArg Host.Outcome.next (hrow 0x04)
  · exact congrArg Host.Outcome.next (hrow 0x05)
  · exact congrArg Host.Outcome.next (hrow 0x06)
  · exact congrArg Host.Outcome.next (hrow 0x07)
  · exact congrArg Host.Outcome.next (hrow 0x08)
  · exact congrArg Host.Outcome.next (hrow 0x11)

/-- What the machine differs in once a packet of a connection has been counted. -/
structure State.Counts (s w : State) : Prop where
  frame : w = { s with regs := w.regs, x := { s.x with conns := w.x.conns } }
  regs : s.regsBut w [R.rmaPktRxLo, R.rmaPktRxLo + 4]

theorem State.counts (s : State) (c : Nat) : s.Counts (s.counted c) := by
  obtain ⟨r, hr⟩ := (s.setConnX c fun x => { x with seen := true }).bump64_effect R.rmaPktRxLo 1
  refine ⟨?_, fun a ha => ?_⟩
  · unfold State.counted
    rw [hr]
    rfl
  · simp only [List.mem_cons, List.not_mem_nil, or_false, not_or] at ha
    exact State.reg_bump64_other _ 1 (Ne.symm ha.1) (Ne.symm ha.2)

/-- What the machine differs in once a packet of a connection has been counted, placed by its arrival alone, and passed. -/
structure State.Ready (s u : State) : Prop where
  frame : u = { s with regs := u.regs, ctx := u.ctx, x := { s.x with conns := u.x.conns, rx := [] } }
  bytes : s.Holds (fun b => ¬ windowByte b) u
  regs : s.regsBut u [R.rmaPktRxLo, R.rmaPktRxLo + 4]

theorem State.Passes.q {w u : State} {c : Nat} {control : Bool} (h : w.Passes u c control) : u.q = w.q := by rw [h.frame]

theorem State.Passes.mem {w u : State} {c : Nat} {control : Bool} (h : w.Passes u c control) : u.mem = w.mem := by
  rw [h.frame]

theorem State.Passes.out {w u : State} {c : Nat} {control : Bool} (h : w.Passes u c control) : u.x.out = w.x.out := by
  rw [h.frame]

theorem State.Passes.kept {w u : State} {c : Nat} {control : Bool} (h : w.Passes u c control) : u.x.kept = w.x.kept := by
  rw [h.frame]

theorem State.Passes.reg {w u : State} {c : Nat} {control : Bool} (h : w.Passes u c control) (a : Nat) :
    u.reg a = w.reg a := by
  rw [h.frame]
  rfl

theorem State.Counts.out {s w : State} (h : s.Counts w) : w.x.out = s.x.out := by rw [h.frame]

theorem State.hearsAnswers_congr {s t : State} (h : t.ctx = s.ctx) {c : Nat} (hs : s.hearsAnswers c) : t.hearsAnswers c := by
  rw [State.hearsAnswers, State.connState, State.fld_congr h, State.fld_congr h]
  exact hs

theorem State.Holds.hearsAnswers {P : Nat → Prop} {o s : State} (h : o.Holds P s) (hwf : o.ctx.wf = true)
    (hP : ∀ b, 0x1000000 ≤ b → P b) {c : Nat} (ho : o.hearsAnswers c) : s.hearsAnswers c := by
  have hconn (f : Fld) : s.fld (connBase c) f = o.fld (connBase c) f :=
    h.fld hwf fun b hb _ => hP b (by unfold connBase at hb; omega)
  rw [State.hearsAnswers, State.connState, hconn, hconn]
  exact ho

theorem State.Counts.mem {s w : State} (h : s.Counts w) : w.mem = s.mem := by rw [h.frame]

theorem State.wrP_keeps (s : State) (poison : Bool) (a : Nat) (bs : Bytes) :
    (s.wrP poison a bs).ctx = s.ctx ∧ (s.wrP poison a bs).x = s.x ∧ (s.wrP poison a bs).q = s.q := by
  obtain ⟨g, hg⟩ := s.wrP_effect poison a bs
  rw [hg]
  exact ⟨rfl, rfl, rfl⟩

theorem State.Counts.rx {s w : State} (h : s.Counts w) : w.x.rx = s.x.rx := by rw [h.frame]

theorem State.Counts.ctx {s w : State} (h : s.Counts w) : w.ctx = s.ctx := by rw [h.frame]

theorem State.Counts.q {s w : State} (h : s.Counts w) : w.q = s.q := by rw [h.frame]

theorem State.Counts.dropped {s w : State} (h : s.Counts w) : w.x.dropped = s.x.dropped := by rw [h.frame]

theorem State.Counts.passes {s w u : State} {c : Nat} {control : Bool} (hc : s.Counts w) (hp : w.Passes u c control)
    (hwf : s.ctx.wf = true) : s.Ready u := by
  have hctx : w.ctx = s.ctx := by rw [hc.frame]
  refine ⟨by rw [hp.frame, hc.frame], ((State.Holds.refl hwf).of_ctx hctx).trans hp.bytes, fun b hb => ?_⟩
  rw [← hc.regs b hb, hp.frame]
  rfl

section
variable {s : State} {op : Byte} {p : Packet} (hn : s.NextPacket op p) (hwf : s.ctx.wf = true)
include hn hwf

/-- A packet that its arrival alone places completes its message (R265), and is acknowledged. -/
theorem State.receive_completes (hslot : op = 0x11 → s.slotFree p.conn.toNat = true)
    (hroom : s.roomFor p.conn.toNat (s.fld (connBase p.conn.toNat) (rxExp p.stream)) (asOp op p) = true) {placed : Bool}
    (hplace : (s.counted p.conn.toNat).placePkt p.conn.toNat (s.fld (connBase p.conn.toNat) (rxExp p.stream)) (asOp op p) =
      (placed, false, s.counted p.conn.toNat)) :
    let a := s.heldAs op p placed false
    let u := (s.counted p.conn.toNat).passes a
    let v := u.completeMsg p.conn.toNat a.esn (asOp op p) [a]
    s.Ready u ∧
    (u.Holds windowByte v → v.Acks (receive (asOp op p) s) ∧ s.taken (receive (asOp op p) s) p) := by
  intro a u v
  have hcounts := s.counts p.conn.toNat
  have hcwf : (s.counted p.conn.toNat).ctx.wf = true := by rw [s.counted_ctx]; exact hwf
  have hrx : (s.counted p.conn.toNat).x.rx = [] := hcounts.rx.trans hn.rx
  obtain ⟨hpass, htakes⟩ := State.receive_takes hn hwf hslot hroom hplace hrx (.refl hcwf)
  exact ⟨hcounts.passes hpass hwf, htakes⟩

end

/-! ### What stays -/

theorem State.Holds.with_q {P : Nat → Prop} {o s : State} (h : o.Holds P s) (q : QState) : o.Holds P { s with q := q } :=
  h.of_ctx rfl

section
variable {P : Nat → Prop} {o s u : State}

/-- A field of a table other than the connections' reads as before where the bytes of those tables stay. -/
theorem State.Holds.table (h : o.Holds P u) (hwf : o.ctx.wf = true) (hP : ∀ b < 0x1000000, P b) {a : Nat} {f : Fld}
    (ha : a + f.off + f.len ≤ 0x1000000) : u.fld a f = o.fld a f := h.fld hwf fun _ _ hb => hP _ (by omega)

theorem not_windowByte_of_lt : ∀ b < 0x1000000, ¬ windowByte b := fun _ hb h => by unfold windowByte at h; omega

theorem not_txByte_of_lt : ∀ b < 0x1000000, ¬ txByte b := fun _ hb h => by unfold txByte at h; omega

theorem State.Ready.q (h : s.Ready u) : u.q = s.q := by rw [h.frame]

theorem State.Ready.mem (h : s.Ready u) : u.mem = s.mem := by rw [h.frame]

theorem State.Ready.now (h : s.Ready u) : u.now = s.now := by rw [h.frame]; rfl

theorem State.Ready.out (h : s.Ready u) : u.x.out = s.x.out := by rw [h.frame]

theorem State.Ready.dropped (h : s.Ready u) : u.x.dropped = s.x.dropped := by rw [h.frame]

theorem State.Ready.maxes (h : s.Ready u) : u.x.maxes = s.x.maxes := by rw [h.frame]

theorem State.Ready.flushes (h : s.Ready u) : u.x.flushes = s.x.flushes := by rw [h.frame]

theorem State.Ready.cleanTables (h : s.Ready u) : u.cleanTables = s.cleanTables := by rw [h.frame]; rfl

variable (hwf : s.ctx.wf = true)
include hwf

theorem State.Ready.table (h : s.Ready u) {a : Nat} {f : Fld} (ha : a + f.off + f.len ≤ 0x1000000) :
    u.fld a f = s.fld a f := h.bytes.table hwf not_windowByte_of_lt ha

/-- A field of a connection outside its windows. -/
theorem State.Ready.conn (h : s.Ready u) (c : Nat) {f : Fld} (hf : f.off + f.len ≤ 0x40) :
    u.fld (connBase c) f = s.fld (connBase c) f :=
  h.bytes.fld hwf fun b _ _ => by unfold windowByte connBase at *; omega

theorem State.Ready.hearsAnswers (h : s.Ready u) {c : Nat} (hs : s.hearsAnswers c) : u.hearsAnswers c := by
  rw [State.hearsAnswers, State.connState, h.conn hwf c (by decide), h.conn hwf c (by decide)]
  exact hs

end

theorem State.relayFor_congr {s t : State} (h : t.q = s.q) (c channel seq : Nat) :
    t.relayFor c channel seq = s.relayFor c channel seq := by rw [State.relayFor, h]; rfl

/-! ### The regions' requests placed -/

section
variable {s : State} {c : Nat} {p : Packet}

theorem State.accessCheck_congr {s t : State} (h : t.ctx = s.ctx) (c : Nat) (p : Packet) :
    t.accessCheck c p = s.accessCheck c p := by
  simp only [State.accessCheck, State.flag, State.fld_congr h]
  rfl

variable (e : Nat) (hrx : s.x.rx = [])
include hrx

theorem State.placePkt_write (hok : s.accessCheck c (asOp 0x01 p) = none) : s.placePkt c e (asOp 0x01 p) =
    (true, false, s.wrP p.poison (s.fld (regionBase (keyOfPkt p / 65536)) Region.base + addrOfPkt p + offOf p)
      p.payload) := by
  unfold State.placePkt
  dsimp only
  rw [if_pos (.inl rfl), hrx, hok]
  rfl

theorem State.placePkt_read (hok : s.accessCheck c (asOp 0x02 p) = none) :
    s.placePkt c e (asOp 0x02 p) = (true, false, s) := by
  unfold State.placePkt
  dsimp only
  rw [if_pos (.inr (.inl rfl)), hrx, hok]
  rfl

theorem State.placePkt_max (hok : s.accessCheck c (asOp 0x06 p) = none) : s.placePkt c e (asOp 0x06 p) =
    (true, false, s.setFld (regionBase (keyOfPkt p / 65536)) Region.inflight
      (s.fld (regionBase (keyOfPkt p / 65536)) Region.inflight + 1)) := by
  unfold State.placePkt
  dsimp only
  rw [if_pos (.inr (.inr rfl)), hrx, hok]
  rfl

/-- A request that its region refuses is reported as its packet is placed (R260). -/
theorem State.placePkt_refused {op : Byte} (hop : op ∈ [0x01, 0x02, 0x06]) {st : Nat}
    (hbad : s.accessCheck c (asOp op p) = some st) : s.placePkt c e (asOp op p) =
      (false, true, s.refuse c e (asOp op p) st (keyOfPkt p / 65536) true) := by
  have hk : (asOp op p).opcode.toNat = 0x01 ∨ (asOp op p).opcode.toNat = 0x02 ∨ (asOp op p).opcode.toNat = 0x06 := by
    simp only [List.mem_cons, List.not_mem_nil, or_false] at hop
    rcases hop with rfl | rfl | rfl
    · exact .inl rfl
    · exact .inr (.inl rfl)
    · exact .inr (.inr rfl)
  unfold State.placePkt
  dsimp only
  rw [if_pos hk, hrx, hbad]
  rfl

end

/-! ### READ_REQ, SEND and CONTRIB -/

theorem any_refused_heldAs (s : State) (op : Byte) (p : Packet) (placed refused : Bool) :
    [s.heldAs op p placed refused].any (·.refused) = refused := Bool.or_false _

theorem State.completeMsg_write (u s : State) (c esn : Nat) {p : Packet} (hctr : p.ctrEn = false) (placed : Bool) :
    u.completeMsg c esn (asOp 0x01 p) [s.heldAs 0x01 p placed false] = u := by
  unfold State.completeMsg
  dsimp only
  rw [any_refused_heldAs, if_neg (by decide)]
  change u.raiseFor c esn (asOp 0x01 p) = u
  rw [State.raiseFor, show (asOp 0x01 p).ctrEn = false from hctr]
  rfl

theorem State.completeMsg_readReq (u s : State) (c esn : Nat) (p : Packet) (placed : Bool) :
    u.completeMsg c esn (asOp 0x02 p) [s.heldAs 0x02 p placed false] =
      u.post { newMsg c false 0x03 (asOp 0x02 p).g3.toNat
        (.host (u.fld (regionBase (keyOfPkt (asOp 0x02 p) / 65536)) Region.base + addrOfPkt (asOp 0x02 p))) with
          vl := (asOp 0x02 p).vl.toNat / 4 * 4, reqPsn := (asOp 0x02 p).psn.toNat } := by
  unfold State.completeMsg
  dsimp only
  rw [any_refused_heldAs, if_neg (by decide)]
  rfl

theorem State.completeMsg_contrib (u s : State) (c esn : Nat) (p : Packet) (placed : Bool) :
    u.completeMsg c esn (asOp 0x05 p) [s.heldAs 0x05 p placed false] = u.contribDone c [asOp 0x05 p] := by
  unfold State.completeMsg
  dsimp only
  rw [any_refused_heldAs, if_neg (by decide)]
  rfl

/-- A contribution of a reduction that is not yet open changes nothing but the inbound share (R174). -/
theorem State.place_later {s : State} {ib : Inbound} (hused : s.groupUsed ib.group = true) (hchan : ib.channel ≤ 31)
    (hpast : s.seqPast ib.group ib.channel ib.seq = false) (hinst : s.instOf ib.group ib.channel ib.seq = none)
    (hlast : ∀ y ∈ s.q.inbound, y.placed ≤ ib.placed) :
    s.place ib = { s with q := { s.q with inbound := s.q.inbound ++ [ib] } } := by
  have hinst' : State.instOf { s with q := { s.q with inbound := insertPlaced ib s.q.inbound } } ib.group ib.channel
      ib.seq = none := hinst
  rw [State.place, if_neg (by simp [hused, hchan]), hpast, if_neg (by decide)]
  dsimp only
  rw [hinst', insertPlaced_last hlast]

/-- A SEND that no RELAY takes is placed by its arrival alone. -/
theorem State.placePkt_send {s : State} {p : Packet} {c : Nat} (e : Nat)
    (hrelay : s.relayFor c (chanSeq p).1 (chanSeq p).2 = none)
    (hdrop : s.x.dropped.contains (c, (chanSeq p).1, (chanSeq p).2) = false) :
    s.placePkt c e (asOp 0x04 p) = (false, false, s) := by
  have hop : (asOp 0x04 p).opcode.toNat = 4 := rfl
  have hchan : chanSeq (asOp 0x04 p) = chanSeq p := rfl
  unfold State.placePkt
  dsimp only
  rw [hop, if_neg (by decide), if_neg (by decide), if_pos rfl, hchan, hrelay, hdrop]

theorem State.sendDone_held {s : State} {c esn : Nat} {p : Packet} {a : Arrived}
    (hrelay : s.relayFor c (chanSeq p).1 (chanSeq p).2 = none)
    (hdrop : s.x.dropped.contains (c, (chanSeq p).1, (chanSeq p).2) = false) :
    s.sendDone c esn p [a] =
      { s with q := { s.q with msgs := s.q.msgs ++ [⟨c, (chanSeq p).1, (chanSeq p).2, [a.pkt]⟩] } } := by
  unfold State.sendDone
  dsimp only
  rw [hdrop, if_neg (by decide), hrelay]
  rfl

section
variable {s : State} {p : Packet} (hwf : s.ctx.wf = true)
include hwf

/-- A SEND that no RELAY takes is held for one (R175, R195). -/
theorem State.send_held (hn : s.NextPacket 0x04 p)
    (hrelay : s.relayFor p.conn.toNat (chanSeq p).1 (chanSeq p).2 = none)
    (hdrop : s.x.dropped.contains (p.conn.toNat, (chanSeq p).1, (chanSeq p).2) = false)
    (hroom : s.roomFor p.conn.toNat (s.fld (connBase p.conn.toNat) (rxExp p.stream)) (asOp 0x04 p) = true) :
    s.taken (receive (asOp 0x04 p) s) p ∧ (receive (asOp 0x04 p) s).mem = s.mem ∧ (receive (asOp 0x04 p) s).q =
      { s.q with msgs := s.q.msgs ++ [⟨p.conn.toNat, (chanSeq p).1, (chanSeq p).2, [asOp 0x04 p]⟩] } := by
  have hcounts := s.counts p.conn.toNat
  have hplace : (s.counted p.conn.toNat).placePkt p.conn.toNat (s.fld (connBase p.conn.toNat) (rxExp p.stream))
      (asOp 0x04 p) = (false, false, s.counted p.conn.toNat) := by
    have hq : (s.counted p.conn.toNat).q = s.q := hcounts.q
    refine State.placePkt_send _ ((State.relayFor_congr hq _ _ _).trans hrelay) ?_
    rw [hcounts.dropped]
    exact hdrop
  obtain ⟨hu, htakes⟩ := State.receive_completes hn hwf (fun h => absurd h (by decide)) hroom hplace
  generalize (s.counted p.conn.toNat).passes (s.heldAs 0x04 p false false) = u at hu htakes
  have hv : u.completeMsg p.conn.toNat (s.heldAs 0x04 p false false).esn (asOp 0x04 p) [s.heldAs 0x04 p false false] =
      { u with q := { u.q with msgs := u.q.msgs ++ [⟨p.conn.toNat, (chanSeq p).1, (chanSeq p).2, [asOp 0x04 p]⟩] } } :=
    State.sendDone_held (p := asOp 0x04 p) ((State.relayFor_congr hu.q _ _ _).trans hrelay)
      (by rw [hu.dropped]; exact hdrop)
  rw [hv] at htakes
  obtain ⟨hacks, htaken⟩ := htakes ((State.Holds.refl hu.bytes.wf).with_q _)
  exact ⟨htaken, hacks.mem.trans hu.mem, hacks.q.trans (by rw [hu.q])⟩

/-- A contribution of a reduction that is not yet open waits in the inbound share (R174). -/
theorem State.contrib_held (hn : s.NextPacket 0x05 p)
    (hroom : s.roomFor p.conn.toNat (s.fld (connBase p.conn.toNat) (rxExp p.stream)) (asOp 0x05 p) = true)
    (hoff : offOf p = 0) (hused : s.groupUsed (parseSpanHdr p.payload).group = true)
    (hchan : (parseSpanHdr p.payload).channel ≤ 31)
    (hpast : s.seqPast (parseSpanHdr p.payload).group (parseSpanHdr p.payload).channel (parseSpanHdr p.payload).seq = false)
    (hinst : s.instOf (parseSpanHdr p.payload).group (parseSpanHdr p.payload).channel (parseSpanHdr p.payload).seq = none)
    (hlast : ∀ y ∈ s.q.inbound, y.placed ≤ s.now) :
    s.taken (receive (asOp 0x05 p) s) p ∧ ∃ x : Inbound,
      (receive (asOp 0x05 p) s).q = { s.q with inbound := s.q.inbound ++ [x] } ∧
      x.conn = some p.conn.toNat ∧ x.skip = false ∧ x.data = p.payload ∧ x.poison = [] ∧ x.placed = s.now ∧
      (x.group, x.channel, x.seq) = ((parseSpanHdr p.payload).group, (parseSpanHdr p.payload).channel,
        (parseSpanHdr p.payload).seq) := by
  obtain ⟨hu, htakes⟩ := State.receive_completes hn hwf (fun h => absurd h (by decide)) hroom (placed := true) rfl
  generalize (s.counted p.conn.toNat).passes (s.heldAs 0x05 p true false) = u at hu htakes
  have hgroup : (parseSpanHdr p.payload).group < 2 ^ 12 := Nat.mod_lt _ (by decide)
  have hgrp {f : Fld} (hf : f.off + f.len ≤ 256) := hu.table hwf (a := grpBase (parseSpanHdr p.payload).group) (f := f)
    (by unfold grpBase; omega)
  have hplace : u.place (u.inboundOf (some p.conn.toNat) p.payload []) =
      { u with q := { u.q with inbound := u.q.inbound ++ [u.inboundOf (some p.conn.toNat) p.payload []] } } := by
    refine State.place_later ?_ hchan ?_ ?_ ?_
    · rw [State.inboundOf, State.groupUsed, hgrp (by decide), hgrp (by decide)]
      exact hused
    · rw [State.inboundOf, State.seqPast, hgrp (by unfold Grp.lastSeq; dsimp only; omega)]
      exact hpast
    · rw [State.instOf, hu.q]
      exact hinst
    · rw [hu.q, State.inboundOf, hu.now]
      exact hlast
  have hv : u.completeMsg p.conn.toNat (s.heldAs 0x05 p true false).esn (asOp 0x05 p) [s.heldAs 0x05 p true false] =
      { u with q := { u.q with inbound := u.q.inbound ++ [u.inboundOf (some p.conn.toNat) p.payload []] } } := by
    have hdata : put [] (offOf p) p.payload = p.payload := by simp [hoff, put, sub, zeros]
    have hgood : poisonWords [asOp 0x05 p] = [] := by simp [poisonWords, asOp, hn.sound]
    rw [← hplace, u.completeMsg_contrib, State.contribDone, List.foldl_cons, List.foldl_nil,
      show offOf (asOp 0x05 p) = offOf p from rfl,
      show (asOp 0x05 p).payload = p.payload from rfl, hdata, hgood]
  rw [hv] at htakes
  obtain ⟨hacks, htaken⟩ := htakes ((State.Holds.refl hu.bytes.wf).with_q _)
  exact ⟨htaken, _, hacks.q.trans (by rw [hu.q]), rfl, rfl, rfl, rfl, hu.now, rfl⟩

/-- A READ_REQ that its region allows is answered with what it reads (R262, R263). -/
theorem State.readReq_answered (hn : s.NextPacket 0x02 p) (hok : s.accessCheck p.conn.toNat (asOp 0x02 p) = none) :
    s.taken (receive (asOp 0x02 p) s) p ∧ (receive (asOp 0x02 p) s).replied p.conn.toNat 0x03 p.psn.toNat ∧
    (receive (asOp 0x02 p) s).mem = s.mem ∧ (receive (asOp 0x02 p) s).q = s.q := by
  have hcounts := s.counts p.conn.toNat
  have hplace := State.placePkt_read (s := s.counted p.conn.toNat) (p := p)
    (s.fld (connBase p.conn.toNat) (rxExp p.stream)) (hcounts.rx.trans hn.rx)
    ((State.accessCheck_congr hcounts.ctx _ _).trans hok)
  obtain ⟨hu, htakes⟩ := State.receive_completes hn hwf (fun h => absurd h (by decide)) rfl hplace
  generalize (s.counted p.conn.toNat).passes (s.heldAs 0x02 p true false) = u at hu htakes
  rw [u.completeMsg_readReq] at htakes
  generalize hm : ({ newMsg p.conn.toNat false 0x03 (asOp 0x02 p).g3.toNat
    (.host (u.fld (regionBase (keyOfPkt (asOp 0x02 p) / 65536)) Region.base + addrOfPkt (asOp 0x02 p))) with
      vl := (asOp 0x02 p).vl.toNat / 4 * 4, reqPsn := (asOp 0x02 p).psn.toNat } : OutMsg) = m at htakes
  have hup := hu.hearsAnswers hwf hn.answers
  have hm' : m.IsAnswer ∧ m.conn = p.conn.toNat ∧ m.op = (0x03 : Byte).toNat ∧ m.reqPsn = p.psn.toNat :=
    hm ▸ ⟨⟨rfl, .inl rfl, p.psn.isLt⟩, rfl, rfl, rfl⟩
  obtain ⟨ha, hconn, hop, hpsn⟩ := hm'
  obtain ⟨hans, hreply⟩ := State.post_answering hu.bytes.wf (hu.out.trans hn.out) ha hop (hconn ▸ hup.1)
    (by rw [hconn]; exact hup.allows (.inl hop))
  rw [hconn, hpsn] at hreply
  obtain ⟨hacks, htaken⟩ := htakes (hans.bytes.mono fun _ => windowByte.not_tx)
  exact ⟨htaken, (hreply.of_same hacks.out hacks.kept).replied, hacks.mem.trans (hans.mem.trans hu.mem),
    hacks.q.trans (hans.q.trans hu.q)⟩

/-- A WRITE that its region allows, and that raises no counter, is placed there (R257, R265). -/
theorem State.write_placed (hmem : s.mem.wf = true) (hn : s.NextPacket 0x01 p)
    (hok : s.accessCheck p.conn.toNat (asOp 0x01 p) = none) (hctr : p.ctrEn = false) :
    let a := s.fld (regionBase (keyOfPkt p / 65536)) Region.base + addrOfPkt p + offOf p
    s.taken (receive (asOp 0x01 p) s) p ∧ (receive (asOp 0x01 p) s).rd a p.payload.length = p.payload ∧
    s.memBut (receive (asOp 0x01 p) s) a p.payload.length ∧ (receive (asOp 0x01 p) s).q = s.q := by
  intro a
  have hcounts := s.counts p.conn.toNat
  have hplace := State.placePkt_write (s := s.counted p.conn.toNat) (p := p)
    (s.fld (connBase p.conn.toNat) (rxExp p.stream)) (hcounts.rx.trans hn.rx)
    ((State.accessCheck_congr hcounts.ctx _ _).trans hok)
  rw [State.fld_congr hcounts.ctx] at hplace
  have hcwf : (s.counted p.conn.toNat).ctx.wf = true := (congrArg Memory.wf hcounts.ctx).trans hwf
  obtain ⟨hwctx, hwx, hwq⟩ := (s.counted p.conn.toNat).wrP_keeps p.poison a p.payload
  have hwmem := (s.counted p.conn.toNat).wrP_mem p.poison a p.payload
  obtain ⟨hpass, htakes⟩ := State.receive_takes hn hwf (fun h => absurd h (by decide)) rfl hplace
    ((congrArg Xport.rx hwx).trans (hcounts.rx.trans hn.rx)) ((State.Holds.refl hcwf).of_ctx hwctx)
  rw [State.completeMsg_write _ s _ _ hctr] at htakes
  obtain ⟨hacks, htaken⟩ := htakes (.refl hpass.bytes.wf)
  have htmem := hacks.mem.trans (hpass.mem.trans (hwmem.trans (congrArg (fun m : Memory => m.writeN a p.payload) hcounts.mem)))
  obtain ⟨hrd, hbut⟩ := State.rd_of_write hmem rfl htmem
  exact ⟨htaken, hrd, hbut, hacks.q.trans (hpass.q.trans (hwq.trans hcounts.q))⟩

end

end Sys2Proof.Machine
end

section
/-! Requests of one packet that are answered or refused (R240, R260, R264): FLUSH_REQ, COUNTER_ADD_REQ, and a request that
its region refuses. -/

namespace Sys2Proof.Machine

/-! ### FLUSH_REQ -/

theorem State.completeMsg_flush (u s : State) (c esn : Nat) (p : Packet) (placed : Bool) :
    u.completeMsg c esn (asOp 0x08 p) [s.heldAs 0x08 p placed false] = u.flushDone c esn (asOp 0x08 p) := by
  unfold State.completeMsg
  dsimp only
  rw [any_refused_heldAs, if_neg (by decide)]
  rfl

/-- While no ATOMIC_MAX waits, every FLUSH_REQ that waits is answered (R264). -/
theorem State.answerFlushes_idle {s : State} (hmaxes : s.x.maxes = []) : s.answerFlushes =
    s.x.flushes.foldl (fun (s : State) f => s.respond f.conn f.psn f.status 0x08 0 0 0)
      { s with x := { s.x with flushes := [] } } := by
  have hready (l : List FlushWait) : l.filter (fun f => !(s.x.maxes.any fun m =>
      decide (m.conn = f.conn) && f.maxes.contains m.psn)) = l := by simp [hmaxes]
  have hrest (l : List FlushWait) : l.filter (fun f => s.x.maxes.any fun m =>
      decide (m.conn = f.conn) && f.maxes.contains m.psn) = [] := by simp [hmaxes]
  unfold State.answerFlushes
  dsimp only
  rw [hready, hrest]

/-- Without an ATOMIC_MAX or another FLUSH_REQ that waits, a FLUSH_REQ is answered at once (R264). -/
theorem State.flushDone_idle (u : State) (c esn : Nat) (p : Packet) (hmaxes : u.x.maxes = []) (hflushes : u.x.flushes = []) :
    ∃ (x : Xport) (status : Nat), x.out = u.x.out ∧
      u.flushDone c esn p = ({ u with x := x } : State).respond c p.psn.toNat status 0x08 0 0 0 := by
  generalize hs : u.setConnX c (fun x => { x with rxFails := x.rxFails.filter fun f => decide (esn ≤ f.1) }) = s
  have hsmaxes : s.x.maxes = [] := hs ▸ hmaxes
  have hsflushes : s.x.flushes = [] := hs ▸ hflushes
  have hu : ({ s with x := { s.x with flushes := [] } } : State) = { u with x := { s.x with flushes := [] } } := hs ▸ rfl
  have hout : s.x.out = u.x.out := hs ▸ rfl
  have hidle (fs : List FlushWait) : State.answerFlushes { s with x := { s.x with flushes := fs } } = fs.foldl
      (fun (s : State) f => s.respond f.conn f.psn f.status 0x08 0 0 0) { s with x := { s.x with flushes := [] } } :=
    State.answerFlushes_idle (s := { s with x := { s.x with flushes := fs } }) hsmaxes
  unfold State.flushDone
  dsimp only
  rw [hs, hsflushes, hidle]
  exact ⟨{ s.x with flushes := [] }, _, hout, congrArg (fun t : State => t.respond c p.psn.toNat _ 0x08 0 0 0) hu⟩

section
variable {s : State} {p : Packet} (hwf : s.ctx.wf = true)
include hwf

/-- A FLUSH_REQ is answered (R264). -/
theorem State.flush_answered (hn : s.NextPacket 0x08 p) : s.taken (receive (asOp 0x08 p) s) p ∧
    (receive (asOp 0x08 p) s).replied p.conn.toNat 0x12 p.psn.toNat ∧ (receive (asOp 0x08 p) s).mem = s.mem := by
  obtain ⟨hu, htakes⟩ := State.receive_completes hn hwf (fun h => absurd h (by decide)) rfl (placed := true) rfl
  generalize (s.counted p.conn.toNat).passes (s.heldAs 0x08 p true false) = u at hu htakes
  obtain ⟨x, status, hxout, hdone⟩ := u.flushDone_idle p.conn.toNat (s.heldAs 0x08 p true false).esn (asOp 0x08 p)
    (hu.maxes.trans hn.maxes) (hu.flushes.trans hn.flushes)
  rw [u.completeMsg_flush, hdone] at htakes
  obtain ⟨hans, hreply⟩ := State.respond_answering (s := { u with x := x }) hu.bytes.wf
    (hxout.trans (hu.out.trans hn.out)) (hu.hearsAnswers hwf hn.answers) p.psn status 0x08 0 0 0
  have hx : u.Holds windowByte { u with x := x } := (State.Holds.refl hu.bytes.wf).of_ctx rfl
  obtain ⟨hacks, htaken⟩ := htakes (hx.trans (hans.bytes.mono fun _ => windowByte.not_tx))
  exact ⟨htaken, (hreply.of_same hacks.out hacks.kept).replied, hacks.mem.trans (hans.mem.trans hu.mem)⟩

end

/-! ### Refusals -/

/-- Bytes of the context tables that a refusal may change beside those of sending: the regions' and the completion
queues' (R243, R260). -/
def refusalByte (b : Nat) : Prop := txByte b ∨ (0x900000 ≤ b ∧ b < 0xD00000) ∨ (0xF00000 ≤ b ∧ b < 0xF40000)

theorem State.putLog16_effect (s : State) (cnt head first : Nat) (words : List Nat) :
    ∃ r, s.putLog16 cnt head first words = { s with regs := r } := by
  have hwords : ∃ r, words.zipIdx.foldl (fun (t : State) x =>
      t.setReg (first + 4 * words.length * (s.reg head % 16) + 4 * x.2) x.1) s = { s with regs := r } := by
    refine List.foldlRecOn (motive := fun t : State => ∃ r, t = { s with regs := r }) _ _ ⟨_, rfl⟩ fun t ht x _ => ?_
    obtain ⟨r, rfl⟩ := ht
    exact ⟨_, rfl⟩
  obtain ⟨r, hr⟩ := hwords
  unfold State.putLog16
  dsimp only
  rw [hr]
  exact ((State.setReg _ _ _).bump_effect cnt 1).imp fun _ h => h

theorem State.reg_putLog16_other (s : State) {cnt head first b : Nat} {words : List Nat} (hc : cnt ≠ b) (hh : head ≠ b)
    (hw : ∀ h i, first + 4 * words.length * h + 4 * i ≠ b) : (s.putLog16 cnt head first words).reg b = s.reg b := by
  unfold State.putLog16
  dsimp only
  rw [State.reg_bump_other _ _ hc, State.reg_setReg_other _ _ hh]
  exact foldl_keeps (fun s : State => s.reg b) _ _ s fun s x => s.reg_setReg_other _ (hw _ _)

/-- A record written sends at most a message beside what it stores (R245). -/
theorem State.reg_writeRecord (s : State) (cq : Nat) (r : Result) (op tag : Nat) (prepost irq : Bool) {a : Nat}
    (ha : a ∉ [R.topVecPendLo, R.topVecPendHi]) : (s.writeRecord cq r op tag prepost irq).reg a = s.reg a := by
  unfold State.writeRecord
  dsimp only
  split
  · split
    · exact State.sendVec_regsBut _ _ a ha
    · rfl
  · split
    · exact State.sendVec_regsBut _ _ a ha
    · rfl
  · rfl

/-- What a record formed without a descriptor may change (R242, R243). -/
structure State.Records (s t : State) : Prop where
  frame : t = { s with mem := t.mem, memPoison := t.memPoison, regs := t.regs, irqOut := t.irqOut, ctx := t.ctx }
  bytes : s.Holds (fun b => b < 0xF00000 ∨ 0xF40000 ≤ b) t
  viol : t.reg R.rmaViol = s.reg R.rmaViol

theorem State.headRecord_records (s : State) {cq : Nat} (r : Result) (op tag : Nat) (irq : Bool) (hwf : s.ctx.wf = true)
    (hcq : cq < 2 ^ 12) : s.Records (s.headRecord cq r op tag irq) := by
  unfold State.headRecord
  split
  · obtain ⟨hframe, hwf', hbut, -⟩ := s.writeRecord_effect cq r op tag false irq hwf
    exact ⟨by rw [hframe]; rfl, (State.Holds.refl hwf).of_ctxBut hwf' hbut fun b _ _ => by unfold cqBase at *; omega,
      s.reg_writeRecord cq r op tag false irq (by decide)⟩
  · obtain ⟨hframe, -⟩ := s.dropRecord_effect
    refine ⟨by rw [hframe], (State.Holds.refl hwf).of_ctx (by rw [hframe]), ?_⟩
    rw [State.dropRecord, State.raiseIrq_regsBut _ 7 4 _ (by decide), State.reg_bump_other _ _ (by decide)]

/-- The log of the transport written (R277). -/
theorem State.rmaLog_effect (s : State) (status side node op conn key addr psn : Nat) :
    let t := s.rmaLog status side node op conn key addr psn
    t = { s with regs := t.regs, irqOut := t.irqOut } ∧ t.reg R.rmaViol = s.reg R.rmaViol := by
  unfold State.rmaLog
  dsimp only
  generalize hwords : [status * 2 ^ 24 + side * 2 ^ 23 + node % 2 ^ 20, op % 256 * 2 ^ 24 + conn % 32768, key % 2 ^ 32,
    addr / 2 ^ 32 % 65536, addr % 2 ^ 32, psn % 2 ^ 24, s.now % 2 ^ 32, s.now / 2 ^ 32] = words
  obtain ⟨r, hr⟩ := s.putLog16_effect R.rmaLogCnt R.rmaLogHead (R.rmaLog 0) words
  have hreg : (s.putLog16 R.rmaLogCnt R.rmaLogHead (R.rmaLog 0) words).reg R.rmaViol = s.reg R.rmaViol :=
    s.reg_putLog16_other (by decide) (by decide) fun h i => by simp only [R.rmaLog, R.rmaViol, regAddr]; omega
  obtain ⟨r', i, hirq⟩ := (s.putLog16 R.rmaLogCnt R.rmaLogHead (R.rmaLog 0) words).raiseIrq_effect 0x70 1
  exact ⟨by rw [hirq, hr], (State.raiseIrq_regsBut _ 0x70 1 _ (by decide)).trans hreg⟩

/-- A refusal recorded by the responder before it answers: counted, logged, counted at its region, and told to the
connection's EVENT_CQ (R260, R261). -/
def State.refusalNoted (s : State) (c : Nat) (p : Packet) (status count : Nat) (region : Bool) (key addr : Nat) : State :=
  let u := (s.bump R.rmaViol).rmaLog status 1 ((s.bump R.rmaViol).fld (connBase c) Conn.remoteNode) p.opcode.toNat c key
    addr p.psn.toNat
  (if region then u.bumpFld (regionBase (key / 65536)) Region.violCnt else u).eventRecord c status
    (descOpcode p.opcode.toNat) count

/-- The KEY that a refusal reports: that of a packet of group K (R260). -/
def refusedKey (p : Packet) : Nat :=
  if p.opcode.toNat = 0x01 ∨ p.opcode.toNat = 0x02 ∨ p.opcode.toNat = 0x06 then p.g0.toNat else 0

/-- The address that a refusal reports (R260). -/
def refusedAddr (p : Packet) : Nat :=
  if p.opcode.toNat = 0x01 ∨ p.opcode.toNat = 0x02 ∨ p.opcode.toNat = 0x06 then
    p.g1.toNat + p.g2.toNat % 65536 * 2 ^ 32 + (if p.opcode.toNat = 0x02 then 0 else p.g3.toNat)
  else 0

theorem refusedKey_lt (p : Packet) : refusedKey p < 2 ^ 32 := by
  have := p.g0.isLt
  unfold refusedKey
  split <;> omega

theorem State.refuse_eq (s : State) (c esn : Nat) (p : Packet) (status count : Nat) (region : Bool) :
    s.refuse c esn p status count region =
      State.respond (if p.stream then s.refusalNoted c p status count region (refusedKey p) (refusedAddr p)
        else (s.refusalNoted c p status count region (refusedKey p) (refusedAddr p)).setConnX c fun x =>
          { x with rxFails := x.rxFails ++ [(esn, status)] })
        c p.psn.toNat status p.opcode.toNat 0 (refusedAddr p) (refusedKey p) := rfl

/-- What a refusal recorded differs in. -/
structure State.Notes (s t : State) : Prop where
  frame : t = { s with mem := t.mem, memPoison := t.memPoison, regs := t.regs, irqOut := t.irqOut, ctx := t.ctx }
  bytes : s.Holds (fun b => ¬ refusalByte b ∨ txByte b) t
  viol : t.reg R.rmaViol = min (s.reg R.rmaViol + 1) 0xFFFFFFFF

/-- A field of a region's entry lies among the bytes that a refusal may change. -/
theorem not_refusal_region {key b : Nat} (hkey : key < 2 ^ 32) {f : Fld} (hf : f.off + f.len ≤ 64)
    (hlo : regionBase (key / 65536) + f.off ≤ b) (hhi : b < regionBase (key / 65536) + f.off + f.len) :
    ¬ (¬ refusalByte b ∨ txByte b) := by
  have hb : 0x900000 ≤ b ∧ b < 0xD00000 := by
    unfold regionBase at hlo hhi
    omega
  unfold refusalByte txByte
  omega

section
variable {s : State} (hwf : s.ctx.wf = true)
include hwf

theorem State.refusalNoted_notes (c : Nat) (p : Packet) (status count : Nat) (region : Bool) {key : Nat} (addr : Nat)
    (hkey : key < 2 ^ 32) : s.Notes (s.refusalNoted c p status count region key addr) ∧
    (region = true → (s.refusalNoted c p status count region key addr).fld (regionBase (key / 65536)) Region.violCnt =
      min (s.fld (regionBase (key / 65536)) Region.violCnt + 1) 0xFFFFFFFF) := by
  obtain ⟨r, hr⟩ := s.bump_effect R.rmaViol 1
  have hcount := s.reg_bump_same (a := R.rmaViol) (n := 1) (by decide)
  unfold State.refusalNoted
  dsimp only
  generalize s.bump R.rmaViol = v at hr hcount
  obtain ⟨hlog, hlogged⟩ := v.rmaLog_effect status 1 (v.fld (connBase c) Conn.remoteNode) p.opcode.toNat c key addr
    p.psn.toNat
  generalize v.rmaLog status 1 (v.fld (connBase c) Conn.remoteNode) p.opcode.toNat c key addr p.psn.toNat = u at hlog hlogged
  have huctx : u.ctx = s.ctx := by rw [hlog, hr]
  generalize hw : (if region then u.bumpFld (regionBase (key / 65536)) Region.violCnt else u) = w
  have hwframe : w = { u with ctx := w.ctx } := by
    rw [← hw]
    split <;> rfl
  have hwbytes : s.Holds (fun b => ¬ refusalByte b ∨ txByte b) w := by
    have hu : s.Holds (fun b => ¬ refusalByte b ∨ txByte b) u := (State.Holds.refl hwf).of_ctx huctx
    rw [← hw]
    split
    · exact hu.bumpFld _ _ _ fun b hlo hhi => not_refusal_region hkey (f := Region.violCnt) (by decide) hlo hhi
    · exact hu
  have hwcount : region = true → w.fld (regionBase (key / 65536)) Region.violCnt =
      min (s.fld (regionBase (key / 65536)) Region.violCnt + 1) 0xFFFFFFFF := fun hregion => by
    rw [← hw, if_pos hregion, State.fld_bumpFld_same _ _ (huctx ▸ hwf) rfl rfl rfl, State.fld_congr huctx]
  have hrec := w.headRecord_records (cq := w.fld (connBase c) Conn.eventCq) ⟨status, count, 0, none⟩
    (descOpcode p.opcode.toNat) c false hwbytes.wf (w.fld_lt _ Conn.eventCq)
  refine ⟨⟨?_, hwbytes.trans (hrec.bytes.mono fun b hb => ?_), ?_⟩, fun hregion => ?_⟩
  · rw [State.eventRecord, hrec.frame, hwframe, hlog, hr]
  · unfold refusalByte txByte at hb
    omega
  · rw [State.eventRecord, hrec.viol, ← hcount, ← hlogged, State.reg, State.reg, hwframe]
  · exact (hrec.bytes.fld hwbytes.wf fun b _ hb => .inl (by simp only [Region.violCnt, regionBase] at hb; omega)).trans
      (hwcount hregion)

/-- What a refusal leaves once it is answered (R260). -/
structure State.Refuses (s t : State) (c : Nat) (p : Packet) : Prop where
  reply : t.answering c 0x12 p.psn.toNat
  rx : t.x.rx = s.x.rx
  bytes : s.Holds (fun b => ¬ refusalByte b) t
  viol : t.reg R.rmaViol = min (s.reg R.rmaViol + 1) 0xFFFFFFFF

theorem State.refuse_refuses (hout : s.x.out = []) {c : Nat} (hup : s.hearsAnswers c) (esn : Nat) (p : Packet)
    (status count : Nat) (region : Bool) :
    s.Refuses (s.refuse c esn p status count region) c p ∧
    (region = true → (s.refuse c esn p status count region).fld (regionBase (refusedKey p / 65536)) Region.violCnt =
      min (s.fld (regionBase (refusedKey p / 65536)) Region.violCnt + 1) 0xFFFFFFFF) := by
  obtain ⟨hnotes, hcount⟩ := State.refusalNoted_notes hwf c p status count region (refusedAddr p) (refusedKey_lt p)
  rw [s.refuse_eq]
  generalize s.refusalNoted c p status count region (refusedKey p) (refusedAddr p) = v at hnotes hcount
  generalize hw : (if p.stream then v else v.setConnX c fun x => { x with rxFails := x.rxFails ++ [(esn, status)] }) = w
  have hwframe : w = { v with x := { v.x with conns := w.x.conns } } := by
    rw [← hw]
    split <;> rfl
  have hwbytes : s.Holds (fun b => ¬ refusalByte b ∨ txByte b) w := hnotes.bytes.of_ctx (by rw [hwframe])
  have hwout : w.x.out = [] := by
    rw [hwframe, hnotes.frame]
    exact hout
  have hwrx : w.x.rx = s.x.rx := by rw [hwframe, hnotes.frame]
  have hconn {f : Fld} (hf : f.off + f.len ≤ 256) : w.fld (connBase c) f = s.fld (connBase c) f :=
    hwbytes.fld hwf fun b _ _ => by unfold refusalByte txByte connBase at *; omega
  have hwup : w.hearsAnswers c := by
    rw [State.hearsAnswers, State.connState, hconn (by decide), hconn (by decide)]
    exact hup
  obtain ⟨hans, hreply⟩ := State.respond_answering hwbytes.wf hwout hwup p.psn status p.opcode.toNat 0 (refusedAddr p)
    (refusedKey p)
  have htx (b : Nat) (hb : ¬ refusalByte b) : ¬ txByte b := fun h => hb (.inl h)
  refine ⟨⟨hreply, ?_, (hwbytes.mono fun b hb => .inl hb).trans (hans.bytes.mono htx), ?_⟩, fun hregion => ?_⟩
  · rw [hans.frame]
    exact hwrx
  · rw [hans.regs _ (by decide), ← hnotes.viol, State.reg, State.reg, hwframe]
  · have hkey := refusedKey_lt p
    rw [hans.bytes.table hwbytes.wf not_txByte_of_lt (by simp only [Region.violCnt, regionBase]; omega), ← hcount hregion]
    exact State.fld_congr (by rw [hwframe]) _ _

end

/-! ### A request that its region refuses -/

theorem State.completeMsg_refused (u s : State) (c esn : Nat) (op : Byte) (p : Packet) (placed : Bool) :
    u.completeMsg c esn (asOp op p) [s.heldAs op p placed true] = u := by
  unfold State.completeMsg
  dsimp only
  rw [any_refused_heldAs, if_pos rfl]
  rfl

theorem windowByte.not_refusal {b : Nat} (h : windowByte b) : ¬ refusalByte b := by
  unfold windowByte at h
  unfold refusalByte txByte
  omega

section
variable {s : State} {p : Packet} (hwf : s.ctx.wf = true)
include hwf

/-- A request that its region refuses is counted there and answered (R257, R260). -/
theorem State.region_refuses {op : Byte} (hop : op ∈ [0x01, 0x02, 0x06]) (hn : s.NextPacket op p) {st : Nat}
    (hbad : s.accessCheck p.conn.toNat (asOp op p) = some st) :
    s.taken (receive (asOp op p) s) p ∧ (receive (asOp op p) s).replied p.conn.toNat 0x12 p.psn.toNat ∧
    (receive (asOp op p) s).reg R.rmaViol = min (s.reg R.rmaViol + 1) 0xFFFFFFFF ∧
    (receive (asOp op p) s).fld (regionBase (keyOfPkt p / 65536)) Region.violCnt =
      min (s.fld (regionBase (keyOfPkt p / 65536)) Region.violCnt + 1) 0xFFFFFFFF := by
  obtain ⟨hslot, hroom, hkey⟩ : op ≠ 0x11 ∧ s.roomFor p.conn.toNat (s.fld (connBase p.conn.toNat) (rxExp p.stream))
      (asOp op p) = true ∧ refusedKey (asOp op p) = keyOfPkt p := by
    simp only [List.mem_cons, List.not_mem_nil, or_false] at hop
    rcases hop with rfl | rfl | rfl <;> exact ⟨by decide, rfl, rfl⟩
  have hkeylt : keyOfPkt p < 2 ^ 32 := p.g0.isLt
  have hcounts := s.counts p.conn.toNat
  have hplace := State.placePkt_refused (s := s.counted p.conn.toNat) (p := p)
    (s.fld (connBase p.conn.toNat) (rxExp p.stream)) (hcounts.rx.trans hn.rx) hop
    ((State.accessCheck_congr hcounts.ctx _ _).trans hbad)
  have hcwf : (s.counted p.conn.toNat).ctx.wf = true := (congrArg Memory.wf hcounts.ctx).trans hwf
  obtain ⟨href, hviol⟩ := State.refuse_refuses hcwf (hcounts.out.trans hn.out)
    (State.hearsAnswers_congr hcounts.ctx hn.answers) (s.fld (connBase p.conn.toNat) (rxExp p.stream)) (asOp op p) st
    (keyOfPkt p / 65536) true
  rw [hkey, State.fld_congr hcounts.ctx] at hviol
  obtain ⟨hpass, htakes⟩ := State.receive_takes hn hwf (fun h => absurd h hslot) hroom hplace
    (href.rx.trans (hcounts.rx.trans hn.rx)) (href.bytes.mono fun _ => windowByte.not_refusal)
  rw [State.completeMsg_refused] at htakes
  obtain ⟨hacks, htaken⟩ := htakes (.refl hpass.bytes.wf)
  have hregion : regionBase (keyOfPkt p / 65536) + Region.violCnt.off + Region.violCnt.len ≤ 0x1000000 := by
    simp only [Region.violCnt, regionBase]
    omega
  refine ⟨htaken, ((href.reply.of_same hpass.out hpass.kept).of_same hacks.out hacks.kept).replied, ?_, ?_⟩
  · rw [hacks.regs _ (by decide), hpass.reg, href.viol, hcounts.regs _ (by decide)]
  · rw [hacks.bytes.table hpass.bytes.wf not_txByte_of_lt hregion,
      hpass.bytes.table href.bytes.wf not_windowByte_of_lt hregion, hviol rfl]

end

/-! ### COUNTER_ADD_REQ -/

theorem State.completeMsg_counterAdd (u s : State) (c esn : Nat) (p : Packet) (placed : Bool) :
    u.completeMsg c esn (asOp 0x07 p) [s.heldAs 0x07 p placed false] =
      if u.ctrAllowed c (p.g1.toNat % 65536) then
        (u.ctrAdd (p.g1.toNat % 65536) p.g2.toNat).respond c p.psn.toNat 0 0x07 0 0 0
      else u.refuse c esn (asOp 0x07 p) 0x20 (p.g1.toNat % 65536) false := by
  unfold State.completeMsg
  dsimp only
  rw [any_refused_heldAs, if_neg (by decide)]
  rfl

section
variable {s : State} {p : Packet} (hwf : s.ctx.wf = true)
include hwf

theorem State.Ready.ctrAllowed {u : State} (h : s.Ready u) (c ctr : Nat) : u.ctrAllowed c ctr = s.ctrAllowed c ctr := by
  rw [State.ctrAllowed, State.ctrAllowed, h.conn hwf c (by decide), h.conn hwf c (by decide)]

/-- A counter raised leaves the connections and the messages that wait. -/
theorem State.ctrAdd_holds (ctr n : Nat) (hctr : ctr < 65536) :
    s.Holds (fun b => b < 0xD00000 ∨ 0xE00000 ≤ b) (s.ctrAdd ctr n) ∧ (s.ctrAdd ctr n).x = s.x := by
  obtain ⟨hframe, hwf', hbut, -⟩ := s.ctrAdd_effect n hctr hwf
  exact ⟨(State.Holds.refl hwf).of_ctxBut hwf' hbut fun b _ _ => by unfold ctrBase at *; omega, by rw [hframe]⟩

/-- A COUNTER_ADD_REQ is answered; it raises a counter of the connection's window and no other (R240). -/
theorem State.counterAdd_answered (hn : s.NextPacket 0x07 p) :
    let ctr := p.g1.toNat % 65536
    let t := receive (asOp 0x07 p) s
    s.taken t p ∧ t.replied p.conn.toNat 0x12 p.psn.toNat ∧
    (s.ctrAllowed p.conn.toNat ctr = true →
      t.fld (ctrBase ctr) Ctr.value = (s.fld (ctrBase ctr) Ctr.value + p.g2.toNat) % 2 ^ 32) ∧
    (s.ctrAllowed p.conn.toNat ctr = false → t.fld (ctrBase ctr) Ctr.value = s.fld (ctrBase ctr) Ctr.value ∧
      t.reg R.rmaViol = min (s.reg R.rmaViol + 1) 0xFFFFFFFF) := by
  intro ctr t
  have hctr : ctr < 65536 := Nat.mod_lt _ (by decide)
  have hentry : ctrBase ctr + Ctr.value.off + Ctr.value.len ≤ 0x1000000 := by
    simp only [Ctr.value, ctrBase]
    omega
  obtain ⟨hu, htakes⟩ := State.receive_completes hn hwf (fun h => absurd h (by decide)) rfl (placed := true) rfl
  generalize (s.counted p.conn.toNat).passes (s.heldAs 0x07 p true false) = u at hu htakes
  have hup := hu.hearsAnswers hwf hn.answers
  have huout := hu.out.trans hn.out
  rw [u.completeMsg_counterAdd, hu.ctrAllowed hwf] at htakes
  change (u.Holds windowByte (if s.ctrAllowed p.conn.toNat ctr = true then
    (u.ctrAdd ctr p.g2.toNat).respond p.conn.toNat p.psn.toNat 0 0x07 0 0 0 else _) → _) at htakes
  cases hallowed : s.ctrAllowed p.conn.toNat ctr with
  | true =>
    rw [hallowed, if_pos rfl] at htakes
    obtain ⟨hheld, hx⟩ := State.ctrAdd_holds hu.bytes.wf ctr p.g2.toNat hctr
    obtain ⟨hvalue, -⟩ := u.ctrAdd_clean p.g2.toNat hctr hu.bytes.wf (hu.cleanTables.trans hn.clean)
    have hwup := hheld.hearsAnswers hu.bytes.wf (fun b hb => .inr (by omega)) hup
    obtain ⟨hans, hreply⟩ := State.respond_answering hheld.wf ((congrArg Xport.out hx).trans huout) hwup p.psn 0 0x07 0 0 0
    obtain ⟨hacks, htaken⟩ := htakes ((hheld.mono fun b hb => .inr (by unfold windowByte at hb; omega)).trans
      (hans.bytes.mono fun _ => windowByte.not_tx))
    refine ⟨htaken, (hreply.of_same hacks.out hacks.kept).replied, fun _ => ?_, fun h => absurd h (by decide)⟩
    rw [hacks.bytes.table hans.bytes.wf not_txByte_of_lt hentry, hans.bytes.table hheld.wf not_txByte_of_lt hentry,
      hvalue, hu.table hwf hentry]
  | false =>
    rw [hallowed, if_neg (by decide)] at htakes
    obtain ⟨href, -⟩ := State.refuse_refuses hu.bytes.wf huout hup
      (s.heldAs 0x07 p true false).esn (asOp 0x07 p) 0x20 (p.g1.toNat % 65536) false
    obtain ⟨hacks, htaken⟩ := htakes (href.bytes.mono fun _ => windowByte.not_refusal)
    refine ⟨htaken, (href.reply.of_same hacks.out hacks.kept).replied, fun h => absurd h (by decide), fun _ => ⟨?_, ?_⟩⟩
    · rw [hacks.bytes.table href.bytes.wf not_txByte_of_lt hentry, href.bytes.fld hu.bytes.wf fun b hlo hhi => ?_,
        hu.table hwf hentry]
      simp only [Ctr.value, ctrBase] at hlo hhi
      unfold refusalByte txByte
      omega
    · rw [hacks.regs _ (by decide), href.viol, hu.regs _ (by decide)]

end

end Sys2Proof.Machine
end

section
/-! CTRL messages of one packet (R259, R274, R275): one fills the slot that its shared receive queue has for it, one that no
slot holds is answered, and one that finds no slot draws a NAK. -/

namespace Sys2Proof.Machine

/-! ### The shared receive queue of a connection -/

section
variable {s u : State} {c : Nat} (hwf : s.ctx.wf = true)
include hwf

theorem State.Ready.srqOf (h : s.Ready u) : u.srqOf c = s.srqOf c := h.conn hwf c (by decide)

omit hwf in
/-- A field of a connection's shared receive queue lies in the tables below the connections. -/
theorem srqField_lt (s : State) (c : Nat) {f : Fld} (hf : f.off + f.len ≤ 64) :
    srqBase (s.srqOf c) + f.off + f.len ≤ 0x1000000 := by
  have hlt : s.srqOf c < 2 ^ 10 := s.fld_lt _ Conn.srq
  unfold srqBase
  omega

theorem State.Ready.srq (h : s.Ready u) {f : Fld} (hf : f.off + f.len ≤ 64) :
    u.fld (srqBase (s.srqOf c)) f = s.fld (srqBase (s.srqOf c)) f := h.table hwf (srqField_lt s c hf)

theorem State.Ready.ctrlTooBig (h : s.Ready u) (p : Packet) : u.ctrlTooBig c p = s.ctrlTooBig c p := by
  rw [State.ctrlTooBig, State.ctrlTooBig, h.srqOf hwf, h.srq hwf (by decide)]

end

/-! ### A message that completes -/

theorem State.completeMsg_ctrl (u s : State) (c esn : Nat) (p : Packet) (placed : Bool) :
    u.completeMsg c esn (asOp 0x11 p) [s.heldAs 0x11 p placed false] = u.ctrlDone c esn (asOp 0x11 p) := by
  unfold State.completeMsg
  dsimp only
  rw [any_refused_heldAs, if_neg (by decide)]
  rfl

section
variable {s : State} {p : Packet} (hwf : s.ctx.wf = true)
include hwf

/-- A CTRL message that no slot of its queue can hold is answered (R275). -/
theorem State.ctrl_tooBig (hn : s.NextPacket 0x11 p) (hbig : s.ctrlTooBig p.conn.toNat p = true)
    (hslot : s.slotFree p.conn.toNat = true) :
    s.taken (receive (asOp 0x11 p) s) p ∧ (receive (asOp 0x11 p) s).replied p.conn.toNat 0x12 p.psn.toNat ∧
    (receive (asOp 0x11 p) s).mem = s.mem ∧ (receive (asOp 0x11 p) s).q = s.q := by
  obtain ⟨hu, htakes⟩ := State.receive_completes hn hwf (fun _ => hslot) rfl (placed := true) rfl
  generalize (s.counted p.conn.toNat).passes (s.heldAs 0x11 p true false) = u at hu htakes
  have hubig : u.ctrlTooBig p.conn.toNat (asOp 0x11 p) = true := (hu.ctrlTooBig hwf p).trans hbig
  have hdone (esn : Nat) : u.ctrlDone p.conn.toNat esn (asOp 0x11 p) =
      u.respond p.conn.toNat p.psn.toNat 0x23 0x11 0 0 0 := by
    rw [State.ctrlDone, if_pos hubig]
    rfl
  rw [u.completeMsg_ctrl, hdone] at htakes
  obtain ⟨hans, hreply⟩ := State.respond_answering hu.bytes.wf (hu.out.trans hn.out)
    (hu.hearsAnswers hwf hn.answers) p.psn 0x23 0x11 0 0 0
  obtain ⟨hacks, htaken⟩ := htakes (hans.bytes.mono fun _ => windowByte.not_tx)
  exact ⟨htaken, (hreply.of_same hacks.out hacks.kept).replied, hacks.mem.trans (hans.mem.trans hu.mem),
    hacks.q.trans (hans.q.trans hu.q)⟩

end

/-- The 32 bytes before a CTRL message in its slot (R275). -/
def slotHeader (c : Nat) (p : Packet) : Bytes :=
  toLE 1 0x11 ++ zeros 1 ++ toLE 3 p.src.toNat ++ zeros 1 ++ toLE 2 c ++ toLE 4 p.payload.length ++
    toLE 2 (chanSeq p).1 ++ zeros 2 ++ toLE 4 (chanSeq p).2 ++ zeros 12

theorem length_slotHeader (c : Nat) (p : Packet) : (slotHeader c p).length = 32 := by simp [slotHeader, zeros]

/-- The slot that a shared receive queue fills next (R274). -/
def State.srqSlot (s : State) (c : Nat) : Nat :=
  s.fld (srqBase (s.srqOf c)) Srq.base +
    s.fld (srqBase (s.srqOf c)) Srq.ci % 2 ^ s.fld (srqBase (s.srqOf c)) Srq.log2Slots *
      2 ^ s.fld (srqBase (s.srqOf c)) Srq.log2Slot

/-- A message that its slot can hold, in a queue that the hardware owns, is written there, and CI moves on (R275). -/
theorem State.ctrlDone_slot {u : State} {c : Nat} (esn : Nat) {p : Packet} (hwf : u.ctx.wf = true)
    (hfits : u.ctrlTooBig c p = false) (hown : u.flag (srqBase (u.srqOf c)) Srq.owner = true) (hctr : p.ctrEn = false) :
    u.ctrlDone c esn p = (u.wrP p.poison (u.srqSlot c) (slotHeader c p ++ p.payload)).setFld (srqBase (u.srqOf c)) Srq.ci
      ((u.fld (srqBase (u.srqOf c)) Srq.ci + 1) % 2 ^ 20) := by
  have howned (a : Nat) (bs : Bytes) (v : Nat) : ((u.wrP p.poison a bs).setFld (srqBase (u.srqOf c)) Srq.ci v).flag
      (srqBase (u.srqOf c)) Srq.owner = true := by
    have hctx := u.wrP_ctx p.poison a bs
    rw [State.flag, State.fld_setFld_other _ _ (by rw [hctx]; exact hwf) (by simp [Srq.owner, Srq.ci]), State.fld_congr hctx]
    exact hown
  have hraise (v : State) : v.raiseFor c esn p = v := by simp [State.raiseFor, hctr]
  unfold State.ctrlDone
  rw [hfits, if_neg (by decide)]
  dsimp only
  rw [howned, if_pos rfl, hraise]
  rfl

theorem State.rd_of_slot {s t : State} {a n : Nat} {hdr bs : Bytes} (h : s.mem.wf = true) (hhdr : hdr.length = 32)
    (hl : bs.length = n) (ht : t.mem = s.mem.writeN a (hdr ++ bs)) : t.rd (a + 32) n = bs ∧ s.memBut t a (32 + n) := by
  have hlen : (hdr ++ bs).length = 32 + n := by rw [List.length_append, hhdr, hl]
  refine ⟨?_, fun x hx => by rw [ht]; exact Memory.read_writeN_other h (hlen ▸ hx)⟩
  rw [State.rd, ht, Memory.readN_eq _ _ (Memory.wf_writeN a _ h)]
  refine List.ext_getElem (by simp [hl]) fun i h1 h2 => ?_
  simp only [List.getElem_map, List.getElem_range]
  rw [Memory.read_writeN a _ _ h, if_pos (by omega), show a + 32 + i - a = hdr.length + i by omega]
  simp [nth, h2]

section
variable {s : State} {p : Packet} (hwf : s.ctx.wf = true)
include hwf

/-- A CTRL message fills the slot that its queue has for it (R275). -/
theorem State.ctrl_placed (hmem : s.mem.wf = true) (hn : s.NextPacket 0x11 p)
    (hfits : s.ctrlTooBig p.conn.toNat p = false) (hslot : s.slotFree p.conn.toNat = true) (hctr : p.ctrEn = false)
    (hown : s.flag (srqBase (s.srqOf p.conn.toNat)) Srq.owner = true) :
    let q := srqBase (s.srqOf p.conn.toNat)
    let t := receive (asOp 0x11 p) s
    s.taken t p ∧ t.rd (s.srqSlot p.conn.toNat + 32) p.payload.length = p.payload ∧
    s.memBut t (s.srqSlot p.conn.toNat) (32 + p.payload.length) ∧ t.fld q Srq.ci = (s.fld q Srq.ci + 1) % 2 ^ 20 := by
  intro q t
  obtain ⟨hu, htakes⟩ := State.receive_completes hn hwf (fun _ => hslot) rfl (placed := true) rfl
  generalize (s.counted p.conn.toNat).passes (s.heldAs 0x11 p true false) = u at hu htakes
  have hsrq : u.srqOf p.conn.toNat = s.srqOf p.conn.toNat := hu.srqOf hwf
  have hufits : u.ctrlTooBig p.conn.toNat (asOp 0x11 p) = false := (hu.ctrlTooBig hwf p).trans hfits
  have huown : u.flag (srqBase (u.srqOf p.conn.toNat)) Srq.owner = true := by
    rw [State.flag, hsrq, hu.srq hwf (by decide)]
    exact hown
  have huslot : u.srqSlot p.conn.toNat = s.srqSlot p.conn.toNat := by
    rw [State.srqSlot, State.srqSlot, hsrq, hu.srq hwf (by decide), hu.srq hwf (by decide), hu.srq hwf (by decide),
      hu.srq hwf (by decide)]
  generalize hhdr : slotHeader p.conn.toNat (asOp 0x11 p) = hdr
  have hhdr32 : hdr.length = 32 := hhdr ▸ length_slotHeader _ _
  have hdone (esn : Nat) : u.ctrlDone p.conn.toNat esn (asOp 0x11 p) =
      (u.wrP p.poison (s.srqSlot p.conn.toNat) (hdr ++ p.payload)).setFld q Srq.ci ((s.fld q Srq.ci + 1) % 2 ^ 20) := by
    rw [State.ctrlDone_slot _ hu.bytes.wf hufits huown hctr, huslot, hsrq, hu.srq hwf (by decide), hhdr]
    rfl
  rw [u.completeMsg_ctrl, hdone] at htakes
  have hwctx := u.wrP_ctx p.poison (s.srqSlot p.conn.toNat) (hdr ++ p.payload)
  have hwmem := u.wrP_mem p.poison (s.srqSlot p.conn.toNat) (hdr ++ p.payload)
  generalize u.wrP p.poison (s.srqSlot p.conn.toNat) (hdr ++ p.payload) = w at htakes hwctx hwmem
  have hin := srqField_lt s p.conn.toNat (f := Srq.ci) (by decide)
  have hwwf : w.ctx.wf = true := (congrArg Memory.wf hwctx).trans hu.bytes.wf
  have hkeep : u.Holds windowByte (w.setFld q Srq.ci ((s.fld q Srq.ci + 1) % 2 ^ 20)) :=
    ((State.Holds.refl hu.bytes.wf).of_ctx hwctx).setFld _ _ _ fun b _ hb hwin => by
      unfold windowByte at hwin
      omega
  obtain ⟨hacks, htaken⟩ := htakes hkeep
  have htmem : t.mem = s.mem.writeN (s.srqSlot p.conn.toNat) (hdr ++ p.payload) :=
    hacks.mem.trans (hwmem.trans (congrArg (fun m : Memory => m.writeN _ _) hu.mem))
  obtain ⟨hrd, hbut⟩ := State.rd_of_slot hmem hhdr32 rfl htmem
  refine ⟨htaken, hrd, hbut, ?_⟩
  rw [hacks.bytes.table hkeep.wf not_txByte_of_lt hin, State.fld_setFld_same _ _ _ hwwf (by decide) (by decide)]
  exact Nat.mod_mod _ _

end

/-! ### No slot -/

/-- A NAK for want of room sent, or kept back by a worn key (R267, R273). -/
theorem State.sendAck_rnr {s : State} (hwf : s.ctx.wf = true) (c m : Nat) (control : Bool) :
    let t := s.sendAck c control (some (1, m))
    t.q = s.q ∧ t.mem = s.mem ∧ s.Holds (fun b => ¬ txByte b) t ∧
    (s.regBit (R.hdrIrqStat 0x70) 3 = true → t.regBit (R.hdrIrqStat 0x70) 3 = true) ∧
    (s.worn c = false → t.reg R.rmaRnrTx = min (s.reg R.rmaRnrTx + 1) 0xFFFFFFFF) := by
  intro t
  by_cases hworn : s.worn c = true
  · have ht : t = s := if_pos hworn
    rw [ht]
    exact ⟨rfl, rfl, .refl hwf, id, fun h => absurd (hworn.symm.trans h) (by decide)⟩
  · obtain ⟨pkt, ht⟩ : ∃ pkt, t = ((s.bump R.rmaNakTx).bump R.rmaRnrTx).sendSpace c pkt := ⟨_, if_neg hworn⟩
    obtain ⟨r, hr⟩ := s.bump_effect R.rmaNakTx 1
    obtain ⟨r', hr'⟩ := (s.bump R.rmaNakTx).bump_effect R.rmaRnrTx 1
    have hcount : ((s.bump R.rmaNakTx).bump R.rmaRnrTx).reg R.rmaRnrTx = min (s.reg R.rmaRnrTx + 1) 0xFFFFFFFF := by
      rw [State.reg_bump_same _ (by decide), State.reg_bump_other _ _ (by decide)]
    have hstat : ((s.bump R.rmaNakTx).bump R.rmaRnrTx).reg (R.hdrIrqStat 0x70) = s.reg (R.hdrIrqStat 0x70) := by
      rw [State.reg_bump_other _ _ (by decide), State.reg_bump_other _ _ (by decide)]
    have hctx : ((s.bump R.rmaNakTx).bump R.rmaRnrTx).ctx = s.ctx := by rw [hr', hr]
    have hq : ((s.bump R.rmaNakTx).bump R.rmaRnrTx).q = s.q := by rw [hr', hr]
    have hmem : ((s.bump R.rmaNakTx).bump R.rmaRnrTx).mem = s.mem := by rw [hr', hr]
    generalize (s.bump R.rmaNakTx).bump R.rmaRnrTx = w at ht hcount hstat hctx hq hmem
    have hacks : w.Acks t := ht ▸ (State.Acks.refl ((congrArg Memory.wf hctx).trans hwf)).sendSpace c pkt
    refine ⟨hacks.q.trans hq, hacks.mem.trans hmem, ((State.Holds.refl hwf).of_ctx hctx).trans hacks.bytes,
      fun h => hacks.stat ?_, fun _ => (hacks.regs _ (by decide)).trans hcount⟩
    rw [State.regBit, hstat]
    exact h

section
variable {s : State} {p : Packet} (hwf : s.ctx.wf = true)
include hwf

/-- A CTRL message that finds no slot is counted at its queue and draws a NAK (R259, R275). -/
theorem State.ctrl_noSlot (hn : s.NextPacket 0x11 p) (hslot : s.slotFree p.conn.toNat = false) :
    let q := srqBase (s.srqOf p.conn.toNat)
    let t := receive (asOp 0x11 p) s
    t.fld (connBase p.conn.toNat) (rxExp p.stream) = s.fld (connBase p.conn.toNat) (rxExp p.stream) ∧ t.mem = s.mem ∧
    t.q = s.q ∧ t.fld q Srq.emptyCnt = min (s.fld q Srq.emptyCnt + 1) 0xFFFFFFFF ∧
    t.regBit (R.hdrIrqStat 0x70) 3 = true ∧
    (s.worn p.conn.toNat = false → t.reg R.rmaRnrTx = min (s.reg R.rmaRnrTx + 1) 0xFFFFFFFF) := by
  intro q t
  generalize hy : s.setConnX p.conn.toNat (fun x => { x with seen := true }) = y
  have hctx : y.ctx = s.ctx := hy ▸ rfl
  have hyslot : ((asOp 0x11 p).opcode = 0x11 && !y.slotFree p.conn.toNat) = true := by
    have hnone : y.slotFree p.conn.toNat = false := hy ▸ hslot
    rw [hnone]
    rfl
  have hymap : y.fld (connBase p.conn.toNat) (rxMap p.stream) = 0 := (State.fld_congr hctx _ _).trans hn.noGap
  have hsrq : y.srqOf p.conn.toNat = s.srqOf p.conn.toNat := State.fld_congr hctx _ _
  obtain ⟨m, ht⟩ : ∃ m, t = ((y.bumpFld q Srq.emptyCnt).raiseIrq 0x70 8).sendAck p.conn.toNat p.stream (some (1, m)) := by
    refine ⟨s.fld (connBase p.conn.toNat) (rxExp p.stream) % 2 ^ 24, (receive_next hn).trans ?_⟩
    rw [hy]
    unfold State.accept5
    dsimp only
    rw [show (asOp 0x11 p).stream = p.stream from rfl, hymap, Nat.zero_testBit, if_neg (by decide), if_pos hyslot, hsrq]
  obtain ⟨r, i, hirq⟩ := (y.bumpFld q Srq.emptyCnt).raiseIrq_effect 0x70 8
  have hstat : ((y.bumpFld q Srq.emptyCnt).raiseIrq 0x70 8).regBit (R.hdrIrqStat 0x70) 3 = true := by
    rw [State.regBit, State.reg_raiseIrq_stat _ (by decide), Nat.testBit_or, show Nat.testBit 8 3 = true by decide,
      Bool.or_true]
  have hrnr : ((y.bumpFld q Srq.emptyCnt).raiseIrq 0x70 8).reg R.rmaRnrTx = s.reg R.rmaRnrTx := by
    rw [State.raiseIrq_regsBut _ 0x70 8 _ (by decide)]
    exact hy ▸ rfl
  have hwctx : ((y.bumpFld q Srq.emptyCnt).raiseIrq 0x70 8).ctx = (y.bumpFld q Srq.emptyCnt).ctx := by rw [hirq]
  have hwq : ((y.bumpFld q Srq.emptyCnt).raiseIrq 0x70 8).q = s.q := by
    rw [hirq]
    exact hy ▸ rfl
  have hwmem : ((y.bumpFld q Srq.emptyCnt).raiseIrq 0x70 8).mem = s.mem := by
    rw [hirq]
    exact hy ▸ rfl
  generalize (y.bumpFld q Srq.emptyCnt).raiseIrq 0x70 8 = w at ht hstat hrnr hwctx hwq hwmem
  have hin := srqField_lt s p.conn.toNat (f := Srq.emptyCnt) (by decide)
  have hbytes : s.Holds (fun b => 0x1000000 ≤ b) w :=
    (((State.Holds.refl hwf).of_ctx hctx).bumpFld q Srq.emptyCnt 1 fun b _ hb => by omega).of_ctx hwctx
  have hcount : w.fld q Srq.emptyCnt = min (s.fld q Srq.emptyCnt + 1) 0xFFFFFFFF := by
    rw [State.fld_congr hwctx, State.fld_bumpFld_same _ _ ((congrArg Memory.wf hctx).trans hwf) rfl rfl rfl,
      State.fld_congr hctx]
  have hworn : w.worn p.conn.toNat = s.worn p.conn.toNat := by
    rw [State.worn, State.worn, hbytes.fld hwf fun b hb _ => by unfold connBase at hb; omega]
  obtain ⟨htq, htmem, htbytes, htstat, htrnr⟩ := State.sendAck_rnr hbytes.wf p.conn.toNat m p.stream
  rw [← ht] at htq htmem htbytes htstat htrnr
  obtain ⟨-, hexp⟩ := (htbytes.mono fun _ => windowByte.not_tx).window hbytes.wf p.conn.toNat p.stream
  obtain ⟨-, hexp'⟩ := (hbytes.mono fun _ (h : windowByte _) => h.1).window hwf p.conn.toNat p.stream
  refine ⟨hexp.trans hexp', htmem.trans hwmem, htq.trans hwq, ?_, htstat hstat, fun h => ?_⟩
  · rw [htbytes.table hbytes.wf not_txByte_of_lt hin, hcount]
  · rw [htrnr (hworn.trans h), hrnr]

end

end Sys2Proof.Machine
end

section
/-! The coalescing buffer during one operation that starts with it empty (R201, R202, R207): memory as the operation sees it,
through its lines, and what the lines leave in host memory once they are released. -/

namespace Sys2Proof.Machine

/-! ### Memory as an operation sees it -/

/-- Bytes [a, a + n) of a memory given byte by byte. -/
def bytesAt (m : Nat → Byte) (a n : Nat) : Bytes := (List.range n).map fun i => m (a + i)

/-- A memory with a run of bytes at an address. -/
def patch (m : Nat → Byte) (a : Nat) (bs : Bytes) (x : Nat) : Byte :=
  if a ≤ x ∧ x < a + bs.length then nth bs (x - a) 0 else m x

@[simp] theorem length_bytesAt (m : Nat → Byte) (a n : Nat) : (bytesAt m a n).length = n := by simp [bytesAt]

theorem nth_bytesAt (m : Nat → Byte) (a : Nat) {n i : Nat} (h : i < n) : nth (bytesAt m a n) i 0 = m (a + i) := by
  simp [nth, bytesAt, h]

theorem sub_bytesAt (m : Nat → Byte) (a : Nat) {n off len : Nat} (h : off + len ≤ n) :
    sub (bytesAt m a n) off len = bytesAt m (a + off) len := by
  rw [sub_eq]
  refine List.map_congr_left fun i hi => ?_
  have := List.mem_range.mp hi
  have hn := nth_bytesAt m a (n := n) (i := off + i) (by omega)
  rw [Nat.add_assoc]
  exact hn

theorem bytesAt_patch_same (m : Nat → Byte) (a : Nat) (bs : Bytes) : bytesAt (patch m a bs) a bs.length = bs := by
  refine List.ext_getElem (length_bytesAt _ _ _) fun i h1 h2 => ?_
  simp [bytesAt, patch, nth, h2]

theorem patch_other (m : Nat → Byte) {a x : Nat} {bs : Bytes} (h : x < a ∨ a + bs.length ≤ x) : patch m a bs x = m x :=
  if_neg (by omega)

theorem bytesAt_congr {m m' : Nat → Byte} {a n : Nat} (h : ∀ x, a ≤ x → x < a + n → m x = m' x) :
    bytesAt m a n = bytesAt m' a n :=
  List.map_congr_left fun i hi => h _ (by omega) (by have := List.mem_range.mp hi; omega)

/-- Bytes of a granule with some of them replaced. -/
theorem put_bytesAt (m : Nat → Byte) (g : Nat) {k : Nat} {bs : Bytes} (h : k + bs.length ≤ 64) :
    put (bytesAt m (g * 64) 64) k bs = bytesAt (patch m (g * 64 + k) bs) (g * 64) 64 := by
  have hsub : sub (bytesAt m (g * 64) 64) 0 k = bytesAt m (g * 64) k := sub_bytesAt m _ (by omega)
  rw [put, hsub]
  refine List.ext_getElem (by simp; omega) fun i h1 h2 => ?_
  simp only [length_bytesAt] at h2
  simp only [List.getElem_append, length_bytesAt, List.length_append, List.getElem_drop]
  split
  · next hi =>
    split
    · next hk => simp [bytesAt, patch]; omega
    · next hk =>
      have hlt : i - k < bs.length := by omega
      simp only [bytesAt, patch, List.getElem_map, List.getElem_range]
      rw [if_pos (by omega), show g * 64 + i - (g * 64 + k) = i - k by omega]
      simp [nth, hlt]
  · next hi =>
    simp at hi
    simp only [bytesAt, patch, List.getElem_map, List.getElem_range]
    rw [if_neg (by omega)]
    congr 1
    omega

/-- An operation that started with an empty coalescing buffer, in the state o, at work: m is memory as it sees it. Its lines
hold what it sees, one for a granule, and host memory holds the rest (R201). -/
structure State.Buffers (o s : State) (id : Nat) (m : Nat → Byte) : Prop where
  ctx : s.ctx = o.ctx
  x : s.x = o.x
  wf : s.mem.wf = true
  good : s.memPoison = []
  line : ∀ l ∈ s.cb, l.data = bytesAt m (l.granule * 64) 64 ∧ l.poison = false ∧ l.users = [id]
  one : ∀ l ∈ s.cb, ∀ l' ∈ s.cb, l.granule = l'.granule → l = l'
  rest : ∀ x, (∀ l ∈ s.cb, l.granule = x / 64 → l.dirty = false) → s.mem.read x = m x

section
variable {o s t : State} {id : Nat} {m : Nat → Byte}

theorem State.Buffers.start (hwf : s.mem.wf = true) (hgood : s.memPoison = []) (hcb : s.cb = []) :
    s.Buffers s id s.mem.read :=
  ⟨rfl, rfl, hwf, hgood, by simp [hcb], by simp [hcb], fun _ _ => rfl⟩

/-- A step that leaves host memory and the lines. -/
theorem State.Buffers.step (h : o.Buffers s id m) (hctx : t.ctx = s.ctx) (hx : t.x = s.x) (hmem : t.mem = s.mem)
    (hgood : t.memPoison = s.memPoison) (hcb : t.cb = s.cb) : o.Buffers t id m :=
  ⟨hctx.trans h.ctx, hx.trans h.x, hmem ▸ h.wf, hgood.trans h.good, hcb ▸ h.line, hcb ▸ h.one, hcb ▸ hmem ▸ h.rest⟩

theorem State.Buffers.bump (h : o.Buffers s id m) (a n : Nat) : o.Buffers (s.bump a n) id m :=
  h.step (by simp) (by simp) (by simp) (by simp) (by simp)

theorem State.Buffers.bump64 (h : o.Buffers s id m) (a n : Nat) : o.Buffers (s.bump64 a n) id m :=
  h.step (by simp) (by simp) (by simp) (by simp) (by simp)

theorem State.Buffers.touch (h : o.Buffers s id m) (k g : Nat) : o.Buffers (s.touch k g) id m := by
  unfold State.touch
  split
  · exact h
  · exact h.step rfl rfl rfl rfl rfl

/-! ### Lines written back -/

theorem State.cbWriteBack_good {l : CbLine} (hl : l.poison = false) (hgood : s.memPoison = []) :
    ∃ r, s.cbWriteBack l =
      { s with mem := if l.dirty then s.mem.writeN (l.granule * 64) l.data else s.mem, regs := r } := by
  unfold State.cbWriteBack
  cases l.dirty with
  | false => exact ⟨_, rfl⟩
  | true =>
    have hread : s.cbRead l = s := if_neg (by rw [hl]; decide)
    obtain ⟨r, hr⟩ := (s.wr (l.granule * 64) l.data).bump64_effect (R.abutCbWbLo (abutOf (l.granule * 64))) 1
    refine ⟨r, ?_⟩
    rw [if_pos rfl, if_pos rfl, hread, hl, show s.wrP false (l.granule * 64) l.data = s.wr (l.granule * 64) l.data from rfl,
      hr, State.wr, hgood]
    rfl

/-- Lines that hold what the operation sees, written back: each byte of host memory is then as it sees it, or is as before
and in no dirty line (R202). -/
theorem State.writeBacks_seen (ls : List CbLine) (hwf : s.mem.wf = true) (hgood : s.memPoison = [])
    (hls : ∀ l ∈ ls, l.data = bytesAt m (l.granule * 64) 64 ∧ l.poison = false) :
    let t := ls.foldl State.cbWriteBack s
    (∃ r, t = { s with mem := t.mem, regs := r }) ∧ t.mem.wf = true ∧
    ∀ x, t.mem.read x = m x ∨ t.mem.read x = s.mem.read x ∧ ∀ l ∈ ls, l.granule = x / 64 → l.dirty = false := by
  induction ls generalizing s with
  | nil => exact ⟨⟨_, rfl⟩, hwf, fun x => .inr ⟨rfl, by simp⟩⟩
  | cons l ls ih =>
    obtain ⟨hdata, hpoison⟩ := hls l List.mem_cons_self
    obtain ⟨r, hr⟩ := State.cbWriteBack_good hpoison hgood
    generalize hu : s.cbWriteBack l = u at hr
    have humem : u.mem = if l.dirty then s.mem.writeN (l.granule * 64) l.data else s.mem := by rw [hr]
    have huwf : u.mem.wf = true := by
      rw [humem]
      split
      · exact Memory.wf_writeN _ _ hwf
      · exact hwf
    have huread (x : Nat) : u.mem.read x = m x ∨
        u.mem.read x = s.mem.read x ∧ (l.granule = x / 64 → l.dirty = false) := by
      rw [humem]
      split
      · rw [Memory.read_writeN _ _ _ hwf, hdata, length_bytesAt]
        split
        · next hin =>
          rw [nth_bytesAt _ _ (by omega)]
          exact .inl (congrArg m (by omega))
        · next hout => exact .inr ⟨rfl, fun hg => absurd hg (by omega)⟩
      · next hdirty => exact .inr ⟨rfl, fun _ => Bool.eq_false_iff.mpr hdirty⟩
    obtain ⟨⟨r', hr'⟩, htwf, htread⟩ := ih (s := u) huwf (by rw [hr]; exact hgood) fun x hx =>
      hls x (List.mem_cons_of_mem l hx)
    dsimp only
    rw [List.foldl_cons, hu]
    refine ⟨⟨r', by rw [hr', hr]⟩, htwf, fun x => ?_⟩
    rcases htread x with h | ⟨h, hclean⟩
    · exact .inl h
    · rcases huread x with hs | ⟨hs, hl⟩
      · exact .inl (h.trans hs)
      · refine .inr ⟨h.trans hs, fun y hy => ?_⟩
        rcases List.mem_cons.mp hy with rfl | hy
        · exact hl
        · exact hclean y hy

/-! ### Reads and writes of the operation -/

theorem State.poisoned_good (h : s.memPoison = []) (a n : Nat) : s.poisoned a n = false := by
  rw [State.poisoned, h]
  rfl

theorem State.Buffers.rd_granule (h : o.Buffers s id m) {g : Nat} (hg : ∀ l ∈ s.cb, l.granule ≠ g) :
    s.rd (g * 64) 64 = bytesAt m (g * 64) 64 := by
  rw [State.rd, Memory.readN_eq _ _ h.wf]
  refine List.map_congr_left fun i hi => h.rest _ fun l hl hx => absurd hx ?_
  have := List.mem_range.mp hi
  have := hg l hl
  omega

/-- A granule as an Abutment sees it is what the operation sees (R201). -/
theorem State.Buffers.granule (h : o.Buffers s id m) (g : Nat) : s.granule g = (bytesAt m (g * 64) 64, false) := by
  unfold State.granule
  cases hfind : s.cb.find? (fun l => l.granule == g) with
  | some l =>
    obtain ⟨hdata, hpoison, -⟩ := h.line l (List.mem_of_find?_eq_some hfind)
    have hg : l.granule = g := by simpa using List.find?_some hfind
    dsimp only
    rw [hdata, hpoison, hg]
  | none =>
    dsimp only
    rw [h.rd_granule fun l hl => by simpa using List.find?_eq_none.mp hfind l hl, State.poisoned_good h.good]

/-- A cell lies in one granule. -/
theorem unitsOf_cell {a : Nat} (ha : a % 4 = 0) : unitsOf 64 a 4 = (a / 64, 1) := by
  rw [unitsOf, if_neg (by decide)]
  exact Prod.ext rfl (show (a + 4 - 1) / 64 + 1 - a / 64 = 1 by omega)

theorem State.Buffers.seen_cell (h : o.Buffers s id m) {a : Nat} (ha : a % 4 = 0) : s.seen a 4 = (bytesAt m a 4, false) := by
  unfold State.seen
  rw [unitsOf_cell ha]
  dsimp only
  rw [show List.range 1 = [0] from rfl, List.map_singleton, List.map_singleton, List.flatten_singleton, Nat.add_zero,
    h.granule, sub_bytesAt _ _ (by omega), show a / 64 * 64 + (a - a / 64 * 64) = a by omega]
  rfl

theorem State.mem_cbRoom (s : State) {k : Nat} {l : CbLine} (h : l ∈ (s.cbRoom k).cb) : l ∈ s.cb := by
  unfold State.cbRoom at h
  split at h
  · exact h
  · split at h
    · exact h
    · exact List.mem_of_mem_filter h

/-- A line evicted (R202). -/
theorem State.Buffers.cbRoom (h : o.Buffers s id m) (k : Nat) : o.Buffers (s.cbRoom k) id m := by
  unfold State.cbRoom
  split
  · exact h
  · split
    · exact h
    · next l hfind =>
      have hl : l ∈ s.cb := List.mem_reverse.mp (List.mem_of_find?_eq_some hfind)
      obtain ⟨hdata, hpoison, -⟩ := h.line l hl
      obtain ⟨⟨r, hr⟩, hwf, hread⟩ := State.writeBacks_seen (s := s) (m := m) [l] h.wf h.good fun y hy => by
        rw [List.mem_singleton.mp hy]
        exact ⟨hdata, hpoison⟩
      change s.cbWriteBack l = { s with mem := (s.cbWriteBack l).mem, regs := r } at hr
      change (s.cbWriteBack l).mem.wf = true at hwf
      change ∀ x, (s.cbWriteBack l).mem.read x = m x ∨ (s.cbWriteBack l).mem.read x = s.mem.read x ∧ _ at hread
      generalize s.cbWriteBack l = w at hr hwf hread
      have hkeep (y : CbLine) (hy : y ∈ s.cb.filter fun x => x.granule != l.granule) : y ∈ s.cb :=
        List.mem_of_mem_filter hy
      refine ⟨?_, ?_, hwf, ?_, fun y hy => h.line y (hkeep y hy), fun y hy z hz => h.one y (hkeep y hy) z (hkeep z hz),
        fun x hx => ?_⟩
      · rw [hr]; exact h.ctx
      · rw [hr]; exact h.x
      · rw [hr]; exact h.good
      · rcases hread x with hm | ⟨hm, hclean⟩
        · exact hm
        · refine hm.trans (h.rest x fun y hy hg => ?_)
          by_cases hsame : y.granule = l.granule
          · rw [h.one y hy l hl hsame]
            exact hclean l (List.mem_singleton_self l) (hsame.symm.trans hg)
          · exact hx y (List.mem_filter.mpr ⟨hy, by simpa using hsame⟩) hg

/-- The line of a granule brought to the front, or read from memory (R201). -/
theorem State.Buffers.cbTouch (h : o.Buffers s id m) (a : Nat) : o.Buffers (s.cbTouch id a true) id m := by
  have hlook := (h.bump64 (R.abutCbLookupLo (abutOf a)) 1).touch id (a / 64)
  unfold State.cbTouch State.abutBump64
  dsimp only
  generalize (s.bump64 (R.abutCbLookupLo (abutOf a)) 1).touch id (a / 64) = u at hlook
  cases hfind : u.cb.find? (fun l => l.granule == a / 64) with
  | some l =>
    dsimp only
    have hl : l ∈ u.cb := List.mem_of_find?_eq_some hfind
    obtain ⟨-, -, husers⟩ := hlook.line l hl
    have hmine : (if l.users.contains id then l.users else l.users ++ [id]) = l.users := by simp [husers]
    rw [hmine]
    have hg : l.granule = a / 64 := by simpa using List.find?_some hfind
    have hmem (y : CbLine) : y ∈ l :: u.cb.filter (fun x => x.granule != a / 64) ↔ y ∈ u.cb := by
      simp only [List.mem_cons, List.mem_filter, bne_iff_ne]
      refine ⟨fun hy => hy.elim (fun he => he ▸ hl) And.left, fun hy => ?_⟩
      by_cases hya : y.granule = a / 64
      · exact .inl (hlook.one y hy l hl (hya.trans hg.symm))
      · exact .inr ⟨hy, hya⟩
    exact ⟨hlook.ctx, hlook.x, hlook.wf, hlook.good, fun y hy => hlook.line y ((hmem y).mp hy),
      fun y hy z hz => hlook.one y ((hmem y).mp hy) z ((hmem z).mp hz),
      fun x hx => hlook.rest x fun y hy => hx y ((hmem y).mpr hy)⟩
  | none =>
    have hw := (hlook.cbRoom (abutOf a)).bump64 (R.abutCbMissLo (abutOf a)) 1
    have hnone : ∀ y ∈ ((u.cbRoom (abutOf a)).bump64 (R.abutCbMissLo (abutOf a))).cb, y.granule ≠ a / 64 := fun y hy => by
      rw [State.bump64_cb] at hy
      simpa using List.find?_eq_none.mp hfind y (u.mem_cbRoom hy)
    dsimp only
    generalize (u.cbRoom (abutOf a)).bump64 (R.abutCbMissLo (abutOf a)) = w at hw hnone
    rw [if_pos rfl, hw.rd_granule hnone, State.poisoned_good hw.good]
    refine ⟨hw.ctx, hw.x, hw.wf, hw.good, fun y hy => ?_, fun y hy z hz hg => ?_,
      fun x hx => hw.rest x fun y hy => hx y (List.mem_cons_of_mem _ hy)⟩
    · rcases List.mem_cons.mp hy with rfl | hy
      · exact ⟨rfl, rfl, rfl⟩
      · exact hw.line y hy
    · rcases List.mem_cons.mp hy with rfl | hy <;> rcases List.mem_cons.mp hz with rfl | hz
      · rfl
      · exact absurd hg.symm (hnone z hz)
      · exact absurd hg (hnone y hy)
      · exact hw.one y hy z hz hg

/-- A cell read through its line (R201). -/
theorem State.Buffers.abLoad (h : o.Buffers s id m) {a : Nat} (ha : a % 4 = 0) :
    (s.abLoad id a 4).1 = (leNat (bytesAt m a 4), false) ∧ o.Buffers (s.abLoad id a 4).2 id m := by
  have ht := h.cbTouch a
  unfold State.abLoad
  rw [if_pos rfl]
  dsimp only
  rw [ht.seen_cell ha]
  exact ⟨rfl, ht⟩

/-- Cells read in order. -/
theorem State.Buffers.abLoads (h : o.Buffers s id m) {a : Nat} (ha : a % 4 = 0) (n : Nat) :
    (s.abLoads id a 4 n).1 = (List.range n).map (fun j => (leNat (bytesAt m (a + 4 * j) 4), false)) ∧
    o.Buffers (s.abLoads id a 4 n).2 id m := by
  induction n with
  | zero => exact ⟨rfl, h⟩
  | succ n ih =>
    obtain ⟨hvals, hbuf⟩ := ih
    obtain ⟨hval, hbuf'⟩ := hbuf.abLoad (a := a + 4 * n) (by omega)
    refine ⟨?_, hbuf'⟩
    rw [List.range_succ, List.map_append, ← hvals, List.map_singleton, ← hval]
    rfl

/-- A line after bytes of a granule are written good where the Abutments see them. -/
def CbLine.stored (l : CbLine) (a : Nat) (bs : Bytes) : CbLine :=
  if l.granule = a / 64 then
    { l with data := put l.data (a % 64) bs, dirty := true, poison := false || (l.poison && bs.length != 64) }
  else l

theorem CbLine.stored_granule (l : CbLine) (a : Nat) (bs : Bytes) : (l.stored a bs).granule = l.granule := by
  unfold CbLine.stored
  split <;> rfl

theorem CbLine.stored_in {l : CbLine} {a : Nat} (h : l.granule = a / 64) (bs : Bytes) (hp : l.poison = false) :
    l.stored a bs = { l with data := put l.data (a % 64) bs, dirty := true, poison := false } := by
  rw [CbLine.stored, if_pos h, hp]
  rfl

theorem CbLine.stored_other {l : CbLine} {a : Nat} {bs : Bytes} (h : l.granule ≠ a / 64) : l.stored a bs = l := if_neg h

/-- Bytes of one granule written where the operation sees them: in its line, or in host memory. -/
theorem State.Buffers.putGranule (h : o.Buffers s id m) {a : Nat} {bs : Bytes} (ha : a % 64 + bs.length ≤ 64) :
    o.Buffers (s.putGranule a bs false) id (patch m a bs) := by
  have hother {x : Nat} (hx : x / 64 ≠ a / 64) : patch m a bs x = m x := patch_other m (by omega)
  unfold State.putGranule
  dsimp only
  cases hany : s.cb.any (fun l => l.granule == a / 64) with
  | true =>
    rw [if_pos rfl]
    change o.Buffers { s with cb := s.cb.map fun l => l.stored a bs } id (patch m a bs)
    refine ⟨h.ctx, h.x, h.wf, h.good, fun y hy => ?_, fun y hy z hz hg => ?_, fun x hx => ?_⟩
    · obtain ⟨l, hl, rfl⟩ := List.mem_map.mp hy
      obtain ⟨hdata, hpoison, husers⟩ := h.line l hl
      by_cases hin : l.granule = a / 64
      · rw [CbLine.stored_in hin bs hpoison, hdata]
        refine ⟨?_, rfl, husers⟩
        rw [put_bytesAt m _ ha, show l.granule * 64 + a % 64 = a by omega]
      · rw [CbLine.stored_other hin]
        refine ⟨hdata.trans (bytesAt_congr fun x _ _ => (hother ?_).symm), hpoison, husers⟩
        omega
    · obtain ⟨l, hl, rfl⟩ := List.mem_map.mp hy
      obtain ⟨l', hl', rfl⟩ := List.mem_map.mp hz
      rw [CbLine.stored_granule, CbLine.stored_granule] at hg
      rw [h.one l hl l' hl' hg]
    · have hkeep (l : CbLine) (hl : l ∈ s.cb) : (l.stored a bs) ∈ s.cb.map fun l => l.stored a bs :=
        List.mem_map.mpr ⟨l, hl, rfl⟩
      by_cases hxa : x / 64 = a / 64
      · obtain ⟨l, hl, hg⟩ := List.any_eq_true.mp hany
        have hg : l.granule = a / 64 := by simpa using hg
        have hclean := hx _ (hkeep l hl) (by rw [CbLine.stored_granule, hg, hxa])
        rw [CbLine.stored, if_pos hg] at hclean
        cases hclean
      · refine (h.rest x fun l hl hg => ?_).trans (hother hxa).symm
        have hclean := hx _ (hkeep l hl) (by rw [CbLine.stored_granule, hg])
        rwa [CbLine.stored_other (by omega)] at hclean
  | false =>
    have hnone : ∀ l ∈ s.cb, l.granule ≠ a / 64 := fun l hl => by simpa using List.any_eq_false.mp hany l hl
    rw [if_neg (by decide), show s.wrP false a bs = s.wr a bs from rfl, State.wr, h.good]
    refine ⟨h.ctx, h.x, Memory.wf_writeN _ _ h.wf, rfl, fun l hl => ?_, h.one, fun x hx => ?_⟩
    · obtain ⟨hdata, hkeep⟩ := h.line l hl
      refine ⟨hdata.trans (bytesAt_congr fun x _ _ => (hother ?_).symm), hkeep⟩
      have := hnone l hl
      omega
    · change (s.mem.writeN a bs).read x = patch m a bs x
      rw [Memory.read_writeN _ _ _ h.wf, patch, h.rest x hx]

/-! ### The lines released -/

theorem zip_map_filter {α β : Type} (f : α → β) (p : α × β → Bool) (l : List α) (h : ∀ a ∈ l, p (a, f a) = true) :
    (l.zip (l.map f)).filter p = l.map (fun a => (a, f a)) ∧ (l.zip (l.map f)).filter (fun x => !p x) = [] := by
  have hzip : l.zip (l.map f) = l.map fun a => (a, f a) := by
    rw [List.zip_map_right]
    induction l with
    | nil => rfl
    | cons a l ih => simp only [List.zip_cons_cons, List.map_cons]; rw [ih fun x hx => h x (List.mem_cons_of_mem a hx)]; rfl
  rw [hzip]
  refine ⟨List.filter_eq_self.mpr fun x hx => ?_, List.filter_eq_nil_iff.mpr fun x hx => ?_⟩
  · obtain ⟨a, ha, rfl⟩ := List.mem_map.mp hx
    exact h a ha
  · obtain ⟨a, ha, rfl⟩ := List.mem_map.mp hx
    rw [h a ha]
    decide

/-- Once the operation's lines are released, host memory is as the operation saw it (R202). -/
theorem State.Buffers.cbRelease (h : o.Buffers s id m) :
    (s.cbRelease id).ctx = o.ctx ∧ (s.cbRelease id).x = o.x ∧ (s.cbRelease id).mem.wf = true ∧
    ∀ x, (s.cbRelease id).mem.read x = m x := by
  have hall := zip_map_filter (fun l : CbLine => { l with users := l.users.filter (· != id) })
    (fun p => p.1.users.contains id && p.2.users.isEmpty) s.cb fun l hl => by
      obtain ⟨-, -, husers⟩ := h.line l hl
      simp [husers]
  have hback : s.cbRelease id = s.cb.foldl State.cbWriteBack { s with cb := [] } := by
    unfold State.cbRelease
    dsimp only
    rw [hall.1, hall.2, List.foldl_map]
    rfl
  obtain ⟨⟨r, hr⟩, hwf, hread⟩ := State.writeBacks_seen (s := { s with cb := [] }) (m := m) s.cb h.wf h.good
    fun l hl => ⟨(h.line l hl).1, (h.line l hl).2.1⟩
  rw [← hback] at hr hwf hread
  generalize s.cbRelease id = t at hr hwf hread
  refine ⟨by rw [hr]; exact h.ctx, by rw [hr]; exact h.x, hwf, fun x => ?_⟩
  rcases hread x with hm | ⟨hm, hclean⟩
  · exact hm
  · exact hm.trans (h.rest x hclean)

/-! ### ATOMIC_MAX -/

/-- One new cell of an ATOMIC_MAX stored (R207). -/
def State.maxStore (dst : Nat) (s : State) (p : (Nat × Bool) × Nat) : State :=
  let a := dst + 4 * p.2
  let s := s.putGranule a (toLE 4 p.1.1) p.1.2
  let s := if p.1.2 then s.abutBump R.abutPoisonOut a else s
  s.abutBump R.abutMaxOps a

theorem State.Buffers.maxStore (h : o.Buffers s id m) {dst : Nat} (hdst : dst % 4 = 0) (v k : Nat) :
    o.Buffers (State.maxStore dst s ((v, false), k)) id (patch m (dst + 4 * k) (toLE 4 v)) :=
  (h.putGranule (bs := toLE 4 v) (by rw [length_toLE]; omega)).bump _ 1

/-- Words stored at the cells from an address on. -/
theorem State.Buffers.maxStores {dst : Nat} (hdst : dst % 4 = 0) (vals : List (Nat × Bool)) (k : Nat)
    (hvals : ∀ v ∈ vals, v.2 = false) (h : o.Buffers s id m) :
    ∃ m', o.Buffers ((vals.zipIdx k).foldl (State.maxStore dst) s) id m' ∧
      (∀ x, x < dst + 4 * k ∨ dst + 4 * (k + vals.length) ≤ x → m' x = m x) ∧
      ∀ j, j < vals.length → bytesAt m' (dst + 4 * (k + j)) 4 = toLE 4 (nth vals j (0, false)).1 := by
  induction vals generalizing s m k with
  | nil => exact ⟨m, h, fun _ _ => rfl, fun j hj => absurd hj (Nat.not_lt_zero j)⟩
  | cons v vals ih =>
    obtain ⟨v, poison⟩ := v
    obtain rfl : poison = false := hvals _ List.mem_cons_self
    obtain ⟨m', hbuf, hout, hin⟩ := ih (k + 1) (fun x hx => hvals x (List.mem_cons_of_mem _ hx)) (h.maxStore hdst v k)
    have hlen : (toLE 4 v).length = 4 := length_toLE 4 v
    refine ⟨m', hbuf, fun x hx => ?_, fun j hj => ?_⟩
    · rw [List.length_cons] at hx
      rw [hout x (by omega), patch_other m (by omega)]
    · cases j with
      | zero =>
        rw [Nat.add_zero, bytesAt_congr (m' := patch m (dst + 4 * k) (toLE 4 v)) fun x _ hx => hout x (.inl (by omega))]
        exact hlen ▸ bytesAt_patch_same m (dst + 4 * k) (toLE 4 v)
      | succ j =>
        have hj' := hin j (by rw [List.length_cons] at hj; omega)
        rw [show k + 1 + j = k + (j + 1) by omega] at hj'
        exact hj'

theorem State.freeFor_good (s : State) (w : Nat) (l : List (Nat × Bool)) (h : ∀ x ∈ l, x.2 = false) :
    s.freeFor w l = (l, s) := by
  induction l with
  | nil => rfl
  | cons x l ih =>
    obtain ⟨v, poison⟩ := x
    obtain rfl : poison = false := h _ List.mem_cons_self
    rw [State.freeFor, ih fun y hy => h y (List.mem_cons_of_mem _ hy)]

/-- A cell that two applied operands give fits its word (R39, R207). -/
theorem maxCell_lt (c x : Nat) : (maxCell c x).1 < 2 ^ 32 := by
  have hsigned (s : Bool) (m : Nat) (e : Int) :
      encodeF .fp32 (.fin s m e) = b2n s * 2 ^ 31 + encodeF .fp32 (.fin false m e) := by
    unfold encodeF
    have htop : VFmt.fp32.man + VFmt.fp32.expW = 31 := rfl
    dsimp only
    rw [htop]
    by_cases hm : m = 0
    · rw [if_pos hm, if_pos hm]
      simp [b2n, Nat.shiftLeft_eq]
    · rw [if_neg hm, if_neg hm]
      split <;> simp [b2n, Nat.shiftLeft_eq, Nat.add_assoc]
  have hfin (w : Nat) {s : Bool} {m : Nat} {e : Int} (h : (decodeF .fp32 w).1 = .fin s m e) :
      encodeF .fp32 (.fin s m e) < 2 ^ 32 := by
    have hmag : encodeF .fp32 (.fin false m e) < 2 ^ 31 :=
      encodeF_fp32_lt fun hm => decodeF_fin_lt (.inr (.inr rfl)) h hm
    have hs : b2n s ≤ 1 := by cases s <;> decide
    rw [hsigned]
    omega
  have hval (w : Nat) : encodeF .fp32 (decodeF .fp32 w).1 < 2 ^ 32 := by
    cases hv : (decodeF .fp32 w).1 with
    | nan => decide
    | inf s => cases s <;> decide
    | fin s m e => exact hfin w hv
  change encodeF .fp32 ((decodeF .fp32 c).1.max (decodeF .fp32 x).1) < 2 ^ 32
  unfold FV.max
  split
  · decide
  · split
    · exact hval x
    · exact hval c

/-- Operands applied to cells (R207): each cell becomes the larger value, and no other byte changes. -/
theorem State.Buffers.maxCells (h : o.Buffers s id m) (hup : s.upsets = []) {dst : Nat} (hdst : dst % 4 = 0)
    {ops : List (Nat × Bool)} (hops : ∀ x ∈ ops, x.2 = false) :
    ∃ m', o.Buffers (s.maxCells id dst ops).2 id m' ∧
      (∀ x, x < dst ∨ dst + 4 * ops.length ≤ x → m' x = m x) ∧
      ∀ j, j < ops.length → leNat (bytesAt m' (dst + 4 * j) 4) =
        (maxCell (leNat (bytesAt m (dst + 4 * j) 4)) (nth ops j (0, false)).1).1 := by
  have hcross : s.crossAll (fun j => dst + 4 * j) ops = (ops, s) := by
    have hgood : (s.upsets.isEmpty && ops.all fun x => !x.2) = true := by
      rw [hup]
      simpa using hops
    exact if_pos hgood
  obtain ⟨hcells, hload⟩ := h.abLoads hdst ops.length
  unfold State.maxCells
  rw [hcross]
  dsimp only
  rw [hcells]
  generalize (s.abLoads id dst 4 ops.length).2 = u at hload
  generalize hout : ((((List.range ops.length).map fun j => (leNat (bytesAt m (dst + 4 * j) 4), false)).zip ops).map
    fun p => (maxCell p.1.1 p.2.1, p.1.2 || p.2.2)) = out
  have hvals : ∀ x ∈ out.map (fun o => (o.1.1, o.2)), x.2 = false := by
    rw [← hout]
    intro x hx
    simp only [List.map_map, List.mem_map, Function.comp] at hx
    obtain ⟨⟨cell, op⟩, hmem, rfl⟩ := hx
    obtain ⟨hcell, hop⟩ := List.of_mem_zip hmem
    obtain ⟨j, -, rfl⟩ := List.mem_map.mp hcell
    exact hops op hop
  rw [State.freeFor_good _ _ _ hvals]
  dsimp only
  obtain ⟨m', hstored, houtside, hinside⟩ := hload.maxStores hdst (out.map fun o => (o.1.1, o.2)) 0 hvals
  have hlen : (out.map fun o => (o.1.1, o.2)).length = ops.length := by
    rw [← hout]
    simp
  rw [hlen] at houtside hinside
  refine ⟨m', ?_, fun x hx => houtside x (by omega), fun j hj => ?_⟩
  · refine List.foldlRecOn (motive := fun t => o.Buffers t id m') _ _ hstored fun t ht p _ => ht.bump _ _
  · have hj' := hinside j hj
    rw [Nat.zero_add] at hj'
    have hval : (nth (out.map fun o => (o.1.1, o.2)) j (0, false)).1 =
        (maxCell (leNat (bytesAt m (dst + 4 * j) 4)) (nth ops j (0, false)).1).1 := by
      rw [← hout]
      simp [nth, hj]
    rw [hj', leNat_toLE, hval]
    exact Nat.mod_eq_of_lt (maxCell_lt _ _)

end

end Sys2Proof.Machine
end

section
/-! ATOMIC_MAX_REQ (R207, R265): a request of one packet that its region allows leaves the larger value in each cell, and is
answered. -/

namespace Sys2Proof.Machine

/-! ### Operands -/

theorem splitEvery_eq (n k : Nat) (bs : Bytes) :
    splitEvery n k bs = (List.range n).map fun j => (bs.drop (k * j)).take k := by
  induction n generalizing bs with
  | zero => rfl
  | succ n ih =>
    rw [splitEvery, ih, List.range_succ_eq_map, List.map_cons, List.map_map, Nat.mul_zero, List.drop_zero]
    congr 1
    refine List.map_congr_left fun j _ => ?_
    rw [List.drop_drop, Function.comp, Nat.mul_succ, Nat.add_comm]

/-- A run of whole words cut into words. -/
theorem chunksOf_words {bs : Bytes} (h : bs.length % 4 = 0) :
    chunksOf 4 bs = (List.range (bs.length / 4)).map fun j => sub bs (4 * j) 4 := by
  rw [chunksOf, if_neg (by decide), splitEvery_eq, show (bs.length + 4 - 1) / 4 = bs.length / 4 by omega]
  refine List.map_congr_left fun j hj => ?_
  have := List.mem_range.mp hj
  have hlen : ((bs.drop (4 * j)).take 4).length = 4 := by
    rw [List.length_take, List.length_drop]
    omega
  rw [sub, hlen]
  exact (List.append_nil _).symm

/-! ### The Abutments -/

section
variable {s t : State}

/-- Every Abutment may work, and none is out of service: so may and is none that an operation reaches. -/
theorem State.abuts_work (h : ∀ k, k < 8 → s.abutFree k = true ∧ s.abutGone k = false) (a n : Nat) :
    s.abutsFree a n = true ∧ s.abutsGone a n = false := by
  have hfree : (List.range 8).all s.abutFree = true :=
    List.all_eq_true.mpr fun k hk => (h k (List.mem_range.mp hk)).1
  have hgone : (List.range 8).any s.abutGone = false :=
    List.any_eq_false.mpr fun k hk => by rw [(h k (List.mem_range.mp hk)).2]; decide
  exact ⟨by rw [State.abutsFree, hfree, Bool.true_or], by rw [State.abutsGone, hgone, Bool.false_and]⟩

theorem State.abuts_congr (hpwr : t.pwr = s.pwr) (htest : t.test = s.test)
    (hreg : ∀ k, k < 8 → t.reg (R.hdrCtrl (0x68 + k)) = s.reg (R.hdrCtrl (0x68 + k)))
    (h : ∀ k, k < 8 → s.abutFree k = true ∧ s.abutGone k = false) :
    ∀ k, k < 8 → t.abutFree k = true ∧ t.abutGone k = false := by
  intro k hk
  obtain ⟨hfree, hgone⟩ := h k hk
  refine ⟨?_, by rw [State.abutGone, hpwr]; exact hgone⟩
  rw [State.abutFree, State.underTest, State.islandReady, State.regBit, hreg k hk, hpwr, htest]
  exact hfree

end

/-! ### The message completes -/

/-- A remote ATOMIC_MAX that its Abutments can take at once is applied (R207, R372). -/
theorem State.retryMaxes_one {s : State} {m : MaxWait} (hm : s.x.maxes = [m])
    (hwork : ∀ k, k < 8 → s.abutFree k = true ∧ s.abutGone k = false) :
    s.retryMaxes = (({ s with x := { s.x with maxes := [] } } : State).applyMax m).answerFlushes := by
  obtain ⟨hfree, hgone⟩ := State.abuts_work hwork m.dst (4 * m.ops.length)
  have hready : [m].filter (fun m => s.abutsGone m.dst (4 * m.ops.length) || s.abutsFree m.dst (4 * m.ops.length)) =
      [m] := by simp [hfree]
  have hrest : [m].filter (fun x => !([m].contains x)) = [] := by simp
  unfold State.retryMaxes
  dsimp only
  rw [hm, hready, hrest]
  rfl

/-- What ATOMIC_MAX leaves of host memory (R207): the larger value in each cell, and every other byte. -/
structure State.Maxes (s t : State) (dst : Nat) (ops : List (Nat × Bool)) : Prop where
  rest : s.memBut t dst (4 * ops.length)
  cells : ∀ j, j < ops.length →
    t.rdN (dst + 4 * j) 4 = (maxCell (s.rdN (dst + 4 * j) 4) (nth ops j (0, false)).1).1

theorem State.rdN_bytesAt {s : State} (h : s.mem.wf = true) (a n : Nat) : s.rdN a n = leNat (bytesAt s.mem.read a n) := by
  rw [State.rdN, State.rd, Memory.readN_eq _ _ h]
  rfl

theorem State.Maxes.of_mem {s t s' t' : State} {dst : Nat} {ops : List (Nat × Bool)} (h : s.Maxes t dst ops)
    (hs : s'.mem = s.mem) (ht : t'.mem = t.mem) : s'.Maxes t' dst ops := by
  refine ⟨fun b hb => by rw [hs, ht]; exact h.rest b hb, fun j hj => ?_⟩
  rw [State.rdN, State.rdN, State.rd, State.rd, hs, ht]
  exact h.cells j hj

/-- ATOMIC_MAX from an empty coalescing buffer, its lines released (R202, R207). -/
theorem State.maxCells_released {s : State} (hmem : s.mem.wf = true) (hgood : s.memPoison = []) (hcb : s.cb = [])
    (hup : s.upsets = []) (id : Nat) {dst : Nat} (hdst : dst % 4 = 0) {ops : List (Nat × Bool)}
    (hops : ∀ x ∈ ops, x.2 = false) :
    let t := (s.maxCells id dst ops).2.cbRelease id
    t.ctx = s.ctx ∧ t.x = s.x ∧ s.Maxes t dst ops := by
  intro t
  obtain ⟨m, hbuf, houtside, hcells⟩ := (State.Buffers.start (id := id) hmem hgood hcb).maxCells hup hdst hops
  obtain ⟨hctx, hx, hwf, hread⟩ := hbuf.cbRelease
  refine ⟨hctx, hx, fun b hb => (hread b).trans (houtside b hb), fun j hj => ?_⟩
  rw [State.rdN_bytesAt hwf, State.rdN_bytesAt hmem, bytesAt_congr fun x _ _ => hread x]
  exact hcells j hj

theorem State.Answers.maxes {s t : State} (h : s.Answers t) : t.x.maxes = s.x.maxes := by rw [h.frame]

theorem State.Answers.flushes {s t : State} (h : s.Answers t) : t.x.flushes = s.x.flushes := by rw [h.frame]

/-- A machine that can apply an ATOMIC_MAX at once, with nothing poisoned, flipped or buffered, and answer it on a connection
where nothing waits to be sent. -/
structure State.TakesMax (s : State) (c : Nat) : Prop where
  ctxWf : s.ctx.wf = true
  memWf : s.mem.wf = true
  good : s.memPoison = []
  lines : s.cb = []
  upsets : s.upsets = []
  out : s.x.out = []
  hears : s.hearsAnswers c
  work : ∀ k, k < 8 → s.abutFree k = true ∧ s.abutGone k = false

section
variable {s : State} {c : Nat} {p : Packet}

/-- A region's count of placements lies in no connection. -/
theorem State.setInflight_holds (hwf : s.ctx.wf = true) (v : Nat) (hkey : keyOfPkt p < 2 ^ 32) :
    s.Holds (fun b => b < 0x900000 ∨ 0xD00000 ≤ b) (s.setFld (regionBase (keyOfPkt p / 65536)) Region.inflight v) :=
  (State.Holds.refl hwf).setFld _ _ _ fun b hlo hhi => by
    simp only [Region.inflight, regionBase] at hlo hhi
    omega

/-- A remote ATOMIC_MAX applied and answered (R207). -/
theorem State.applyMax_answers (h : s.TakesMax c) {dst : Nat} (hdst : dst % 4 = 0)
    {ops : List (Nat × Bool)} (hops : ∀ x ∈ ops, x.2 = false) :
    let t := s.applyMax ⟨c, p.psn.toNat, [asOp 0x06 p], dst, ops⟩
    t.answering c 0x12 p.psn.toNat ∧ t.x.maxes = s.x.maxes ∧ t.x.flushes = s.x.flushes ∧ s.Holds windowByte t ∧
    s.Maxes t dst ops := by
  intro t
  generalize hd : s.setFld (regionBase (keyOfPkt p / 65536)) Region.inflight
    (s.fld (regionBase (keyOfPkt p / 65536)) Region.inflight - 1) = d
  have hdrop : s.dropInflight (asOp 0x06 p) = d := hd
  have hheld : s.Holds (fun b => b < 0x900000 ∨ 0xD00000 ≤ b) d := hd ▸ State.setInflight_holds h.ctxWf _ p.g0.isLt
  have hdframe : d = { s with ctx := d.ctx } := hd ▸ rfl
  have hgone : d.abutsGone dst (4 * ops.length) = false :=
    (State.abuts_work (State.abuts_congr (by rw [hdframe]) (by rw [hdframe]) (fun k _ => by rw [hdframe]; rfl) h.work) _ _).2
  generalize he : ({ d with q := { d.q with nextId := d.q.nextId + 1 } } : State) = e
  have hectx : e.ctx = d.ctx := he ▸ rfl
  have hex : e.x = s.x := by rw [← he, hdframe]
  have hemem : e.mem = s.mem := by rw [← he, hdframe]
  obtain ⟨hctx, hx, hmax⟩ := State.maxCells_released (s := e) (by rw [hemem]; exact h.memWf)
    (by rw [← he, hdframe]; exact h.good) (by rw [← he, hdframe]; exact h.lines)
    (by rw [← he, hdframe]; exact h.upsets)
    d.q.nextId hdst hops
  have ht : ∃ status nf, t = ((e.maxCells d.q.nextId dst ops).2.cbRelease d.q.nextId).respond c p.psn.toNat status 0x06 nf
      0 0 := by
    change ∃ status nf, State.applyMax s _ = _
    unfold State.applyMax
    dsimp only
    rw [List.foldl_cons, List.foldl_nil, hdrop, hgone, if_neg (by decide), he]
    exact ⟨_, _, rfl⟩
  obtain ⟨status, nf, ht⟩ := ht
  generalize (e.maxCells d.q.nextId dst ops).2.cbRelease d.q.nextId = w at hctx hx hmax ht
  have hw : s.Holds (fun b => b < 0x900000 ∨ 0xD00000 ≤ b) w := hheld.of_ctx (hctx.trans hectx)
  obtain ⟨hans, hreply⟩ := State.respond_answering hw.wf ((congrArg Xport.out (hx.trans hex)).trans h.out)
    (hw.hearsAnswers h.ctxWf (fun b hb => .inr (by omega)) h.hears) p.psn status 0x06 nf 0 0
  rw [← ht] at hans hreply
  refine ⟨hreply, hans.maxes.trans (congrArg Xport.maxes (hx.trans hex)),
    hans.flushes.trans (congrArg Xport.flushes (hx.trans hex)), ?_, hmax.of_mem hemem.symm hans.mem⟩
  exact (hw.mono fun b hb => .inr (by unfold windowByte at hb; omega)).trans (hans.bytes.mono fun _ => windowByte.not_tx)

end

theorem State.completeMsg_max (u s : State) (c esn : Nat) (p : Packet) (placed : Bool) :
    u.completeMsg c esn (asOp 0x06 p) [s.heldAs 0x06 p placed false] =
      u.maxDone c (asOp 0x06 p) [asOp 0x06 p] := by
  unfold State.completeMsg
  dsimp only
  rw [any_refused_heldAs, if_neg (by decide)]
  rfl

/-- The operands that a packet of an ATOMIC_MAX_REQ carries (R207). -/
def maxOps (p : Packet) : List (Nat × Bool) := (chunksOf 4 p.payload).map fun b => (leNat b, p.poison)

theorem maxOps_good {p : Packet} (hgood : p.poison = false) : ∀ x ∈ maxOps p, x.2 = false := by
  intro x hx
  obtain ⟨b, -, rfl⟩ := List.mem_map.mp hx
  exact hgood

theorem maxOps_words {p : Packet} (hlen : p.payload.length % 4 = 0) : (maxOps p).length = p.payload.length / 4 ∧
    ∀ j, j < p.payload.length / 4 → (nth (maxOps p) j (0, false)).1 = leNat (sub p.payload (4 * j) 4) := by
  rw [maxOps, chunksOf_words hlen]
  exact ⟨by simp, fun j hj => by simp [nth, hj]⟩

/-- Without an ATOMIC_MAX or a FLUSH_REQ that waits, an ATOMIC_MAX_REQ that completes is applied and answered (R207). -/
theorem State.maxDone_answers {u : State} {c : Nat} {p : Packet} (h : u.TakesMax c) (hmaxes : u.x.maxes = [])
    (hflushes : u.x.flushes = []) {dst : Nat}
    (hcell : u.fld (regionBase (keyOfPkt p / 65536)) Region.base + addrOfPkt p = dst) (hdst : dst % 4 = 0)
    (hsound : p.poison = false) :
    let v := u.maxDone c (asOp 0x06 p) [asOp 0x06 p]
    v.answering c 0x12 p.psn.toNat ∧ u.Holds windowByte v ∧ u.Maxes v dst (maxOps p) := by
  intro v
  generalize hm : (⟨c, p.psn.toNat, [asOp 0x06 p], dst, maxOps p⟩ : MaxWait) = m
  have hops : [asOp 0x06 p].map (fun p => (chunksOf 4 p.payload).map fun b => (leNat b, p.poison)) = [maxOps p] := rfl
  have hwaits : v = ({ u with x := { u.x with maxes := [m] } } : State).retryMaxes := by
    change State.maxDone u c _ _ = _
    unfold State.maxDone
    dsimp only
    rw [hops, hmaxes, List.flatten_singleton, show u.fld (regionBase (keyOfPkt (asOp 0x06 p) / 65536)) Region.base +
      addrOfPkt (asOp 0x06 p) = dst from hcell, List.nil_append, ← hm]
    rfl
  generalize hs : ({ u with x := { u.x with maxes := [] } } : State) = s
  have hsctx : s.ctx = u.ctx := hs ▸ rfl
  have hsmem : s.mem = u.mem := hs ▸ rfl
  obtain ⟨hreply, hamaxes, haflushes, hkeep, hmax⟩ := State.applyMax_answers (s := s) (c := c) (p := p) (dst := dst)
    (ops := maxOps p) ⟨by rw [hsctx]; exact h.ctxWf, by rw [hsmem]; exact h.memWf, hs ▸ h.good, hs ▸ h.lines,
      hs ▸ h.upsets, hs ▸ h.out, State.hearsAnswers_congr hsctx h.hears,
      State.abuts_congr (hs ▸ rfl) (hs ▸ rfl) (fun _ _ => hs ▸ rfl) h.work⟩ hdst (maxOps_good hsound)
  have hsmaxes : s.x.maxes = [] := hs ▸ rfl
  have hsflushes : s.x.flushes = [] := hs ▸ hflushes
  rw [State.retryMaxes_one (s := { u with x := { u.x with maxes := [m] } }) rfl h.work, hs, hm.symm] at hwaits
  generalize s.applyMax ⟨c, p.psn.toNat, [asOp 0x06 p], dst, maxOps p⟩ = a at hwaits hreply hamaxes haflushes hkeep hmax
  rw [State.answerFlushes_idle (hamaxes.trans hsmaxes), haflushes.trans hsflushes, List.foldl_nil] at hwaits
  rw [hwaits]
  exact ⟨hreply.of_same rfl rfl, (((State.Holds.refl h.ctxWf).of_ctx hsctx).trans hkeep).of_ctx rfl,
    hmax.of_mem hsmem.symm rfl⟩

/-! ### The request taken -/

/-- A packet placed by a write of the context tables alone and passed: what the machine differs in. -/
theorem State.Counts.placed {s v w u : State} {c : Nat} {control : Bool} (hc : s.Counts v) (hw : w = { v with ctx := w.ctx })
    (hp : w.Passes u c control) :
    u = { s with regs := u.regs, ctx := u.ctx, x := { s.x with conns := u.x.conns, rx := [] } } ∧
    s.regsBut u [R.rmaPktRxLo, R.rmaPktRxLo + 4] := by
  refine ⟨by rw [hp.frame, hw, hc.frame], fun b hb => ?_⟩
  rw [hp.reg, ← hc.regs b hb, hw]
  rfl

theorem hdrCtrl_abut {k : Nat} (hk : k < 8) : R.hdrCtrl (0x68 + k) ∉ [R.rmaPktRxLo, R.rmaPktRxLo + 4] := by
  interval_cases k <;> decide

section
variable {s : State} {p : Packet} (hwf : s.ctx.wf = true)
include hwf

/-- An ATOMIC_MAX_REQ that its region allows leaves the larger value in each cell, and is answered (R207, R262). -/
theorem State.atomicMax_answered (hmem : s.mem.wf = true) (hn : s.NextPacket 0x06 p)
    (hok : s.accessCheck p.conn.toNat (asOp 0x06 p) = none) (hcalm : s.calm = true)
    (hwork : ∀ k, k < 8 → s.abutFree k = true ∧ s.abutGone k = false) {cell : Nat}
    (hcell : s.fld (regionBase (keyOfPkt p / 65536)) Region.base + addrOfPkt p = cell) (haligned : cell % 4 = 0) :
    s.taken (receive (asOp 0x06 p) s) p ∧ (receive (asOp 0x06 p) s).replied p.conn.toNat 0x12 p.psn.toNat ∧
    s.Maxes (receive (asOp 0x06 p) s) cell (maxOps p) := by
  simp only [State.calm, Bool.and_eq_true, List.isEmpty_iff] at hcalm
  obtain ⟨⟨hgood, hcb⟩, hup⟩ := hcalm
  have hkey : keyOfPkt p < 2 ^ 32 := p.g0.isLt
  have hcounts := s.counts p.conn.toNat
  have hcwf : (s.counted p.conn.toNat).ctx.wf = true := (congrArg Memory.wf hcounts.ctx).trans hwf
  have hplace := State.placePkt_max (s := s.counted p.conn.toNat) (p := p)
    (s.fld (connBase p.conn.toNat) (rxExp p.stream)) (hcounts.rx.trans hn.rx)
    ((State.accessCheck_congr hcounts.ctx _ _).trans hok)
  generalize hv : s.counted p.conn.toNat = v at hcounts hcwf hplace
  generalize hw : v.setFld (regionBase (keyOfPkt p / 65536)) Region.inflight
    (v.fld (regionBase (keyOfPkt p / 65536)) Region.inflight + 1) = w at hplace
  have hwframe : w = { v with ctx := w.ctx } := hw ▸ rfl
  have hwheld : v.Holds (fun b => b < 0x900000 ∨ 0xD00000 ≤ b) w := hw ▸ State.setInflight_holds hcwf _ hkey
  have hwkeep : v.Holds windowByte w := hwheld.mono fun b hb => .inr (by unfold windowByte at hb; omega)
  have hbase : w.fld (regionBase (keyOfPkt p / 65536)) Region.base = v.fld (regionBase (keyOfPkt p / 65536)) Region.base := by
    rw [← hw]
    exact State.fld_setFld_other _ _ hcwf (by simp [Region.base, Region.inflight])
  have hwrx : w.x.rx = [] := by
    rw [hwframe]
    exact hcounts.rx.trans hn.rx
  obtain ⟨hpass, htakes⟩ := State.receive_takes hn hwf (fun h => absurd h (by decide)) rfl (hv ▸ hplace) hwrx (hv ▸ hwkeep)
  obtain ⟨huframe, huregs⟩ := hcounts.placed hwframe hpass
  generalize w.passes (s.heldAs 0x06 p true false) = u at hpass htakes huframe huregs
  have hregion : regionBase (keyOfPkt p / 65536) + Region.base.off + Region.base.len ≤ 0x1000000 := by
    simp only [Region.base, regionBase]
    omega
  have hucell : u.fld (regionBase (keyOfPkt p / 65536)) Region.base + addrOfPkt p = cell := by
    rw [hpass.bytes.table hwheld.wf not_windowByte_of_lt hregion, hbase, State.fld_congr hcounts.ctx, hcell]
  have huhears : u.hearsAnswers p.conn.toNat := by
    have hwhears := hwheld.hearsAnswers hcwf (fun b hb => .inr (by omega)) (State.hearsAnswers_congr hcounts.ctx hn.answers)
    have hconn {f : Fld} (hf : f.off + f.len ≤ 0x40) := hpass.bytes.fld (a := connBase p.conn.toNat) (f := f) hwheld.wf
      fun b _ _ => by unfold windowByte connBase at *; omega
    rw [State.hearsAnswers, State.connState, hconn (by decide), hconn (by decide)]
    exact hwhears
  have humem : u.mem = s.mem := by rw [huframe]
  have hutakes : u.TakesMax p.conn.toNat := ⟨hpass.bytes.wf, by rw [humem]; exact hmem, by rw [huframe]; exact hgood,
    by rw [huframe]; exact hcb, by rw [huframe]; exact hup, by rw [huframe]; exact hn.out, huhears,
    State.abuts_congr (by rw [huframe]) (by rw [huframe]) (fun k hk => huregs _ (hdrCtrl_abut hk)) hwork⟩
  obtain ⟨hreply, hkeep, hmax⟩ := State.maxDone_answers hutakes (by rw [huframe]; exact hn.maxes)
    (by rw [huframe]; exact hn.flushes) hucell haligned hn.sound
  rw [u.completeMsg_max] at htakes
  obtain ⟨hacks, htaken⟩ := htakes hkeep
  exact ⟨htaken, (hreply.of_same hacks.out hacks.kept).replied, hmax.of_mem humem.symm hacks.mem⟩

end

end Sys2Proof.Machine
end

section
/-! Requests and messages taken in order (R174, R207, R240, R257, R260-R265, R275). -/

namespace Sys2Proof.Machine

/-- Settles O42: a packet that is next in order and a message of its own is placed by what it holds, and RX_EXP passes it;
its message then completes, which leaves the placement window as it is, so nothing more is placed and the packet is
acknowledged. -/
theorem requestsInOrderHaveTheirEffect : Obligations.RequestsInOrderHaveTheirEffect := by
  unfold Obligations.RequestsInOrderHaveTheirEffect
  intro s p hwf hmem c n region cell exp
  refine ⟨fun h hok hctr => ?write, fun h hok => ?readReq, fun r hr st h hbad => ?refused,
    fun h hrelay hdrop hroom => ?send, fun h hroom hoff hused hchan hpast hinst hlast => ?contrib,
    fun h hok hcalm hwork haligned hwords => ?atomicMax, fun h => ?counterAdd, fun h => ?flush,
    fun h hfits hslot hctr hown => ?ctrlPlaced, fun h hbig hslot => ?ctrlTooBig, fun h hslot => ?ctrlNoSlot⟩
  all_goals have hn := State.nextPacket h
  case write => exact ⟨_, exec_row hn.up (by simp), State.write_placed hwf hmem hn hok hctr⟩
  case readReq => exact ⟨_, exec_row hn.up (by simp), State.readReq_answered hwf hn hok⟩
  case refused =>
    simp only [List.mem_cons, List.not_mem_nil, or_false] at hr
    rcases hr with rfl | rfl | rfl
    · exact ⟨_, exec_row hn.up (by simp), State.region_refuses hwf (by simp) hn hbad⟩
    · exact ⟨_, exec_row hn.up (by simp), State.region_refuses hwf (by simp) hn hbad⟩
    · exact ⟨_, exec_row hn.up (by simp), State.region_refuses hwf (by simp) hn hbad⟩
  case send => exact ⟨_, exec_row hn.up (by simp), State.send_held hwf hn hrelay hdrop hroom⟩
  case contrib =>
    obtain ⟨htaken, x, hx⟩ := State.contrib_held hwf hn hroom hoff hused hchan hpast hinst hlast
    exact ⟨_, x, exec_row hn.up (by simp), htaken, hx⟩
  case atomicMax =>
    obtain ⟨htaken, hreply, hrest, hcells⟩ := State.atomicMax_answered hwf hmem hn hok hcalm hwork rfl haligned
    obtain ⟨hlen, hops⟩ := maxOps_words hwords
    rw [hlen] at hcells hrest
    refine ⟨_, exec_row hn.up (by simp), htaken, hreply, ?_, fun j hj => (hcells j hj).trans (by rw [hops j hj])⟩
    rwa [show n = 4 * (p.payload.length / 4) by omega]
  case counterAdd => exact ⟨_, exec_row hn.up (by simp), State.counterAdd_answered hwf hn⟩
  case flush => exact ⟨_, exec_row hn.up (by simp), State.flush_answered hwf hn⟩
  case ctrlPlaced => exact ⟨_, exec_row hn.up (by simp), State.ctrl_placed hwf hmem hn hfits hslot hctr hown⟩
  case ctrlTooBig => exact ⟨_, exec_row hn.up (by simp), State.ctrl_tooBig hwf hn hbig hslot⟩
  case ctrlNoSlot => exact ⟨_, exec_row hn.up (by simp), State.ctrl_noSlot hwf hn hslot⟩

end Sys2Proof.Machine
end

section
/-! What a transport descriptor asks of its connection (R206, R240, R263, R264): the check of the connection's context, and
the message that is given to it. -/

namespace Sys2Proof.Machine

/-! ### The check of a connection's context -/

/-- The words that count and record an uncorrectable word of the context SRAM (R33, R370). -/
def connUeRegs : List Nat := [R.hdrErrCntUe 0x70, R.hdrErrFirst 0x70, R.hdrErrFirstInfo 0x70]

/-- Uncorrectable words of the context SRAM may have been counted, and nothing else has changed. -/
structure State.CountsUes (s t : State) : Prop where
  only : s.onlyRegs t
  regs : s.regsBut t connUeRegs

theorem State.CountsUes.refl (s : State) : s.CountsUes s := ⟨rfl, fun _ _ => rfl⟩

theorem State.CountsUes.countUe {s t : State} (h : s.CountsUes t) (g : Nat) : s.CountsUes (t.countUe .context g) := by
  obtain ⟨r, hr⟩ := t.countUe_effect .context g
  refine ⟨?_, State.regsBut_trans h.regs fun b hb => ?_⟩
  · rw [State.onlyRegs, hr, h.only]
  · simp only [connUeRegs, List.mem_cons, List.not_mem_nil, or_false, not_or] at hb
    obtain ⟨hue, hfirst, hinfo⟩ := hb
    unfold State.countUe Sram.page
    rw [State.reg_errFirst_other _ _ _ (Ne.symm hfirst) (Ne.symm hinfo), State.reg_bump_other _ _ (Ne.symm hue)]

/-- Without flips, the check of a word of the context SRAM finds it usable unless it is poisoned, which is counted (R31). -/
theorem State.ctxCheck_unflipped {s : State} {g : Nat} (hup : s.upsets = []) (hg : 0xF6000 ≤ g) :
    s.ctxCheck g = (!s.ctxPoison.contains g, if s.ctxPoison.contains g then s.countUe .context g else s) := by
  have hsram : windowArray g = .context := by
    unfold windowArray
    rw [if_neg (by omega)]
  have hflip : s.hasFlip (windowArray g) g = false := by rw [State.hasFlip, hup]; rfl
  unfold State.ctxCheck
  dsimp only
  rw [hflip, hsram]
  cases hbad : s.ctxPoison.contains g with
  | true => rw [if_pos rfl, if_pos rfl, Bool.not_true]
  | false => rw [if_neg (by decide), Bool.not_false, if_pos rfl, if_neg (by decide)]

/-- One word of an entry checked after others. -/
def ctxNext (k : Nat) (r : Bool × State) (i : Nat) : Bool × State :=
  (r.1 && (r.2.ctxCheck (k + i)).1, (r.2.ctxCheck (k + i)).2)

theorem State.ctxUse_eq (s : State) (a n : Nat) :
    s.ctxUse a n = (List.range (unitsOf 16 a n).2).foldl (ctxNext (unitsOf 16 a n).1) (true, s) := rfl

/-- Words of the context SRAM checked in turn. -/
theorem State.ctxChecks_unflipped {s : State} {k : Nat} (hk : 0xF6000 ≤ k) (l : List Nat) (ok : Bool) {t : State}
    (hup : s.upsets = []) (ht : s.CountsUes t) :
    let r := l.foldl (ctxNext k) (ok, t)
    r.1 = (ok && l.all fun i => !s.ctxPoison.contains (k + i)) ∧ s.CountsUes r.2 ∧
      ((∀ i ∈ l, s.ctxPoison.contains (k + i) = false) → r.2 = t) := by
  induction l generalizing ok t with
  | nil => exact ⟨(Bool.and_true ok).symm, ht, fun _ => rfl⟩
  | cons i l ih =>
    have hupt : t.upsets = [] := by rw [ht.only]; exact hup
    have hpoison : t.ctxPoison = s.ctxPoison := by rw [ht.only]
    have hcheck := State.ctxCheck_unflipped (g := k + i) hupt (by omega)
    rw [hpoison] at hcheck
    have hnext : s.CountsUes (t.ctxCheck (k + i)).2 := by
      rw [hcheck]
      dsimp only
      split
      · exact ht.countUe _
      · exact ht
    obtain ⟨hok, hcounts, hsame⟩ := ih (ok && (t.ctxCheck (k + i)).1) hnext
    refine ⟨?_, hcounts, fun h => ?_⟩
    · refine hok.trans ?_
      rw [hcheck, List.all_cons, Bool.and_assoc]
    · refine (hsame fun j hj => h j (List.mem_cons_of_mem i hj)).trans ?_
      rw [hcheck, h i List.mem_cons_self]
      rfl

/-- A word of a connection's context is poisoned. -/
def State.spoilt (s : State) (c : Nat) : Bool := touches 16 (connBase c) 256 s.ctxPoison

theorem State.spoilt_eq (s : State) (c : Nat) :
    s.spoilt c = !((List.range 16).all fun i => !s.ctxPoison.contains (connBase c / 16 + i)) := by
  rw [Bool.eq_iff_iff, State.spoilt, touches, connBase]
  simp only [List.any_eq_true, decide_eq_true_eq, Bool.not_eq_true', List.all_eq_false, List.mem_range,
    Bool.not_eq_false, List.contains_iff_mem]
  constructor
  · rintro ⟨g, hg, -, hlo, hhi⟩
    exact ⟨g - (0x1000000 + 256 * c) / 16, by omega, by rwa [show (0x1000000 + 256 * c) / 16 +
      (g - (0x1000000 + 256 * c) / 16) = g by omega]⟩
  · rintro ⟨i, hi, hmem⟩
    exact ⟨_, hmem, by omega⟩

theorem unitsOf_conn (c : Nat) : unitsOf 16 (connBase c) 256 = (connBase c / 16, 16) := by
  rw [unitsOf, if_neg (by decide)]
  have h : (connBase c + 256 - 1) / 16 + 1 - connBase c / 16 = 16 := by unfold connBase; omega
  rw [h]

/-- Without flips a connection can be used unless a word of its context is poisoned, which is counted (R31, R244). -/
theorem State.useConns_unflipped {s : State} (c : Nat) (hup : s.upsets = []) :
    (s.spoilt c = false → s.useConns [c] = (true, s)) ∧
    (s.spoilt c = true → ∃ v, s.useConns [c] = (false, v) ∧ s.CountsUes v) := by
  have huse : s.useConns [c] = s.ctxUse (connBase c) 256 := by
    unfold State.useConns
    simp only [List.foldl_cons, List.foldl_nil, Bool.true_and]
  have hk : 0xF6000 ≤ connBase c / 16 := by unfold connBase; omega
  rw [huse, State.ctxUse_eq, unitsOf_conn, s.spoilt_eq]
  generalize connBase c / 16 = k at hk
  dsimp only
  obtain ⟨hok, hcounts, hsame⟩ := State.ctxChecks_unflipped hk (List.range 16) true hup (State.CountsUes.refl s)
  rw [Bool.true_and] at hok
  generalize (List.range 16).foldl (ctxNext k) (true, s) = r at hok hcounts hsame ⊢
  obtain ⟨ok, v⟩ := r
  dsimp only at hok hcounts hsame
  rw [← hok]
  refine ⟨fun hgood => ?_, fun hbad => ⟨v, ?_, hcounts⟩⟩
  · rw [Bool.not_eq_false'] at hgood
    rw [hsame fun i hi => (Bool.not_eq_true' _).mp (List.all_eq_true.mp (hok.symm.trans hgood) i hi), hgood]
  · rw [(Bool.not_eq_true' _).mp hbad]

/-! ### WRITE, READ, SEND and FLUSH -/

/-- The message that WRITE, READ, SEND and FLUSH give to their connection (R263, R264). -/
def askedMove (op : Nat) (d : Desc) (id : Nat) : OutMsg :=
  { live := some id, conn := opBits d 0x38 2 14 0, control := opBit d 0x39 7
    op := if op = 0x10 then 0x01 else if op = 0x11 then 0x02 else if op = 0x15 then 0x08
      else if opBit d 0x39 7 then 0x11 else 0x04
    vl := if opBit d 0x39 7 then 2 else 0, prio := d.prio.toNat
    key := opd d 0x30 4, addr := opd d 0x28 6, channel := d.channel.toNat, seq := d.seq.toNat, reqPsn := 0
    counter := 0, add := if op = 0x11 then opd d 0x34 4 else 0, remCtr := opd d 0x3A 2
    ctrEn := opBit d 0x3C 7, len := if op = 0x10 ∨ op = 0x12 then opd d 0x34 4 else 0
    load := .host (opd d 0x20 8), sent := 0, begun := false, poison := false }

/-- Of operands that pass the checks of R263, only a SEND's name the control stream, and no READ's or FLUSH's a counter. -/
theorem State.moveCheck_none {s : State} {op : Nat} {o : MoveOps} (h : s.moveCheck op o = none) :
    (o.ctrEn = true → op ≠ 0x11 ∧ op ≠ 0x15) ∧ (o.ctrl = true → op = 0x12) := by
  unfold State.moveCheck at h
  dsimp only at h
  split at h
  · cases h
  · split at h
    · cases h
    · next hctr =>
      split at h
      · cases h
      · next hctrl => simpa using And.intro hctr hctrl

theorem moveMsg_asked {s : State} {op : Nat} {d : Desc} (id : Nat) (hop : op ∈ [0x10, 0x11, 0x12, 0x15])
    (h : s.moveCheck op (moveOps d) = none) :
    { moveMsg op d (moveOps d) with live := some id, prio := d.prio.toNat } = askedMove op d id := by
  obtain ⟨hctr, hctrl⟩ := State.moveCheck_none h
  change (opBit d 0x3C 7 = true → _) at hctr
  change (opBit d 0x39 7 = true → _) at hctrl
  unfold moveMsg moveOps askedMove newMsg
  simp only [List.mem_cons, List.not_mem_nil, or_false] at hop
  generalize opBit d 0x3C 7 = ctr at hctr ⊢
  generalize opBit d 0x39 7 = ctrl at hctrl ⊢
  rcases hop with rfl | rfl | rfl | rfl
  case inl =>
    obtain rfl : ctrl = false := by simpa using hctrl
    simp [moveOpcode]
  case inr.inl =>
    obtain ⟨rfl, rfl⟩ : ctr = false ∧ ctrl = false := ⟨by simpa using hctr, by simpa using hctrl⟩
    simp [moveOpcode]
  case inr.inr.inl => cases ctrl <;> simp [moveOpcode]
  case inr.inr.inr =>
    obtain ⟨rfl, rfl⟩ : ctr = false ∧ ctrl = false := ⟨by simpa using hctr, by simpa using hctrl⟩
    simp [moveOpcode]

/-- What WRITE, READ, SEND and FLUSH do once their connection's context is found usable (R263, R264). -/
def State.moveOn (u : State) (op : Nat) (l : Live) : State :=
  match u.moveCheck op (moveOps l.desc) with
  | some st => u.finish l ⟨st, 0, 0, none⟩
  | none =>
    if u.connState (opBits l.desc 0x38 2 14 0) = 2 then (u.setPhase l.id .remote).post (askedMove op l.desc l.id) else u

section
variable {l : Live} {u : State} {op c : Nat} (hc : opBits l.desc 0x38 2 14 0 = c) (hup : u.upsets = [])
include hc hup

theorem startMove_spoilt (hbad : u.spoilt c = true) :
    ∃ v, startMove op l u = v.finish l ⟨0x51, 0, 0, none⟩ ∧ u.CountsUes v := by
  obtain ⟨v, huse, hcounts⟩ := (State.useConns_unflipped c hup).2 hbad
  refine ⟨v, ?_, hcounts⟩
  unfold startMove
  dsimp only
  rw [show (moveOps l.desc).conn = c from hc, huse]
  rfl

theorem startMove_usable (hop : op ∈ [0x10, 0x11, 0x12, 0x15]) (hgood : u.spoilt c = false) :
    startMove op l u = u.moveOn op l := by
  unfold startMove State.moveOn
  dsimp only
  rw [show (moveOps l.desc).conn = c from hc, (State.useConns_unflipped c hup).1 hgood, hc]
  cases hst : u.moveCheck op (moveOps l.desc) with
  | some st => rfl
  | none => rw [← moveMsg_asked l.id hop hst]; rfl

end

/-! ### COUNTER_ADD and ATOMIC_MAX of another chip -/

section
variable {l : Live} {u : State} {c : Nat}

/-- What a COUNTER_ADD does once its connection's context is found usable (R240). -/
def State.addOn (u : State) (l : Live) (c : Nat) : State :=
  match u.connCheck c 0x07 with
  | some st => u.finish l ⟨st, 0, 0, none⟩
  | none =>
    if u.connState c = 2 then
      (u.setPhase l.id .remote).post { newMsg c false 0x07 0 (.data [] []) with
        live := some l.id, prio := l.desc.prio.toNat, counter := opd l.desc 0x20 2, add := opd l.desc 0x24 4
        channel := l.desc.channel.toNat }
    else u

section
variable (hrem : opBit l.desc 0x22 0 = true)
include hrem

theorem startCounterAdd_set (hset : opBit l.desc 0x22 1 = true) :
    startCounterAdd l u = u.finish l ⟨0x70, 0, 0, none⟩ := by
  unfold startCounterAdd
  dsimp only
  rw [hrem, hset]
  rfl

variable (hadd : opBit l.desc 0x22 1 = false) (hc : opBits l.desc 0x28 2 14 0 = c) (hup : u.upsets = [])
include hadd hc hup

theorem startCounterAdd_spoilt (hbad : u.spoilt c = true) :
    ∃ v, startCounterAdd l u = v.finish l ⟨0x51, 0, 0, none⟩ ∧ u.CountsUes v := by
  obtain ⟨v, huse, hcounts⟩ := (State.useConns_unflipped c hup).2 hbad
  refine ⟨v, ?_, hcounts⟩
  unfold startCounterAdd
  dsimp only
  rw [hrem, hadd, hc, huse]
  rfl

theorem startCounterAdd_usable (hgood : u.spoilt c = false) : startCounterAdd l u = u.addOn l c := by
  unfold startCounterAdd
  dsimp only
  rw [hrem, hadd, hc, (State.useConns_unflipped c hup).1 hgood]
  rfl

end

/-- What a remote ATOMIC_MAX does once its operands and its connection's context are found good (R206, R208). -/
def State.maxOn (u : State) (l : Live) (c : Nat) : State :=
  match u.connCheck c 0x06 with
  | some st => u.finish l ⟨st, 0, 0, none⟩
  | none =>
    if u.connState c = 2 then
      (u.setPhase l.id .remote).post { newMsg c false 0x06 (4 * opBits l.desc 0x36 2 12 0) (u.maxLoad l.desc) with
        live := some l.id, prio := l.desc.prio.toNat, key := opd l.desc 0x30 4, addr := opd l.desc 0x28 6
        channel := l.desc.channel.toNat }
    else u

section
variable (hrem : opBit l.desc 0x35 7 = true) (hc : opBits l.desc 0x34 2 14 0 = c) (hup : u.upsets = [])
include hrem hc hup

theorem startMax_misplaced (hgood : u.spoilt c = false) (hbad : maxBad l.desc = true) :
    startMax l u = u.finish l ⟨0x23, 0, 0, none⟩ := by
  unfold startMax
  dsimp only
  rw [hrem, hc, (State.useConns_unflipped c hup).1 hgood, hbad]
  rfl

theorem startMax_spoilt (hplaced : maxBad l.desc = false) (hbad : u.spoilt c = true) :
    ∃ v, startMax l u = v.finish l ⟨0x51, 0, 0, none⟩ ∧ u.CountsUes v := by
  obtain ⟨v, huse, hcounts⟩ := (State.useConns_unflipped c hup).2 hbad
  refine ⟨v, ?_, hcounts⟩
  unfold startMax
  dsimp only
  rw [hrem, hc, huse, hplaced]
  rfl

theorem startMax_usable (hplaced : maxBad l.desc = false) (hgood : u.spoilt c = false) :
    startMax l u = u.maxOn l c := by
  unfold startMax
  dsimp only
  rw [hrem, hc, (State.useConns_unflipped c hup).1 hgood, hplaced]
  rfl

end

end

/-! ### From their dispatch on -/

/-- A dispatched descriptor's command begins its opcode's work (R231). -/
theorem exec_goes {i : Instr} {op : Nat} {d : Desc} {s : State} (hi : descOp i = some (op, d)) (hgo : s.goes op d = true) :
    exec i s = .next (startBy op (s.begun op d).1 (s.begun op d).2) := by
  rw [exec_descOp s hi, State.runDesc_goes _ hgo]

/-- The commands of R263 and R264, with their opcodes. -/
def moveRows (d : Desc) : List (Instr × Nat) :=
  [(.write d, 0x10), (.read d, 0x11), (.send d, 0x12), (.flush d, 0x15)]

theorem exec_moveRows {d : Desc} {s : State} {p : Instr × Nat} (hp : p ∈ moveRows d) (hgo : s.goes p.2 d = true) :
    exec p.1 s = .next (startMove p.2 (s.begun p.2 d).1 (s.begun p.2 d).2) ∧ p.2 ∈ [0x10, 0x11, 0x12, 0x15] := by
  simp only [moveRows, List.mem_cons, List.not_mem_nil, or_false] at hp
  rcases hp with rfl | rfl | rfl | rfl
  all_goals exact ⟨exec_goes rfl hgo, by simp⟩

section
variable {s : State} {op : Nat} {d : Desc} (h : s.Begins op d)
include h

theorem State.Begins.upsets : (s.begun op d).2.upsets = s.upsets := by
  obtain ⟨g, c, w, n, k, x, l, o, hu⟩ := h.frame
  rw [hu]

theorem State.Begins.spoilt (c : Nat) : (s.begun op d).2.spoilt c = s.spoilt c := by
  obtain ⟨g, w, n, k, x, l, o, m, hu⟩ := h.frame
  rw [State.spoilt, State.spoilt, hu]

theorem State.Begins.connState (c : Nat) : (s.begun op d).2.connState c = s.connState c := h.tables.conn c Conn.state

theorem State.Begins.connFlag (c : Nat) (f : Fld) :
    (s.begun op d).2.flag (connBase c) f = s.flag (connBase c) f := by
  rw [State.flag, State.flag, h.tables.conn]

theorem State.Begins.connCheck (c op' : Nat) : (s.begun op d).2.connCheck c op' = s.connCheck c op' := by
  unfold State.connCheck
  dsimp only
  rw [h.connState, h.connFlag, h.tables.conn, h.tables.conn]

theorem State.Begins.moveCheck (op' : Nat) (o : MoveOps) : (s.begun op d).2.moveCheck op' o = s.moveCheck op' o := by
  unfold State.moveCheck
  dsimp only
  rw [h.connState, h.connFlag, h.tables.conn, h.tables.conn]

theorem State.Begins.maxLoad (d' : Desc) : (s.begun op d).2.maxLoad d' = s.maxLoad d' := by
  simp only [State.maxLoad, State.maxOperands, State.rd, State.poisoned, h.mem, h.memPoison]

end

/-- Settles O32: each start checks its connection's context first, which without flips changes nothing but the counts of
poisoned words; what the checks after it read a dispatch leaves. -/
theorem transportDescriptorsPostTheirMessages : Obligations.TransportDescriptorsPostTheirMessages := by
  unfold Obligations.TransportDescriptorsPostTheirMessages
  intro s d hwf hup bad spoilt
  refine ⟨fun p hp hgo => ?moves, fun hgo hrem => ?add, fun hgo hrem => ?max⟩
  case moves =>
    obtain ⟨hexec, hop⟩ := exec_moveRows hp hgo
    have hb := s.begins p.2 d hwf
    have hdesc := hb.desc_eq
    have hupb := hb.upsets.trans hup
    have hrun (hgood : bad (opBits d 0x38 2 14 0) = false) := hexec.trans
      (congrArg _ (startMove_usable (by rw [hdesc]) hupb hop ((hb.spoilt (opBits d 0x38 2 14 0)).trans hgood)))
    unfold State.moveOn at hrun
    rw [hb.moveCheck, hb.connState, hdesc] at hrun
    refine ⟨fun hbad => ?_, fun st hgood hst => ?_, fun hgood hst hconn => ?_, fun hgood hst hconn => ?_⟩
    · obtain ⟨v, hv, hcounts⟩ := startMove_spoilt (op := p.2) (by rw [hdesc]) hupb
        ((hb.spoilt (opBits d 0x38 2 14 0)).trans hbad)
      exact ⟨v, hexec.trans (congrArg _ hv), hcounts.only, hcounts.regs⟩
    · rw [hrun hgood, hst]
    · rw [hrun hgood, hst]
      exact congrArg _ (if_pos hconn)
    · rw [hrun hgood, hst]
      exact congrArg _ (if_neg hconn)
  case add =>
    have hexec : exec (.counterAdd d) s = .next (startCounterAdd _ _) := exec_goes rfl hgo
    have hb := s.begins 0x43 d hwf
    have hdesc := hb.desc_eq
    have hupb := hb.upsets.trans hup
    have hrun (hadd : opBit d 0x22 1 = false) (hgood : bad (opBits d 0x28 2 14 0) = false) := hexec.trans
      (congrArg _ (startCounterAdd_usable (by rw [hdesc]; exact hrem) (by rw [hdesc]; exact hadd) (by rw [hdesc]) hupb
        ((hb.spoilt (opBits d 0x28 2 14 0)).trans hgood)))
    unfold State.addOn at hrun
    rw [hb.connCheck, hb.connState, hdesc] at hrun
    refine ⟨fun hset => ?_, fun hadd hbad => ?_, fun st hadd hgood hst => ?_, fun hadd hgood hst hconn => ?_,
      fun hadd hgood hst hconn => ?_⟩
    · exact hexec.trans (congrArg _ (startCounterAdd_set (by rw [hdesc]; exact hrem) (by rw [hdesc]; exact hset)))
    · obtain ⟨v, hv, hcounts⟩ := startCounterAdd_spoilt (by rw [hdesc]; exact hrem) (by rw [hdesc]; exact hadd)
        (by rw [hdesc]) hupb ((hb.spoilt (opBits d 0x28 2 14 0)).trans hbad)
      exact ⟨v, hexec.trans (congrArg _ hv), hcounts.only, hcounts.regs⟩
    · rw [hrun hadd hgood, hst]
    · rw [hrun hadd hgood, hst]
      exact congrArg _ (if_neg hconn)
    · rw [hrun hadd hgood, hst]
      exact congrArg _ (if_pos hconn)
  case max =>
    have hexec : exec (.atomicMax d) s = .next (startMax _ _) := exec_goes rfl hgo
    have hb := s.begins 0x16 d hwf
    have hdesc := hb.desc_eq
    have hupb := hb.upsets.trans hup
    have hrun (hplaced : maxBad d = false) (hgood : bad (opBits d 0x34 2 14 0) = false) := hexec.trans
      (congrArg _ (startMax_usable (by rw [hdesc]; exact hrem) (by rw [hdesc]) hupb (by rw [hdesc]; exact hplaced)
        ((hb.spoilt (opBits d 0x34 2 14 0)).trans hgood)))
    unfold State.maxOn at hrun
    rw [hb.connCheck, hb.connState, hdesc, hb.maxLoad] at hrun
    refine ⟨fun hplaced hgood => ?_, fun hplaced hbad => ?_, fun st hplaced hgood hst => ?_,
      fun hplaced hgood hst hconn => ?_, fun hplaced hgood hst hconn => ?_⟩
    · exact hexec.trans (congrArg _ (startMax_misplaced (by rw [hdesc]; exact hrem) (by rw [hdesc]) hupb
        ((hb.spoilt (opBits d 0x34 2 14 0)).trans hgood) (by rw [hdesc]; exact hplaced)))
    · obtain ⟨v, hv, hcounts⟩ := startMax_spoilt (by rw [hdesc]; exact hrem) (by rw [hdesc]) hupb
        (by rw [hdesc]; exact hplaced) ((hb.spoilt (opBits d 0x34 2 14 0)).trans hbad)
      exact ⟨v, hexec.trans (congrArg _ hv), hcounts.only, hcounts.regs⟩
    · rw [hrun hplaced hgood, hst]
    · rw [hrun hplaced hgood, hst]
      exact congrArg _ (if_neg hconn)
    · rw [hrun hplaced hgood, hst]
      exact congrArg _ (if_pos hconn)

end Sys2Proof.Machine
end

section
/-! Memory as an operation of the Abutments sees it, given byte by byte: runs of bytes that it reads and writes, and runs of
elements of one width (R43, R201). -/

namespace Sys2Proof.Machine

/-! ### Runs of bytes -/

theorem bytesAt_append (m : Nat → Byte) (a k n : Nat) : bytesAt m a (k + n) = bytesAt m a k ++ bytesAt m (a + k) n := by
  simp only [bytesAt, List.range_add, List.map_append, List.map_map]
  refine congrArg _ (List.map_congr_left fun i _ => ?_)
  rw [Function.comp, Nat.add_assoc]

theorem sub_within {bs : Bytes} {off len : Nat} (h : off + len ≤ bs.length) : sub bs off len = (bs.drop off).take len := by
  have hlen : ((bs.drop off).take len).length = len := by rw [List.length_take, List.length_drop]; omega
  rw [sub, hlen, Nat.sub_self]
  exact List.append_nil _

theorem patch_nil (m : Nat → Byte) (a : Nat) : patch m a [] = m :=
  funext fun x => if_neg (by simp only [List.length_nil]; omega)

/-- A run written, then the bytes that follow it. -/
theorem patch_append (m : Nat → Byte) (a : Nat) (b1 b2 : Bytes) :
    patch (patch m a b1) (a + b1.length) b2 = patch m a (b1 ++ b2) := by
  funext x
  simp only [patch, List.length_append, nth]
  by_cases h1 : a + b1.length ≤ x ∧ x < a + b1.length + b2.length
  · rw [if_pos h1, if_pos (by omega), List.getElem?_append_right (by omega), Nat.sub_sub]
  · rw [if_neg h1]
    by_cases h2 : a ≤ x ∧ x < a + b1.length
    · rw [if_pos h2, if_pos (by omega), List.getElem?_append_left (by omega)]
    · rw [if_neg h2, if_neg (by omega)]

/-- A run written elsewhere leaves a run of bytes. -/
theorem bytesAt_patch_apart (m : Nat → Byte) {a b n : Nat} {bs : Bytes} (h : b + n ≤ a ∨ a + bs.length ≤ b) :
    bytesAt (patch m a bs) b n = bytesAt m b n :=
  bytesAt_congr fun _ _ _ => patch_other m (by omega)

/-- Bytes of a run that has been written. -/
theorem bytesAt_patch_within (m : Nat → Byte) (a : Nat) {bs : Bytes} {k n : Nat} (h : k + n ≤ bs.length) :
    bytesAt (patch m a bs) (a + k) n = (bs.drop k).take n := by
  rw [← sub_within h, ← sub_bytesAt (patch m a bs) a h, bytesAt_patch_same]

/-! ### Runs of elements -/

/-- Elements of w bytes one after another (R43). -/
def flatWords (w : Nat) (xs : List Nat) : Bytes := (xs.map (toLE w)).flatten

@[simp] theorem length_flatWords (w : Nat) (xs : List Nat) : (flatWords w xs).length = w * xs.length := by
  have hone : List.length ∘ toLE w = fun _ => w := funext (length_toLE w)
  rw [flatWords, List.length_flatten, List.map_map, hone, List.map_const', List.sum_replicate, smul_eq_mul, Nat.mul_comm]

theorem flatWords_cons (w x : Nat) (xs : List Nat) : flatWords w (x :: xs) = toLE w x ++ flatWords w xs := rfl

theorem drop_flatWords (w : Nat) (xs : List Nat) (j : Nat) : (flatWords w xs).drop (w * j) = flatWords w (xs.drop j) := by
  induction xs generalizing j with
  | nil => simp [flatWords]
  | cons x xs ih =>
    cases j with
    | zero => rfl
    | succ j =>
      have hw : w * (j + 1) = (toLE w x).length + w * j := by rw [length_toLE, Nat.mul_succ, Nat.add_comm]
      rw [flatWords_cons, hw, List.drop_length_add_append, ih]
      rfl

theorem element_flatWords (w : Nat) {xs : List Nat} {j : Nat} (h : j < xs.length) :
    ((flatWords w xs).drop (w * j)).take w = toLE w xs[j] := by
  rw [drop_flatWords, List.drop_eq_getElem_cons h, flatWords_cons]
  exact List.take_left' (length_toLE w _)

theorem mul_add_le_of_lt {w j n : Nat} (h : j < n) : w * j + w ≤ w * n := by
  calc w * j + w = w * (j + 1) := (Nat.mul_succ w j).symm
    _ ≤ w * n := Nat.mul_le_mul_left w h

/-- An element of a run that has been written. -/
theorem bytesAt_patch_element (m : Nat → Byte) (a w : Nat) {xs : List Nat} {j : Nat} (h : j < xs.length) :
    bytesAt (patch m a (flatWords w xs)) (a + w * j) w = toLE w xs[j] := by
  rw [bytesAt_patch_within m a (by rw [length_flatWords]; exact mul_add_le_of_lt h), element_flatWords w h]

/-- A number spelled from its low bytes and the rest. -/
theorem toLE_add (j k : Nat) {x : Nat} (y : Nat) (hx : x < 2 ^ (8 * j)) :
    toLE (j + k) (x + y <<< (8 * j)) = toLE j x ++ toLE k y := by
  induction j generalizing x with
  | zero =>
    obtain rfl : x = 0 := by simpa using hx
    simp [toLE]
  | succ j ih =>
    have hpow : 2 ^ (8 * (j + 1)) = 256 * 2 ^ (8 * j) := by rw [Nat.mul_succ, Nat.pow_add, Nat.mul_comm]
    have hsum : x + y <<< (8 * (j + 1)) = x + 256 * (y <<< (8 * j)) := by
      rw [Nat.shiftLeft_eq, Nat.shiftLeft_eq, hpow, Nat.mul_left_comm]
    have hdiv : (x + 256 * (y <<< (8 * j))) / 256 = x / 256 + y <<< (8 * j) := Nat.add_mul_div_left x _ (by decide)
    have hlow : BitVec.ofNat 8 (x + 256 * (y <<< (8 * j))) = BitVec.ofNat 8 x :=
      BitVec.eq_of_toNat_eq (Nat.add_mul_mod_self_left x 256 _)
    rw [Nat.succ_add, hsum, toLE, hdiv, ih (by omega), hlow]
    rfl

/-- Codes that fit their width of whole bytes stand one after another (R43). -/
theorem packCodes_bytes {w : Nat} {xs : List Nat} (h : ∀ x ∈ xs, x < 2 ^ (8 * w)) : packCodes (8 * w) xs = flatWords w xs := by
  have hlen (n : Nat) : ceilDiv (8 * w * n) 8 = w * n := by
    rw [ceilDiv, Nat.mul_assoc]
    omega
  unfold packCodes
  dsimp only
  rw [hlen]
  induction xs with
  | nil => rfl
  | cons x xs ih =>
    rw [List.length_cons, Nat.mul_succ, Nat.add_comm, List.foldr_cons, toLE_add _ _ _ (h x List.mem_cons_self),
      ih fun y hy => h y (List.mem_cons_of_mem x hy), flatWords_cons]

end Sys2Proof.Machine
end

section
/-! An operation of the Abutments at work (R200-R203): what it changes of the machine, and memory as it sees it. -/

namespace Sys2Proof.Machine

/-! ### What the coalescing buffer changes -/

/-- Only host memory, the lines of the Abutments, what an operation touched in them and registers of Abutments differ. -/
def State.buffering (s t : State) : Prop :=
  t = { s with mem := t.mem, memPoison := t.memPoison, regs := t.regs, cb := t.cb, touched := t.touched } ∧
  s.regsIn t abutPage

/-- A register of the Abutments, or the low word of a pair of them. -/
def abutReg (r : Nat → Nat) : Prop := ∀ k < 8, abutPage (r k / 4096) = true ∧ abutPage ((r k + 4) / 4096) = true

theorem abutOf_lt (a : Nat) : abutOf a < 8 := (Config.stackOf (a / 64)).isLt

section
variable {s t u : State}

theorem State.buffering_refl (s : State) : s.buffering s := ⟨rfl, fun _ _ => rfl⟩

theorem State.buffering_trans (h : s.buffering t) (h' : t.buffering u) : s.buffering u := by
  refine ⟨?_, State.regsIn_trans h.2 h'.2⟩
  rw [h'.1, h.1]

variable (s)

theorem State.buffering_cb (c : List CbLine) : s.buffering { s with cb := c } := ⟨rfl, fun _ _ => rfl⟩

theorem State.buffering_bump {r : Nat → Nat} (hr : abutReg r) (a n : Nat) : s.buffering (s.abutBump r a n) := by
  obtain ⟨g, hg⟩ := s.bump_effect (r (abutOf a)) n
  exact ⟨by rw [State.abutBump, hg], State.regsIn_bump n (hr _ (abutOf_lt a)).1⟩

theorem State.buffering_bump64 {r : Nat → Nat} (hr : abutReg r) (a n : Nat) : s.buffering (s.abutBump64 r a n) := by
  obtain ⟨g, hg⟩ := s.bump64_effect (r (abutOf a)) n
  exact ⟨by rw [State.abutBump64, hg], State.regsIn_bump64 n (hr _ (abutOf_lt a)).1 (hr _ (abutOf_lt a)).2⟩

theorem State.buffering_wrP (p : Bool) (a : Nat) (bs : Bytes) : s.buffering (s.wrP p a bs) := by
  obtain ⟨g, hg⟩ := s.wrP_effect p a bs
  rw [hg]
  exact ⟨rfl, fun _ _ => rfl⟩

theorem State.buffering_cbWriteBack (l : CbLine) : s.buffering (s.cbWriteBack l) := by
  have hpages : ∀ k < 8, ∀ a ∈ errRegs (0x68 + k), abutPage (a / 4096) = true := by decide
  unfold State.cbWriteBack
  split
  · obtain ⟨honly, hregs⟩ := s.cbRead_frame l
    have hread : s.buffering (s.cbRead l) :=
      ⟨by rw [honly], State.regsIn_of_regsBut hregs (hpages _ (abutOf_lt _))⟩
    exact State.buffering_trans hread (State.buffering_trans (State.buffering_wrP _ _ _ _)
      (State.buffering_bump64 _ (r := R.abutCbWbLo) (by unfold abutReg; decide) _ _))
  · exact s.buffering_refl

theorem State.buffering_cbRoom (k : Nat) : s.buffering (s.cbRoom k) := by
  unfold State.cbRoom
  split
  · exact s.buffering_refl
  · split
    · exact s.buffering_refl
    · next l _ =>
      exact State.buffering_trans (s.buffering_cbWriteBack l) (State.buffering_cb _ _)

theorem State.buffering_touch (k g : Nat) : s.buffering (s.touch k g) := by
  unfold State.touch
  split
  · exact s.buffering_refl
  · exact ⟨rfl, fun _ _ => rfl⟩

theorem State.buffering_cbTouch (id a : Nat) (load : Bool) : s.buffering (s.cbTouch id a load) := by
  have hlook := State.buffering_trans (s.buffering_bump64 (r := R.abutCbLookupLo) (by unfold abutReg; decide) a 1)
    (State.buffering_touch _ id (a / 64))
  unfold State.cbTouch
  dsimp only
  split
  · exact State.buffering_trans hlook (State.buffering_cb _ _)
  · exact State.buffering_trans hlook (State.buffering_trans (State.buffering_trans (State.buffering_cbRoom _ _)
      (State.buffering_bump64 _ (r := R.abutCbMissLo) (by unfold abutReg; decide) a 1)) (State.buffering_cb _ _))

theorem State.buffering_putGranule (a : Nat) (bs : Bytes) (p : Bool) : s.buffering (s.putGranule a bs p) := by
  unfold State.putGranule
  dsimp only
  split
  · exact ⟨rfl, fun _ _ => rfl⟩
  · exact s.buffering_wrP p a bs

end

theorem State.buffering.computes {s t : State} (h : s.buffering t) : s.computes t := by
  have hup : t.upsets = s.upsets := by rw [h.1]
  refine ⟨?_, fun u hu => hup ▸ hu⟩
  rw [h.1]

/-! ### Memory as it sees it -/

/-- A byte in none of the ranges (address, bytes). -/
def outside (r : List (Nat × Nat)) (x : Nat) : Prop := ∀ p ∈ r, x < p.1 ∨ p.1 + p.2 ≤ x

/-- A run of bytes in one of the ranges. -/
def within (r : List (Nat × Nat)) (a n : Nat) : Prop := ∃ p ∈ r, p.1 ≤ a ∧ a + n ≤ p.1 + p.2

theorem within.mono {r : List (Nat × Nat)} {a n b k : Nat} (h : within r a n) (hb : a ≤ b) (hk : b + k ≤ a + n) :
    within r b k := by
  obtain ⟨p, hp, hlo, hhi⟩ := h
  exact ⟨p, hp, by omega, by omega⟩

theorem within.patch {r : List (Nat × Nat)} {a : Nat} {bs : Bytes} (h : within r a bs.length) (m : Nat → Byte) {x : Nat}
    (hx : outside r x) : patch m a bs x = m x := by
  obtain ⟨p, hp, hlo, hhi⟩ := h
  have := hx p hp
  exact patch_other m (by omega)

/-- Bytes in a run of granules that the Abutments see as given. -/
theorem State.seen_of_granules {s : State} {m : Nat → Byte} (h : ∀ g, s.granule g = (bytesAt m (g * 64) 64, false))
    (a n : Nat) : s.seen a n = (bytesAt m a n, false) := by
  have hrun (g k : Nat) : ((List.range k).map fun i => bytesAt m ((g + i) * 64) 64).flatten = bytesAt m (g * 64) (64 * k) := by
    induction k with
    | zero => rfl
    | succ k ih =>
      rw [List.range_succ, List.map_append, List.flatten_append, ih, Nat.mul_succ 64 k, bytesAt_append, List.map_singleton,
        List.flatten_singleton, show (g + k) * 64 = g * 64 + 64 * k by omega]
  have hfst : a / 64 * 64 ≤ a := Nat.div_mul_le_self a 64
  unfold State.seen
  dsimp only
  have hu : (unitsOf 64 a n).1 = a / 64 := by unfold unitsOf; split <;> rfl
  have hend : a - a / 64 * 64 + n ≤ 64 * (unitsOf 64 a n).2 ∨ n = 0 := by
    unfold unitsOf
    split
    · next hn => exact .inr hn
    · dsimp only; omega
  rw [hu]
  simp only [h, List.map_map, Function.comp_def]
  rw [hrun, show ((List.range (unitsOf 64 a n).2).map fun i => (bytesAt m ((a / 64 + i) * 64) 64, false)).any
    (fun x => x.2) = false by simp]
  rcases hend with hend | rfl
  · rw [sub_bytesAt _ _ hend, Nat.add_sub_cancel' hfst]
  · rfl

/-- An operation that began in the state o with no line held, at work: m is memory as it sees it, and it writes in the ranges
alone (R201). -/
structure State.Works (o s : State) (id : Nat) (m : Nat → Byte) (r : List (Nat × Nat)) : Prop where
  buf : o.Buffers s id m
  frame : o.buffering s
  host : ∀ x, outside r x → s.mem.read x = o.mem.read x
  view : ∀ x, outside r x → m x = o.mem.read x

section
variable {o s t : State} {id : Nat} {m : Nat → Byte} {r : List (Nat × Nat)}

theorem State.Works.start (id : Nat) (r : List (Nat × Nat)) (hwf : s.mem.wf = true) (hgood : s.memPoison = [])
    (hcb : s.cb = []) : s.Works s id s.mem.read r :=
  ⟨.start hwf hgood hcb, s.buffering_refl, fun _ _ => rfl, fun _ _ => rfl⟩

theorem State.Works.seen (h : o.Works s id m r) (a n : Nat) : s.seen a n = (bytesAt m a n, false) :=
  State.seen_of_granules h.buf.granule a n

theorem State.Works.bump (h : o.Works s id m r) {reg : Nat → Nat} (hr : abutReg reg) (a n : Nat) :
    o.Works (s.abutBump reg a n) id m r := by
  have hmem : (s.abutBump reg a n).mem = s.mem := s.bump_mem _ n
  exact ⟨h.buf.bump _ n, State.buffering_trans h.frame (s.buffering_bump hr a n), hmem ▸ h.host, h.view⟩

theorem State.Works.bump64 (h : o.Works s id m r) {reg : Nat → Nat} (hr : abutReg reg) (a n : Nat) :
    o.Works (s.abutBump64 reg a n) id m r := by
  have hmem : (s.abutBump64 reg a n).mem = s.mem := s.bump64_mem _ n
  exact ⟨h.buf.bump64 _ n, State.buffering_trans h.frame (s.buffering_bump64 hr a n), hmem ▸ h.host, h.view⟩

@[simp] theorem State.touch_mem (s : State) (k g : Nat) : (s.touch k g).mem = s.mem := by
  unfold State.touch
  split <;> rfl

theorem State.Works.touch (h : o.Works s id m r) (k g : Nat) : o.Works (s.touch k g) id m r :=
  ⟨h.buf.touch k g, State.buffering_trans h.frame (s.buffering_touch k g), (s.touch_mem k g).symm ▸ h.host, h.view⟩

/-- Counters raised in turn. -/
theorem State.Works.foldl {α : Type} {f : State → α → State} (l : List α) (h : o.Works s id m r)
    (hf : ∀ t a, o.Works t id m r → o.Works (f t a) id m r) : o.Works (l.foldl f s) id m r :=
  List.foldlRecOn (motive := fun t => o.Works t id m r) l f h fun t ht a _ => hf t a ht

/-- A line evicted leaves host memory outside the ranges (R202). -/
theorem State.Works.cbRoom (h : o.Works s id m r) (k : Nat) : o.Works (s.cbRoom k) id m r := by
  refine ⟨h.buf.cbRoom k, State.buffering_trans h.frame (s.buffering_cbRoom k), fun x hx => ?_, h.view⟩
  unfold State.cbRoom
  split
  · exact h.host x hx
  · split
    · exact h.host x hx
    · next l hfind =>
      obtain ⟨hdata, hpoison, -⟩ := h.buf.line l (List.mem_reverse.mp (List.mem_of_find?_eq_some hfind))
      obtain ⟨-, -, hread⟩ := State.writeBacks_seen (s := s) (m := m) [l] h.buf.wf h.buf.good fun y hy => by
        rw [List.mem_singleton.mp hy]
        exact ⟨hdata, hpoison⟩
      rcases hread x with hm | ⟨hm, -⟩
      · exact hm.trans (h.view x hx)
      · exact hm.trans (h.host x hx)

/-- The state in which an operation looks for the line of a granule (R201). -/
def State.looked (s : State) (id a : Nat) : State := (s.abutBump64 R.abutCbLookupLo a).touch id (a / 64)

/-- Room made for the line of a granule, which is counted as a miss (R201, R202). -/
def State.missed (s : State) (a : Nat) : State := (s.cbRoom (abutOf a)).abutBump64 R.abutCbMissLo a

theorem State.Works.looked (h : o.Works s id m r) (a : Nat) : o.Works (s.looked id a) id m r :=
  (h.bump64 (reg := R.abutCbLookupLo) (by unfold abutReg; decide) a 1).touch id (a / 64)

theorem State.Works.missed (h : o.Works s id m r) (a : Nat) : o.Works (s.missed a) id m r :=
  (h.cbRoom (abutOf a)).bump64 (reg := R.abutCbMissLo) (by unfold abutReg; decide) a 1

@[simp] theorem State.looked_cb (s : State) (id a : Nat) : (s.looked id a).cb = s.cb := by
  unfold State.looked State.touch State.abutBump64
  split <;> simp

/-- A granule has a line. -/
def State.lined (s : State) (g : Nat) : Bool := s.cb.any fun l => l.granule == g

/-- The line of a granule brought to the front. -/
theorem State.cbTouch_hit {a : Nat} (h : s.lined (a / 64) = true) (id : Nat) (load : Bool) :
    s.cbTouch id a load = s.cbTouch id a true ∧ (s.cbTouch id a true).mem = (s.looked id a).mem ∧
    (s.cbTouch id a true).lined (a / 64) = true := by
  cases hfind : (s.looked id a).cb.find? (fun l => l.granule == a / 64) with
  | none =>
    obtain ⟨l, hl, hg⟩ := List.any_eq_true.mp h
    exact absurd hg (List.find?_eq_none.mp hfind l (by rwa [s.looked_cb]))
  | some l =>
    have hg : l.granule = a / 64 := by simpa using List.find?_some hfind
    have htouch (load : Bool) : s.cbTouch id a load = { s.looked id a with
        cb := { l with users := if l.users.contains id then l.users else l.users ++ [id] } ::
          (s.looked id a).cb.filter fun x => x.granule != a / 64 } := by
      unfold State.cbTouch
      dsimp only
      change (match (s.looked id a).cb.find? (fun l => l.granule == a / 64) with | some l => _ | none => _) = _
      rw [hfind]
      rfl
    rw [htouch load, htouch true]
    exact ⟨rfl, rfl, List.any_eq_true.mpr ⟨_, List.mem_cons_self, by simpa using hg⟩⟩

/-- The line of a granule allocated, read from memory or not (R201). -/
theorem State.cbTouch_miss {a : Nat} (h : s.lined (a / 64) = false) (id : Nat) (load : Bool) :
    s.cbTouch id a load = { (s.looked id a).missed a with
      cb := ⟨a / 64, if load then ((s.looked id a).missed a).rd (a / 64 * 64) 64 else zeros 64,
        load && ((s.looked id a).missed a).poisoned (a / 64 * 64) 64, false, [id]⟩ :: ((s.looked id a).missed a).cb } := by
  have hfind : (s.looked id a).cb.find? (fun l => l.granule == a / 64) = none := by
    rw [s.looked_cb]
    exact List.find?_eq_none.mpr fun l hl => by simpa using List.any_eq_false.mp h l hl
  unfold State.cbTouch
  dsimp only
  change (match (s.looked id a).cb.find? (fun l => l.granule == a / 64) with | some l => _ | none => _) = _
  rw [hfind]
  rfl

theorem State.lined_missed {a : Nat} (h : s.lined (a / 64) = false) (id : Nat) :
    ∀ l ∈ ((s.looked id a).missed a).cb, l.granule ≠ a / 64 := fun l hl => by
  have hl : l ∈ ((s.looked id a).cbRoom (abutOf a)).cb := by rwa [State.missed, State.abutBump64, State.bump64_cb] at hl
  have hl := State.mem_cbRoom _ hl
  rw [s.looked_cb] at hl
  simpa using List.any_eq_false.mp h l hl

theorem State.Works.cbTouch (h : o.Works s id m r) (a : Nat) : o.Works (s.cbTouch id a true) id m r := by
  refine ⟨h.buf.cbTouch a, State.buffering_trans h.frame (s.buffering_cbTouch id a true), fun x hx => ?_, h.view⟩
  cases hline : s.lined (a / 64) with
  | true =>
    rw [(State.cbTouch_hit hline id true).2.1]
    exact (h.looked a).host x hx
  | false =>
    rw [State.cbTouch_miss hline]
    exact ((h.looked a).missed a).host x hx

/-! ### Reads -/

/-- An element read as the operation sees it (R201). -/
theorem State.Works.abLoad (h : o.Works s id m r) (a w : Nat) :
    (s.abLoad id a w).1 = (leNat (bytesAt m a w), false) ∧ o.Works (s.abLoad id a w).2 id m r := by
  have ht : o.Works (if w = 4 then s.cbTouch id a true else s.touch id (a / 64)) id m r := by
    split
    · exact h.cbTouch a
    · exact h.touch id (a / 64)
  unfold State.abLoad
  dsimp only
  rw [ht.seen]
  exact ⟨rfl, ht⟩

/-- Elements as an operation sees them, none poisoned. -/
def elementsAt (m : Nat → Byte) (a w n : Nat) : List (Nat × Bool) :=
  (List.range n).map fun j => (leNat (bytesAt m (a + w * j) w), false)

/-- Elements read in order. -/
theorem State.Works.abLoads (h : o.Works s id m r) (a w n : Nat) :
    (s.abLoads id a w n).1 = elementsAt m a w n ∧ o.Works (s.abLoads id a w n).2 id m r := by
  induction n with
  | zero => exact ⟨rfl, h⟩
  | succ n ih =>
    obtain ⟨hvals, hwork⟩ := ih
    obtain ⟨hval, hwork'⟩ := hwork.abLoad (a + w * n) w
    refine ⟨?_, hwork'⟩
    rw [elementsAt, List.range_succ, List.map_append, ← elementsAt, ← hvals, List.map_singleton, ← hval]
    rfl

/-! ### Writes -/

theorem State.putGranule_host (hwf : s.mem.wf = true) {a : Nat} {bs : Bytes} {x : Nat} (hx : x < a ∨ a + bs.length ≤ x) :
    (s.putGranule a bs false).mem.read x = s.mem.read x := by
  unfold State.putGranule
  dsimp only
  split
  · rfl
  · exact Memory.read_writeN_other hwf hx

theorem State.Works.putGranule (h : o.Works s id m r) {a : Nat} {bs : Bytes} (ha : a % 64 + bs.length ≤ 64)
    (hin : within r a bs.length) : o.Works (s.putGranule a bs false) id (patch m a bs) r := by
  refine ⟨h.buf.putGranule ha, State.buffering_trans h.frame (s.buffering_putGranule a bs false), fun x hx => ?_,
    fun x hx => (hin.patch m hx).trans (h.view x hx)⟩
  refine (State.putGranule_host h.buf.wf ?_).trans (h.host x hx)
  obtain ⟨p, hp, hlo, hhi⟩ := hin
  have := hx p hp
  omega

theorem State.lined_putGranule {g : Nat} (h : s.lined g = true) (a : Nat) (bs : Bytes) :
    (s.putGranule a bs false).lined g = true := by
  unfold State.putGranule
  dsimp only
  split
  · change (List.map (fun l : CbLine => l.stored a bs) s.cb).any _ = true
    rw [List.any_map]
    refine Eq.trans ?_ h
    exact congrArg (List.any s.cb) (funext fun l => by rw [Function.comp, CbLine.stored_granule])
  · exact h

/-- A line of zeros for a granule that has none, as soon as the operation writes in it (R201). -/
theorem State.Buffers.zeroLine (h : o.Buffers s id m) {g : Nat} (hnone : ∀ l ∈ s.cb, l.granule ≠ g) :
    o.Buffers { s with cb := ⟨g, zeros 64, false, true, [id]⟩ :: s.cb } id (patch m (g * 64) (zeros 64)) := by
  have hlen : (zeros 64).length = 64 := List.length_replicate
  refine ⟨h.ctx, h.x, h.wf, h.good, fun l hl => ?_, fun l hl l' hl' hg => ?_, fun x hx => ?_⟩
  · rcases List.mem_cons.mp hl with rfl | hl
    · refine ⟨?_, rfl, rfl⟩
      exact (hlen ▸ bytesAt_patch_same m (g * 64) (zeros 64)).symm
    · obtain ⟨hdata, hkeep⟩ := h.line l hl
      have := hnone l hl
      exact ⟨hdata.trans (bytesAt_patch_apart m (by omega)).symm, hkeep⟩
  · rcases List.mem_cons.mp hl with rfl | hl <;> rcases List.mem_cons.mp hl' with rfl | hl'
    · rfl
    · exact absurd hg.symm (hnone l' hl')
    · exact absurd hg (hnone l hl)
    · exact h.one l hl l' hl' hg
  · by_cases hxg : x / 64 = g
    · exact absurd (hx _ List.mem_cons_self hxg.symm) Bool.noConfusion
    · rw [patch_other m (by omega)]
      exact h.rest x fun l hl => hx l (List.mem_cons_of_mem _ hl)

/-- Memory as the operation sees it once it has a line for a granule that it does not read: zeros where it had none. -/
def State.zeroed (s : State) (m : Nat → Byte) (g : Nat) : Nat → Byte :=
  if s.lined g then m else patch m (g * 64) (zeros 64)

/-- A write makes a line dirty, whether it was or not. -/
theorem State.putGranule_front (w : State) (l : CbLine) (c : List CbLine) {a : Nat} (h : l.granule = a / 64) (d : Bool)
    (bs : Bytes) : ({ w with cb := { l with dirty := d } :: c } : State).putGranule a bs false =
      ({ w with cb := { l with dirty := true } :: c } : State).putGranule a bs false := by
  unfold State.putGranule
  simp [h]

/-- Bytes written into the line of a granule that lies in the ranges, allocated without being read (R201). -/
theorem State.Works.putFresh (h : o.Works s id m r) {a : Nat} {bs : Bytes} (ha : a % 64 + bs.length ≤ 64)
    (hin : within r (a / 64 * 64) 64) :
    let t := (s.cbTouch id a false).putGranule a bs false
    o.Works t id (patch (s.zeroed m (a / 64)) a bs) r ∧ t.lined (a / 64) = true := by
  dsimp only
  have hrun : within r a bs.length := hin.mono (by omega) (by omega)
  cases hline : s.lined (a / 64) with
  | true =>
    obtain ⟨hsame, -, hheld⟩ := State.cbTouch_hit hline id false
    rw [State.zeroed, if_pos hline]
    rw [hsame]
    exact ⟨(h.cbTouch a).putGranule ha hrun, State.lined_putGranule hheld a bs⟩
  | false =>
    rw [State.zeroed, hline, if_neg (by decide)]
    have hnone := State.lined_missed hline id
    have hw := (h.looked a).missed a
    rw [State.cbTouch_miss hline id false]
    generalize (s.looked id a).missed a = w at hnone hw ⊢
    have hzero : o.Works { w with cb := ⟨a / 64, zeros 64, false, true, [id]⟩ :: w.cb } id
        (patch m (a / 64 * 64) (zeros 64)) r :=
      ⟨hw.buf.zeroLine hnone, State.buffering_trans hw.frame (w.buffering_cb _), hw.host,
        fun x hx => (within.patch (by simpa [zeros] using hin) m hx).trans (h.view x hx)⟩
    have hheld : ({ w with cb := ⟨a / 64, zeros 64, false, true, [id]⟩ :: w.cb } : State).lined (a / 64) = true :=
      List.any_eq_true.mpr ⟨⟨a / 64, zeros 64, false, true, [id]⟩, List.mem_cons_self, beq_self_eq_true (a / 64)⟩
    have hdirty := w.putGranule_front ⟨a / 64, zeros 64, false, true, [id]⟩ w.cb (a := a) rfl false bs
    rw [if_neg Bool.false_ne_true, Bool.false_and, hdirty]
    exact ⟨hzero.putGranule ha hrun, State.lined_putGranule hheld a bs⟩

end

end Sys2Proof.Machine
end

section
/-! Runs of bytes and of elements that an operation of the Abutments writes (R201), and what it writes past its lines. -/

namespace Sys2Proof.Machine

/-! ### A run of bytes, granule by granule -/

/-- What keeps its meaning under a write into one granule keeps it under a run written granule by granule. -/
theorem State.putSeen_induction {P : State → (Nat → Byte) → Prop} {a : Nat} {bs : Bytes}
    (hput : ∀ (s : State) (m : Nat → Byte) (lo : Nat) (cs : Bytes), a ≤ lo → lo + cs.length ≤ a + bs.length →
      lo % 64 + cs.length ≤ 64 → P s m → P (s.putGranule lo cs false) (patch m lo cs))
    {s : State} {m : Nat → Byte} (h : P s m) : P (s.putSeen a bs false) (patch m a bs) := by
  by_cases hbs : bs = []
  · subst hbs
    rw [patch_nil]
    exact h
  have hpos : 0 < bs.length := List.length_pos_iff.mpr hbs
  have hu : unitsOf 64 a bs.length = (a / 64, (a + bs.length - 1) / 64 + 1 - a / 64) := if_neg (by omega)
  unfold State.putSeen
  rw [hu]
  dsimp only
  generalize hk : (a + bs.length - 1) / 64 + 1 - a / 64 = k
  have hmain : ∀ n, n ≤ k → P ((List.range n).foldl (fun s i =>
      s.putGranule (max a ((a / 64 + i) * 64)) (sub bs (max a ((a / 64 + i) * 64) - a)
        (min (a + bs.length) ((a / 64 + i + 1) * 64) - max a ((a / 64 + i) * 64))) false) s)
      (patch m a (bs.take (min (a + bs.length) ((a / 64 + n) * 64) - a))) := by
    intro n hn
    induction n with
    | zero =>
      rw [show min (a + bs.length) ((a / 64 + 0) * 64) - a = 0 by omega, List.take_zero, patch_nil]
      exact h
    | succ n ih =>
      have ih := ih (by omega)
      rw [List.range_succ, List.foldl_append, List.foldl_cons, List.foldl_nil]
      have hlo : max a ((a / 64 + n) * 64) = a + (min (a + bs.length) ((a / 64 + n) * 64) - a) := by omega
      generalize hc : min (a + bs.length) ((a / 64 + n) * 64) - a = c at ih hlo
      have hhi : min (a + bs.length) ((a / 64 + n + 1) * 64) - a = c +
          (min (a + bs.length) ((a / 64 + n + 1) * 64) - max a ((a / 64 + n) * 64)) := by omega
      rw [show a / 64 + (n + 1) = a / 64 + n + 1 by omega, hhi]
      generalize hd : min (a + bs.length) ((a / 64 + n + 1) * 64) - max a ((a / 64 + n) * 64) = d at hhi
      have hrun : (bs.take c).length = c := by rw [List.length_take]; omega
      have hpart : ((bs.drop c).take d).length = d := by rw [List.length_take, List.length_drop]; omega
      rw [hlo, Nat.add_sub_cancel_left, sub_within (by omega), List.take_add, ← patch_append, hrun]
      exact hput _ _ _ _ (by omega) (by omega) (by omega) ih
  have hall := hmain k (Nat.le_refl k)
  rwa [show min (a + bs.length) ((a / 64 + k) * 64) - a = bs.length by omega, List.take_length] at hall

section
variable {o s : State} {id : Nat} {m : Nat → Byte} {r : List (Nat × Nat)}

/-- Bytes written where the operation sees them (R201). -/
theorem State.Works.putSeen (h : o.Works s id m r) {a : Nat} {bs : Bytes} (hin : within r a bs.length) :
    o.Works (s.putSeen a bs false) id (patch m a bs) r :=
  State.putSeen_induction (P := fun s m => o.Works s id m r)
    (fun _ _ _ _ hlo hhi hg ht => ht.putGranule hg (hin.mono hlo hhi)) h

/-! ### Elements stored -/

/-- The values of elements none of which is poisoned. -/
theorem all_good {xs : List (Nat × Bool)} (h : ∀ x ∈ xs, x.2 = false) : xs = (xs.map (·.1)).map fun v => (v, false) := by
  rw [List.map_map]
  refine (List.map_id xs).symm.trans (List.map_congr_left fun x hx => ?_)
  exact Prod.ext rfl (h x hx)

/-- One of the 4-byte elements at a granule's start and behind it, stored through its line: the line is not read when the
output covers its granule (R201). -/
theorem State.Works.abStore (h : o.Works s id m r) {lo hi a : Nat} (v : Nat) (ha : a % 4 = 0) (hlo : lo ≤ a) (hhi : a + 4 ≤ hi)
    (hin : within r lo (hi - lo)) :
    let t := s.abStore id lo hi a 4 v false
    t.lined (a / 64) = true ∧ ∃ m', o.Works t id m' r ∧ bytesAt m' a 4 = toLE 4 v ∧
      ∀ x, x < a ∨ a + 4 ≤ x → x / 64 ≠ a / 64 ∨ s.lined (a / 64) = true ∨ x < lo ∨ hi ≤ x → m' x = m x := by
  have hlen : (toLE 4 v).length = 4 := length_toLE 4 v
  have hfit : a % 64 + (toLE 4 v).length ≤ 64 := by omega
  have hsame (m : Nat → Byte) : bytesAt (patch m a (toLE 4 v)) a 4 = toLE 4 v := hlen ▸ bytesAt_patch_same m a (toLE 4 v)
  unfold State.abStore
  dsimp only
  rw [if_neg Bool.false_ne_true, if_pos rfl]
  by_cases hwhole : lo ≤ a / 64 * 64 ∧ a / 64 * 64 + 64 ≤ hi
  · rw [show (!decide (lo ≤ a / 64 * 64 ∧ a / 64 * 64 + 64 ≤ hi)) = false by simpa using hwhole]
    obtain ⟨hwork, hheld⟩ := h.putFresh hfit (hin.mono (b := a / 64 * 64) (k := 64) (by omega) (by omega))
    refine ⟨hheld, _, hwork, hsame _, fun x hx hcase => ?_⟩
    rw [patch_other _ (by omega), State.zeroed]
    split
    · rfl
    · next hline =>
      have hz : (zeros 64).length = 64 := List.length_replicate
      have hne : x / 64 ≠ a / 64 ∨ x < lo ∨ hi ≤ x := by simpa [hline] using hcase
      exact patch_other m (by omega)
  · rw [show (!decide (lo ≤ a / 64 * 64 ∧ a / 64 * 64 + 64 ≤ hi)) = true by
      rw [decide_eq_false hwhole, Bool.not_false]]
    have hheld : (s.cbTouch id a true).lined (a / 64) = true := by
      cases hline : s.lined (a / 64) with
      | true => exact (State.cbTouch_hit hline id true).2.2
      | false =>
        rw [State.cbTouch_miss hline id true]
        exact List.any_eq_true.mpr ⟨_, List.mem_cons_self, beq_self_eq_true (a / 64)⟩
    exact ⟨State.lined_putGranule hheld a _, _, (h.cbTouch a).putGranule hfit (hin.mono (by omega) (by omega)), hsame m,
      fun x hx _ => patch_other m (by omega)⟩

/-- 4-byte elements stored from the k-th on, of a run whose earlier ones stand: what the operation sees then is the run
written, wherever the rest of the run lies apart. -/
theorem State.Works.abStores_from {a hi : Nat} {M : Nat → Byte} (ha : a % 64 = 0) (hin : within r a (hi - a))
    (vs : List Nat) (k : Nat) (hhi : hi = a + 4 * (k + vs.length))
    (hM : ∀ j (hj : j < vs.length), bytesAt M (a + 4 * (k + j)) 4 = toLE 4 vs[j])
    (hm : ∀ x, x < a + 4 * k ∨ hi ≤ x → m x = M x) (hline : k % 16 ≠ 0 → s.lined ((a + 4 * k) / 64) = true)
    (h : o.Works s id m r) :
    o.Works (((vs.map fun v => (v, false)).zipIdx k).foldl
      (fun s (p : (Nat × Bool) × Nat) => s.abStore id a hi (a + 4 * p.2) 4 p.1.1 p.1.2) s) id M r := by
  induction vs generalizing s m k with
  | nil =>
    obtain rfl : m = M := funext fun x => hm x (by rw [List.length_nil] at hhi; omega)
    exact h
  | cons v vs ih =>
    rw [List.length_cons] at hhi
    have hstep := h.abStore (lo := a) (hi := hi) (a := a + 4 * k) v (by omega) (by omega) (by omega) hin
    obtain ⟨hheld, m', hwork, hval, hrest⟩ := hstep
    refine ih (k + 1) (by omega) (fun j hj => ?_) (fun x hx => ?_) (fun hk => ?_) hwork
    · have := hM (j + 1) (by rw [List.length_cons]; omega)
      rwa [show k + (j + 1) = k + 1 + j by omega] at this
    · by_cases hin4 : a + 4 * k ≤ x ∧ x < a + 4 * k + 4
      · have hb : bytesAt m' (a + 4 * k) 4 = bytesAt M (a + 4 * k) 4 := hval.trans (hM 0 (by simp)).symm
        have h1 := nth_bytesAt m' (a + 4 * k) (n := 4) (i := x - (a + 4 * k)) (by omega)
        have h2 := nth_bytesAt M (a + 4 * k) (n := 4) (i := x - (a + 4 * k)) (by omega)
        rw [show a + 4 * k + (x - (a + 4 * k)) = x by omega] at h1 h2
        rw [← h1, ← h2, hb]
      · refine (hrest x (by omega) ?_).trans (hm x (by omega))
        by_cases hk : k % 16 = 0
        · by_cases hlow : x < a + 4 * k
          · exact .inl (by omega)
          · exact .inr (.inr (.inr (by omega)))
        · exact .inr (.inl (hline hk))
    · rw [show (a + 4 * (k + 1)) / 64 = (a + 4 * k) / 64 by omega]
      exact hheld

/-- Elements stored (R201): the operation sees the run written. -/
theorem State.Works.abStores (h : o.Works s id m r) {a w : Nat} {xs : List (Nat × Bool)} (ha : a % 64 = 0)
    (hxs : ∀ x ∈ xs, x.2 = false) (hin : within r a (w * xs.length)) :
    o.Works (s.abStores id a w xs) id (patch m a (flatWords w (xs.map (·.1)))) r := by
  have hlen : (xs.map (·.1)).length = xs.length := List.length_map _
  generalize hvs : xs.map (·.1) = vs at hlen
  have hgood : xs = vs.map fun v => (v, false) := hvs ▸ all_good hxs
  unfold State.abStores
  dsimp only
  by_cases hw : w = 4
  · subst hw
    rw [if_pos rfl]
    have hrun : (flatWords 4 vs).length = 4 * xs.length := by rw [length_flatWords, hlen]
    rw [hgood, List.length_map]
    refine State.Works.abStores_from ha (by rw [Nat.add_sub_cancel_left, hlen]; exact hin) vs 0 (by omega)
      (fun j hj => ?_) (fun x hx => (patch_other m (by omega)).symm) (fun hk => absurd rfl hk) h
    rw [Nat.zero_add]
    exact bytesAt_patch_element m a 4 hj
  · rw [if_neg hw]
    have hbytes : (xs.map fun x => toLE w x.1).flatten = flatWords w vs := by
      rw [flatWords, ← hvs, List.map_map]
      rfl
    have htouched : o.Works ((List.range (unitsOf 64 a (w * xs.length)).2).foldl
        (fun s i => s.touch id ((unitsOf 64 a (w * xs.length)).1 + i)) s) id m r :=
      h.foldl _ fun t i ht => ht.touch _ _
    have hput := htouched.putSeen (a := a) (bs := flatWords w vs) (by rw [length_flatWords, hlen]; exact hin)
    rw [hbytes]
    refine List.foldlRecOn (motive := fun t => o.Works t id (patch m a (flatWords w vs)) r) _ _ hput fun t ht p hp => ?_
    rw [hxs p.1 (List.fst_mem_of_mem_zipIdx hp), if_neg Bool.false_ne_true]
    exact ht

end

/-! ### What is written past the lines -/

/-- An operation that reads no more: memory as the Abutments see it is m, and it has written in the ranges alone. -/
structure State.Shows (o s : State) (m : Nat → Byte) (r : List (Nat × Nat)) : Prop where
  frame : o.buffering s
  wf : s.mem.wf = true
  good : s.memPoison = []
  granule : ∀ g, s.granule g = (bytesAt m (g * 64) 64, false)
  host : ∀ x, outside r x → s.mem.read x = o.mem.read x

section
variable {o s : State} {id : Nat} {m : Nat → Byte} {r : List (Nat × Nat)}

theorem State.Works.shows (h : o.Works s id m r) : o.Shows s m r :=
  ⟨h.frame, h.buf.wf, h.buf.good, h.buf.granule, h.host⟩

theorem State.Shows.seen (h : o.Shows s m r) (a n : Nat) : s.seen a n = (bytesAt m a n, false) :=
  State.seen_of_granules h.granule a n

theorem State.Shows.bump (h : o.Shows s m r) {reg : Nat → Nat} (hr : abutReg reg) (a n : Nat) :
    o.Shows (s.abutBump reg a n) m r := by
  obtain ⟨g, hg⟩ := s.bump_effect (reg (abutOf a)) n
  have hstep := s.buffering_bump hr a n
  rw [State.abutBump, hg] at hstep ⊢
  exact ⟨State.buffering_trans h.frame hstep, h.wf, h.good, h.granule, h.host⟩

theorem State.Shows.bump64 (h : o.Shows s m r) {reg : Nat → Nat} (hr : abutReg reg) (a n : Nat) :
    o.Shows (s.abutBump64 reg a n) m r := by
  obtain ⟨g, hg⟩ := s.bump64_effect (reg (abutOf a)) n
  have hstep := s.buffering_bump64 hr a n
  rw [State.abutBump64, hg] at hstep ⊢
  exact ⟨State.buffering_trans h.frame hstep, h.wf, h.good, h.granule, h.host⟩

theorem State.Shows.foldl {α : Type} {f : State → α → State} (l : List α) (h : o.Shows s m r)
    (hf : ∀ t a, o.Shows t m r → o.Shows (f t a) m r) : o.Shows (l.foldl f s) m r :=
  List.foldlRecOn (motive := fun t => o.Shows t m r) l f h fun t ht a _ => hf t a ht

/-- Memory as the Abutments see it once bytes have been written past their lines: a granule that has a line looks as
before. -/
def State.past (s : State) (m : Nat → Byte) (a : Nat) (bs : Bytes) (x : Nat) : Byte :=
  if s.lined (x / 64) then m x else patch m a bs x

theorem State.past_other {a : Nat} {bs : Bytes} {x : Nat} (h : x < a ∨ a + bs.length ≤ x) : s.past m a bs x = m x := by
  unfold State.past
  split
  · rfl
  · exact patch_other m h

/-- A granule without a line is as host memory holds it. -/
theorem State.Shows.read (h : o.Shows s m r) {x : Nat} (hline : s.lined (x / 64) = false) : s.mem.read x = m x := by
  have hfind : s.cb.find? (fun l => l.granule == x / 64) = none :=
    List.find?_eq_none.mpr fun l hl => by simpa using List.any_eq_false.mp hline l hl
  have hg := congrArg Prod.fst (h.granule (x / 64))
  unfold State.granule at hg
  rw [hfind] at hg
  dsimp only at hg
  rw [State.rd, Memory.readN_eq _ _ h.wf] at hg
  have hread := congrArg (fun bs : Bytes => nth bs (x % 64) 0) hg
  change nth (bytesAt s.mem.read (x / 64 * 64) 64) (x % 64) 0 = _ at hread
  rw [nth_bytesAt _ _ (Nat.mod_lt x (by decide)), nth_bytesAt _ _ (Nat.mod_lt x (by decide))] at hread
  rwa [Nat.div_add_mod' x 64] at hread

theorem State.Shows.wr (h : o.Shows s m r) {a : Nat} {bs : Bytes} (hin : within r a bs.length) :
    o.Shows (s.wr a bs) (s.past m a bs) r := by
  have hwf : (s.wr a bs).mem.wf = true := Memory.wf_writeN a bs h.wf
  have hgood : (s.wr a bs).memPoison = [] := by rw [State.wr, h.good]; rfl
  refine ⟨State.buffering_trans h.frame ⟨rfl, fun _ _ => rfl⟩, hwf, hgood, fun g => ?_, fun x hx => ?_⟩
  · have hold := h.granule g
    cases hline : s.lined g with
    | true =>
      have hsame : bytesAt (s.past m a bs) (g * 64) 64 = bytesAt m (g * 64) 64 :=
        bytesAt_congr fun x _ _ => if_pos (by rw [show x / 64 = g by omega]; exact hline)
      obtain ⟨l, hl, hlg⟩ := List.any_eq_true.mp hline
      unfold State.granule at hold ⊢
      rw [hsame]
      change (match s.cb.find? (fun l => l.granule == g) with | some l => _ | none => _) = _
      cases hfind : s.cb.find? (fun l => l.granule == g) with
      | none => exact absurd hlg (List.find?_eq_none.mp hfind l hl)
      | some l =>
        rw [hfind] at hold
        exact hold
    | false =>
      have hfind : s.cb.find? (fun l => l.granule == g) = none :=
        List.find?_eq_none.mpr fun l hl => by simpa using List.any_eq_false.mp hline l hl
      unfold State.granule
      change (match s.cb.find? (fun l => l.granule == g) with | some l => _ | none => _) = _
      rw [hfind]
      dsimp only
      rw [State.poisoned_good hgood, State.rd, Memory.readN_eq _ _ hwf]
      refine congrArg (·, false) (List.map_congr_left fun i hi => ?_)
      have hi := List.mem_range.mp hi
      have hx : (g * 64 + i) / 64 = g := by omega
      change (s.mem.writeN a bs).read (g * 64 + i) = _
      rw [Memory.read_writeN _ _ _ h.wf, State.past, hx, hline, if_neg Bool.false_ne_true, patch,
        h.read (by rw [hx]; exact hline)]
  · refine (Memory.read_writeN_other h.wf ?_).trans (h.host x hx)
    obtain ⟨p, hp, hlo, hhi⟩ := hin
    have := hx p hp
    omega

theorem State.Shows.putGranule (h : o.Shows s m r) {a : Nat} {bs : Bytes} (ha : a % 64 + bs.length ≤ 64)
    (hin : within r a bs.length) : o.Shows (s.putGranule a bs false) (patch m a bs) r := by
  cases hline : s.lined (a / 64) with
  | false =>
    have hput : s.putGranule a bs false = s.wr a bs := if_neg (by rw [State.lined] at hline; rw [hline]; decide)
    have hpast : s.past m a bs = patch m a bs := funext fun x => by
      unfold State.past
      split
      · next hx =>
        have hne : x / 64 ≠ a / 64 := fun he => by rw [he, hline] at hx; cases hx
        exact (patch_other m (by omega)).symm
      · rfl
    rw [hput, ← hpast]
    exact h.wr hin
  | true =>
    have hput : s.putGranule a bs false = { s with cb := s.cb.map fun l => l.stored a bs } := if_pos hline
    have hstep := s.buffering_putGranule a bs false
    rw [hput] at hstep ⊢
    refine ⟨State.buffering_trans h.frame hstep, h.wf, h.good, fun g => ?_, h.host⟩
    have hold := h.granule g
    have hother (hg : g ≠ a / 64) : bytesAt (patch m a bs) (g * 64) 64 = bytesAt m (g * 64) 64 :=
      bytesAt_patch_apart m (by omega)
    have hfun : (fun l : CbLine => l.granule == g) ∘ (fun l : CbLine => l.stored a bs) = fun l : CbLine => l.granule == g :=
      funext fun l => by rw [Function.comp, CbLine.stored_granule]
    unfold State.granule at hold ⊢
    dsimp only
    rw [List.find?_map, hfun]
    cases hfind : s.cb.find? (fun l => l.granule == g) with
    | none =>
      rw [hfind] at hold
      have hg : g ≠ a / 64 := fun he => by
        obtain ⟨l, hl, hlg⟩ := List.any_eq_true.mp hline
        exact List.find?_eq_none.mp hfind l hl (by rw [he]; exact hlg)
      rw [hother hg]
      exact hold
    | some l =>
      rw [hfind] at hold
      obtain ⟨hdata, hpoison⟩ := Prod.mk.inj hold
      have hlg : l.granule = g := by simpa using List.find?_some hfind
      dsimp only [Option.map_some]
      by_cases hg : g = a / 64
      · rw [CbLine.stored_in (hlg.trans hg) bs hpoison, hdata]
        dsimp only
        rw [put_bytesAt m g ha, show g * 64 + a % 64 = a by omega]
      · rw [CbLine.stored_other (by omega), hdata, hpoison, hother hg]

theorem State.Shows.putSeen (h : o.Shows s m r) {a : Nat} {bs : Bytes} (hin : within r a bs.length) :
    o.Shows (s.putSeen a bs false) (patch m a bs) r :=
  State.putSeen_induction (P := fun s m => o.Shows s m r)
    (fun _ _ _ _ hlo hhi hg ht => ht.putGranule hg (hin.mono hlo hhi)) h

end

end Sys2Proof.Machine
end

section
/-! Codes fit their formats (R39, R55, R64): what RESCALE stores lies below the power of its width. -/

namespace Sys2Proof.Machine

/-! ### Floating-point codes -/

/-- The two formats that RESCALE rounds to and that flush (R45). -/
def flushing (f : VFmt) : Prop := f = .bf16 ∨ f = .fp32

theorem flushing.facts {f : VFmt} (h : flushing f) : f.subn = false ∧ f ≠ .e8m10 ∧ f ≠ .e4m3 ∧ f.emin = -126 ∧
    f.bias = 127 ∧ f.expW = 8 ∧ f.width = f.man + 9 ∧ f.man ≤ 23 ∧ f.isFloat = true := by
  rcases h with rfl | rfl <;> decide

/-- A value below 2^128 fits its format (R39). -/
theorem encodeF_lt {f : VFmt} (hf : flushing f) (s : Bool) {m : Nat} {e : Int}
    (h : m ≠ 0 → (Nat.log2 m : Int) + e ≤ 127) : encodeF f (.fin s m e) < 2 ^ f.width := by
  obtain ⟨-, h8, -, hemin, hbias, hexp, hwidth, -, -⟩ := hf.facts
  have hsign : b2n s <<< (f.man + 8) ≤ 2 ^ (f.man + 8) := by cases s <;> simp [b2n, Nat.shiftLeft_eq]
  have hpow : 2 ^ (f.man + 9) = 2 * 2 ^ (f.man + 8) := by rw [Nat.pow_succ, Nat.mul_comm]
  have hpos := Nat.two_pow_pos (f.man + 8)
  unfold encodeF
  dsimp only
  rw [hexp, if_neg h8, hemin, hbias, hwidth]
  split
  · rw [Nat.shiftLeft_zero]
    omega
  · next hm =>
    have hlt : m < 2 ^ (Nat.log2 m + 1) := Nat.lt_log2_self
    have hlog := h hm
    split
    · next hsub =>
      have hfrac : (if 0 ≤ e - (-126 - (f.man : Int)) then m <<< (e - (-126 - (f.man : Int))).toNat
          else m >>> (-(e - (-126 - (f.man : Int)))).toNat) < 2 ^ (f.man + 8) := by
        split
        · exact shiftLeft_lt_two_pow hlt (by omega)
        · exact shiftRight_lt_two_pow hlt (by omega)
      rw [Nat.shiftLeft_zero]
      omega
    · have hfrac : (if Nat.log2 m ≤ f.man then m <<< (f.man - Nat.log2 m) else m >>> (Nat.log2 m - f.man)) <
          2 ^ (f.man + 1) := by
        split
        · exact shiftLeft_lt_two_pow hlt (by omega)
        · exact shiftRight_lt_two_pow hlt (by omega)
      have hexpo : ((Nat.log2 m : Int) + e + (127 : Nat)).toNat ≤ 254 := by omega
      have hhigh := Nat.mul_le_mul_right (2 ^ f.man) hexpo
      have hp8 : 2 ^ (f.man + 8) = 256 * 2 ^ f.man := by rw [Nat.pow_add, Nat.mul_comm]
      have hp1 : 2 ^ (f.man + 1) = 2 * 2 ^ f.man := by rw [Nat.pow_add, Nat.mul_comm]
      have hposm := Nat.two_pow_pos f.man
      rw [Nat.shiftLeft_zero, Nat.shiftLeft_eq _ f.man]
      omega

theorem nonFiniteCode_lt {f : VFmt} (hf : flushing f) {v : FV} (hv : v.isFin = false) :
    (nonFiniteCode f v 0).1 < 2 ^ f.width := by
  cases v with
  | fin s m e => cases hv
  | nan => rcases hf with rfl | rfl <;> decide
  | inf s => rcases hf with rfl | rfl <;> cases s <;> decide

/-- n / d lies between two powers of two (R55). -/
theorem floorLog2_spec {n d : Nat} (hn : n ≠ 0) (hd : d ≠ 0) :
    (2 : ℚ) ^ floorLog2 n d * d ≤ n ∧ (n : ℚ) < 2 ^ (floorLog2 n d + 1) * d := by
  have hlo (x : Nat) (hx : x ≠ 0) : (2 : ℚ) ^ (Nat.log2 x : Int) ≤ x := by
    rw [zpow_natCast]
    exact_mod_cast Nat.log2_self_le hx
  have hhi (x : Nat) : (x : ℚ) < 2 ^ ((Nat.log2 x : Int) + 1) := by
    have : x < 2 ^ (Nat.log2 x + 1) := Nat.lt_log2_self
    rw [show (Nat.log2 x : Int) + 1 = ((Nat.log2 x + 1 : Nat) : Int) by simp, zpow_natCast]
    exact_mod_cast this
  have h2 : (2 : ℚ) ≠ 0 := by norm_num
  have hdpos : (0 : ℚ) < d := by exact_mod_cast Nat.pos_of_ne_zero hd
  have key (k : Int) (hk : k = (Nat.log2 n : Int) - Nat.log2 d) :
      (2 : ℚ) ^ (k - 1) * d ≤ n ∧ (n : ℚ) < 2 ^ (k + 1) * d := by
    constructor
    · calc (2 : ℚ) ^ (k - 1) * d ≤ 2 ^ (k - 1) * 2 ^ ((Nat.log2 d : Int) + 1) :=
            mul_le_mul_of_nonneg_left (hhi d).le (by positivity)
        _ = 2 ^ (Nat.log2 n : Int) := by rw [← zpow_add₀ h2]; congr 1; omega
        _ ≤ n := hlo n hn
    · calc (n : ℚ) < 2 ^ ((Nat.log2 n : Int) + 1) := hhi n
        _ = 2 ^ (k + 1) * 2 ^ (Nat.log2 d : Int) := by rw [← zpow_add₀ h2]; congr 1; omega
        _ ≤ 2 ^ (k + 1) * d := mul_le_mul_of_nonneg_left (hlo d hd) (by positivity)
  have htest (k : Int) : (if 0 ≤ k then d <<< k.toNat ≤ n else d ≤ n <<< (-k).toNat) ↔ (2 : ℚ) ^ k * d ≤ n := by
    split
    · next hk =>
      lift k to Nat using hk
      rw [Int.toNat_natCast, Nat.shiftLeft_eq, zpow_natCast, mul_comm]
      norm_cast
    · next hk =>
      obtain ⟨j, rfl⟩ : ∃ j : Nat, k = -(j : Int) := ⟨(-k).toNat, by omega⟩
      rw [neg_neg, Int.toNat_natCast, Nat.shiftLeft_eq, zpow_neg, zpow_natCast, inv_mul_le_iff₀ (by positivity), mul_comm]
      norm_cast
  obtain ⟨hbelow, habove⟩ := key _ rfl
  have ht := htest ((Nat.log2 n : Int) - Nat.log2 d)
  unfold floorLog2
  dsimp only
  generalize (Nat.log2 n : Int) - Nat.log2 d = k at hbelow habove ht ⊢
  split
  · next hk =>
    rw [if_pos hk] at ht
    split
    · next hle => exact ⟨ht.mp hle, habove⟩
    · next hle => exact ⟨hbelow, by rw [sub_add_cancel]; exact lt_of_not_ge (mt ht.mpr hle)⟩
  · next hk =>
    rw [if_neg hk] at ht
    split
    · next hle => exact ⟨ht.mp hle, habove⟩
    · next hle => exact ⟨hbelow, by rw [sub_add_cancel]; exact lt_of_not_ge (mt ht.mpr hle)⟩

/-- Rounding to the nearest unit does not pass a whole number of units that the value does not pass (R55). -/
theorem roundUnits_le {n d B : Nat} {ue : Int} (hd : d ≠ 0) (h : (n : ℚ) ≤ B * (d * 2 ^ ue)) (r rand : Nat) :
    roundUnits n d ue true r rand ≤ B := by
  have hnear (num den : Nat) (hden : den ≠ 0) (hle : num ≤ B * den) :
      (if 2 * (num % den) > den ∨ (2 * (num % den) = den ∧ num / den % 2 = 1) then num / den + 1 else num / den) ≤ B := by
    have hq : num / den ≤ B := Nat.div_le_of_le_mul (by rwa [Nat.mul_comm])
    rcases Nat.lt_or_eq_of_le hq with hlt | heq
    · split <;> omega
    · have hsplit := Nat.div_add_mod num den
      have hrem : num % den = 0 := by
        rw [heq, Nat.mul_comm] at hsplit
        omega
      rw [hrem, if_neg (by omega)]
      exact hq
  unfold roundUnits
  rw [if_pos rfl]
  dsimp only
  by_cases hue : ue < 0
  · obtain ⟨j, rfl⟩ : ∃ j : Nat, ue = -(j : Int) := ⟨(-ue).toNat, by omega⟩
    rw [if_pos hue, if_pos hue, neg_neg, Int.toNat_natCast]
    refine hnear _ _ hd ?_
    rw [Nat.shiftLeft_eq]
    rw [zpow_neg, zpow_natCast, ← mul_assoc, ← div_eq_mul_inv, le_div_iff₀ (by positivity)] at h
    exact_mod_cast h
  · lift ue to Nat using by omega
    rw [if_neg hue, if_neg hue, Int.toNat_natCast]
    refine hnear _ _ ?_ ?_
    · rw [Nat.shiftLeft_eq]
      exact Nat.mul_ne_zero hd (Nat.two_pow_pos ue).ne'
    · rw [Nat.shiftLeft_eq]
      rw [zpow_natCast] at h
      exact_mod_cast h

/-- The unit in which a value is rounded, and the count of units then taken, stay below 2^128 (R55). -/
theorem roundedUnits_lt {n d man : Nat} (hn : n ≠ 0) (hd : d ≠ 0)
    (hmax : (n : ℚ) ≤ (2 ^ (man + 1) - 1 : Nat) * (d * 2 ^ (127 - (man : Int)))) (r rand : Nat)
    (hq : roundUnits n d (floorLog2 n d - man) true r rand ≠ 0) :
    (Nat.log2 (roundUnits n d (floorLog2 n d - man) true r rand) : Int) + (floorLog2 n d - man) ≤ 127 := by
  obtain ⟨hlo, hhi⟩ := floorLog2_spec hn hd
  have hdpos : (0 : ℚ) < d := by exact_mod_cast Nat.pos_of_ne_zero hd
  have h2 : (2 : ℚ) ≠ 0 := by norm_num
  have hone : 1 ≤ 2 ^ (man + 1) := Nat.one_le_two_pow
  generalize floorLog2 n d = e at hlo hhi hq ⊢
  have htop : e ≤ 127 := by
    have hlt : (2 : ℚ) ^ e * d < 2 ^ (128 : Int) * d := by
      calc (2 : ℚ) ^ e * d ≤ n := hlo
        _ ≤ (2 ^ (man + 1) - 1 : Nat) * (d * 2 ^ (127 - (man : Int))) := hmax
        _ < 2 ^ ((man : Int) + 1) * (d * 2 ^ (127 - (man : Int))) := by
          refine mul_lt_mul_of_pos_right ?_ (by positivity)
          rw [Nat.cast_sub hone, show (man : Int) + 1 = ((man + 1 : Nat) : Int) by simp, zpow_natCast]
          push_cast
          linarith
        _ = 2 ^ (128 : Int) * d := by
          rw [mul_left_comm, ← zpow_add₀ h2, mul_comm]
          congr 2
          omega
    have := (zpow_lt_zpow_iff_right₀ (by norm_num : (1 : ℚ) < 2)).mp (lt_of_mul_lt_mul_right hlt hdpos.le)
    omega
  rcases Int.lt_or_eq_of_le htop with hlt | rfl
  · have hle := roundUnits_le (B := 2 ^ (man + 1)) (ue := e - man) hd (by
      refine hhi.le.trans (le_of_eq ?_)
      push_cast
      rw [mul_left_comm, mul_comm, ← zpow_natCast, ← zpow_add₀ h2]
      congr 2
      push_cast
      omega) r rand
    have hlog : Nat.log2 (roundUnits n d (e - man) true r rand) < man + 2 :=
      (Nat.log2_lt hq).mpr (Nat.lt_of_le_of_lt hle (Nat.pow_lt_pow_right (by decide) (by omega)))
    omega
  · have hle := roundUnits_le hd hmax r rand
    have hlog : Nat.log2 (roundUnits n d (127 - man) true r rand) < man + 1 :=
      (Nat.log2_lt hq).mpr (by omega)
    omega

theorem largestF_flushing {f : VFmt} (hf : flushing f) : largestF f = (2 ^ (f.man + 1) - 1, 127 - (f.man : Int)) := by
  rcases hf with rfl | rfl <;> rfl

/-- The value n / d passes the largest finite value of a format (R55). -/
def overflows (f : VFmt) (n d : Nat) : Bool :=
  if 0 ≤ (largestF f).2 then decide (n > ((largestF f).1 <<< (largestF f).2.toNat) * d)
  else decide (n <<< (-(largestF f).2).toNat > (largestF f).1 * d)

/-- n / d rounded to nearest even to a flushing format, before it flushes: a count of units and their exponent (R55). -/
def roundedTo (f : VFmt) (n d r rand : Nat) : Nat × Int :=
  if overflows f n d then largestF f else (roundUnits n d (floorLog2 n d - f.man) true r rand, floorLog2 n d - f.man)

theorem quantise_code {f : VFmt} (hf : flushing f) (vs : Bool) {vm : Nat} (hvm : vm ≠ 0) (ve : Int) (r rand : Nat) :
    let p := roundedTo f (if 0 ≤ ve - 0 then vm <<< (ve - 0).toNat else vm)
      (if 0 ≤ ve - 0 then 1 else 1 <<< (-(ve - 0)).toNat) r rand
    (quantise vs vm ve 1 0 f true r rand 0).code =
      encodeF f (.fin vs (if f.subn = false ∧ p.1 ≠ 0 ∧ (Nat.log2 p.1 : Int) + p.2 < -126 then 0 else p.1) p.2) := by
  rcases hf with rfl | rfl
  all_goals
    unfold quantise
    dsimp only
    rw [if_neg hvm]
    rfl

theorem overflows_false {f : VFmt} (hf : flushing f) {n d : Nat} (h : overflows f n d = false) :
    (n : ℚ) ≤ (2 ^ (f.man + 1) - 1 : Nat) * (d * 2 ^ (127 - (f.man : Int))) := by
  obtain ⟨-, -, -, -, -, -, -, hman, -⟩ := hf.facts
  unfold overflows at h
  rw [largestF_flushing hf, if_pos (show (0 : Int) ≤ 127 - (f.man : Int) by omega), decide_eq_false_iff_not,
    show (127 - (f.man : Int)).toNat = 127 - f.man by omega, Nat.shiftLeft_eq, Nat.mul_assoc, Nat.mul_comm _ d] at h
  rw [show (127 : Int) - (f.man : Int) = ((127 - f.man : Nat) : Int) by omega, zpow_natCast]
  exact_mod_cast Nat.le_of_not_gt h

theorem roundedTo_lt {f : VFmt} (hf : flushing f) {n d : Nat} (hn : n ≠ 0) (hd : d ≠ 0) (r rand : Nat)
    (hq : (roundedTo f n d r rand).1 ≠ 0) :
    (Nat.log2 (roundedTo f n d r rand).1 : Int) + (roundedTo f n d r rand).2 ≤ 127 := by
  unfold roundedTo at hq ⊢
  cases hovf : overflows f n d with
  | true =>
    rw [hovf, if_pos rfl, largestF_flushing hf] at hq
    rw [if_pos rfl, largestF_flushing hf]
    have : Nat.log2 (2 ^ (f.man + 1) - 1) < f.man + 1 :=
      (Nat.log2_lt hq).mpr (Nat.sub_lt (Nat.two_pow_pos _) (by decide))
    dsimp only
    omega
  | false =>
    rw [hovf] at hq
    exact roundedUnits_lt hn hd (overflows_false hf hovf) r rand hq

/-- A finite value rounded to nearest even to a flushing format has a code of its width (R55). -/
theorem quantise_lt {f : VFmt} (hf : flushing f) (vs : Bool) (vm : Nat) (ve : Int) (r rand : Nat) :
    (quantise vs vm ve 1 0 f true r rand 0).code < 2 ^ f.width := by
  by_cases hvm : vm = 0
  · have hzero : (quantise vs vm ve 1 0 f true r rand 0).code = encodeF f (.fin vs 0 0) := by
      rcases hf with rfl | rfl
      all_goals
        unfold quantise
        dsimp only
        rw [if_pos hvm]
    rw [hzero]
    exact encodeF_lt hf vs fun h => absurd rfl h
  · have hn : (if 0 ≤ ve - 0 then vm <<< (ve - 0).toNat else vm) ≠ 0 := by
      split
      · rw [Nat.shiftLeft_eq]
        exact Nat.mul_ne_zero hvm (Nat.two_pow_pos _).ne'
      · exact hvm
    have hd : (if 0 ≤ ve - 0 then 1 else 1 <<< (-(ve - 0)).toNat) ≠ 0 := by
      split
      · decide
      · rw [Nat.one_shiftLeft]
        exact (Nat.two_pow_pos _).ne'
    rw [quantise_code hf vs hvm]
    generalize (if 0 ≤ ve - 0 then vm <<< (ve - 0).toNat else vm) = n at hn ⊢
    generalize (if 0 ≤ ve - 0 then 1 else 1 <<< (-(ve - 0)).toNat) = d at hd ⊢
    refine encodeF_lt hf vs fun hu => ?_
    split at hu
    · exact absurd rfl hu
    · next hkeep =>
      rw [if_neg hkeep]
      exact roundedTo_lt hf hn hd r rand hu

/-! ### Codes of RESCALE -/

theorem signedCode_lt {w q : Nat} (neg : Bool) (h : q < 2 ^ w) : signedCode w neg q < 2 ^ w := by
  unfold signedCode
  split <;> omega

/-- A code of RESCALE fits its format (R64, R210). -/
theorem rescaleOut_lt {out : Nat} (hout : out ∈ [1, 2, 6, 8]) (sin sout : Nat) (acc : Int) :
    (rescaleOut out sin sout acc).1 < 2 ^ (VFmt.ofCode out).width := by
  have hint (w : Nat) (m : Option Nat) : (match m with
      | none => (2 ^ (w - 1) - 1, true)
      | some m => if 2 ^ (w - 1) - 1 < m then (2 ^ (w - 1) - 1, true) else (m, false)).1 < 2 ^ w := by
    have hle : 2 ^ (w - 1) ≤ 2 ^ w := Nat.pow_le_pow_right (by decide) (Nat.sub_le w 1)
    have hpos := Nat.two_pow_pos (w - 1)
    cases m with
    | none => dsimp only; omega
    | some m =>
      dsimp only
      split
      · dsimp only; omega
      · dsimp only; omega
  have hfloat {f : VFmt} (hf : flushing f) (v : FV) : (quantBy v .one f true 16 0).code < 2 ^ f.width := by
    cases v with
    | nan => exact nonFiniteCode_lt hf rfl
    | inf s => exact nonFiniteCode_lt hf rfl
    | fin s m e => exact quantise_lt hf s m e 16 0
  simp only [List.mem_cons, List.not_mem_nil, or_false] at hout
  rcases hout with rfl | rfl | rfl | rfl
  · exact signedCode_lt _ (hint 8 _)
  · exact signedCode_lt _ (hint 4 _)
  · exact hfloat (.inl rfl) _
  · exact hfloat (.inr rfl) _

end Sys2Proof.Machine
end

section
/-! ATOMIC_MAX of this chip, RESCALE and DOT (R206-R213) over good memory, with every Abutment at work. -/

namespace Sys2Proof.Machine

/-! ### What a dispatch leaves for the Abutments -/

/-- A machine over good memory in which no line is held, nothing has flipped and every Abutment works. -/
structure State.Still (s : State) : Prop where
  wf : s.mem.wf = true
  good : s.memPoison = []
  lines : s.cb = []
  upsets : s.upsets = []
  work : ∀ k, k < 8 → s.abutFree k = true ∧ s.abutGone k = false

theorem State.Still.begun {s : State} (h : s.Still) (op : Nat) (d : Desc) : (s.begun op d).2.Still := by
  obtain ⟨-, -, -, -, -, -, -, -, -, -, hframe⟩ := s.begun_leaves op d
  have hregs := ((s.enter op d).2.dispatch_count (s.enter op d).1).2
  have hctrl : ∀ k < 8, R.hdrCtrl (0x68 + k) ∉ [R.qmgrDispatchLo, R.qmgrDispatchLo + 4] := by decide
  refine ⟨?_, ?_, ?_, ?_, State.abuts_congr ?_ ?_ (fun k hk => (hregs _ (hctrl k hk)).trans (s.enter_reg op d _)) h.work⟩
  · rw [hframe]; exact h.wf
  · rw [hframe]; exact h.good
  · rw [hframe]; exact h.lines
  · rw [hframe]; exact h.upsets
  · rw [hframe]
  · rw [hframe]

theorem State.begun_mem (s : State) (op : Nat) (d : Desc) : (s.begun op d).2.mem = s.mem := (s.begun_memory op d).2.1

theorem State.rdN_congr {s t : State} (h : t.mem = s.mem) (a n : Nat) : t.rdN a n = s.rdN a n := by
  rw [State.rdN, State.rdN, State.rd, State.rd, h]

section
variable {s : State} {l : Live}

/-- An operation whose Abutments all work runs (R350, R372). -/
theorem State.Still.gate (h : s.Still) (l : Live) (ranges : List (Nat × Nat)) (go : State → State) :
    s.abutGate l ranges go = go s := by
  have hgone : ranges.any (fun r => s.abutsGone r.1 r.2) = false :=
    List.any_eq_false.mpr fun r _ => by rw [(State.abuts_work h.work r.1 r.2).2]; decide
  have hfree : ranges.all (fun r => s.abutsFree r.1 r.2) = true :=
    List.all_eq_true.mpr fun r _ => (State.abuts_work h.work r.1 r.2).1
  rw [State.abutGate, hgone, if_neg Bool.false_ne_true, hfree, if_pos rfl]

theorem State.Still.works (h : s.Still) (id : Nat) (r : List (Nat × Nat)) : s.Works s id s.mem.read r :=
  .start id r h.wf h.good h.lines

theorem State.Still.rdN (h : s.Still) (a n : Nat) : leNat (bytesAt s.mem.read a n) = s.rdN a n :=
  (State.rdN_bytesAt h.wf a n).symm

end

/-- What an operation leaves that wrote one run of bytes: nothing outside it, and that run to be seen. -/
structure State.Writes (s t : State) (a : Nat) (bs : Bytes) : Prop where
  computes : s.computes t
  regs : s.regsIn t abutPage
  good : t.memPoison = []
  run : ∀ k n, k + n ≤ bs.length → (t.seen (a + k) n).1 = (bs.drop k).take n
  rest : s.memBut t a bs.length

theorem State.Works.writes {s t : State} {id a : Nat} {bs : Bytes}
    (h : s.Works t id (patch s.mem.read a bs) [(a, bs.length)]) : s.Writes t a bs where
  computes := h.frame.computes
  regs := h.frame.2
  good := h.buf.good
  run k n hk := by
    rw [h.seen]
    exact bytesAt_patch_within _ a hk
  rest b hb := h.host b fun p hp => by
    rw [List.mem_singleton.mp hp]
    exact hb

theorem State.Writes.seen {s t : State} {a : Nat} {bs : Bytes} (h : s.Writes t a bs) : (t.seen a bs.length).1 = bs := by
  have hall := h.run 0 bs.length (Nat.le_of_eq (Nat.zero_add _))
  rwa [List.drop_zero, List.take_length] at hall

/-- An element of the run. -/
theorem State.Writes.element {s t : State} {a w j : Nat} {xs : List Nat} (h : s.Writes t a (flatWords w xs))
    (hj : j < xs.length) : (t.seen (a + w * j) w).1 = toLE w xs[j] := by
  rw [h.run _ _ (by rw [length_flatWords]; exact mul_add_le_of_lt hj), element_flatWords w hj]

theorem within_self (a n : Nat) : within [(a, n)] a n :=
  ⟨(a, n), List.mem_singleton_self _, Nat.le_refl _, Nat.le_refl _⟩

/-! ### ATOMIC_MAX -/

/-- What R207 makes of the j-th cell. -/
def maxAt (m : Nat → Byte) (dst : Nat) (ops : List (Nat × Bool)) (j : Nat) : Nat × Nat × Bool :=
  maxCell (leNat (bytesAt m (dst + 4 * j) 4)) (nth ops j (0, false)).1

/-- The cells that ATOMIC_MAX leaves. -/
def maxRun (m : Nat → Byte) (dst : Nat) (ops : List (Nat × Bool)) : List Nat :=
  (List.range ops.length).map fun j => (maxAt m dst ops j).1

@[simp] theorem length_maxRun (m : Nat → Byte) (dst : Nat) (ops : List (Nat × Bool)) :
    (maxRun m dst ops).length = ops.length := by simp [maxRun]

theorem zip_elementsAt (m : Nat → Byte) (dst w : Nat) (ops : List (Nat × Bool)) :
    (elementsAt m dst w ops.length).zip ops =
      (List.range ops.length).map fun j => ((leNat (bytesAt m (dst + w * j) w), false), nth ops j (0, false)) := by
  refine List.ext_getElem (by simp [elementsAt]) fun j h1 h2 => ?_
  have hj : j < ops.length := by simpa using h2
  simp [elementsAt, nth, hj]

section
variable {o s : State} {id : Nat} {m : Nat → Byte} {r : List (Nat × Nat)}

/-- Cells stored one after another (R207). -/
theorem State.Works.maxStores {dst : Nat} (hdst : dst % 4 = 0) (vs : List Nat) (k : Nat) (h : o.Works s id m r)
    (hin : within r dst (4 * (k + vs.length))) :
    o.Works (((vs.map fun v => (v, false)).zipIdx k).foldl (State.maxStore dst) s) id
      (patch m (dst + 4 * k) (flatWords 4 vs)) r := by
  induction vs generalizing s m k with
  | nil =>
    rw [show flatWords 4 [] = [] from rfl, patch_nil]
    exact h
  | cons v vs ih =>
    rw [List.length_cons] at hin
    have hlen : (toLE 4 v).length = 4 := length_toLE 4 v
    have hput := h.putGranule (a := dst + 4 * k) (bs := toLE 4 v) (by omega) (hin.mono (by omega) (by omega))
    have hstore : o.Works (State.maxStore dst s ((v, false), k)) id (patch m (dst + 4 * k) (toLE 4 v)) r :=
      hput.bump (reg := R.abutMaxOps) (by unfold abutReg; decide) (dst + 4 * k) 1
    have hrest := ih (k + 1) hstore (by rwa [show k + 1 + vs.length = k + (vs.length + 1) by omega])
    rw [show dst + 4 * (k + 1) = dst + 4 * k + (toLE 4 v).length by omega, patch_append, ← flatWords_cons] at hrest
    exact hrest

/-- Operands applied to cells (R207): each cell becomes the larger value. -/
theorem State.Works.maxCells (h : o.Works s id m r) (hup : s.upsets = []) {dst : Nat} (hdst : dst % 4 = 0)
    {ops : List (Nat × Bool)} (hops : ∀ x ∈ ops, x.2 = false) (hin : within r dst (4 * ops.length)) :
    ∃ nf t, s.maxCells id dst ops = (⟨0, nf⟩, t) ∧ o.Works t id (patch m dst (flatWords 4 (maxRun m dst ops))) r ∧
      (nf = none ↔ ∀ j, j < ops.length → (maxAt m dst ops j).2.2 = false) := by
  have hcross : s.crossAll (fun j => dst + 4 * j) ops = (ops, s) := by
    have hgood : (s.upsets.isEmpty && ops.all fun x => !x.2) = true := by
      rw [hup]
      simpa using hops
    exact if_pos hgood
  obtain ⟨hcells, hload⟩ := h.abLoads dst 4 ops.length
  have hout : ((elementsAt m dst 4 ops.length).zip ops).map (fun p => (maxCell p.1.1 p.2.1, p.1.2 || p.2.2)) =
      (List.range ops.length).map fun j => (maxAt m dst ops j, false) := by
    rw [zip_elementsAt, List.map_map]
    refine List.map_congr_left fun j hj => ?_
    have hj := List.mem_range.mp hj
    have hgood : (nth ops j (0, false)).2 = false := by
      rw [nth, List.getElem?_eq_getElem hj]
      exact hops _ (List.getElem_mem hj)
    simp [maxAt, hgood]
  have hvals : ((List.range ops.length).map fun j => (maxAt m dst ops j, false)).map (fun o => (o.1.1, o.2)) =
      (maxRun m dst ops).map fun v => (v, false) := by
    simp [maxRun, Function.comp_def]
  have hstored := hload.maxStores hdst (maxRun m dst ops) 0 (by simpa [maxRun] using hin)
  unfold State.maxCells
  rw [hcross]
  dsimp only
  rw [hcells, hout, hvals, State.freeFor_good _ _ _ (by simp)]
  refine ⟨_, _, Prod.ext (congrArg (MaxDone.mk · _) ?_) rfl, hstored.foldl _ fun t p ht => ?_, ?_⟩
  · exact if_neg (by simp)
  · exact ht.bump (reg := R.abutFlush) (by unfold abutReg; decide) _ _
  · rw [leastOf_filter_eq_none]
    refine ⟨fun hall j hj => ?_, fun hall p hp => ?_⟩
    · have hmem : ((maxAt m dst ops j, false), j) ∈
          ((List.range ops.length).map fun j => (maxAt m dst ops j, false)).zipIdx :=
        List.mem_zipIdx_iff_getElem?.mpr (by simp [hj])
      simpa using hall _ hmem
    · have hp := List.mem_zipIdx_iff_getElem?.mp hp
      have hj : p.2 < ops.length := by
        have := List.getElem?_eq_some_iff.mp hp
        simpa using this.1
      rw [List.getElem?_map, List.getElem?_range hj, Option.map_some, Option.some_inj] at hp
      rw [← hp]
      simpa using hall _ hj

end

/-- The operands of a local ATOMIC_MAX over good memory (R206). -/
theorem State.maxOperands_good {s : State} (hgood : s.memPoison = []) {d : Desc} (hplaced : maxBad d = false) :
    (s.maxOperands d).length = opBits d 0x36 2 12 0 ∧ (∀ x ∈ s.maxOperands d, x.2 = false) ∧
    ∀ j, j < opBits d 0x36 2 12 0 → (nth (s.maxOperands d) j (0, false)).1 =
      if opBit d 0x38 0 then opd d 0x20 4 else s.rdN (opd d 0x20 8 + 4 * j) 4 := by
  unfold State.maxOperands
  dsimp only
  cases hin : opBit d 0x38 0 with
  | true =>
    rw [if_pos rfl]
    have hone : opBits d 0x36 2 12 0 = 1 := by
      unfold maxBad at hplaced
      rw [hin] at hplaced
      simp only [Bool.true_and, Bool.or_eq_false_iff, bne_eq_false_iff_eq, ne_eq] at hplaced
      omega
    rw [hone]
    refine ⟨rfl, by simp, fun j hj => ?_⟩
    obtain rfl : j = 0 := by omega
    rfl
  | false =>
    rw [if_neg Bool.false_ne_true]
    refine ⟨by simp, fun x hx => ?_, fun j hj => ?_⟩
    · obtain ⟨j, -, rfl⟩ := List.mem_map.mp hx
      exact State.poisoned_good hgood _ _
    · rw [if_neg Bool.false_ne_true, nth, List.getElem?_map, List.getElem?_range hj]
      rfl

theorem maxBad_dst {d : Desc} (h : maxBad d = false) : opd d 0x28 8 % 4 = 0 := by
  unfold maxBad at h
  simp only [Bool.or_eq_false_iff, decide_eq_false_iff_not, not_or, not_not] at h
  exact h.1.1.1

theorem startMax_local {l : Live} {s : State} (hloc : opBit l.desc 0x35 7 = false) :
    startMax l s = startMaxLocal l s := by
  unfold startMax
  dsimp only
  rw [hloc]
  rfl

/-- A local ATOMIC_MAX completes with its cells written (R206, R207). -/
theorem startMaxLocal_runs {l : Live} {s : State} (h : s.Still) (hplaced : maxBad l.desc = false) :
    ∃ v nf, startMaxLocal l s = v.finish l ⟨0, opBits l.desc 0x36 2 12 0, 0, nf⟩ ∧
      s.Writes v (opd l.desc 0x28 8)
        (flatWords 4 (maxRun s.mem.read (opd l.desc 0x28 8) (s.maxOperands l.desc))) ∧
      (nf = none ↔ ∀ j, j < opBits l.desc 0x36 2 12 0 →
        (maxAt s.mem.read (opd l.desc 0x28 8) (s.maxOperands l.desc) j).2.2 = false) := by
  obtain ⟨hlen, hops, -⟩ := State.maxOperands_good h.good hplaced
  obtain ⟨nf, t, hrun, hwork, hnf⟩ := (h.works l.id [(opd l.desc 0x28 8, 4 * opBits l.desc 0x36 2 12 0)]).maxCells h.upsets
    (maxBad_dst hplaced) hops (hlen ▸ within_self _ _)
  refine ⟨t, nf, ?_, State.Works.writes (id := l.id) ?_, hlen ▸ hnf⟩
  · unfold startMaxLocal
    dsimp only
    rw [hplaced, if_neg Bool.false_ne_true, h.gate, hrun]
  · rwa [length_flatWords, length_maxRun, hlen]

/-! ### RESCALE -/

/-- The codes that RESCALE makes of its inputs (R210). -/
def rescaleRun (m : Nat → Byte) (src out sin sout n : Nat) : List Nat :=
  (List.range n).map fun j => (rescaleOut out sin sout (int32Of (leNat (bytesAt m (src + 4 * j) 4)))).1

theorem packCodes_length (w : Nat) (xs : List Nat) : (packCodes w xs).length = ceilDiv (xs.length * w) 8 := by
  rw [packCodes, Nat.mul_comm]
  exact length_toLE _ _

/-- Codes of whole bytes fill no part of a byte. -/
theorem ceilDiv_mul_bytes {w : Nat} (h : w = 8 * (w / 8)) (n : Nat) : ceilDiv (n * w) 8 = w / 8 * n := by
  generalize w / 8 = k at h
  subst h
  rw [ceilDiv, Nat.mul_left_comm, Nat.mul_comm n]
  omega

theorem map_fst_pair (xs : List Nat) : (xs.map fun v => (v, false)).map (·.1) = xs := by
  rw [List.map_map]
  exact List.map_id _

section
variable {o s : State} {id : Nat} {m : Nat → Byte} {r : List (Nat × Nat)} {dst : Nat} {xs : List Nat}

/-- Codes of 4 bits stored two to a byte (R210). -/
theorem State.Works.storeNibbles (h : o.Works s id m r) (hxs : ∀ c ∈ xs, c < 2 ^ 4)
    (hin : within r dst (packCodes 4 xs).length) :
    o.Works ((xs.map fun v => (v, false)).zipIdx.foldl (fun s p =>
      if p.1.2 then (s.putGranule (dst + p.2 / 2) (s.seen (dst + p.2 / 2) 1).1 true).abutBump R.abutPoisonOut (dst + p.2 / 2)
      else s) (s.putSeen dst (packCodes 4 ((xs.map fun v => (v, false)).map fun v => v.1 % 16)) false))
      id (patch m dst (packCodes 4 xs)) r := by
  have hmasked : (xs.map fun v => (v, false)).map (fun v => v.1 % 16) = xs := by
    rw [List.map_map]
    exact (List.map_congr_left fun c hc => Nat.mod_eq_of_lt (hxs c hc)).trans (List.map_id _)
  rw [hmasked]
  refine List.foldlRecOn (motive := fun t => o.Works t id _ r) _ _ (h.putSeen hin) fun t ht p hp => ?_
  have hgood : p.1.2 = false := by
    obtain ⟨c, -, hc⟩ := List.mem_map.mp (List.fst_mem_of_mem_zipIdx hp)
    rw [← hc]
  rw [hgood, if_neg Bool.false_ne_true]
  exact ht

/-- Codes of whole bytes stored (R210). -/
theorem State.Works.storeCodes (h : o.Works s id m r) {w : Nat} (hw : w = 8 * (w / 8)) (hd : dst % 64 = 0)
    (hxs : ∀ c ∈ xs, c < 2 ^ w) (hin : within r dst (packCodes w xs).length) :
    o.Works (s.abStores id dst (w / 8) (xs.map fun v => (v, false))) id (patch m dst (packCodes w xs)) r := by
  have hrun : packCodes w xs = flatWords (w / 8) xs := by
    have hbytes := packCodes_bytes (w := w / 8) (xs := xs) (by rwa [← hw])
    rwa [← hw] at hbytes
  have hstore := h.abStores (w := w / 8) (xs := xs.map fun v => (v, false)) hd (by simp)
    (by rwa [List.length_map, ← ceilDiv_mul_bytes hw, ← packCodes_length])
  rwa [map_fst_pair, ← hrun] at hstore

end

/-- Every output format of RESCALE but INT4 has whole bytes. -/
theorem rescale_width {out : Nat} (hfmt : out ∈ [1, 2, 6, 8]) (h4 : out ≠ 2) :
    (VFmt.ofCode out).width = 8 * ((VFmt.ofCode out).width / 8) := by
  simp only [List.mem_cons, List.not_mem_nil, or_false] at hfmt
  rcases hfmt with rfl | rfl | rfl | rfl
  · rfl
  · exact absurd rfl h4
  · rfl
  · rfl

theorem startRescale_runs {l : Live} {s : State} (h : s.Still) {src dst sin sout n out w : Nat}
    (hsrc : opd l.desc 0x20 8 = src) (hdst : opd l.desc 0x28 8 = dst) (hsin : opd l.desc 0x30 4 = sin)
    (hsout : opd l.desc 0x34 4 = sout) (hn : opd l.desc 0x38 5 = n) (hout : opBits l.desc 0x3D 1 7 4 = out)
    (hw : (VFmt.ofCode out).width = w) (hfmt : out ∈ [1, 2, 6, 8]) (hplaced : src % 64 = 0 ∧ dst % 64 = 0 ∧ n ≠ 0)
    (hfin : scaleBad sin = false ∧ (out < 6 → scaleBad sout = false)) :
    ∃ v, startRescale l s = v.finish l ⟨0, 0, 0, none⟩ ∧
      s.Writes v dst (packCodes w (rescaleRun s.mem.read src out sin sout n)) := by
  obtain ⟨hs, hd, hpos⟩ := hplaced
  obtain ⟨hin, hscale⟩ := hfin
  have hwork := h.works l.id [(dst, ceilDiv (n * w) 8)]
  obtain ⟨hins, hload⟩ := hwork.abLoads src 4 n
  have hbad : (scaleBad sin || (scaleBad sout && decide (out < 6))) = false := by
    rw [hin, Bool.false_or, Bool.and_eq_false_iff, decide_eq_false_iff_not]
    by_cases hlt : out < 6
    · exact .inl (hscale hlt)
    · exact .inr hlt
  have hcodes : ∀ c ∈ rescaleRun s.mem.read src out sin sout n, c < 2 ^ w := fun c hc => by
    obtain ⟨j, -, rfl⟩ := List.mem_map.mp hc
    exact hw ▸ rescaleOut_lt hfmt _ _ _
  have hlen : (rescaleRun s.mem.read src out sin sout n).length = n := by simp [rescaleRun]
  have houts : (elementsAt s.mem.read src 4 n).map (fun x => (rescaleOut out sin sout (int32Of x.1), x.2)) =
      (List.range n).map fun j =>
        (rescaleOut out sin sout (int32Of (leNat (bytesAt s.mem.read (src + 4 * j) 4))), false) := by
    simp [elementsAt, Function.comp_def]
  have hvals : ((List.range n).map fun j =>
      (rescaleOut out sin sout (int32Of (leNat (bytesAt s.mem.read (src + 4 * j) 4))), false)).map (fun o => (o.1.1, o.2)) =
      (rescaleRun s.mem.read src out sin sout n).map fun v => (v, false) := by
    simp [rescaleRun, Function.comp_def]
  have hcont : [1, 2, 6, 8].contains out = true := List.contains_iff_mem.mpr hfmt
  unfold startRescale
  dsimp only
  rw [hsrc, hdst, hsin, hsout, hn, hout, hw, hbad, hcont, Bool.not_true, if_neg Bool.false_ne_true, if_neg (by omega),
    if_neg Bool.false_ne_true, h.gate, hins, houts, hvals]
  rw [State.freeFor_good _ _ _ (by simp)]
  have hsat : abutReg R.abutRescaleSat := by unfold abutReg; decide
  have hflush : abutReg R.abutFlush := by unfold abutReg; decide
  have hcount := (hload.foldl (f := fun s (p : (Nat × Nat) × Nat) =>
    (s.abutBump R.abutRescaleSat (dst + w * p.2 / 8) p.1.1).abutBump R.abutFlush (dst + w * p.2 / 8) p.1.2)
    (((List.range n).map fun j =>
      (rescaleOut out sin sout (int32Of (leNat (bytesAt s.mem.read (src + 4 * j) 4))), false)).map
        fun o => if o.2 then (0, 0) else (b2n o.1.2.1, o.1.2.2)).zipIdx
    fun t p ht => (ht.bump hsat _ _).bump hflush _ _).bump hflush dst
      (scaleFlush sin + if out < 6 then scaleFlush sout else 0)
  have hstatus : (if ((List.range n).map fun j =>
      (rescaleOut out sin sout (int32Of (leNat (bytesAt s.mem.read (src + 4 * j) 4))), false)).any (·.2) then 0x50
      else 0) = 0 := if_neg (by simp)
  rw [hstatus]
  dsimp only
  refine ⟨_, rfl, State.Works.writes (id := l.id) ?_⟩
  have hin := within_self dst (packCodes w (rescaleRun s.mem.read src out sin sout n)).length
  rw [packCodes_length, hlen] at hin ⊢
  by_cases h4 : out = 2
  · obtain rfl : w = 4 := by rw [← hw, h4]; rfl
    rw [if_pos h4]
    exact hcount.storeNibbles hcodes (by rwa [packCodes_length, hlen])
  · rw [if_neg h4]
    exact hcount.storeCodes (hw ▸ rescale_width hfmt h4) hd hcodes (by rwa [packCodes_length, hlen])

end Sys2Proof.Machine
end

section
/-! DOT (R211-R213) over good memory, with every Abutment at work. -/

namespace Sys2Proof.Machine

@[simp] theorem length_dotRecord (r : DotSums) (n : Nat) (ints : Bool) (nf : Option Nat) :
    (dotRecord r n ints nf).length = 64 := by
  simp [dotRecord, Pair.bytes, zeros]

theorem elementsAt_good (m : Nat → Byte) (a w n : Nat) : (elementsAt m a w n).any (·.2) = false := by
  simp [elementsAt]

theorem zip_elementsAt_elementsAt (m : Nat → Byte) (a b wa wb n : Nat) :
    ((elementsAt m a wa n).zip (elementsAt m b wb n)).map (fun p => (p.1.1, p.2.1)) =
      (List.range n).map fun j => (leNat (bytesAt m (a + wa * j) wa), leNat (bytesAt m (b + wb * j) wb)) := by
  simp [elementsAt, List.zip_map', Function.comp_def]

/-- The record that DOT makes of two arrays of codes (R211, R212). -/
def dotRun (m : Nat → Byte) (d : Desc) (nf : Option Nat) : Bytes :=
  let fa := opBits d 0x3E 1 7 4
  let fb := opBits d 0x3E 1 3 0
  let ints := dotInt fa && dotInt fb
  let wa := (VFmt.ofCode fa).width / 8
  let wb := (VFmt.ofCode fb).width / 8
  dotRecord (dotSums ints (opBits d 0x3F 1 3 3) fa fb (if fa = 10 then opd d 0x3C 1 else 0)
    (if fb = 10 then opd d 0x3D 1 else 0)
    ((List.range (opd d 0x38 4)).map fun j =>
      (leNat (bytesAt m (opd d 0x20 8 + wa * j) wa), leNat (bytesAt m (opd d 0x28 8 + wb * j) wb))))
    (opd d 0x38 4) ints nf

/-- The checks of DOT (R211): formats and zero points, then placement. -/
def dotFormats (d : Desc) : Prop :=
  dotFmt (opBits d 0x3E 1 7 4) = true ∧ dotFmt (opBits d 0x3E 1 3 0) = true ∧
    opBits d 0x3F 1 5 4 < (if (dotInt (opBits d 0x3E 1 7 4) && dotInt (opBits d 0x3E 1 3 0)) then 2 else 1)

def dotPlaced (d : Desc) : Prop :=
  opd d 0x20 8 % 64 = 0 ∧ opd d 0x28 8 % 64 = 0 ∧ opd d 0x30 8 % 64 = 0 ∧ opd d 0x38 4 ≠ 0 ∧
    ((dotInt (opBits d 0x3E 1 7 4) && dotInt (opBits d 0x3E 1 3 0)) = true → opd d 0x38 4 ≤ 2 ^ 28)

theorem dotFormats_iff (d : Desc) :
    (!dotFmt (opBits d 0x3E 1 7 4) || !dotFmt (opBits d 0x3E 1 3 0) || decide (2 ≤ opBits d 0x3F 1 5 4) ||
      (opBits d 0x3F 1 5 4 == 1 && !(dotInt (opBits d 0x3E 1 7 4) && dotInt (opBits d 0x3E 1 3 0)))) = false ↔
      dotFormats d := by
  unfold dotFormats
  generalize (dotInt (opBits d 0x3E 1 7 4) && dotInt (opBits d 0x3E 1 3 0)) = ints
  generalize opBits d 0x3F 1 5 4 = z
  cases ints
  · simp [and_assoc]
    omega
  · simp [and_assoc]

theorem dotPlaced_iff (d : Desc) :
    (opd d 0x20 8 % 64 ≠ 0 ∨ opd d 0x28 8 % 64 ≠ 0 ∨ opd d 0x30 8 % 64 ≠ 0 ∨ opd d 0x38 4 = 0 ∨
      ((dotInt (opBits d 0x3E 1 7 4) && dotInt (opBits d 0x3E 1 3 0)) = true ∧ 2 ^ 28 < opd d 0x38 4)) ↔
      ¬ dotPlaced d := by
  unfold dotPlaced
  simp only [not_and_or, Classical.not_imp, Nat.not_le, ne_eq, not_not]

section
variable {l : Live} {s : State}

theorem startDot_format (h : ¬ dotFormats l.desc) : startDot l s = s.endWith l 0x70 := by
  rw [← dotFormats_iff, Bool.not_eq_false] at h
  unfold startDot
  exact if_pos h

theorem startDot_bounds (h : dotFormats l.desc) (hp : ¬ dotPlaced l.desc) : startDot l s = s.endWith l 0x23 := by
  rw [← dotFormats_iff] at h
  rw [← dotPlaced_iff] at hp
  unfold startDot
  dsimp only
  rw [h, if_neg Bool.false_ne_true, if_pos hp]

/-- DOT completes with its record written (R211-R213). -/
theorem startDot_runs (hs : s.Still) (h : dotFormats l.desc) (hp : dotPlaced l.desc) :
    ∃ v nf, startDot l s = v.finish l ⟨0, 0, 0, nf⟩ ∧
      s.Writes v (opd l.desc 0x30 8) (dotRun s.mem.read l.desc nf) := by
  have hplaced := (not_congr (dotPlaced_iff l.desc)).mpr (not_not.mpr hp)
  rw [← dotFormats_iff] at h
  have hflush : abutReg R.abutFlush := by unfold abutReg; decide
  unfold startDot
  dsimp only
  rw [h, if_neg Bool.false_ne_true, if_neg hplaced, hs.gate]
  obtain ⟨hloadA, hworkA⟩ := (hs.works l.id [(opd l.desc 0x30 8, 64)]).abLoads (opd l.desc 0x20 8)
    ((VFmt.ofCode (opBits l.desc 0x3E 1 7 4)).width / 8) (opd l.desc 0x38 4)
  obtain ⟨hloadB, hworkB⟩ := hworkA.abLoads (opd l.desc 0x28 8)
    ((VFmt.ofCode (opBits l.desc 0x3E 1 3 0)).width / 8) (opd l.desc 0x38 4)
  rw [hloadA, hloadB, elementsAt_good, elementsAt_good, Bool.or_false, if_neg Bool.false_ne_true, if_neg Bool.false_ne_true,
    if_neg Bool.false_ne_true, zip_elementsAt_elementsAt]
  refine ⟨_, _, rfl, State.Works.writes (id := l.id) ?_⟩
  rw [dotRun, length_dotRecord]
  refine State.Works.putSeen ?_ ?_
  · exact (hworkB.foldl _ fun t p ht => ht.bump hflush _ _).foldl _ fun t p ht => ht.bump hflush _ _
  · rw [length_dotRecord]
    exact within_self _ _

end
end Sys2Proof.Machine
end

section
/-! ATOMIC_MAX of this chip, RESCALE and DOT from their dispatch on. -/

namespace Sys2Proof.Machine

/-- Memory outside a run is as it was before the dispatch too. -/
theorem State.Writes.rest_begun {s v : State} {op : Nat} {d : Desc} {a : Nat} {bs : Bytes}
    (h : (s.begun op d).2.Writes v a bs) : s.memBut v a bs.length := fun x hx =>
  (h.rest x hx).trans (congrArg (Memory.read · x) (s.begun_mem op d))

section
variable {s : State} {d : Desc}

theorem State.Still.rdN_begun (h : s.Still) (op : Nat) (d : Desc) (a n : Nat) :
    leNat (bytesAt (s.begun op d).2.mem.read a n) = s.rdN a n := by
  rw [s.begun_mem, h.rdN]

/-! ### ATOMIC_MAX -/

theorem atomicMax_bad (hgo : s.goes 0x16 d = true) (hloc : opBit d 0x35 7 = false) (hbad : maxBad d = true) :
    exec (.atomicMax d) s = .next ((s.begun 0x16 d).2.finish (s.begun 0x16 d).1 ⟨0x23, 0, 0, none⟩) := by
  rw [exec_goes rfl hgo]
  have hdesc := (s.begun_memory 0x16 d).1
  generalize (s.begun 0x16 d).1 = l at hdesc
  subst hdesc
  refine congrArg Host.Outcome.next ((startMax_local hloc).trans ?_)
  unfold startMaxLocal
  dsimp only
  rw [hbad, if_pos rfl]
  rfl

theorem maxAt_begun (h : s.Still) {n j : Nat} (hplaced : maxBad d = false) (hn : opBits d 0x36 2 12 0 = n) (hj : j < n) :
    maxAt (s.begun 0x16 d).2.mem.read (opd d 0x28 8) ((s.begun 0x16 d).2.maxOperands d) j =
      maxCell (s.rdN (opd d 0x28 8 + 4 * j) 4)
        (if opBit d 0x38 0 then opd d 0x20 4 else s.rdN (opd d 0x20 8 + 4 * j) 4) := by
  subst hn
  obtain ⟨-, -, hval⟩ := State.maxOperands_good (h.begun 0x16 d).good hplaced
  rw [maxAt, hval j hj, h.rdN_begun, State.rdN_congr (s.begun_mem 0x16 d)]

theorem atomicMax_writes (h : s.Still) (hgo : s.goes 0x16 d = true) (hloc : opBit d 0x35 7 = false)
    (hplaced : maxBad d = false) :
    ∃ v nf, exec (.atomicMax d) s =
        .next (v.finish (s.begun 0x16 d).1 ⟨0, opBits d 0x36 2 12 0, 0, nf⟩) ∧
      (s.begun 0x16 d).2.Writes v (opd d 0x28 8)
        (flatWords 4 (maxRun (s.begun 0x16 d).2.mem.read (opd d 0x28 8) ((s.begun 0x16 d).2.maxOperands d))) ∧
      (nf = none ↔ ∀ j, j < opBits d 0x36 2 12 0 →
        (maxAt (s.begun 0x16 d).2.mem.read (opd d 0x28 8) ((s.begun 0x16 d).2.maxOperands d) j).2.2 = false) := by
  have hdesc := (s.begun_memory 0x16 d).1
  have hstill := h.begun 0x16 d

  rw [exec_goes rfl hgo]
  generalize (s.begun 0x16 d).1 = l at hdesc
  generalize (s.begun 0x16 d).2 = b at hstill
  subst hdesc
  obtain ⟨v, nf, hrun, hwork, hnf⟩ := startMaxLocal_runs hstill hplaced
  refine ⟨v, nf, congrArg Host.Outcome.next ((startMax_local hloc).trans hrun), hwork, hnf⟩

/-- The cells that ATOMIC_MAX leaves (R207). -/
theorem State.Writes.cell {b v : State} {m : Nat → Byte} {dst j : Nat} {ops : List (Nat × Bool)}
    (hw : b.Writes v dst (flatWords 4 (maxRun m dst ops))) (hj : j < ops.length) :
    leNat (v.seen (dst + 4 * j) 4).1 = (maxAt m dst ops j).1 := by
  have hlen : j < (maxRun m dst ops).length := by rwa [length_maxRun]
  have hcell : (maxRun m dst ops)[j] = (maxAt m dst ops j).1 := by simp [maxRun]
  rw [hw.element hlen, hcell, leNat_toLE]
  exact Nat.mod_eq_of_lt (maxCell_lt _ _)

/-! ### RESCALE and DOT -/

theorem rescale_starts (hgo : s.goes 0x20 d = true) (hfunc : opBits d 0x3F 1 7 6 = 0) :
    exec (.rescale d) s = .next (startRescale (s.begun 0x20 d).1 (s.begun 0x20 d).2) := by
  rw [exec_goes rfl hgo]
  have hdesc := (s.begun_memory 0x20 d).1
  generalize (s.begun 0x20 d).1 = l at hdesc
  subst hdesc
  change Host.Outcome.next (startFunc _ _) = _
  rw [startFunc, hfunc]
  rfl

theorem dot_starts (hgo : s.goes 0x20 d = true) (hfunc : opBits d 0x3F 1 7 6 = 1) :
    exec (.dot d) s = .next (startDot (s.begun 0x20 d).1 (s.begun 0x20 d).2) := by
  rw [exec_goes rfl hgo]
  have hdesc := (s.begun_memory 0x20 d).1
  generalize (s.begun 0x20 d).1 = l at hdesc
  subst hdesc
  change Host.Outcome.next (startFunc _ _) = _
  rw [startFunc, hfunc]
  rfl

theorem rescaleRun_begun (h : s.Still) (src out sin sout n : Nat) :
    rescaleRun (s.begun 0x20 d).2.mem.read src out sin sout n =
      (List.range n).map fun j => (rescaleOut out sin sout (int32Of (s.rdN (src + 4 * j) 4))).1 := by
  simp only [rescaleRun, h.rdN_begun]

theorem dotRun_begun (h : s.Still) (nf : Option Nat) :
    dotRun (s.begun 0x20 d).2.mem.read d nf =
      (let fa := opBits d 0x3E 1 7 4
       let fb := opBits d 0x3E 1 3 0
       let ints := dotInt fa && dotInt fb
       let wa := (VFmt.ofCode fa).width / 8
       let wb := (VFmt.ofCode fb).width / 8
       dotRecord (dotSums ints (opBits d 0x3F 1 3 3) fa fb (if fa = 10 then opd d 0x3C 1 else 0)
         (if fb = 10 then opd d 0x3D 1 else 0)
         ((List.range (opd d 0x38 4)).map fun j =>
           (s.rdN (opd d 0x20 8 + wa * j) wa, s.rdN (opd d 0x28 8 + wb * j) wb))) (opd d 0x38 4) ints nf) := by
  simp only [dotRun, h.rdN_begun]

end

section
variable {l : Live} {s : State}

theorem startRescale_format (h : opBits l.desc 0x3D 1 7 4 ∉ [1, 2, 6, 8]) : startRescale l s = s.endWith l 0x70 := by
  have hcont : [1, 2, 6, 8].contains (opBits l.desc 0x3D 1 7 4) = false :=
    Bool.eq_false_iff.mpr fun hc => h (List.contains_iff_mem.mp hc)
  unfold startRescale
  dsimp only
  rw [hcont, Bool.not_false, if_pos rfl]

theorem startRescale_bounds (h : opBits l.desc 0x3D 1 7 4 ∈ [1, 2, 6, 8])
    (hp : ¬ (opd l.desc 0x20 8 % 64 = 0 ∧ opd l.desc 0x28 8 % 64 = 0 ∧ opd l.desc 0x38 5 ≠ 0)) :
    startRescale l s = s.endWith l 0x23 := by
  have hcont : [1, 2, 6, 8].contains (opBits l.desc 0x3D 1 7 4) = true := List.contains_iff_mem.mpr h
  unfold startRescale
  dsimp only
  rw [hcont, Bool.not_true, if_neg Bool.false_ne_true, if_pos (by omega)]

theorem startRescale_nonfinite (h : opBits l.desc 0x3D 1 7 4 ∈ [1, 2, 6, 8])
    (hp : opd l.desc 0x20 8 % 64 = 0 ∧ opd l.desc 0x28 8 % 64 = 0 ∧ opd l.desc 0x38 5 ≠ 0)
    (hfin : ¬ (scaleBad (opd l.desc 0x30 4) = false ∧
      (opBits l.desc 0x3D 1 7 4 < 6 → scaleBad (opd l.desc 0x34 4) = false))) :
    startRescale l s = s.endWith l 0x10 := by
  have hcont : [1, 2, 6, 8].contains (opBits l.desc 0x3D 1 7 4) = true := List.contains_iff_mem.mpr h
  have hbad : (scaleBad (opd l.desc 0x30 4) ||
      (scaleBad (opd l.desc 0x34 4) && decide (opBits l.desc 0x3D 1 7 4 < 6))) = true := by
    rw [not_and_or, Classical.not_imp, Bool.not_eq_false, Bool.not_eq_false] at hfin
    rcases hfin with hin | ⟨hlt, hout⟩
    · rw [hin, Bool.true_or]
    · rw [hout, decide_eq_true hlt, Bool.true_and, Bool.or_true]
  unfold startRescale
  dsimp only
  rw [hcont, Bool.not_true, if_neg Bool.false_ne_true, if_neg (by omega), hbad, if_pos rfl]

end
end Sys2Proof.Machine
end

section
/-! A pass of UPDATE over the elements (R217, R221-R224), with memory good. -/

namespace Sys2Proof.Machine

/-! ### Runs written one after another -/

/-- Memory once runs of bytes have been written in order. -/
def patchAll (ws : List (Nat × Bytes)) (m : Nat → Byte) : Nat → Byte := ws.foldl (fun m p => patch m p.1 p.2) m

/-- Where runs lie. -/
def ranges (ws : List (Nat × Bytes)) : List (Nat × Nat) := ws.map fun p => (p.1, p.2.length)

theorem patchAll_append (ws vs : List (Nat × Bytes)) (m : Nat → Byte) :
    patchAll (ws ++ vs) m = patchAll vs (patchAll ws m) := List.foldl_append

theorem patchAll_other {ws : List (Nat × Bytes)} {x : Nat} (m : Nat → Byte) (h : outside (ranges ws) x) :
    patchAll ws m x = m x := by
  induction ws generalizing m with
  | nil => rfl
  | cons w ws ih =>
    exact (ih (patch m w.1 w.2) fun p hp => h p (List.mem_cons_of_mem _ hp)).trans
      (patch_other m (h _ List.mem_cons_self))

/-- A part of one of several runs that lie apart. -/
theorem bytesAt_patchAll {ws : List (Nat × Bytes)} (hapart : apart (ranges ws)) {p : Nat × Bytes} (hp : p ∈ ws) {k n : Nat}
    (hk : k + n ≤ p.2.length) (m : Nat → Byte) : bytesAt (patchAll ws m) (p.1 + k) n = (p.2.drop k).take n := by
  induction ws generalizing m with
  | nil => cases hp
  | cons w ws ih =>
    obtain ⟨hhead, htail⟩ := List.pairwise_cons.mp hapart
    rcases List.mem_cons.mp hp with rfl | hp
    · rw [← bytesAt_patch_within m p.1 hk]
      refine bytesAt_congr fun x hlo hhi => patchAll_other (ws := ws) _ fun q hq => ?_
      have := hhead q hq
      dsimp only at this
      omega
    · exact ih htail hp (patch m w.1 w.2)

/-- The runs of which an operation makes one when a condition holds. -/
def runIf (c : Prop) [Decidable c] (a w : Nat) (xs : List Nat) : List (Nat × Bytes) := if c then [(a, flatWords w xs)] else []

section
variable {o s : State} {id : Nat} {m : Nat → Byte} {r : List (Nat × Nat)}

/-- The outputs of one tensor stored, none poisoned. -/
theorem State.Works.updStore (h : o.Works s id m r) {a w : Nat} {xs : List (Nat × Bool)} (hxs : ∀ x ∈ xs, x.2 = false)
    (ha : a % 64 = 0) (hin : within r a (w * xs.length)) :
    o.Works (s.updStore id a w xs) id (patch m a (flatWords w (xs.map (·.1)))) r := by
  unfold State.updStore
  rw [State.freeFor_good _ _ _ hxs]
  exact h.abStores ha hxs hin

/-- The same of a tensor that the pass need not have. -/
theorem State.Works.updStoreIf (h : o.Works s id m r) (c : Prop) [Decidable c] {a w : Nat} {xs : List (Nat × Bool)}
    (hxs : ∀ x ∈ xs, x.2 = false) (hc : c → a % 64 = 0 ∧ within r a (w * xs.length)) :
    o.Works (if c then s.updStore id a w xs else s) id (patchAll (runIf c a w (xs.map (·.1))) m) r := by
  unfold runIf
  split
  · next hyes => exact h.updStore hxs (hc hyes).1 (hc hyes).2
  · exact h

/-- A tensor read when the pass uses it. -/
theorem State.Works.abLoadsIf (h : o.Works s id m r) (c : Prop) [Decidable c] (a w n : Nat) :
    (if c then s.abLoads id a w n else ([], s)).1 = (if c then elementsAt m a w n else []) ∧
      o.Works (if c then s.abLoads id a w n else ([], s)).2 id m r := by
  split
  · exact h.abLoads a w n
  · exact ⟨rfl, h⟩

end

theorem nth_elementsAt {m : Nat → Byte} {a w n j : Nat} (hj : j < n) (c : Prop) [Decidable c] :
    nth (if c then elementsAt m a w n else []) j (0, false) = (if c then leNat (bytesAt m (a + w * j) w) else 0, false) := by
  split
  · simp [nth, elementsAt, hj]
  · rfl

/-! ### The inputs of a pass -/

/-- The words of element j that an UPDATE reads (R217). -/
def readIn (m : Nat → Byte) (u : UpdRec) (j : Nat) : UpdIn :=
  ⟨j, (leNat (bytesAt m (u.wAddr + u.wWidth * j) u.wWidth), false),
    (if u.wFmt = 0 then leNat (bytesAt m (u.wLo + 2 * j) 2) else 0, false),
    (if u.usesM then leNat (bytesAt m (u.mAddr + fmtBytes u.mFmt * j) (fmtBytes u.mFmt)) else 0, false),
    (if u.usesV then leNat (bytesAt m (u.vAddr + fmtBytes u.vFmt * j) (fmtBytes u.vFmt)) else 0, false),
    (if u.gSrc ≠ 2 then leNat (bytesAt m (u.gAddr + u.gWidth * j) u.gWidth) else 0, false), []⟩

theorem State.Works.updReads {o s : State} {id : Nat} {m : Nat → Byte} {r : List (Nat × Nat)} (h : o.Works s id m r)
    (u : UpdRec) :
    (s.updReads id u).1 = (List.range u.length).map (readIn m u) ∧ o.Works (s.updReads id u).2 id m r := by
  unfold State.updReads
  dsimp only
  obtain ⟨hw, h⟩ := h.abLoads u.wAddr u.wWidth u.length
  generalize s.abLoads id u.wAddr u.wWidth u.length = rw at hw h ⊢
  obtain ⟨hlo, h⟩ := h.abLoadsIf (u.wFmt = 0) u.wLo 2 u.length
  generalize (if u.wFmt = 0 then rw.2.abLoads id u.wLo 2 u.length else ([], rw.2)) = rlo at hlo h ⊢
  obtain ⟨hm, h⟩ := h.abLoadsIf u.usesM u.mAddr (fmtBytes u.mFmt) u.length
  generalize (if u.usesM then rlo.2.abLoads id u.mAddr (fmtBytes u.mFmt) u.length else ([], rlo.2)) = rm at hm h ⊢
  obtain ⟨hv, h⟩ := h.abLoadsIf u.usesV u.vAddr (fmtBytes u.vFmt) u.length
  generalize (if u.usesV then rm.2.abLoads id u.vAddr (fmtBytes u.vFmt) u.length else ([], rm.2)) = rv at hv h ⊢
  obtain ⟨hg, h⟩ := h.abLoadsIf (u.gSrc ≠ 2) u.gAddr u.gWidth u.length
  generalize (if u.gSrc ≠ 2 then rv.2.abLoads id u.gAddr u.gWidth u.length else ([], rv.2)) = rg at hg h ⊢
  rw [hw, hlo, hm, hv, hg]
  refine ⟨List.ext_getElem (by simp [elementsAt]) fun j h1 h2 => ?_, h⟩
  have hj : j < u.length := by simpa using h2
  simp only [List.getElem_map, List.getElem_zipIdx, List.getElem_range, Nat.zero_add, nth_elementsAt hj, readIn]
  simp only [elementsAt, List.getElem_map, List.getElem_range]

/-- An element's inputs of which none is poisoned. -/
def UpdIn.good (x : UpdIn) : Prop :=
  x.w.2 = false ∧ x.wLo.2 = false ∧ x.m.2 = false ∧ x.v.2 = false ∧ x.g.2 = false ∧ ∀ t ∈ x.terms, t.poison = false

/-- An element's outputs of which none is poisoned. -/
def UpdOut.good (o : UpdOut) : Prop := o.w.2 = false ∧ o.wLo.2 = false ∧ o.m.2 = false ∧ o.v.2 = false

theorem updElem_good (u : UpdRec) (pass seed step mS vS : Nat) {x : UpdIn} (h : x.good) :
    (updElem u pass seed step mS vS x).good := by
  obtain ⟨hw, hlo, hm, hv, hg, hterms⟩ := h
  have hany : x.terms.any (·.poison) = false := List.any_eq_false.mpr fun t ht => by rw [hterms t ht]; decide
  simp [UpdOut.good, updElem, hw, hlo, hm, hv, hg, hany]

theorem withTerms_nil {ins : List UpdIn} (h : ∀ x ∈ ins, x.terms = []) : withTerms ins [] = ins := by
  induction ins with
  | nil => rfl
  | cons x ins ih =>
    obtain ⟨hx, hrest⟩ := List.forall_mem_cons.mp h
    have hsame : { x with terms := [] } = x := by rw [← hx]
    exact congrArg₂ List.cons hsame (ih hrest)

@[simp] theorem length_withTerms (ins : List UpdIn) (ts : List GradTerm) : (withTerms ins ts).length = ins.length := by
  induction ins generalizing ts with
  | nil => rfl
  | cons x ins ih => exact congrArg Nat.succ (ih _)

/-- Inputs of good words with terms that none poisoned. -/
theorem withTerms_good {ins : List UpdIn} {ts : List GradTerm} (hins : ∀ x ∈ ins, x.good)
    (hts : ∀ t ∈ ts, t.poison = false) : ∀ x ∈ withTerms ins ts, x.good := by
  induction ins generalizing ts with
  | nil => exact fun x hx => absurd hx List.not_mem_nil
  | cons y ins ih =>
    obtain ⟨⟨hw, hlo, hm, hv, hg, -⟩, hrest⟩ := List.forall_mem_cons.mp hins
    refine List.forall_mem_cons.mpr ⟨⟨hw, hlo, hm, hv, hg, fun t ht => ?_⟩, ih hrest fun t ht => ?_⟩
    · exact hts t (List.takeWhile_subset _ ht)
    · exact hts t (List.drop_subset _ _ ht)

theorem readIn_good (m : Nat → Byte) (u : UpdRec) (j : Nat) : (readIn m u j).good :=
  ⟨rfl, rfl, rfl, rfl, rfl, fun _ ht => absurd ht List.not_mem_nil⟩

end Sys2Proof.Machine
end

section
/-! What a pass of UPDATE writes (R214, R216, R222-R224), with memory good. -/

namespace Sys2Proof.Machine

/-! ### Its runs and ranges -/

/-- The scales that a pass stores the moments with (R223). -/
def UpdRec.scaleM (u : UpdRec) (pass : Nat) : Nat := if pass = 2 ∧ u.narrowM then momentScale u.mAmax 127 else u.mScale

def UpdRec.scaleV (u : UpdRec) (pass : Nat) : Nat :=
  if pass = 2 ∧ u.narrowV then momentScale u.vAmax (255 - u.vZp) else u.vScale

/-- The outputs of every element of a pass over memory m (R221-R224). -/
def UpdRec.run (u : UpdRec) (m : Nat → Byte) (pass seed step : Nat) (terms : List GradTerm) : List UpdOut :=
  (withTerms ((List.range u.length).map (readIn m u)) terms).map
    (updElem u pass seed step (u.scaleM pass) (u.scaleV pass))

/-- The record's words that a pass of these outputs leaves (R216, R223). -/
def UpdRec.tail (u : UpdRec) (pass step : Nat) (outs : List UpdOut) : Bytes :=
  recordTail u pass step (u.scaleM pass) (u.scaleV pass) (amaxOf (outs.map (·.mAbs))) (amaxOf (outs.map (·.vAbs)))

/-- The weights and moments of these outputs, as they lie in memory. -/
def tensorRuns (u : UpdRec) (outs : List UpdOut) : List (Nat × Bytes) :=
  [(u.wAddr, flatWords u.wWidth (outs.map (·.w.1)))] ++ runIf (u.wFmt = 0) u.wLo 2 (outs.map (·.wLo.1)) ++
  runIf u.usesM u.mAddr (fmtBytes u.mFmt) (outs.map (·.m.1)) ++
  runIf u.usesV u.vAddr (fmtBytes u.vFmt) (outs.map (·.v.1))

/-- Where the tile records lie (R214). -/
def UpdRec.tiles (u : UpdRec) : List (Nat × Nat) := if u.tile = 0 then [] else [(u.tile, 8 * ceilDiv u.length 4096)]

theorem ranges_runIf (c : Prop) [Decidable c] (a w : Nat) (xs : List Nat) :
    ranges (runIf c a w xs) = if c then [(a, w * xs.length)] else [] := by
  unfold runIf
  split
  · rw [ranges, List.map_singleton, length_flatWords]
  · rfl

theorem ranges_append (ws vs : List (Nat × Bytes)) : ranges (ws ++ vs) = ranges ws ++ ranges vs := List.map_append

theorem outputs_eq (u : UpdRec) (a : Nat) {outs : List UpdOut} (hlen : outs.length = u.length) :
    u.outputs a = (a + 0x80, 0x2C) :: (ranges (tensorRuns u outs) ++ u.tiles) := by
  rw [tensorRuns, ranges_append, ranges_append, ranges_append, ranges_runIf, ranges_runIf, ranges_runIf, ranges, List.map_singleton,
    length_flatWords, List.length_map, List.length_map, List.length_map, List.length_map, hlen]
  rfl

@[simp] theorem length_tail (u : UpdRec) (pass step : Nat) (outs : List UpdOut) : (u.tail pass step outs).length = 20 := by
  simp [UpdRec.tail, recordTail]

theorem run_length (u : UpdRec) (m : Nat → Byte) (pass seed step : Nat) (terms : List GradTerm) :
    (u.run m pass seed step terms).length = u.length := by simp [UpdRec.run]

theorem run_good (u : UpdRec) (m : Nat → Byte) (pass seed step : Nat) {terms : List GradTerm}
    (h : ∀ t ∈ terms, t.poison = false) : ∀ o ∈ u.run m pass seed step terms, o.good := by
  intro o ho
  obtain ⟨x, hx, rfl⟩ := List.mem_map.mp ho
  refine updElem_good _ _ _ _ _ _ (withTerms_good (fun y hy => ?_) h x hx)
  obtain ⟨j, -, rfl⟩ := List.mem_map.mp hy
  exact readIn_good m u j

/-- The placement that UPDATE checks for the tensors it stores (R219). -/
theorem boundsBad_placed {u : UpdRec} {a pass : Nat} (h : u.boundsBad a pass = false) :
    u.wAddr % 64 = 0 ∧ (u.wFmt = 0 → u.wLo % 64 = 0) ∧ (u.usesM → u.mAddr % 64 = 0) ∧ (u.usesV → u.vAddr % 64 = 0) := by
  simp only [UpdRec.boundsBad, decide_eq_false_iff_not, not_or, not_and, not_not, ne_eq] at h
  obtain ⟨-, hw, hlo, hm, hv, -⟩ := h
  exact ⟨hw, hlo, hm, hv⟩

/-! ### The stores of a pass -/

section
variable {o s : State} {id : Nat} {m : Nat → Byte} {r : List (Nat × Nat)} {u : UpdRec} {outs : List UpdOut} {a pass : Nat}

/-- The weights and the moments stored (R222). -/
def State.storeTensors (s : State) (id : Nat) (u : UpdRec) (outs : List UpdOut) : State :=
  let s := s.updStore id u.wAddr u.wWidth (outs.map (·.w))
  let s := if u.wFmt = 0 then s.updStore id u.wLo 2 (outs.map (·.wLo)) else s
  let s := if u.usesM then s.updStore id u.mAddr (fmtBytes u.mFmt) (outs.map (·.m)) else s
  if u.usesV then s.updStore id u.vAddr (fmtBytes u.vFmt) (outs.map (·.v)) else s

theorem within_of_mem {r : List (Nat × Nat)} {a n : Nat} (h : (a, n) ∈ r) : within r a n :=
  ⟨(a, n), h, Nat.le_refl _, Nat.le_refl _⟩

theorem State.Works.storeTensors (h : o.Works s id m r) (hb : u.boundsBad a pass = false) (houts : ∀ x ∈ outs, x.good)
    (hin : ∀ p ∈ ranges (tensorRuns u outs), p ∈ r) :
    o.Works (s.storeTensors id u outs) id (patchAll (tensorRuns u outs) m) r := by
  obtain ⟨hw, hlo, hm, hv⟩ := boundsBad_placed hb
  have hgood (f : UpdOut → Nat × Bool) (hf : ∀ x, x.good → (f x).2 = false) : ∀ y ∈ outs.map f, y.2 = false := by
    intro y hy
    obtain ⟨x, hx, rfl⟩ := List.mem_map.mp hy
    exact hf x (houts x hx)
  have hfits {c : Prop} [Decidable c] {b w : Nat} {f : UpdOut → Nat} (g : UpdOut → Nat × Bool)
      (hr : ∀ p ∈ (if c then [(b, w * (outs.map f).length)] else []), p ∈ r) (hc : c) :
      within r b (w * (outs.map g).length) :=
    within_of_mem (hr _ (by rw [if_pos hc, List.length_map, List.length_map]; exact List.mem_singleton_self _))
  simp only [tensorRuns, ranges_append, ranges_runIf, List.forall_mem_append] at hin
  obtain ⟨⟨⟨hinW, hinLo⟩, hinM⟩, hinV⟩ := hin
  have hrun := (((h.updStore (a := u.wAddr) (w := u.wWidth) (hgood (·.w) fun x hx => hx.1) hw
    (within_of_mem (hinW _ (by simp [ranges])))).updStoreIf (u.wFmt = 0) (hgood (·.wLo) fun x hx => hx.2.1)
      fun hc => ⟨hlo hc, hfits (·.wLo) hinLo hc⟩).updStoreIf u.usesM (hgood (·.m) fun x hx => hx.2.2.1)
      fun hc => ⟨hm hc, hfits (·.m) hinM hc⟩).updStoreIf u.usesV (hgood (·.v) fun x hx => hx.2.2.2)
      fun hc => ⟨hv hc, hfits (·.v) hinV hc⟩
  simp only [List.map_map, Function.comp_def] at hrun
  rw [tensorRuns, patchAll_append, patchAll_append, patchAll_append]
  exact hrun

/-- The tile records written: elsewhere the Abutments see memory as before (R214). -/
theorem State.Shows.writeTiles (h : o.Shows s m r) (hlen : outs.length = u.length) (hin : ∀ p ∈ u.tiles, p ∈ r) :
    ∃ m', o.Shows (s.writeTiles u outs) m' r ∧ ∀ x, outside u.tiles x → m' x = m x := by
  unfold State.writeTiles
  unfold UpdRec.tiles at hin ⊢
  split
  · exact ⟨m, h, fun _ _ => rfl⟩
  · next htile =>
    rw [if_neg htile] at hin
    have hwr (f : Nat → Bytes) (hf : ∀ t, (f t).length = 8) : ∃ m',
        o.Shows (s.wr u.tile ((List.range (ceilDiv outs.length 4096)).map f).flatten) m' r ∧
          ∀ x, outside [(u.tile, 8 * ceilDiv u.length 4096)] x → m' x = m x := by
      have hrecs : ((List.range (ceilDiv outs.length 4096)).map f).flatten.length = 8 * ceilDiv u.length 4096 := by
        have hone : List.length ∘ f = fun _ => 8 := funext hf
        rw [List.length_flatten, List.map_map, hone, List.map_const', List.length_range, List.sum_replicate, smul_eq_mul,
          hlen, Nat.mul_comm]
      refine ⟨_, h.wr (hrecs ▸ within_of_mem (hin _ (List.mem_singleton_self _))), fun x hx => State.past_other ?_⟩
      rw [hrecs]
      exact hx _ (List.mem_singleton_self _)
    refine hwr _ fun t => ?_
    dsimp only
    split
    · exact length_toLE _ _
    · exact List.length_replicate

end

/-! ### The pass -/

/-- What a pass of an UPDATE leaves from state o on: the record's words, the runs of its tensors where they lie apart, and
nothing else. -/
structure State.Updated (o v : State) (u : UpdRec) (a pass step : Nat) (outs : List UpdOut) : Prop where
  frame : o.buffering v
  good : v.memPoison = []
  tail : ∀ k n, k + n ≤ 20 → (v.seen (a + 0x80 + k) n).1 = ((u.tail pass step outs).drop k).take n
  tensors : pass ≠ 1 → apart (u.outputs a) → ∀ p ∈ tensorRuns u outs, ∀ k n, k + n ≤ p.2.length →
    (v.seen (p.1 + k) n).1 = (p.2.drop k).take n
  rest : ∀ x, outside (if pass = 1 then [(a + 0x80, 0x2C)] else u.outputs a) x → v.mem.read x = o.mem.read x

section
variable {o s : State} {id : Nat} {m : Nat → Byte} {r : List (Nat × Nat)} {u : UpdRec} {outs : List UpdOut} {a pass : Nat}

/-- What a pass stores before it writes its record. -/
theorem State.Works.storePass (h : o.Works s id m r) (hb : u.boundsBad a pass = false) (houts : ∀ x ∈ outs, x.good)
    (hlen : outs.length = u.length) (hin : pass ≠ 1 → ∀ p ∈ u.outputs a, p ∈ r) :
    ∃ m', o.Shows (if pass = 1 then s else (s.storeTensors id u outs).writeTiles u outs) m' r ∧
      (pass ≠ 1 → apart (u.outputs a) → ∀ p ∈ tensorRuns u outs, ∀ k n, k + n ≤ p.2.length →
        bytesAt m' (p.1 + k) n = (p.2.drop k).take n) := by
  by_cases hpass : pass = 1
  · rw [if_pos hpass]
    exact ⟨m, h.shows, fun hne => absurd hpass hne⟩
  · rw [if_neg hpass]
    have hin := hin hpass
    rw [outputs_eq u a hlen, List.forall_mem_cons, List.forall_mem_append] at hin
    obtain ⟨-, hin, htiles⟩ := hin
    obtain ⟨m', hshow, hother⟩ := (h.storeTensors hb houts hin).shows.writeTiles hlen htiles
    refine ⟨m', hshow, fun _ hapart p hp k n hk => ?_⟩
    rw [outputs_eq u a hlen, apart, List.pairwise_cons, List.pairwise_append] at hapart
    obtain ⟨-, htensors, -, hcross⟩ := hapart
    rw [← bytesAt_patchAll htensors hp hk m]
    refine bytesAt_congr fun x hlo hhi => hother x fun q hq => ?_
    have := hcross (p.1, p.2.length) (List.mem_map.mpr ⟨p, hp, rfl⟩) q hq
    dsimp only at this
    omega

end

/-- A pass over good memory (R221-R224). -/
theorem State.updRun_runs {o : State} (hwf : o.mem.wf = true) (hgood : o.memPoison = []) (hlines : o.cb = []) (l : Live)
    {u : UpdRec} {a pass : Nat} (step : Nat) {terms : List GradTerm} (flushes : Nat) (hb : u.boundsBad a pass = false)
    (hterms : ∀ t ∈ terms, t.poison = false) :
    ∃ v nf, o.updRun l u a pass step terms flushes = v.finish l ⟨0, 0, 0, nf⟩ ∧
      o.Updated v u a pass step (u.run o.mem.read pass l.seed.toNat step terms) := by
  have houts := run_good u o.mem.read pass l.seed.toNat step hterms
  have hlen := run_length u o.mem.read pass l.seed.toNat step terms
  obtain ⟨hins, hread⟩ := (State.Works.start l.id (if pass = 1 then [(a + 0x80, 0x2C)] else u.outputs a)
    hwf hgood hlines).updReads u
  have hrecord : (a + 0x80, 0x2C) ∈ (if pass = 1 then [(a + 0x80, 0x2C)] else u.outputs a) := by
    split
    · exact List.mem_singleton_self _
    · rw [outputs_eq u a hlen]
      exact List.mem_cons_self
  have hrun : (withTerms ((List.range u.length).map (readIn o.mem.read u)) terms).map
      (updElem u pass l.seed.toNat step (u.scaleM pass) (u.scaleV pass)) =
      u.run o.mem.read pass l.seed.toNat step terms := rfl
  have hscaleM : (if pass = 2 ∧ u.narrowM then momentScale u.mAmax 127 else u.mScale) = u.scaleM pass := rfl
  have hscaleV : (if pass = 2 ∧ u.narrowV then momentScale u.vAmax (255 - u.vZp) else u.vScale) = u.scaleV pass := rfl
  unfold State.updRun
  dsimp only
  rw [hins, hscaleM, hscaleV, hrun]
  generalize u.run o.mem.read pass l.seed.toNat step terms = outs at houts hlen ⊢
  have hnone (f : UpdOut → Nat × Bool) (hf : ∀ x, x.good → (f x).2 = false) : (outs.any fun x => (f x).2) = false :=
    List.any_eq_false.mpr fun x hx => by rw [hf x (houts x hx)]; decide
  rw [hnone (·.w) fun x hx => hx.1, hnone (·.m) fun x hx => hx.2.2.1, hnone (·.v) fun x hx => hx.2.2.2,
    if_neg (fun h => Bool.false_ne_true h.2.2), if_neg (fun h => Bool.false_ne_true h.2.2), if_neg Bool.false_ne_true]
  generalize hcnts : (List.map (toLE 4) _).flatten = cnts
  have hcntsLen : cnts.length = 20 := by
    subst hcnts
    simp
  obtain ⟨m', hshow, htensors⟩ := hread.storePass hb houts hlen fun hne p hp => by rwa [if_neg hne]
  have hfinal := (hshow.foldl (f := fun s (p : UpdOut × Nat) =>
      (s.abutBump64 R.abutUpdElemsLo (u.wAddr + u.wWidth * p.2)).abutBump R.abutUpdNf (u.wAddr + u.wWidth * p.2)
        (b2n p.1.nf)) outs.zipIdx fun t p ht =>
      (ht.bump64 (by unfold abutReg; decide) _ _).bump (by unfold abutReg; decide) _ _).putSeen
    (a := a + 0x80) (bs := u.tail pass step outs) ((within_of_mem hrecord).mono (Nat.le_refl _) (by rw [length_tail]; omega))
    |>.putSeen (a := a + 0x98) (bs := cnts) ((within_of_mem hrecord).mono (by omega) (by rw [hcntsLen]))
  refine ⟨_, _, rfl, hfinal.frame, hfinal.good, fun k n hk => ?_, fun hne hapart p hp k n hk => ?_, hfinal.host⟩
  · refine (congrArg Prod.fst (hfinal.seen _ _)).trans ?_
    dsimp only
    rw [bytesAt_patch_apart _ (by omega), bytesAt_patch_within _ _ (by rwa [length_tail])]
  · refine (congrArg Prod.fst (hfinal.seen _ _)).trans ?_
    dsimp only
    have hrec := hapart
    rw [outputs_eq u a hlen, apart, List.pairwise_cons] at hrec
    have hrec := hrec.1 (p.1, p.2.length) (List.mem_append_left _ (List.mem_map.mpr ⟨p, hp, rfl⟩))
    dsimp only at hrec
    rw [bytesAt_patch_apart _ (by omega), bytesAt_patch_apart _ (by rw [length_tail]; omega)]
    exact htensors hne hapart p hp k n hk

end Sys2Proof.Machine
end

section
/-! UPDATE from its dispatch on, with every Abutment at work and memory good (R216-R224). -/

namespace Sys2Proof.Machine

section
variable {l : Live} {s : State}

/-- The checks of UPDATE at dispatch, in their order (R219), over good memory and Abutments at work. -/
theorem startUpdate_eq (h : s.Still) (hphase : l.phase = .start) :
    startUpdate l s =
      (let a := opd l.desc 0x20 8
       let step := opd l.desc 0x28 4
       let pass := opBits l.desc 0x2C 1 1 0
       let u := parseUpd (s.rd a 256)
       if u.formatBad pass then s.endWith l 0x70
       else if u.boundsBad a pass then s.endWith l 0x23
       else if pass = 2 ∧ u.amaxStep ≠ step then s.endWith l 0x23
       else if u.nonfinite pass then s.endWith l 0x10
       else if u.gSrc != 2 || !s.freePiers.isEmpty then s.updGo l u a pass step
       else s.updHold l a (s.rd a 256)) := by
  have hclean (a n : Nat) : s.poisoned a n = false := State.poisoned_good h.good a n
  have hgone (u : UpdRec) : (u.ranges.any fun r => s.abutsGone r.1 r.2) = false :=
    List.any_eq_false.mpr fun r _ => by rw [(State.abuts_work h.work r.1 r.2).2]; decide
  have hfree (u : UpdRec) : (u.ranges.all fun r => s.abutsFree r.1 r.2) = true :=
    List.all_eq_true.mpr fun r _ => (State.abuts_work h.work r.1 r.2).1
  unfold startUpdate
  rw [hphase]
  simp only [hclean, hgone, hfree, Bool.and_false, Bool.or_false, Bool.true_and, if_neg Bool.false_ne_true]
  rfl

end

/-! ### What is to be seen of a pass -/

section
variable {o v : State} {u : UpdRec} {a pass step : Nat} {outs : List UpdOut}

theorem tail_step (u : UpdRec) (pass step : Nat) (outs : List UpdOut) :
    ((u.tail pass step outs).drop 16).take 4 = toLE 4 (if pass = 1 then step else u.amaxStep) := by
  unfold UpdRec.tail recordTail
  dsimp only
  rw [List.drop_left' (by simp), List.take_of_length_le (by simp)]

theorem State.Updated.step_seen (h : o.Updated v u a pass step outs) (hstep : step < 2 ^ 32) (hold : u.amaxStep < 2 ^ 32) :
    leNat (v.seen (a + 0x90) 4).1 = if pass = 1 then step else u.amaxStep := by
  have hseen := h.tail 16 4 (by omega)
  rw [tail_step] at hseen
  rw [hseen, leNat_toLE]
  exact Nat.mod_eq_of_lt (by split <;> assumption)

theorem State.Updated.element (h : o.Updated v u a pass step outs) (hpass : pass ≠ 1) (hapart : apart (u.outputs a))
    {b w : Nat} {f : UpdOut → Nat} (hrun : (b, flatWords w (outs.map f)) ∈ tensorRuns u outs) {j : Nat}
    (hj : j < outs.length) : (v.seen (b + w * j) w).1 = toLE w (f outs[j]) := by
  have hj' : j < (outs.map f).length := by rwa [List.length_map]
  rw [h.tensors hpass hapart _ hrun (w * j) w (by rw [length_flatWords]; exact mul_add_le_of_lt hj'),
    element_flatWords w hj', List.getElem_map]

/-- The weights and moments of each element are to be seen (R222). -/
theorem State.Updated.elements (h : o.Updated v u a pass step outs) (hpass : pass ≠ 1) (hapart : apart (u.outputs a))
    {j : Nat} (hj : j < outs.length) :
    (v.seen (u.wAddr + u.wWidth * j) u.wWidth).1 = toLE u.wWidth outs[j].w.1 ∧
    (u.wFmt = 0 → (v.seen (u.wLo + 2 * j) 2).1 = toLE 2 outs[j].wLo.1) ∧
    (u.usesM = true → (v.seen (u.mAddr + fmtBytes u.mFmt * j) (fmtBytes u.mFmt)).1 =
      toLE (fmtBytes u.mFmt) outs[j].m.1) ∧
    (u.usesV = true → (v.seen (u.vAddr + fmtBytes u.vFmt * j) (fmtBytes u.vFmt)).1 =
      toLE (fmtBytes u.vFmt) outs[j].v.1) := by
  refine ⟨h.element hpass hapart (f := (·.w.1)) ?_ hj, fun hc => h.element hpass hapart (f := (·.wLo.1)) ?_ hj,
    fun hc => h.element hpass hapart (f := (·.m.1)) ?_ hj, fun hc => h.element hpass hapart (f := (·.v.1)) ?_ hj⟩
  · simp [tensorRuns]
  · simp [tensorRuns, runIf, hc]
  · simp [tensorRuns, runIf, hc]
  · simp [tensorRuns, runIf, hc]

/-- Only the outputs of an UPDATE change (R214). -/
theorem State.Updated.outputs (h : o.Updated v u a pass step outs) (hlen : outs.length = u.length) {x : Nat}
    (hx : outside (u.outputs a) x) : v.mem.read x = o.mem.read x := by
  refine h.rest x ?_
  split
  · rw [outputs_eq u a hlen] at hx
    exact fun p hp => hx p (List.mem_cons.mpr (.inl (List.mem_singleton.mp hp)))
  · exact hx

/-- Pass 1 writes the engine's words of the record alone (R216). -/
theorem State.Updated.pass_one (h : o.Updated v u a pass step outs) (hpass : pass = 1) :
    o.memBut v (a + 0x80) 0x2C := fun x hx =>
  h.rest x fun p hp => by
    rw [if_pos hpass] at hp
    rw [List.mem_singleton.mp hp]
    exact hx

end

/-! ### A dense gradient -/

theorem State.updIn_congr {s t : State} (h : t.mem = s.mem) (u : UpdRec) (j : Nat) : t.updIn u j = s.updIn u j := by
  simp only [State.updIn, State.rdN_congr h]

theorem readIn_dense {s : State} (h : s.Still) {u : UpdRec} (hdense : u.gSrc ≠ 2) (j : Nat) :
    readIn s.mem.read u j = s.updIn u j := by
  simp only [readIn, State.updIn, h.rdN, beq_iff_eq, hdense, ne_eq, not_false_eq_true, if_true]

/-- The outputs of a pass with a dense gradient (R217). -/
theorem run_dense {s : State} (h : s.Still) {u : UpdRec} (hdense : u.gSrc ≠ 2) (pass seed step : Nat) :
    u.run s.mem.read pass seed step [] =
      (List.range u.length).map fun j => updElem u pass seed step (u.scaleM pass) (u.scaleV pass) (s.updIn u j) := by
  have hnone : ∀ x ∈ (List.range u.length).map (readIn s.mem.read u), x.terms = [] := by
    intro x hx
    obtain ⟨j, -, rfl⟩ := List.mem_map.mp hx
    rfl
  rw [UpdRec.run, withTerms_nil hnone, List.map_map]
  exact List.map_congr_left fun j _ => by rw [Function.comp, readIn_dense h hdense]

end Sys2Proof.Machine
end

section
/-! The spans of an UPDATE with a sparse gradient, all good (R155, R167, R218): each block is counted at the Pier that decoded
it, which reads a bad copy of its table again from the master. -/

namespace Sys2Proof.Machine

/-! ### What noting good blocks may change -/

/-- Only registers of the Piers, the table page and the top page, decoder copies and the free values drawn differ. -/
def State.noting (s t : State) : Prop :=
  t = { s with regs := t.regs, piers := t.piers, free := t.free } ∧ s.regsIn t expandPage

/-- A Pier may read its copy of a slot again: where that copy is bad the master is not. -/
def State.sound (s : State) (p n : Nat) : Prop :=
  ∀ c, (nth s.piers p [])[n]? = some c → c.bad = true → (s.tbl n).bad = false

theorem getElem?_modNth {α : Type} (f : α → α) (l : List α) (n k : Nat) :
    (modNth l n f)[k]? = if n = k then l[k]?.map f else l[k]? := by
  rw [modNth_eq_modify, List.getElem?_modify]
  split <;> simp

/-- Once a copy has been read again, every copy is the new one or as it was. -/
theorem copy_reloaded {piers : List (List TblSlot)} {p n p' n' : Nat} {t c : TblSlot}
    (h : (nth (modNth piers p fun l => modNth l n fun _ => t) p' [])[n']? = some c) :
    c = t ∨ (nth piers p' [])[n']? = some c := by
  rw [nth, getElem?_modNth] at h
  split at h
  · rw [nth]
    cases hl : piers[p']? with
    | none => rw [hl] at h; exact .inr h
    | some l =>
      rw [hl, Option.map_some, Option.getD_some, getElem?_modNth] at h
      split at h
      · obtain ⟨c', -, rfl⟩ := Option.map_eq_some_iff.mp h
        exact .inl rfl
      · exact .inr h
  · exact .inr h

section
variable {s t u : State}

theorem State.noting_refl (s : State) : s.noting s := ⟨rfl, fun _ _ => rfl⟩

theorem State.noting_trans (h : s.noting t) (h' : t.noting u) : s.noting u := by
  obtain ⟨ht, hr⟩ := h
  obtain ⟨hu, hr'⟩ := h'
  refine ⟨?_, State.regsIn_trans hr hr'⟩
  rw [hu, ht]

theorem State.noting_bump (s : State) {a : Nat} (h : expandPage (a / 4096) = true) (n : Nat) : s.noting (s.bump a n) := by
  obtain ⟨g, hg⟩ := s.bump_effect a n
  refine ⟨?_, State.regsIn_bump n h⟩
  rw [hg]

theorem State.noting_countUe (s : State) {p : Nat} (hp : p < 32) (g : Nat) : s.noting (s.countUe (.pier p) g) := by
  obtain ⟨r, hr⟩ := s.countUe_effect (.pier p) g
  refine ⟨?_, State.regsIn_of_regsBut (s.countUe_regsBut (.pier p) g) fun a ha => ?_⟩
  · rw [hr]
  · simp only [errRegs, List.mem_cons, List.not_mem_nil, or_false] at ha
    rcases ha with rfl | rfl | rfl | rfl <;> exact expandPage_pierReg hp (by decide)

/-- A Pier reads a bad copy again from a good master, and no other Pier's copy turns bad (R33, R155). -/
theorem State.noting_reload {p n : Nat} (hp : p < 32) (h : s.sound p n) :
    s.noting (s.reload p n) ∧ ∀ p' n', s.sound p' n' → (s.reload p n).sound p' n' := by
  unfold State.reload
  cases hc : (nth s.piers p [])[n]? with
  | none => exact ⟨s.noting_refl, fun _ _ h' => h'⟩
  | some c =>
    cases hbad : c.bad with
    | false =>
      dsimp only
      rw [hbad]
      exact ⟨s.noting_refl, fun _ _ h' => h'⟩
    | true =>
      have hmaster := h c hc hbad
      have hue := s.noting_countUe hp (10 * n)
      obtain ⟨r, hr⟩ := s.countUe_effect (.pier p) (10 * n)
      dsimp only
      rw [hbad, Bool.not_true, if_neg Bool.false_ne_true]
      rw [hr] at hue ⊢
      have htbl (k : Nat) : ({ s with regs := r } : State).tbl k = s.tbl k := rfl
      rw [htbl, hmaster, if_neg Bool.false_ne_true]
      refine ⟨State.noting_trans hue ⟨rfl, fun _ _ => rfl⟩, fun p' n' h' c' hc' hbad' => ?_⟩
      rcases copy_reloaded hc' with rfl | hold
      · exact absurd hbad' (by rw [hmaster]; decide)
      · exact h' c' hold hbad'

/-- A good block noted (R155, R167). -/
theorem State.noting_noteBlock {p : Nat} (hp : p < 32) (op : Nat) (d : SpanData) {b : ReadBlock}
    (hok : ∃ es, b.res = .ok es) (h : b.hdr.btype = 1 → s.sound p b.hdr.slot) :
    s.noting (s.noteBlock op d p b) ∧ ∀ p' n', s.sound p' n' → (s.noteBlock op d p b).sound p' n' := by
  obtain ⟨es, hes⟩ := hok
  unfold State.noteBlock State.countDecode
  rw [hes]
  dsimp only
  have hload : s.noting (if b.hdr.btype = 1 then s.reload p b.hdr.slot else s) ∧
      ∀ p' n', s.sound p' n' → (if b.hdr.btype = 1 then s.reload p b.hdr.slot else s).sound p' n' := by
    split
    · next hcoded => exact State.noting_reload hp (h hcoded)
    · exact ⟨s.noting_refl, fun _ _ h' => h'⟩
  generalize (if b.hdr.btype = 1 then s.reload p b.hdr.slot else s) = v at hload
  obtain ⟨hnote, hsound⟩ := hload
  have hbump := v.noting_bump (a := R.pierDecBlocks p) (expandPage_pierReg hp (by decide)) 1
  refine ⟨State.noting_trans hnote hbump, fun p' n' h' c hc hbad => ?_⟩
  rw [State.bump_piers] at hc
  rw [State.tbl, State.bump_q]
  exact hsound p' n' h' c hc hbad

/-- A block that a Pier has read well. -/
def State.readWell (s : State) (x : SpanData × ReadBlock × Nat) : Prop :=
  x.2.2 < 32 ∧ (∃ es, x.2.1.res = .ok es) ∧ (x.2.1.hdr.btype = 1 → s.sound x.2.2 x.2.1.hdr.slot)

theorem State.noting_notes (op : Nat) {l : List (SpanData × ReadBlock × Nat)} (h : ∀ x ∈ l, s.readWell x) :
    s.noting (l.foldl (fun (s : State) x => s.noteBlock op x.1 x.2.2 x.2.1) s) := by
  induction l generalizing s with
  | nil => exact s.noting_refl
  | cons x l ih =>
    obtain ⟨⟨hp, hok, hsound⟩, hrest⟩ := List.forall_mem_cons.mp h
    obtain ⟨hnote, hkeeps⟩ := State.noting_noteBlock hp op x.1 hok hsound
    refine State.noting_trans hnote (ih fun y hy => ?_)
    obtain ⟨hp', hok', hsound'⟩ := hrest y hy
    exact ⟨hp', hok', fun hcoded => hkeeps _ _ (hsound' hcoded)⟩

end

/-! ### Blocks read well -/

/-- A slot that a Pier's decoders find loaded and good lets the Pier read its copy again (R155). -/
theorem State.sound_of_pierTables {s : State} {p n : Nat}
    (hloaded : (nth (s.pierTables p) n ⟨.free, 0, 0, 0, 0, [], [], false⟩).state ≠ .free)
    (hgood : (nth (s.pierTables p) n ⟨.free, 0, 0, 0, 0, [], [], false⟩).bad = false) : s.sound p n := by
  intro c hc hbad
  unfold State.pierTables at hloaded hgood
  rw [nth, List.getElem?_map, List.getElem?_zipIdx] at hloaded hgood
  cases ht : s.q.tables[n]? with
  | none =>
    rw [ht] at hloaded
    exact absurd rfl hloaded
  | some m =>
    rw [ht] at hgood
    simp only [Option.map_some, Option.getD_some, Nat.zero_add, hc, hbad, Bool.true_or, if_true] at hgood
    rw [State.tbl, nth, ht]
    exact hgood

/-- A check that a result passes. -/
theorem passes {c : Prop} [Decidable c] {ε α : Type} {e : ε} {x : Except ε α} {y : α}
    (h : (if c then .error e else x) = .ok y) : ¬ c ∧ x = .ok y := by
  split at h
  · cases h
  · next hc => exact ⟨hc, h⟩

/-- A coded block that passes its checks was decoded with a loaded, good table (R137, R155). -/
theorem checkBlock_table {a : Accept} {h : SpanHdr} {d : SpanData} {k off : Nat} {es : List (Nat × Nat)}
    (hok : (checkBlock a h d k off).res = .ok es) (hcoded : (checkBlock a h d k off).hdr.btype = 1) :
    let t := nth (nth a.picks k []) (checkBlock a h d k off).hdr.slot ⟨.free, 0, 0, 0, 0, [], [], false⟩
    t.state ≠ .free ∧ t.bad = false := by
  unfold checkBlock at hok hcoded ⊢
  dsimp only at hok hcoded ⊢
  obtain ⟨-, hok⟩ := passes hok
  obtain ⟨-, hok⟩ := passes hok
  obtain ⟨-, hok⟩ := passes hok
  obtain ⟨-, hok⟩ := passes hok
  obtain ⟨-, hok⟩ := passes hok
  obtain ⟨-, hok⟩ := passes hok
  obtain ⟨hstale, hok⟩ := passes hok
  obtain ⟨-, hok⟩ := passes hok
  obtain ⟨hbad, -⟩ := passes hok
  exact ⟨fun hfree => hstale ⟨hcoded, .inl hfree⟩, Bool.eq_false_iff.mpr fun ht => hbad ⟨hcoded, ht⟩⟩

theorem walkBlocks_mem (a : Accept) (h : SpanHdr) (d : SpanData) (n k off : Nat) {i : Nat} {b : ReadBlock}
    (hb : (walkBlocks a h d n k off)[i]? = some b) : ∃ off', b = checkBlock a h d (k + i) off' := by
  induction n generalizing k off i with
  | zero => simp [walkBlocks] at hb
  | succ n ih =>
    unfold walkBlocks at hb
    dsimp only at hb
    cases i with
    | zero =>
      refine ⟨off, ?_⟩
      split at hb <;> exact (Option.some_inj.mp hb).symm
    | succ i =>
      split at hb
      · rw [show k + (i + 1) = k + 1 + i by omega]
        exact ih _ _ hb
      · cases hb

theorem State.takePiers_spec (n : Nat) (s : State) :
    (∀ p ∈ (State.takePiers n s).1, p < 32) ∧ ∃ f, (State.takePiers n s).2 = { s with free := f } := by
  induction n generalizing s with
  | zero => exact ⟨fun p hp => absurd hp List.not_mem_nil, s.free, rfl⟩
  | succ n ih =>
    obtain ⟨hlt, f, hf⟩ := ih s.takePier.2
    exact ⟨List.forall_mem_cons.mpr ⟨s.takePier_lt, hlt⟩, f, hf⟩

/-- The tables that the decoders of the i-th Pier picked read (R73, R155). -/
theorem State.pick_tables (s : State) (d : SpanData) {i : Nat} (hi : i < (State.takePiers d.blocks s).1.length) :
    nth (s.pickPiers 2 d).1.picks i [] = s.pierTables (State.takePiers d.blocks s).1[i] := by
  obtain ⟨-, f, hf⟩ := State.takePiers_spec d.blocks s
  have hsame : (State.takePiers d.blocks s).2.pierTables = s.pierTables := by rw [hf]; rfl
  change nth ((State.takePiers d.blocks s).1.map (State.takePiers d.blocks s).2.pierTables) i [] = _
  rw [hsame, nth, List.getElem?_map, List.getElem?_eq_getElem hi]
  rfl

/-- Good blocks of one span, each by a Pier of its own (R73, R155). -/
theorem State.readWell_blocks (s : State) (d : SpanData) {x : ReadBlock × Nat}
    (hx : x ∈ (readBlocks (s.pickPiers 2 d).1 d).zip (s.pickPiers 2 d).2.1) (hok : ∃ es, x.1.res = .ok es) :
    s.readWell (d, x) := by
  obtain ⟨es, hes⟩ := hok
  obtain ⟨hlt, -⟩ := State.takePiers_spec d.blocks s
  obtain ⟨i, hi, hxi⟩ := List.mem_iff_getElem.mp hx
  rw [List.getElem_zip] at hxi
  rw [List.length_zip, Nat.lt_min] at hi
  obtain ⟨hb, hp⟩ := hi
  obtain ⟨off, hoff⟩ := walkBlocks_mem _ _ _ _ _ _ (List.getElem?_eq_getElem hb)
  rw [Nat.zero_add] at hoff
  obtain ⟨b, p⟩ := x
  obtain ⟨rfl, rfl⟩ := Prod.mk.inj hxi
  refine ⟨hlt _ (List.getElem_mem hp), ⟨es, hes⟩, fun hcoded => ?_⟩
  have hpick := s.pick_tables d hp
  dsimp only at hes hcoded ⊢
  rw [hoff] at hes hcoded ⊢
  obtain ⟨hloaded, hgood⟩ := checkBlock_table hes hcoded
  rw [hpick] at hloaded hgood
  exact State.sound_of_pierTables hloaded hgood

/-- The spans of a step change nothing when they are read, and their good blocks are read well. -/
theorem State.readSpans_spec (l : List SpanData) (s : State) :
    (∃ f, (State.readSpans l s).2 = { s with free := f }) ∧
    ∀ r ∈ (State.readSpans l s).1, ∀ x ∈ r.blocks, (∃ es, x.1.res = .ok es) → s.readWell (r.span, x) := by
  induction l generalizing s with
  | nil => exact ⟨⟨s.free, rfl⟩, fun r hr => absurd hr List.not_mem_nil⟩
  | cons d l ih =>
    obtain ⟨-, f, hf⟩ := State.takePiers_spec d.blocks s
    have hpick : (s.pickPiers 2 d).2.2 = { s with free := f } := hf
    obtain ⟨⟨g, hg⟩, hwell⟩ := ih (s.pickPiers 2 d).2.2
    rw [hpick] at hg hwell
    unfold State.readSpans
    dsimp only
    rw [hpick, hg]
    refine ⟨⟨g, rfl⟩, List.forall_mem_cons.mpr ⟨fun x hx hok => s.readWell_blocks d hx hok, hwell⟩⟩

theorem uptoReject_good {l : List (SpanData × ReadBlock × Nat)} (h : rejectOf (uptoReject l) = none) :
    ∀ x ∈ uptoReject l, x ∈ l ∧ ∃ es, x.2.1.res = .ok es := by
  intro x hx
  refine ⟨?_, ?_⟩
  · clear h
    induction l with
    | nil => exact hx
    | cons y l ih =>
      unfold uptoReject at hx
      split at hx
      · exact List.mem_cons.mpr ((List.mem_cons.mp hx).imp_right ih)
      · exact List.mem_cons.mpr ((List.mem_cons.mp hx).imp_right fun h => absurd h List.not_mem_nil)
  · have hnone := List.findSome?_eq_none_iff.mp h x hx
    cases hres : x.2.1.res with
    | ok es => exact ⟨es, rfl⟩
    | error st => rw [hres] at hnone; cases hnone

theorem gradTerms_good (u : UpdRec) (rs : List ReadSpan) : ∀ t ∈ gradTerms u rs, t.poison = false := by
  intro t ht
  unfold gradTerms at ht
  dsimp only at ht
  rw [(sortAsc_perm _ 40 _).mem_iff] at ht
  obtain ⟨ts, hts, ht⟩ := List.mem_flatten.mp ht
  obtain ⟨p, -, rfl⟩ := List.mem_map.mp hts
  obtain ⟨ts, hts, ht⟩ := List.mem_flatten.mp ht
  obtain ⟨b, -, rfl⟩ := List.mem_map.mp hts
  split at ht
  · obtain ⟨e, -, he⟩ := List.mem_filterMap.mp ht
    split at he
    · rw [← Option.some_inj.mp he]
    · cases he
  · cases ht

end Sys2Proof.Machine
end

section
/-! The computations of the Abutments (R207-R224): the obligation. -/

namespace Sys2Proof.Machine

/-! ### UPDATE -/

/-- The spans of the step that an UPDATE record names (R218). -/
def State.stepSpans (s : State) (u : UpdRec) : List SpanData :=
  ((List.range u.nSpans).map fun i => s.rdN (u.gAddr + 8 * i) 8).map s.hostSpan

/-- Their blocks in order, each with the Pier that decodes it. -/
def State.stepBlocks (s : State) (u : UpdRec) : List (SpanData × ReadBlock × Nat) :=
  ((State.readSpans (s.stepSpans u) s).1.map fun r => r.blocks.map fun k => (r.span, k.1, k.2)).flatten

/-- The spans of a sparse gradient pass orders 6 to 9 of R219, with a Pier that may read them. -/
def State.spansGood (s : State) (u : UpdRec) (step : Nat) : Prop :=
  u.gSrc = 2 → s.freePiers ≠ [] ∧ spanFail (s.accept 2) u step (s.stepSpans u) = none ∧
    rejectOf (uptoReject (s.stepBlocks u)) = none

section
variable {s : State} {l : Live}

/-- The spans of a step, all good, are noted. -/
theorem State.noting_step {u : UpdRec} (hgood : rejectOf (uptoReject (s.stepBlocks u)) = none) (op : Nat) :
    s.noting ((uptoReject (s.stepBlocks u)).foldl (fun (s : State) x => s.noteBlock op x.1 x.2.2 x.2.1)
      (State.readSpans (s.stepSpans u) s).2) := by
  obtain ⟨⟨f, hf⟩, hwell⟩ := State.readSpans_spec (s.stepSpans u) s
  have hfree : s.noting (State.readSpans (s.stepSpans u) s).2 := by
    rw [hf]
    exact ⟨rfl, fun _ _ => rfl⟩
  refine State.noting_trans hfree (State.noting_notes op fun x hx => ?_)
  obtain ⟨hmem, hok⟩ := uptoReject_good hgood x hx
  obtain ⟨bs, hbs, hx⟩ := List.mem_flatten.mp hmem
  obtain ⟨r, hr, rfl⟩ := List.mem_map.mp hbs
  obtain ⟨k, hk, rfl⟩ := List.mem_map.mp hx
  rw [hf]
  exact hwell r hr k hk hok

/-- A pass of an UPDATE that may run (R218-R224): its spans are noted, then its elements are updated. -/
theorem State.Still.updGo_runs (h : s.Still) (l : Live) {u : UpdRec} {a pass step : Nat} (hb : u.boundsBad a pass = false)
    (hgood : s.spansGood u step) :
    ∃ o v nf terms, s.updGo l u a pass step = v.finish l ⟨0, 0, 0, nf⟩ ∧
      o.Updated v u a pass step (u.run s.mem.read pass l.seed.toNat step terms) ∧ s.noting o ∧
      (u.gSrc ≠ 2 → o = s ∧ terms = []) := by
  unfold State.updGo
  split
  · next hsparse =>
    obtain ⟨-, hfail, hreject⟩ := hgood hsparse
    have hnote := State.noting_step hreject l.op
    unfold State.stepBlocks at hnote hreject
    unfold State.stepSpans at hnote hreject hfail
    dsimp only
    rw [hfail]
    dsimp only
    rw [hreject]
    dsimp only
    generalize List.foldl _ _ _ = o at hnote ⊢
    have hmem : o.mem = s.mem := by rw [hnote.1]
    have hcross : o.upsets.isEmpty = true := by rw [hnote.1]; exact h.upsets ▸ rfl
    unfold State.crossTerms
    rw [hcross, if_pos rfl]
    dsimp only
    obtain ⟨v, nf, hrun, hdone⟩ := State.updRun_runs (o := o) (hmem ▸ h.wf) (by rw [hnote.1]; exact h.good)
      (by rw [hnote.1]; exact h.lines) l step _ hb (gradTerms_good u _)
    exact ⟨o, v, nf, _, hrun, hmem ▸ hdone, hnote, fun hdense => absurd hsparse hdense⟩
  · obtain ⟨v, nf, hrun, hdone⟩ := State.updRun_runs h.wf h.good h.lines l (u := u) step 0 hb
      (fun _ ht => absurd ht List.not_mem_nil)
    exact ⟨s, v, nf, [], hrun, hdone, s.noting_refl, fun _ => ⟨rfl, rfl⟩⟩

/-- The record of an UPDATE over good memory. -/
def State.updRec (s : State) (d : Desc) : UpdRec := parseUpd (s.rd (opd d 0x20 8) 256)

theorem startUpdate_format (h : s.Still) (hphase : l.phase = .start)
    (hf : (s.updRec l.desc).formatBad (opBits l.desc 0x2C 1 1 0) = true) : startUpdate l s = s.endWith l 0x70 := by
  rw [startUpdate_eq h hphase]
  exact if_pos hf

theorem startUpdate_bounds (h : s.Still) (hphase : l.phase = .start)
    (hf : (s.updRec l.desc).formatBad (opBits l.desc 0x2C 1 1 0) = false)
    (hb : (s.updRec l.desc).boundsBad (opd l.desc 0x20 8) (opBits l.desc 0x2C 1 1 0) = true ∨
      ¬ (opBits l.desc 0x2C 1 1 0 = 2 → (s.updRec l.desc).amaxStep = opd l.desc 0x28 4)) :
    startUpdate l s = s.endWith l 0x23 := by
  rw [startUpdate_eq h hphase]
  refine (if_neg (Bool.eq_false_iff.mp hf)).trans ?_
  rcases hb with hb | hb
  · exact if_pos hb
  · split
    · rfl
    · exact if_pos (Classical.not_imp.mp hb)

/-- The checks before order 4 passed (R219). -/
theorem startUpdate_placed (h : s.Still) (hphase : l.phase = .start)
    (hf : (s.updRec l.desc).formatBad (opBits l.desc 0x2C 1 1 0) = false)
    (hb : (s.updRec l.desc).boundsBad (opd l.desc 0x20 8) (opBits l.desc 0x2C 1 1 0) = false)
    (ho : opBits l.desc 0x2C 1 1 0 = 2 → (s.updRec l.desc).amaxStep = opd l.desc 0x28 4) :
    startUpdate l s =
      if (s.updRec l.desc).nonfinite (opBits l.desc 0x2C 1 1 0) then s.endWith l 0x10
      else if (s.updRec l.desc).gSrc != 2 || !s.freePiers.isEmpty then
        s.updGo l (s.updRec l.desc) (opd l.desc 0x20 8) (opBits l.desc 0x2C 1 1 0) (opd l.desc 0x28 4)
      else s.updHold l (opd l.desc 0x20 8) (s.rd (opd l.desc 0x20 8) 256) := by
  rw [startUpdate_eq h hphase]
  exact (if_neg (Bool.eq_false_iff.mp hf)).trans ((if_neg (Bool.eq_false_iff.mp hb)).trans
    (if_neg fun hne => hne.2 (ho hne.1)))

theorem startUpdate_goes (h : s.Still) (hphase : l.phase = .start)
    (hf : (s.updRec l.desc).formatBad (opBits l.desc 0x2C 1 1 0) = false)
    (hb : (s.updRec l.desc).boundsBad (opd l.desc 0x20 8) (opBits l.desc 0x2C 1 1 0) = false)
    (ho : opBits l.desc 0x2C 1 1 0 = 2 → (s.updRec l.desc).amaxStep = opd l.desc 0x28 4)
    (hn : (s.updRec l.desc).nonfinite (opBits l.desc 0x2C 1 1 0) = false)
    (hgood : s.spansGood (s.updRec l.desc) (opd l.desc 0x28 4)) :
    startUpdate l s =
      s.updGo l (s.updRec l.desc) (opd l.desc 0x20 8) (opBits l.desc 0x2C 1 1 0) (opd l.desc 0x28 4) := by
  rw [startUpdate_placed h hphase hf hb ho, if_neg (Bool.eq_false_iff.mp hn)]
  refine if_pos ?_
  by_cases hsparse : (s.updRec l.desc).gSrc = 2
  · have hfree : s.freePiers.isEmpty = false := List.isEmpty_eq_false_iff.mpr (hgood hsparse).1
    rw [hfree, Bool.not_false, Bool.or_true]
  · rw [bne_iff_ne.mpr hsparse, Bool.true_or]

end

section
variable {s o v : State} {u : UpdRec} {a pass step : Nat} {outs : List UpdOut}

theorem State.Updated.computes (h : o.Updated v u a pass step outs) (hnote : s.noting o) : s.computes v := by
  obtain ⟨hframe, -⟩ := h.frame
  obtain ⟨ho, -⟩ := hnote
  have hup : v.upsets = s.upsets := by rw [hframe, ho]
  refine ⟨?_, fun x hx => hup ▸ hx⟩
  rw [hframe, ho]

/-- The pages whose registers an UPDATE changes: those of Abutments, and with spans those of Piers and the table page. -/
theorem State.Updated.pages (h : o.Updated v u a pass step outs) (hnote : s.noting o) (hdense : u.gSrc ≠ 2 → o = s) :
    s.regsIn v fun n => abutPage n || u.gSrc == 2 && (pierPage n || n == 5 || n == 0) := by
  intro b hb
  rw [Bool.or_eq_false_iff] at hb
  obtain ⟨habut, hpier⟩ := hb
  refine (h.frame.2 b habut).trans ?_
  by_cases hsparse : u.gSrc = 2
  · rw [beq_iff_eq.mpr hsparse, Bool.true_and] at hpier
    exact hnote.2 b hpier
  · rw [hdense hsparse]

end

end Sys2Proof.Machine
end

section
/-! What the operations of the Abutments leave, from dispatch on (R207-R224). -/

namespace Sys2Proof.Machine

section
variable {s : State} {d : Desc}

theorem State.Still.of_calm (hcalm : s.calm = true) (hwf : s.mem.wf = true)
    (hfree : ∀ n, n < 8 → s.abutFree n = true) (hgone : ∀ n, n < 8 → s.abutGone n = false) : s.Still := by
  simp only [State.calm, Bool.and_eq_true, List.isEmpty_iff] at hcalm
  obtain ⟨⟨hgood, hlines⟩, hup⟩ := hcalm
  exact ⟨hwf, hgood, hlines, hup, fun k hk => ⟨hfree k hk, hgone k hk⟩⟩

/-- ATOMIC_MAX leaves in every cell the larger of cell and operand (R207). -/
theorem atomicMax_runs (h : s.Still) (hgo : s.goes 0x16 d = true) (hloc : opBit d 0x35 7 = false)
    (hplaced : maxBad d = false) :
    let n := opBits d 0x36 2 12 0
    let cell (j : Nat) := maxCell (s.rdN (opd d 0x28 8 + 4 * j) 4)
      (if opBit d 0x38 0 then opd d 0x20 4 else s.rdN (opd d 0x20 8 + 4 * j) 4)
    ∃ (v : State) (nf : Option Nat), exec (.atomicMax d) s = .next (v.finish (s.begun 0x16 d).1 ⟨0, n, 0, nf⟩) ∧
      (s.begun 0x16 d).2.computes v ∧ (s.begun 0x16 d).2.regsIn v abutPage ∧ v.memPoison = [] ∧
      (∀ j, j < n → leNat (v.seen (opd d 0x28 8 + 4 * j) 4).1 = (cell j).1) ∧
      (nf = none ↔ ∀ j, j < n → (cell j).2.2 = false) ∧ s.memBut v (opd d 0x28 8) (4 * n) := by
  intro n cell
  obtain ⟨v, nf, hexec, hw, hnf⟩ := atomicMax_writes h hgo hloc hplaced
  have hlen := (State.maxOperands_good (h.begun 0x16 d).good hplaced).1
  refine ⟨v, nf, hexec, hw.computes, hw.regs, hw.good, fun j hj => ?_, hnf.trans (forall₂_congr fun j hj => ?_), ?_⟩
  · rw [hw.cell (hlen.symm ▸ hj), maxAt_begun h hplaced rfl hj]
  · rw [maxAt_begun h hplaced rfl hj]
  · have hrest := hw.rest_begun
    rwa [length_flatWords, length_maxRun, hlen] at hrest

/-- RESCALE leaves the packed codes of its inputs (R210). -/
theorem rescale_runs (h : s.Still) (hgo : s.goes 0x20 d = true) (hfunc : opBits d 0x3F 1 7 6 = 0) {src dst sin sout n out : Nat}
    (hsrc : opd d 0x20 8 = src) (hdst : opd d 0x28 8 = dst) (hsin : opd d 0x30 4 = sin) (hsout : opd d 0x34 4 = sout)
    (hn : opd d 0x38 5 = n) (hout : opBits d 0x3D 1 7 4 = out) (hfmt : out ∈ [1, 2, 6, 8])
    (hplaced : src % 64 = 0 ∧ dst % 64 = 0 ∧ n ≠ 0)
    (hfin : scaleBad sin = false ∧ (out < 6 → scaleBad sout = false)) :
    let w := (VFmt.ofCode out).width
    ∃ v : State, exec (.rescale d) s = .next (v.finish (s.begun 0x20 d).1 ⟨0, 0, 0, none⟩) ∧
      (s.begun 0x20 d).2.computes v ∧ (s.begun 0x20 d).2.regsIn v abutPage ∧ v.memPoison = [] ∧
      (v.seen dst (ceilDiv (n * w) 8)).1 = packCodes w
        ((List.range n).map fun j => (rescaleOut out sin sout (int32Of (s.rdN (src + 4 * j) 4))).1) ∧
      s.memBut v dst (ceilDiv (n * w) 8) := by
  intro w
  have hdesc := (s.begun_memory 0x20 d).1
  obtain ⟨v, hrun, hw⟩ := startRescale_runs (h.begun 0x20 d) (l := (s.begun 0x20 d).1) (hdesc.symm ▸ hsrc)
    (hdesc.symm ▸ hdst) (hdesc.symm ▸ hsin) (hdesc.symm ▸ hsout) (hdesc.symm ▸ hn) (hdesc.symm ▸ hout) rfl hfmt hplaced hfin
  have hseen := hw.seen
  have hrest := hw.rest_begun
  rw [packCodes_length, rescaleRun_begun h, List.length_map, List.length_range] at hseen hrest
  exact ⟨v, (rescale_starts hgo hfunc).trans (congrArg Host.Outcome.next hrun), hw.computes, hw.regs, hw.good, hseen, hrest⟩

/-- DOT leaves its record (R211-R213). -/
theorem dot_runs (h : s.Still) (hgo : s.goes 0x20 d = true) (hfunc : opBits d 0x3F 1 7 6 = 1) (hf : dotFormats d)
    (hp : dotPlaced d) :
    let fa := opBits d 0x3E 1 7 4
    let fb := opBits d 0x3E 1 3 0
    let ints := dotInt fa && dotInt fb
    let wa := (VFmt.ofCode fa).width / 8
    let wb := (VFmt.ofCode fb).width / 8
    ∃ (v : State) (nf : Option Nat), exec (.dot d) s = .next (v.finish (s.begun 0x20 d).1 ⟨0, 0, 0, nf⟩) ∧
      (s.begun 0x20 d).2.computes v ∧ (s.begun 0x20 d).2.regsIn v abutPage ∧ v.memPoison = [] ∧
      s.memBut v (opd d 0x30 8) 64 ∧
      (v.seen (opd d 0x30 8) 64).1 = dotRecord
        (dotSums ints (opBits d 0x3F 1 3 3) fa fb (if fa = 10 then opd d 0x3C 1 else 0)
          (if fb = 10 then opd d 0x3D 1 else 0)
          ((List.range (opd d 0x38 4)).map fun j =>
            (s.rdN (opd d 0x20 8 + wa * j) wa, s.rdN (opd d 0x28 8 + wb * j) wb))) (opd d 0x38 4) ints nf := by
  intro fa fb ints wa wb
  have hdesc := (s.begun_memory 0x20 d).1
  obtain ⟨v, nf, hrun, hw⟩ := startDot_runs (h.begun 0x20 d) (l := (s.begun 0x20 d).1) (hdesc.symm ▸ hf) (hdesc.symm ▸ hp)
  rw [hdesc] at hw
  have hlen : (dotRun (s.begun 0x20 d).2.mem.read d nf).length = 64 := length_dotRecord _ _ _ _
  have hseen := hw.seen
  have hrest := hw.rest_begun
  rw [hlen] at hseen hrest
  rw [dotRun_begun h] at hseen
  exact ⟨v, nf, (dot_starts hgo hfunc).trans (congrArg Host.Outcome.next hrun), hw.computes, hw.regs, hw.good, hrest, hseen⟩

/-- UPDATE leaves its record and, on a pass that stores, the weights and moments of each element (R215-R224). -/
theorem update_runs (h : s.Still) (hgo : s.goes 0x21 d = true) {a step pass : Nat} {u : UpdRec} (ha : opd d 0x20 8 = a)
    (hstep : opd d 0x28 4 = step) (hpass : opBits d 0x2C 1 1 0 = pass) (hu : s.updRec d = u)
    (hf : u.formatBad pass = false) (hb : u.boundsBad a pass = false) (ho : pass = 2 → u.amaxStep = step)
    (hn : u.nonfinite pass = false) (hgood : (s.begun 0x21 d).2.spansGood u step) :
    let l := (s.begun 0x21 d).1
    let out (j : Nat) := updElem u pass l.seed.toNat step (u.scaleM pass) (u.scaleV pass) (s.updIn u j)
    let amax (f : UpdOut → FV) := amaxOf ((List.range u.length).map fun j => f (out j))
    ∃ (v : State) (st : Nat) (nf : Option Nat), exec (.update d) s = .next (v.finish l ⟨st, 0, 0, nf⟩) ∧
      (s.begun 0x21 d).2.computes v ∧
      (s.begun 0x21 d).2.regsIn v (fun n => abutPage n || u.gSrc == 2 && (pierPage n || n == 5 || n == 0)) ∧
      (u.gSrc ≠ 2 → st = 0 ∧ v.memPoison = []) ∧
      leNat (v.seen (a + 0x90) 4).1 = (if pass = 1 then step else u.amaxStep) ∧
      (∀ x, outside (u.outputs a) x → v.mem.read x = s.mem.read x) ∧
      (pass = 1 → s.memBut v (a + 0x80) 0x2C) ∧
      (u.gSrc ≠ 2 → (v.seen (a + 0x80) 20).1 =
        recordTail u pass step (u.scaleM pass) (u.scaleV pass) (amax (·.mAbs)) (amax (·.vAbs))) ∧
      (u.gSrc ≠ 2 → pass ≠ 1 → apart (u.outputs a) → ∀ j, j < u.length →
        (v.seen (u.wAddr + u.wWidth * j) u.wWidth).1 = toLE u.wWidth (out j).w.1 ∧
        (u.wFmt = 0 → (v.seen (u.wLo + 2 * j) 2).1 = toLE 2 (out j).wLo.1) ∧
        (u.usesM = true → (v.seen (u.mAddr + fmtBytes u.mFmt * j) (fmtBytes u.mFmt)).1 =
          toLE (fmtBytes u.mFmt) (out j).m.1) ∧
        (u.usesV = true → (v.seen (u.vAddr + fmtBytes u.vFmt * j) (fmtBytes u.vFmt)).1 =
          toLE (fmtBytes u.vFmt) (out j).v.1)) := by
  intro l out amax
  obtain ⟨-, -, hdesc, -, hphase, -⟩ := s.begun_leaves 0x21 d
  have hmem := s.begun_mem 0x21 d
  have hstill := h.begun 0x21 d
  have hrec : (s.begun 0x21 d).2.updRec d = u := by rw [← hu, State.updRec, State.updRec, State.rd, State.rd, hmem]
  have hgoes := startUpdate_goes (l := l) hstill hphase
  rw [hdesc, hrec, ha, hstep, hpass] at hgoes
  obtain ⟨o, v, nf, terms, hrun, hdone, hnote, hdense⟩ := hstill.updGo_runs l hb hgood
  have hlen := run_length u (s.begun 0x21 d).2.mem.read pass l.seed.toNat step terms
  have hsame : o.mem = s.mem := by rw [hnote.1]; exact hmem
  have hexec : exec (.update d) s = .next (v.finish l ⟨0, 0, 0, nf⟩) :=
    (exec_goes rfl hgo).trans (congrArg Host.Outcome.next ((hgoes hf hb ho hn hgood).trans hrun))
  have houts (hne : u.gSrc ≠ 2) : u.run (s.begun 0x21 d).2.mem.read pass l.seed.toNat step terms =
      (List.range u.length).map out := by
    rw [(hdense hne).2, run_dense hstill hne]
    exact List.map_congr_left fun j _ =>
      congrArg (updElem u pass l.seed.toNat step (u.scaleM pass) (u.scaleV pass)) (State.updIn_congr hmem u j)
  have hamax : u.amaxStep < 2 ^ 32 := hu ▸ leAt_lt _ _ _
  refine ⟨v, 0, nf, hexec, hdone.computes hnote, hdone.pages hnote fun hne => (hdense hne).1,
    fun _ => ⟨rfl, hdone.good⟩, hdone.step_seen (hstep ▸ opd_lt _ _ _) hamax, fun x hx => ?_, fun hp x hx => ?_,
    fun hne => ?_, fun hne hp hapart j hj => ?_⟩
  · exact (hdone.outputs hlen hx).trans (by rw [hsame])
  · exact (hdone.pass_one hp x hx).trans (by rw [hsame])
  · have htail := hdone.tail 0 20 (Nat.le_refl _)
    rw [List.drop_zero, List.take_of_length_le (by rw [length_tail]), houts hne, UpdRec.tail, List.map_map,
      List.map_map] at htail
    exact htail
  · have hj' : j < (u.run (s.begun 0x21 d).2.mem.read pass l.seed.toNat step terms).length := hlen.symm ▸ hj
    have hout : (u.run (s.begun 0x21 d).2.mem.read pass l.seed.toNat step terms)[j] = out j := by
      simp only [houts hne, List.getElem_map, List.getElem_range]
    exact hout ▸ hdone.elements hp hapart hj'

/-- An UPDATE whose checks fail ends with their status (R219). -/
theorem update_fails (h : s.Still) (hgo : s.goes 0x21 d = true) {a step pass : Nat} {u : UpdRec} (ha : opd d 0x20 8 = a)
    (hstep : opd d 0x28 4 = step) (hpass : opBits d 0x2C 1 1 0 = pass) (hu : s.updRec d = u) :
    let fails (st : Nat) := exec (.update d) s = .next ((s.begun 0x21 d).2.finish (s.begun 0x21 d).1 ⟨st, 0, 0, none⟩)
    let order3 := pass = 2 → u.amaxStep = step
    (u.formatBad pass = true → fails 0x70) ∧
    (u.formatBad pass = false → u.boundsBad a pass = true ∨ ¬ order3 → fails 0x23) ∧
    (u.formatBad pass = false → u.boundsBad a pass = false → order3 → u.nonfinite pass = true → fails 0x10) := by
  obtain ⟨-, -, hdesc, -, hphase, -⟩ := s.begun_leaves 0x21 d
  have hrec : (s.begun 0x21 d).2.updRec d = u := by
    rw [← hu, State.updRec, State.updRec, State.rd, State.rd, s.begun_mem 0x21 d]
  have hstill := h.begun 0x21 d
  have hformat := startUpdate_format (l := (s.begun 0x21 d).1) hstill hphase
  have hbounds := startUpdate_bounds (l := (s.begun 0x21 d).1) hstill hphase
  have hplaced := startUpdate_placed (l := (s.begun 0x21 d).1) hstill hphase
  rw [hdesc, hrec, hpass] at hformat
  rw [hdesc, hrec, ha, hstep, hpass] at hbounds hplaced
  have hexec : exec (.update d) s = .next (startUpdate (s.begun 0x21 d).1 (s.begun 0x21 d).2) := exec_goes rfl hgo
  refine ⟨fun hf => ?_, fun hf hbad => ?_, fun hf hb ho hn => ?_⟩
  · exact hexec.trans (congrArg Host.Outcome.next (hformat hf))
  · exact hexec.trans (congrArg Host.Outcome.next (hbounds hf hbad))
  · exact hexec.trans (congrArg Host.Outcome.next ((hplaced hf hb ho).trans (if_pos hn)))

end

/-- Settles O31: an operation over good memory sees memory as a function of its writes (`State.Works`), whatever lines its
Abutments hold, and has written its ranges alone; good spans are noted without a word of the master tables found bad
(`State.noting_step`). -/
theorem abutmentsComputeInPlace : Obligations.AbutmentsComputeInPlace := by
  intro s d hcalm hwf hfree hgone
  have h : s.Still := .of_calm hcalm hwf hfree hgone
  have hdesc := (s.begun_memory 0x20 d).1
  refine ⟨fun hgo hloc => ⟨atomicMax_bad hgo hloc, atomicMax_runs h hgo hloc⟩, fun hgo hfunc => ?_, fun hgo hfunc => ?_,
    fun hgo => ?_⟩
  · have hexec := rescale_starts hgo hfunc
    refine ⟨fun hfmt => ?_, fun hfmt hp => ?_, fun hfmt hp hfin => ?_, rescale_runs h hgo hfunc rfl rfl rfl rfl rfl rfl⟩
    · exact hexec.trans (congrArg Host.Outcome.next (startRescale_format (hdesc.symm ▸ hfmt)))
    · exact hexec.trans (congrArg Host.Outcome.next (startRescale_bounds (hdesc.symm ▸ hfmt) (hdesc.symm ▸ hp)))
    · exact hexec.trans (congrArg Host.Outcome.next
        (startRescale_nonfinite (hdesc.symm ▸ hfmt) (hdesc.symm ▸ hp) (hdesc.symm ▸ hfin)))
  · have hexec := dot_starts hgo hfunc
    refine ⟨fun hf => ?_, fun hf hp => ?_, dot_runs h hgo hfunc⟩
    · exact hexec.trans (congrArg Host.Outcome.next (startDot_format (hdesc.symm ▸ hf)))
    · exact hexec.trans (congrArg Host.Outcome.next (startDot_bounds (hdesc.symm ▸ hf) (hdesc.symm ▸ hp)))
  · obtain ⟨hformat, hbounds, hnonfinite⟩ := update_fails h hgo rfl rfl rfl rfl
    exact ⟨hformat, hbounds, hnonfinite, fun hf hb ho hn hgood => update_runs h hgo rfl rfl rfl rfl hf hb ho hn hgood⟩

end Sys2Proof.Machine
end
